-- ==== Sys2Proof/Word.lean ====
section
/-! DEFINITION. The word types of the panel and the type of a sparse array. -/

namespace Sys2Proof

/-- A byte. -/
abbrev Byte := BitVec 8
/-- A 32-bit register or structure word, little-endian in memory (R5). -/
abbrev Word := BitVec 32
/-- A 64-bit register value; a 32-bit register uses the low half. -/
abbrev DWord := BitVec 64
/-- A sparse array: (index, value) pairs, indices strictly rising, no pair equal to what an unlisted index reads as. -/
abbrev SMap (α : Type) := List (Nat × α)

end Sys2Proof
end

