-- ==== Sys2Proof/Syntax.lean ====
section
/-! DEFINITION. The commands of the panel: one constructor per row of the opcode table, with what the command brings along -/

namespace Sys2Proof

/-- What a merge arrival carries beside its values (R165): context, rank, weight, home logical site, stream slot and token. -/
structure MrgArgs where
  ctx    : Nat
  rank   : Nat
  mwgt   : Nat
  home   : Nat
  stream : Nat
  token  : Nat
  deriving DecidableEq, Repr

/-- The tile that a vector, a drain or a release belongs to (R158), as its descriptor fixes it: site and comb ID, the logical
bank of the vector, the formats, the tile mode, K_valid, the channels left by the remainder mask, and where its
partial is read and its output written. -/
structure TileArgs where
  /-- physical site and comb ID -/
  site   : Nat
  comb   : Nat
  /-- logical bank -/
  bank   : Nat
  /-- 0 W2, 1 W4, 2 W8, 3 W4S -/
  wfmt   : Nat
  /-- 0 A4, 1 A8, 2 A12 -/
  afmt   : Nat
  /-- 0 CLEAR, 1 KEEP, 2 LOAD -/
  tmode  : Nat
  /-- the vector is the tile's first -/
  first  : Bool
  kvalid : Nat
  cvalid : Nat
  layer  : Nat
  tag    : Nat
  stream : Nat
  token  : Nat
  sset   : Nat
  slack  : Nat
  /-- recomputation of the previous stroke's work (R83) -/
  recomp : Bool
  /-- threshold readout (R53) with this threshold; release without an exact drain -/
  thr    : Option (BitVec 32)
  maskOnly : Bool
  /-- scratchpad offsets of the partial (LOAD), the output or pass mask, and the exact record -/
  load   : Nat
  out    : Nat
  exact  : Nat
  /-- the output is a merge arrival (R165) -/
  mrg    : Option MrgArgs
  deriving DecidableEq, Repr

/-- A step of the test of a scratchpad region (Table 08.12). -/
inductive SpadStage where
  | save | march | restore | verify
  deriving DecidableEq, Repr

/-- What one test step of a self-test slice finds (R395): a failure that did not repeat, a confirmed failure, where it lies
(row of the slot, granule of the region, or logic block and instance), and W2 and W3 of its result (Table 15.5). A step of a
scratchpad region is one of Table 08.12, over the granules of the region that it reaches. -/
structure TestStep where
  soft : Bool
  bad  : Bool
  loc  : Nat
  bit  : Nat
  w3   : Nat
  stage : SpadStage
  gran : BitVec 64
  deriving DecidableEq, Repr

/-- What happens to the memories of a site in the step of a command: scratchpad granules that turn uncorrectable, granules read with
a correctable failure and the bit that fails (R234), granules of the stack (frame, granule) that are uncorrectable after the
retry or were corrected, and reads of the stack whose retry succeeded (R187). -/
structure MemErr where
  ue  : List Nat
  ce  : List (Nat × Nat)
  hue : List (Nat × Nat)
  hce : List (Nat × Nat)
  hre : Nat
  deriving DecidableEq, Repr

/-- A further operation that reaches a seal in the same cycle (R251): the epoch it carries, its operation word and its issuer's owner
word. -/
structure SealArr where
  epoch : Nat
  word  : BitVec 64
  req   : BitVec 32
  deriving DecidableEq, Repr

/-- A frame that arrives on a waggle port (0 A, 1 B): source MAC, and the bytes from the waggle header on, without padding. -/
structure WglFrame where
  port  : Nat
  mac   : Nat
  bytes : List (BitVec 8)
  deriving DecidableEq, Repr

/-- Where the items of a per-site section lie (Table 05.7): byte offset in the library and number of entries (bytes, for the row
function programs and tables). The manual does not lay out the 32-byte entry of the section table that leads to them (log entry
64). -/
structure SectPlan where
  /-- the six descriptor streams: quadrants 0-3, KV engine, DMA engines -/
  streams : List (Nat × Nat)
  rfu     : Nat × Nat
  seals   : Nat × Nat
  masks   : Nat × Nat
  deriving DecidableEq, Repr

/-- A per-site section with its items: descriptors (Tables 06.1, 06.4), seal operation words (Table 09.3), position entries
(R290). -/
structure SiteSect where
  plan    : SectPlan
  streams : List (List (BitVec 512))
  seals   : List (BitVec 64)
  masks   : List (BitVec 32)
  deriving DecidableEq, Repr

/-- A section with no items. -/
def SiteSect.none : SiteSect := ⟨⟨[], (0, 0), (0, 0), (0, 0)⟩, [], [], []⟩

/-- A bucket entry with what its offsets lead to. -/
structure Bucket where
  /-- the 64-byte entry (Table 05.6) -/
  raw    : BitVec 512
  /-- header of the slot table (R222) -/
  slotHdr : BitVec 128
  /-- slot grants (Table 08.5), background slices (Table 15.1) -/
  grants : List (BitVec 64)
  slices : List (BitVec 128)
  /-- the sections by site rank -/
  sects  : List SiteSect
  deriving DecidableEq, Repr

/-- A ductus library: header (Table 05.5) and entries. -/
structure Library where
  hdr     : BitVec 512
  entries : List Bucket
  /-- LENGTH of its section in bytes -/
  length  : Nat
  deriving DecidableEq, Repr

/-! ### Pair frames (R419, R420) -/

/-- A pair frame that arrives: the lane-group that brings it, the bytes of its header (Table 16.1), the number of payload granules
that follow, and whether the CRC-32 of its trailer is the one over header and payload (R419). What the payload says is an operand
of its command. -/
structure PairHdr where
  lane    : Nat
  bytes   : List (BitVec 8)
  payload : Nat
  crcOk   : Bool
  deriving DecidableEq, Repr

/-- Payload of HELLO: GLB_ID.PART and IFLEVEL, MODE, ROLE, SERVE, AUTO_REJOIN, SEC_MEAS, the configured partitions as
(number, NSITE, SEC_PMEAS), and the partitions that hold streams, bit n. -/
structure HelloArg where
  id    : Nat
  level : Nat
  mode  : Nat
  role  : Nat
  serve : Nat
  auto  : Bool
  meas  : Nat
  parts : List (Nat × Nat × Nat)
  live  : Nat
  deriving DecidableEq, Repr

/-- A placement that INGEST carries: stream, stream slot, whether it is a prefill chunk, its positions and its tokens. -/
structure PlacedArg where
  stream  : Nat
  slot    : Nat
  prefill : Bool
  pos     : List Nat
  tokens  : List Nat
  deriving DecidableEq, Repr

/-- Payload of INGEST (R429): the entry index, the demand and whether some was deferred, the placements, and the submission
entries admitted, in order, each with its queue pair. -/
structure IngestArg where
  entry  : Option Nat
  demD   : Nat
  demP   : Nat
  short  : Bool
  placed : List PlacedArg
  subs   : List (Nat × BitVec 512)
  deriving DecidableEq, Repr

/-- Payload of END (R433): the withheld stream slots, (slot, H) of the live ones, UPD_CNT and UPD_READY. -/
structure EndArg where
  wheld  : List Nat
  hashes : List (Nat × Nat)
  updCnt : Nat
  updOk  : Bool
  deriving DecidableEq, Repr

/-- Payload of DELTA (R438): stream-table entries as the words of Table 10.7, records (stream, layer, position, bytes as one
little-endian number), and prompt tokens (stream, position, token). -/
structure DeltaArg where
  entries : List (Nat × List Nat)
  records : List (Nat × Nat × Nat × Nat)
  prompt  : List (Nat × Nat × Nat)
  deriving DecidableEq, Repr

/-- An item of RESYNC (Table 16.5). Sites are logical. -/
inductive SyncItem where
  /-- stream-table entry: stream and the words of Table 10.7 -/
  | stream (i : Nat) (words : List Nat)
  /-- frame-table entry: site, frame, STATE, CESTR and REFCNT -/
  | frame (site f st cestr refcnt : Nat)
  /-- directory entry of the current generation: site, index, TAINT, CAPC, NPG and LEAF -/
  | dir (site i : Nat) (taint : Bool) (capc npg leaf : Nat)
  /-- leaf entry: site, index, SHR and FRAME -/
  | leaf (site i : Nat) (shr : Bool) (f : Nat)
  /-- a granule of a data frame -/
  | data (site f g : Nat) (v : BitVec 512)
  /-- state of a scale set (Table 03.4): site, comb ID, set, words 1 to 5, head, count and RING -/
  | scale (site comb set : Nat) (words : List (BitVec 32)) (flags head nvalid : Nat) (ring : List (BitVec 32))
  /-- a row of a bank rewritten since load: site, comb ID, bank, row, weights and metadata -/
  | row (site comb bank r : Nat) (w : BitVec 256) (m : BitVec 128)
  /-- COUNT of a COUNTER seal: site, index -/
  | seal (site i count : Nat)
  deriving DecidableEq, Repr

/-! ### Ticks, recordings -/

/-- What the panel measures at a tick edge: the instant of the first edge (used for tick 0 only, R116), the energy metered in the
period in µJ, mean input voltage in mV and power in W (R466), and of the stacks their temperatures and the on-die ECC's
error-severity reports (site, °C, reports) (R185, R186). -/
structure EdgeArg where
  first : Nat
  em    : Nat
  volt  : Nat
  watt  : Nat
  hbm   : List (Nat × Nat × Nat)
  deriving DecidableEq, Repr

/-- A record entry as read back from a ring (Table 17.2): KIND, stroke, whether its PCRC agrees, units it occupies, and its payload
words. -/
structure RecEntry where
  kind   : Nat
  stroke : Nat
  crcOk  : Bool
  units  : Nat
  words  : List Nat
  deriving DecidableEq, Repr

/-- The commands and events of the panel. Each constructor stands for the row of the opcode table named in its comment. -/
inductive Instr where
  /-- REGISTER_WRITE, R7 -/
  | registerWrite (fn port a len : Nat) (v : BitVec 64) (t : Nat)
  /-- GLB_CFG_LOCK, R9 -/
  | glbCfgLock (w : BitVec 32)
  /-- REFUSED_ACCESS, R6 -/
  | refusedAccess (fn port a len : Nat) (write : Bool) (v : BitVec 64) (t : Nat)
  /-- HIGH_HALF_LATCH_EXPIRY, R6 -/
  | highHalfLatchExpiry (t : Nat)
  /-- TICK_EDGE, R130 -/
  | tickEdge (a : EdgeArg)
  /-- TICK_IN_EDGE, R475 -/
  | tickInEdge (high t : Nat)
  /-- INGEST_ADMISSION, R127 -/
  | ingestAdmission (n : Nat) (es : List (Nat × Option (BitVec 512))) (t : Nat)
  /-- DEMAND_FORMATION, R135 -/
  | demandFormation (fetch : List (Nat × Option (List Nat))) (t : Nat)
  /-- RUN_OPEN, R143 -/
  | runOpen (t : Nat)
  /-- EMIT_OPEN, R129 -/
  | emitOpen (n t : Nat)
  /-- GUARD_START, R146 -/
  | guardStart (t : Nat)
  /-- SITE_END_MARKER, R144 -/
  | siteEndMarker (site t : Nat)
  /-- DESCRIPTOR_FETCH, R151 -/
  | descriptorFetch (site stream : Nat)
  /-- DESCRIPTOR_ISSUE, R150 -/
  | descriptorIssue (site stream t : Nat)
  /-- NOP, R154 -/
  | nop (site stream : Nat)
  /-- MATMUL, R164 -/
  | matmul (site stream : Nat) (e : MemErr)
  /-- MATMUL_FUSED, R176 -/
  | matmulFused (site stream : Nat) (e : MemErr)
  /-- THRESHOLD, R166 -/
  | threshold (site stream : Nat) (e : MemErr)
  /-- ROWFN, R178 -/
  | rowfn (site stream : Nat) (e : MemErr)
  /-- GATHER, R171 -/
  | gather (site : Nat) (e : MemErr)
  /-- SCATTER, R172 -/
  | scatter (site : Nat) (e : MemErr)
  /-- COPY, R169 -/
  | copy (site : Nat) (e : MemErr)
  /-- KV_APPEND, R200 -/
  | kvAppend (site : Nat) (e : MemErr)
  /-- KV_ATTEND, R201 -/
  | kvAttend (site : Nat) (e : MemErr)
  /-- KV_SAMPLE, R211 -/
  | kvSample (site : Nat) (e : MemErr)
  /-- DESCRIPTOR_SIGNAL, R152 -/
  | descriptorSignal (site stream : Nat)
  /-- VECTOR_CONSUME, R37 -/
  | vectorConsume (a : TileArgs) (hdr : BitVec 256) (planes : List (BitVec 512)) (late delayed : Bool)
  /-- TILE_FILL_END, R38 -/
  | tileFillEnd (a : TileArgs)
  /-- DRAIN_COMPLETE, R39 -/
  | drainComplete (a : TileArgs)
  /-- FALLBACK_COMPLETE, R80 -/
  | fallbackComplete (a : TileArgs)
  /-- EXACT_DRAIN_COMPLETE, R54 -/
  | exactDrainComplete (a : TileArgs)
  /-- INGRESS_BLOCK, R65 -/
  | ingressBlock (site slot chan0 comb layer tag : Nat) (hdr : BitVec 256) (late : Bool) (xs : List (BitVec 16))
  /-- SPACE1_WRITE, R27 -/
  | space1Write (part master mode : Nat) (addr : BitVec 48) (len : Nat) (data : BitVec 512)
  /-- BANK_HEADER_CHECK_COMPLETE, R29 -/
  | bankHeaderCheckComplete (site comb bank : Nat) (shadow : Bool)
  /-- SHADOW_OPEN, R56 -/
  | shadowOpen (site comb bank : Nat)
  /-- SHADOW_ARM, R56 -/
  | shadowArm (site comb bank : Nat)
  /-- SHADOW_CANCEL, R56 -/
  | shadowCancel (site comb bank : Nat)
  /-- SHADOW_CMD_INVALID, R58 -/
  | shadowCmdInvalid (site : Nat) (w : BitVec 32)
  /-- RQ_COMMIT, R73 -/
  | rqCommit (site comb set : Nat)
  /-- RQ_CANCEL, R73 -/
  | rqCancel (site comb set : Nat)
  /-- RQ_STAGE_CMD_INVALID, R73 -/
  | rqStageCmdInvalid (site : Nat) (w : BitVec 32)
  /-- STAGING_WRITE, R73 -/
  | stagingWrite (site comb w : Nat) (v : BitVec 32)
  /-- CONFIG_RECORD_WRITE, R380 -/
  | configRecordWrite (n lsite table first : Nat) (entries : List (List (BitVec 32)))
  /-- PACK_ENTRY, R94 -/
  | packEntry (site : Nat) (entry : BitVec 256)
  /-- PACK_TILE_COMPLETE, R100 -/
  | packTileComplete (site : Nat) (rows : List (BitVec 256)) (zp : List (BitVec 8))
  /-- MERGE_ARRIVAL, R110 -/
  | mergeArrival (site : Nat) (hdr : BitVec 256) (payload : List (BitVec 32)) (late : Bool)
  /-- MERGE_RESULT_WRITE, R111 -/
  | mergeResultWrite (site mctx : Nat)
  /-- PWRITE_LAND, R227 -/
  | pwriteLand (site : Nat) (hdr : BitVec 128) (payload : List (BitVec 512)) (badFirst bad : Bool)
  /-- READ_REQ, R227 -/
  | readReq (site : Nat) (hdr : BitVec 128) (e : MemErr)
  /-- READ_CPL, R231 -/
  | readCpl (site : Nat) (hdr : BitVec 128) (payload : List (BitVec 512))
  /-- LAND_ACK, R229 -/
  | landAck (site : Nat) (hdr : BitVec 128)
  /-- LATE_ERR, R231 -/
  | lateErr (site : Nat) (hdr : BitVec 128)
  /-- FENCE_TIMEOUT, R229 -/
  | fenceTimeout (site dst kind seq t : Nat)
  /-- NO_SLOT, R221 -/
  | noSlot (site dst kind seq t : Nat)
  /-- LINK_REPLAY, R217 -/
  | linkReplay (site port far : Nat) (first : Bool)
  /-- SITE_CORE_ACCESS, R239 -/
  | siteCoreAccess (site core part : Nat) (write : Bool) (addr : BitVec 48) (len : Nat) (data : BitVec 512) (e : MemErr)
  /-- SEAL_NOP, R250 -/
  | sealNop (word : BitVec 64) (req : BitVec 32)
  /-- SEAL_SIGNAL, R250 -/
  | sealSignal (sl epoch : Nat) (word : BitVec 64) (req : BitVec 32) (same : List SealArr) (t : Nat)
  /-- SEAL_WAIT, R250 -/
  | sealWait (sl epoch : Nat) (word : BitVec 64) (req : BitVec 32) (same : List SealArr) (t : Nat)
  /-- SEAL_ACQUIRE, R262 -/
  | sealAcquire (sl epoch : Nat) (word : BitVec 64) (req : BitVec 32) (same : List SealArr) (t : Nat)
  /-- SEAL_RELEASE, R250 -/
  | sealRelease (sl epoch : Nat) (word : BitVec 64) (req : BitVec 32) (same : List SealArr) (t : Nat)
  /-- ARM_BARRIER, R250 -/
  | armBarrier (sl epoch : Nat) (word : BitVec 64) (req : BitVec 32) (same : List SealArr) (t : Nat)
  /-- SEAL_READ, R250 -/
  | sealRead (sl epoch : Nat) (word : BitVec 64) (req : BitVec 32) (same : List SealArr) (t : Nat)
  /-- SEAL_WAKE, R258 -/
  | sealWake (site sl count : Nat)
  /-- SEAL_GRANT, R262 -/
  | sealGrant (req : BitVec 32) (status : Nat)
  /-- SEAL_ACK, R255 -/
  | sealAck (req : BitVec 32) (result : BitVec 32) (status : Nat)
  /-- BARRIER_WAVE_TIME, R261 -/
  | barrierWaveTime (req : BitVec 32) (t : Nat)
  /-- SEAL_IMPORT_FORWARD, R256 -/
  | sealImportForward (word : BitVec 64) (req : BitVec 32)
  /-- SEAL_RESULT_LOAD, R254 -/
  | sealResultLoad (site core : Nat)
  /-- SEAL_INSP_READ, R267 -/
  | sealInspRead
  /-- PART_CONFIGURE, R273 -/
  | partConfigure (n : Nat) (cfg : Option (BitVec 1024))
  /-- PART_RELEASE, R273 -/
  | partRelease (n : Nat)
  /-- PART_RESET, R273 -/
  | partReset (n : Nat)
  /-- PART_CMD_INVALID, R273 -/
  | partCmdInvalid (w : BitVec 32)
  /-- QUE_CFG_WRITE, R275 -/
  | queCfgWrite (port vf q : Nat) (sq : Bool) (w : BitVec 32)
  /-- QUE_BASE_WRITE, R275 -/
  | queBaseWrite (port vf q : Nat) (sq : Bool) (half : Nat) (v : BitVec 64)
  /-- SQ_TAIL_DOORBELL, R276 -/
  | sqTailDoorbell (port vf q : Nat) (w : BitVec 32) (t : Nat)
  /-- CQ_HEAD_DOORBELL, R276 -/
  | cqHeadDoorbell (port vf q : Nat) (w : BitVec 32) (t : Nat)
  /-- MSIX_UNMASK, R268 -/
  | msixUnmask (port fn : Nat) (vec : Option Nat) (enable mask : Bool)
  /-- FLR, R271 -/
  | flr (port vf : Nat)
  /-- PORT_DOWN, R271 -/
  | portDown (port cause t : Nat)
  /-- OPEN, R279 -/
  | openStream (n q : Nat) (e : BitVec 512)
  /-- APPEND, R287 -/
  | append (n q : Nat) (e : BitVec 512)
  /-- GENERATE, R284 -/
  | generate (n q : Nat) (e : BitVec 512)
  /-- FORK, R205 -/
  | fork (n q : Nat) (e : BitVec 512)
  /-- PARK, R206 -/
  | park (n q : Nat) (e : BitVec 512)
  /-- RESUME, R208 -/
  | resume (n q : Nat) (e : BitVec 512)
  /-- CLOSE, R286 -/
  | close (n q : Nat) (e : BitVec 512)
  /-- FORK_COMPLETE, R205 -/
  | forkComplete (i : Nat)
  /-- PARK_COMPLETE, R206 -/
  | parkComplete (i : Nat) (failed : Option Nat)
  /-- RESUME_COMPLETE, R208 -/
  | resumeComplete (i port : Nat) (image : Option (List (BitVec 32) × List (List (BitVec 512))))
  /-- STREAM_DRAIN_COMPLETE, R286 -/
  | streamDrainComplete (i : Nat)
  /-- STRM_INSP_READ, R296 -/
  | strmInspRead
  /-- COMPACTION_START, R196 -/
  | compactionStart (site : Nat)
  /-- COMPACTION_COMPLETE, R197 -/
  | compactionComplete (site : Nat)
  /-- POWER_WINDOW, R300 -/
  | powerWindow (ws : List (Nat × List Nat × Nat)) (t : Nat)
  /-- CALIBRATION, R301 -/
  | calibration (check : Option Nat) (t : Nat)
  /-- PWR_GRANT_LOST, R303 -/
  | pwrGrantLost
  /-- DROOP_EVENT, R310 -/
  | droopEvent (p quads t : Nat)
  /-- DROOP_RESTORE, R310 -/
  | droopRestore (p t : Nat)
  /-- THERMAL_TRIP, R312 -/
  | thermalTrip (p sensor tj t : Nat)
  /-- TRIP_CLR, R312 -/
  | tripClr (hot : Nat)
  /-- PWR_SITE_DATA_READ, R321 -/
  | pwrSiteDataRead
  /-- COOLANT_SENSOR_SAMPLE, R322 -/
  | coolantSensorSample (vs : List (Option Int)) (t : Nat)
  /-- COOLANT_LOOP_RUN, R326 -/
  | coolantLoopRun (pulses enc t : Nat)
  /-- VALVE_SOFTSTART_DONE, R324 -/
  | valveSoftstartDone (enc : Nat)
  /-- VALVE_SHORT, R325 -/
  | valveShort (enc : Nat)
  /-- VALVE_STALL, R325 -/
  | valveStall (enc : Nat)
  /-- VALVE_CLR, R325 -/
  | valveClr
  /-- LOOP_DISABLE, R324 -/
  | loopDisable
  /-- DOM_ON, R334 -/
  | domOn (d : Nat)
  /-- DOM_OFF, R334 -/
  | domOff (d : Nat)
  /-- DOM_CLEAR, R338 -/
  | domClear (d : Nat)
  /-- DOM_CMD_INVALID, R340 -/
  | domCmdInvalid (w : BitVec 32)
  /-- DOM_DATA_READ, R340 -/
  | domDataRead
  /-- SOFTSTART_COMPLETE, R335 -/
  | softstartComplete (d t : Nat)
  /-- SOFTSTART_WINDOW_EXPIRY, R338 -/
  | softstartWindowExpiry (d t : Nat)
  /-- DOM_SHORT, R336 -/
  | domShort (d cur t : Nat)
  /-- DOM_INRUSH_HOLD, R337 -/
  | domInrushHold (p by' t : Nat)
  /-- SAG_RECOVERY, R337 -/
  | sagRecovery (p t : Nat)
  /-- WGL_READ, R351 -/
  | wglRead (fr : WglFrame) (leaves : Bool) (t : Nat)
  /-- WGL_READ_MULTI, R351 -/
  | wglReadMulti (fr : WglFrame) (leaves : Bool) (t : Nat)
  /-- WGL_WRITE, R352 -/
  | wglWrite (fr : WglFrame) (leaves : Bool) (t : Nat)
  /-- WGL_GRANT, R353 -/
  | wglGrant (fr : WglFrame) (leaves : Bool) (t : Nat)
  /-- WGL_HEARTBEAT, R354 -/
  | wglHeartbeat (fr : WglFrame) (leaves : Bool) (t : Nat)
  /-- WGL_FORWARD, R342 -/
  | wglForward (port src dst : Nat) (body : List (BitVec 8)) (fcsOk gptp : Bool) (t : Nat)
  /-- HEARTBEAT_SEND, R354 -/
  | heartbeatSend (t : Nat)
  /-- NOTIFY_SEND, R355 -/
  | notifySend
  /-- WGL_ANSWER_LATE, R357 -/
  | wglAnswerLate (msg port seq t : Nat)
  /-- STANDARD_ANSWER, R357 -/
  | standardAnswer (late : Bool) (t : Nat)
  /-- WGL_PORT_CHANGE, R341 -/
  | wglPortChange (port st : Nat)
  /-- GPTP_SYNC, R345 -/
  | gptpSync (ofs : Int) (capable : Bool) (t : Nat)
  /-- WGL_TIME_LOST, R345 -/
  | wglTimeLost (reason t : Nat)
  /-- MAILBOX_GO, R364 -/
  | mailboxGo (w : BitVec 32) (t : Nat)
  /-- MAILBOX_DONE, R364 -/
  | mailboxDone (t : Nat)
  /-- POWER_GOOD, R465 -/
  | powerGood (t : Nat)
  /-- RESET_PIN, R478 -/
  | resetPin (t : Nat)
  /-- RESET_RELEASE, R478 -/
  | resetRelease
  /-- PANEL_RESET, R368 -/
  | panelReset (port : Nat)
  /-- ROM_INIT_COMPLETE, R369 -/
  | romInitComplete (ports hubs t : Nat)
  /-- HBM_TRAINING_COMPLETE, R369 -/
  | hbmTrainingComplete (p : Nat) (fail : Option Nat) (t : Nat)
  /-- IFLEVEL_REQUEST, R371 -/
  | iflevelRequest (req port : Nat)
  /-- LOAD_BOOT, R373 -/
  | loadBoot (port : Nat)
  /-- LOAD_PART, R382 -/
  | loadPart (n port : Nat)
  /-- TAP_ENABLE, R387 -/
  | tapEnable (port t : Nat)
  /-- LC_ADVANCE, R385 -/
  | lcAdvance (target port t : Nat)
  /-- SEC_BOOT_CMD_INVALID, R389 -/
  | secBootCmdInvalid (w : BitVec 32) (port : Nat)
  /-- IMAGE_HEADER_RECEIVED, R376 -/
  | imageHeaderReceived (hdr : Option (List (BitVec 32))) (port t : Nat)
  /-- SECTION_RECEIVED, R376 -/
  | sectionReceived (i : Nat) (bytes : Option (List (BitVec 8))) (plans : List (List SectPlan)) (port t : Nat)
  /-- BOOT_READY, R381 -/
  | bootReady (t : Nat)
  /-- PART_LOAD_COMPLETE, R382 -/
  | partLoadComplete (n : Nat) (measured : Nat) (ms t : Nat)
  /-- SECRETS_CLEARED, R386 -/
  | secretsCleared (ms t : Nat)
  /-- SELF_TEST_SLICE, R391 -/
  | selfTestSlice (p unit len : Nat) (steps : List TestStep) (leaves : Bool) (t : Nat)
  /-- SELF_TEST_YIELD, R394 -/
  | selfTestYield (p q : Nat)
  /-- ANALOG_CHECK, R399 -/
  | analogCheck (order site inst : Nat) (pass : Bool) (err : BitVec 32) (aux : Nat)
  /-- HUB_LOST, R405 -/
  | hubLost (h cause d t : Nat)
  /-- AGEING_UPDATE, R407 -/
  | ageingUpdate (hours therm valve : Nat) (sites : List (Nat × Nat × Nat)) (mons : List (Nat × Nat × Nat × Nat))
  /-- JOURNAL_WRITE, R411 -/
  | journalWrite (bad : Bool)
  /-- JOURNAL_COPY, R411 -/
  | journalCopy (bad : Bool)
  /-- CLEAR_LOST, R413 -/
  | clearLost (w : BitVec 32)
  /-- JOURNAL_RECOVERY_COMPLETE, R413 -/
  | journalRecoveryComplete (passA passB : Bool)
  /-- FLT_JRNL_DATA_READ, R416 -/
  | fltJrnlDataRead (stby ueA ueB : Bool)
  /-- BIST_SITE_DATA_READ, R416 -/
  | bistSiteDataRead
  /-- PAIR_HELLO, R424 -/
  | pairHello (h : PairHdr) (b : HelloArg) (t : Nat)
  /-- PAIR_HEARTBEAT, R425 -/
  | pairHeartbeat (h : PairHdr) (role : Nat) (quads : List Nat) (skew : Int) (t : Nat)
  /-- PAIR_PARTNER_DEAD, R425 -/
  | pairPartnerDead (t : Nat)
  /-- PAIR_INGEST, R429 -/
  | pairIngest (h : PairHdr) (a : IngestArg) (t : Nat)
  /-- INGEST_WAIT, R429 -/
  | ingestWait (n t : Nat)
  /-- PAIR_PACE, R430 -/
  | pairPace (h : PairHdr) (entry : Nat) (hold : Bool) (t : Nat)
  /-- PACE_TIMEOUT, R430 -/
  | paceTimeout (n t : Nat)
  /-- PAIR_END, R434 -/
  | pairEnd (h : PairHdr) (a : EndArg) (t : Nat)
  /-- PAIR_DELTA, R438 -/
  | pairDelta (h : PairHdr) (a : DeltaArg) (t : Nat)
  /-- PAIR_DELTA_ACK, R431 -/
  | pairDeltaAck (h : PairHdr) (refused : List Nat) (t : Nat)
  /-- CONTROL_RESET, R432 -/
  | controlReset (h : PairHdr) (t : Nat)
  /-- CONTROL_QUARANTINE, R426 -/
  | controlQuarantine (h : PairHdr) (t : Nat)
  /-- CONTROL_LEAVE, R442 -/
  | controlLeave (h : PairHdr) (t : Nat)
  /-- CONTROL_UPDATE, R435 -/
  | controlUpdate (h : PairHdr) (banks sets : List (Nat × Nat)) (t : Nat)
  /-- PAIR_RESYNC, R440 -/
  | pairResync (h : PairHdr) (phase : Nat) (items : List SyncItem) (t : Nat)
  /-- PAIR_RESYNC_DONE, R440 -/
  | pairResyncDone (h : PairHdr) (strokes : List (Nat × Nat)) (t : Nat)
  /-- PAIR_NAK, R421 -/
  | pairNak (h : PairHdr) (seq t : Nat)
  /-- PAIR_VECTOR, R420 -/
  | pairVector (h : PairHdr) (v : BitVec 256) (planes : List Nat) (len t : Nat)
  /-- PAIR_REPLAY_TIMEOUT, R421 -/
  | pairReplayTimeout (lane t : Nat)
  /-- PAIR_LANE_DOWN, R418 -/
  | pairLaneDown (lane cause t : Nat)
  /-- PAIR_LANE_UP, R418 -/
  | pairLaneUp (lane t : Nat)
  /-- PAIR_REJOIN, R424 -/
  | pairRejoin (w : BitVec 32) (t : Nat)
  /-- PAIR_LEAVE, R442 -/
  | pairLeave (w : BitVec 32) (t : Nat)
  /-- PAIR_CTL_WRITE, R442 -/
  | pairCtlWrite (w : BitVec 32) (t : Nat)
  /-- RECORD_START, R453 -/
  | recordStart (n : Nat) (w : BitVec 32)
  /-- REPLAY_START, R457 -/
  | replayStart (n : Nat) (w : BitVec 32)
  /-- RECORD_STOP, R453 -/
  | recordStop (n : Nat) (w : BitVec 32)
  /-- REPLAY_STROKE, R454 -/
  | replayStroke (n : Nat) (es : List RecEntry) (t : Nat)
  /-- RPL_HEAD_WRITE, R452 -/
  | rplHeadWrite (n : Nat) (w : BitVec 32)
  /-- RPL_TAIL_WRITE, R454 -/
  | rplTailWrite (n : Nat) (w : BitVec 32)
  /-- BYPASS, R458 -/
  | bypass (ir : BitVec 8)
  /-- IDCODE, R458 -/
  | idcode
  /-- SAMPLE_PRELOAD, R458 -/
  | samplePreload (pins : Nat) (load : Option Nat)
  /-- EXTEST, R458 -/
  | extest
  /-- CLAMP, R458 -/
  | clamp
  /-- HIGHZ, R458 -/
  | highz
  /-- DEBUG, R459 -/
  | debug (core : Nat) (halt : Bool) (t : Nat)
  /-- MEM, R459 -/
  | mem (write : Bool) (addr : BitVec 48) (len : Nat) (data : BitVec 512) (e : MemErr) (t : Nat)
  /-- SCAN, R459 -/
  | scan (hubs : Nat)
  /-- UART_RX, R459 -/
  | uartRx (b : BitVec 8)
  /-- INPUT_POWER_FAIL, R467 -/
  | inputPowerFail (cause v w t : Nat)
  /-- HOLDUP_EXPIRY, R468 -/
  | holdupExpiry (t : Nat)
  /-- CHARGE_TIMEOUT, R465 -/
  | chargeTimeout (t : Nat)
  /-- CHARGE_RETRY, R465 -/
  | chargeRetry (t : Nat)
  /-- INPUT_CHARGE_START, R465 -/
  | inputChargeStart (t : Nat)
  /-- STANDBY_RAIL_LOSS, R470 -/
  | standbyRailLoss (t : Nat)
  /-- PCIE_LINK_UP, R373 -/
  | pcieLinkUp (port t : Nat)
  /-- LAND_ACK_GATHER_EXPIRY, R227 -/
  | landAckGatherExpiry (site src vc t : Nat)
  /-- LIFECYCLE_FUSES_PROGRAMMED, R385 -/
  | lifecycleFusesProgrammed (t : Nat)
  deriving DecidableEq, Repr

end Sys2Proof
end

