-- ==== Sys2Proof/Decode.lean ====
section
/-! DEFINITION. Commands from words. No row of the command table gives bits, so no word spells a command. -/

namespace Sys2Proof

/-- The command that a word of `nbits` bits spells by the table's bits: none, for the table gives no row any bits. -/
def decodeTableWord (_nbits _w : Nat) : Option Instr := none

end Sys2Proof
end

