-- ==== Sys2Proof/Machine/Bits.lean ====
section
/-! DEFINITION. Bit fields of words, signed readings, clamping and a few integer helpers. -/

namespace Sys2Proof.Machine

/-- Field of `n` bits whose lowest bit is `lo`. -/
def bits (x lo n : Nat) : Nat := x / 2 ^ lo % 2 ^ n

/-- One bit as a Bool. -/
def bit (x i : Nat) : Bool := x / 2 ^ i % 2 == 1

/-- Replace the field of `n` bits at `lo` of `x` by the low `n` bits of `v`. -/
def setBits (x lo n v : Nat) : Nat :=
  x - bits x lo n * 2 ^ lo + v % 2 ^ n * 2 ^ lo

/-- The value 0 or 1 of a Bool. -/
def b2n (b : Bool) : Nat := if b then 1 else 0

/-- Two's complement reading of the low `n` bits of `x`. -/
def signed (n x : Nat) : Int :=
  let y := x % 2 ^ n
  if y < 2 ^ (n - 1) then (y : Int) else (y : Int) - (2 ^ n : Nat)

/-- Two's complement encoding in `n` bits. -/
def unsigned (n : Nat) (i : Int) : Nat := (i % ((2 ^ n : Nat) : Int)).toNat

/-- Clamp into `lo`..`hi`. -/
def clampN (lo hi x : Nat) : Nat := max lo (min hi x)
/-- Clamp into `lo`..`hi`. -/
def clampI (lo hi x : Int) : Int := max lo (min hi x)

/-- Division rounded up. -/
def ceilDiv (a b : Nat) : Nat := (a + b - 1) / b

/-- Field of `n` bits at bit `lo` of word `w` of a structure of 32-bit words (R5). -/
def wf (x w lo n : Nat) : Nat := bits x (32 * w + lo) n

/-- Number of set bits below bit `n`. -/
def popCount : Nat → Nat → Nat
  | 0, _ => 0
  | n + 1, x => x % 2 + popCount n (x / 2)

/-- The indices below `n` of the set bits, in ascending order. -/
def setBitsOf (n x : Nat) : List Nat := (List.range n).filter (fun i => bit x i)

/-- Set bit `i`. -/
def orBit (x i : Nat) : Nat := setBits x i 1 1
/-- Clear bit `i`. -/
def clrBit (x i : Nat) : Nat := setBits x i 1 0

/-- Bitwise and of `x` with the complement of `y` within `n` bits. -/
def andNot (n x y : Nat) : Nat := x &&& ((2 ^ n - 1) ^^^ (y % 2 ^ n))

/-- Number of bits needed for `x`. -/
def bitLen (x : Nat) : Nat := if x = 0 then 0 else Nat.log2 x + 1

end Sys2Proof.Machine
end

