-- ==== Sys2Proof/Machine/Float.lean ====
section
/-! DEFINITION. BF16 and binary32 arithmetic (R61, R62): every operation is exact on rationals and then rounded to the
nearest representable value, ties to even, with subnormals flushed to zero of the same sign. A real value is carried as a
numerator and a positive denominator. -/

namespace Sys2Proof.Machine

/-- An exact rational value: numerator and positive denominator. -/
structure Q where
  n : Int
  d : Nat
  deriving DecidableEq, Repr

def Q.ofInt (i : Int) : Q := ⟨i, 1⟩
def Q.add (a b : Q) : Q := ⟨a.n * b.d + b.n * a.d, a.d * b.d⟩
def Q.sub (a b : Q) : Q := ⟨a.n * b.d - b.n * a.d, a.d * b.d⟩
def Q.mul (a b : Q) : Q := ⟨a.n * b.n, a.d * b.d⟩
def Q.neg (a : Q) : Q := ⟨-a.n, a.d⟩
/-- a / b; 0 when b is 0 (no caller divides by 0). -/
def Q.div (a b : Q) : Q :=
  if b.n = 0 then ⟨0, 1⟩ else if b.n > 0 then ⟨a.n * b.d, a.d * b.n.natAbs⟩ else ⟨-(a.n * b.d), a.d * b.n.natAbs⟩
def Q.le (a b : Q) : Bool := decide (a.n * b.d ≤ b.n * a.d)
def Q.lt (a b : Q) : Bool := decide (a.n * b.d < b.n * a.d)
def Q.abs (a : Q) : Q := ⟨a.n.natAbs, a.d⟩
/-- 2 to the power `e`. -/
def Q.pow2 (e : Int) : Q := if 0 ≤ e then ⟨((2 ^ e.toNat : Nat) : Int), 1⟩ else ⟨1, 2 ^ (-e).toNat⟩

/-- `a / b` rounded to the nearest natural number, ties to even (R61). -/
def roundNat (a b : Nat) : Nat :=
  let q := a / b
  let r := a % b
  if 2 * r < b then q else if b < 2 * r then q + 1 else if q % 2 = 0 then q else q + 1

/-- Nearest integer, ties to even (R61). -/
def roundQ (x : Q) : Int :=
  let m := roundNat x.n.natAbs x.d
  if x.n < 0 then -(m : Int) else m

/-- ⌊log2(a / b)⌋ for positive a, b. -/
def ilog2 (a b : Nat) : Int :=
  let g : Int := (Nat.log2 a : Int) - (Nat.log2 b : Int)
  let ge : Bool := if 0 ≤ g then decide (b * 2 ^ g.toNat ≤ a) else decide (b ≤ a * 2 ^ (-g).toNat)
  if ge then g else g - 1

/-- Round positive a/b to `p` significant bits with unbounded exponent: significand and exponent of its lowest bit.
`up` rounds toward +infinity in place of nearest. -/
def roundSig (p : Nat) (up : Bool) (a b : Nat) : Nat × Int :=
  let e := ilog2 a b - (p - 1 : Nat)
  let num := if 0 ≤ e then a else a * 2 ^ (-e).toNat
  let den := if 0 ≤ e then b * 2 ^ e.toNat else b
  let m := if up then ceilDiv num den else roundNat num den
  if m = 2 ^ p then (2 ^ (p - 1), e + 1) else (m, e)

/-- Encode in a format of `p` significand bits (24 or 8) whose fraction sits below an 8-bit exponent. A magnitude below
2^-126 after rounding is zero of its sign; one above the largest finite value is the largest finite value. -/
def encodeF (p : Nat) (up : Bool) (neg : Bool) (a b : Nat) : Nat :=
  let s := if neg then 2 ^ (p + 7) else 0
  if a = 0 then s
  else
    let (m, e) := roundSig p up a b
    let ex := e + (p - 1 : Nat)
    if ex < -126 then s
    else if ex > 127 then s + (255 * 2 ^ (p - 1) - 1)
    else s + (ex + 127).toNat * 2 ^ (p - 1) + (m - 2 ^ (p - 1))

/-- A rational rounded to binary32; zero takes sign `zneg`. -/
def rnd32z (zneg : Bool) (x : Q) : BitVec 32 :=
  BitVec.ofNat 32 (encodeF 24 false (if x.n = 0 then zneg else decide (x.n < 0)) x.n.natAbs x.d)
/-- A rational rounded to binary32 (R61, R62). -/
def rnd32 (x : Q) : BitVec 32 := rnd32z false x
/-- A non-negative rational rounded toward +infinity to binary32 (R74). -/
def rnd32up (x : Q) : BitVec 32 := BitVec.ofNat 32 (encodeF 24 true (decide (x.n < 0)) x.n.natAbs x.d)
/-- A rational rounded to BF16. -/
def rndBf (x : Q) : BitVec 16 := BitVec.ofNat 16 (encodeF 8 false (decide (x.n < 0)) x.n.natAbs x.d)

/-- Value of a finite pattern of a format with `p` significand bits; subnormals read as zero. -/
def decodeF (p : Nat) (x : Nat) : Q :=
  let f := x % 2 ^ (p - 1)
  let e := x / 2 ^ (p - 1) % 256
  let neg := x / 2 ^ (p + 7) % 2 = 1
  if e = 0 then ⟨0, 1⟩
  else
    let m : Int := (2 ^ (p - 1) + f : Nat)
    Q.mul ⟨if neg then -m else m, 1⟩ (Q.pow2 ((e : Int) - 127 - (p - 1 : Nat)))

/-- Value of a binary32 pattern. -/
def val32 (x : BitVec 32) : Q := decodeF 24 x.toNat
/-- Value of a BF16 pattern. -/
def valBf (x : BitVec 16) : Q := decodeF 8 x.toNat
/-- Infinity or NaN. -/
def nonFinite32 (x : BitVec 32) : Bool := bits x.toNat 23 8 == 255
def nonFiniteBf (x : BitVec 16) : Bool := bits x.toNat 7 8 == 255

/-- Sum, difference, product and quotient of binary32 patterns, each rounded to binary32. -/
def add32 (a b : BitVec 32) : BitVec 32 :=
  rnd32z (bit a.toNat 31 && bit b.toNat 31) ((val32 a).add (val32 b))
def sub32 (a b : BitVec 32) : BitVec 32 :=
  rnd32z (bit a.toNat 31 && !bit b.toNat 31) ((val32 a).sub (val32 b))
def mul32 (a b : BitVec 32) : BitVec 32 :=
  rnd32z (bit a.toNat 31 != bit b.toNat 31) ((val32 a).mul (val32 b))
def div32 (a b : BitVec 32) : BitVec 32 := rnd32 ((val32 a).div (val32 b))
def le32 (a b : BitVec 32) : Bool := (val32 a).le (val32 b)
def lt32 (a b : BitVec 32) : Bool := (val32 a).lt (val32 b)
def max32 (a b : BitVec 32) : BitVec 32 := if lt32 a b then b else a
/-- BF16 widened to binary32. -/
def bf32 (x : BitVec 16) : BitVec 32 := rnd32z (bit x.toNat 15) (valBf x)
/-- binary32 rounded to BF16. -/
def bf (x : BitVec 32) : BitVec 16 :=
  BitVec.ofNat 16 (encodeF 8 false (bit x.toNat 31) (val32 x).n.natAbs (val32 x).d)
/-- 1.0 -/
def one32 : BitVec 32 := 0x3F800000#32

/-- Clamp a positive binary32 gain into 2^-16 .. 2^16; zero, negative or NaN becomes 1.0 (R72). -/
def clampGain (lo hi : BitVec 32) (g : BitVec 32) : BitVec 32 :=
  let isNan := nonFinite32 g && bits g.toNat 0 23 != 0
  if isNan || bit g.toNat 31 || (val32 g).n = 0 then one32
  else if nonFinite32 g then hi
  else if lt32 g lo then lo else if lt32 hi g then hi else g

end Sys2Proof.Machine
end

