-- ==== Sys2Proof/Machine/Funcs.lean ====
section
/-! DEFINITION. Enclosures of the real functions of Table 06.10, in fixed point with 640 fraction bits and outward rounding, and
the results that the error bounds of R178 allow. -/

namespace Sys2Proof.Machine

/-- One unit of the fixed point. -/
def fxOne : Int := 2 ^ 640
/-- A real number between two fixed-point values. -/
structure Iv where
  lo : Int
  hi : Int
  deriving DecidableEq, Repr

def fxDown (x : Int) (d : Int) : Int := x / d
def fxUp (x : Int) (d : Int) : Int := -((-x) / d)
def Iv.one : Iv := ⟨fxOne, fxOne⟩
def Iv.ofQ (x : Q) : Iv := ⟨fxDown (x.n * fxOne) x.d, fxUp (x.n * fxOne) x.d⟩
def Iv.add (a b : Iv) : Iv := ⟨a.lo + b.lo, a.hi + b.hi⟩
def Iv.neg (a : Iv) : Iv := ⟨-a.hi, -a.lo⟩
def Iv.sub (a b : Iv) : Iv := a.add b.neg
/-- Smallest and largest of four numbers. -/
def min4 (w x y z : Int) : Int := min (min w x) (min y z)
def max4 (w x y z : Int) : Int := max (max w x) (max y z)
def Iv.mul (a b : Iv) : Iv :=
  ⟨fxDown (min4 (a.lo * b.lo) (a.lo * b.hi) (a.hi * b.lo) (a.hi * b.hi)) fxOne,
   fxUp (max4 (a.lo * b.lo) (a.lo * b.hi) (a.hi * b.lo) (a.hi * b.hi)) fxOne⟩
def Iv.over (a : Iv) (n : Nat) : Iv := ⟨fxDown a.lo n, fxUp a.hi n⟩
/-- Quotient by a positive number. -/
def Iv.div (a b : Iv) : Iv :=
  ⟨min (fxDown (a.lo * fxOne) b.lo) (fxDown (a.lo * fxOne) b.hi), max (fxUp (a.hi * fxOne) b.lo) (fxUp (a.hi * fxOne) b.hi)⟩
/-- Square root of a number that is not negative. -/
def Iv.sqrt (a : Iv) : Iv :=
  ⟨(Nat.sqrt (a.lo.toNat * 2 ^ 640) : Nat), (Nat.sqrt (a.hi.toNat * 2 ^ 640) : Nat) + 1⟩
def Iv.sum (l : List Iv) : Iv := l.foldl Iv.add ⟨0, 0⟩
/-- Mean of a row. -/
def Iv.mean (l : List Iv) : Iv := (Iv.sum l).over l.length

/-- 1 + y (1 + y/2 (1 + ... y/n r)). -/
def expHorner (y : Iv) : Nat → Iv → Iv
  | 0, r => r
  | n + 1, r => expHorner y n (Iv.one.add ((y.mul r).over (n + 1)))
/-- The number squared `n` times. -/
def Iv.squared : Nat → Iv → Iv
  | 0, x => x
  | n + 1, x => Iv.squared n (x.mul x)
/-- e to the power x: 60 terms at x / 4,096, squared twelve times; beyond 300 in magnitude a coarse enclosure. -/
def Iv.exp (x : Iv) : Iv :=
  if 300 * fxOne < x.lo then ⟨2 ^ 1072, 2 ^ 2000⟩
  else if x.hi < -300 * fxOne then ⟨0, 2 ^ 208⟩
  else Iv.squared 12 (expHorner (x.over 4096) 60 ⟨2 ^ 639, 3 * 2 ^ 639⟩)

/-- Terms x^(2k+1) / (1 · 3 · … · (2k+1)) summed; the rest is less than the last one. -/
def phiSeries (x2 : Iv) : Nat → Nat → Iv → Iv → Iv
  | 0, _, t, s => ⟨s.lo, s.hi + t.hi⟩
  | n + 1, k, t, s => let t' := (t.mul x2).over (2 * k + 3); phiSeries x2 n (k + 1) t' (s.add t')
/-- 1 / √(2π). -/
def invSqrt2Pi : Int :=
  0x662114cf50d942343f2cf1402eae38bfd3829f30512706d8c0471b4802639d2e9df8ac55447d3db723f5d3abb374e88deb14277970be1513278e993445f08cff98282e1fd947ce4b4ecdbd6e65c23395
/-- Φ, the normal distribution function, of a rational number. -/
def normCdf (a : Q) : Iv :=
  let x := Iv.ofQ a.abs
  let x2 := x.mul x
  let e := (x2.over 2).neg.exp
  let half : Iv := ⟨2 ^ 639, 2 ^ 639⟩
  let up : Bool := decide (0 ≤ a.n)
  if 16 * fxOne ≤ x.lo then (if up then ⟨fxOne - e.hi, fxOne⟩ else ⟨0, e.hi⟩)
  else
    let z := (e.mul ⟨invSqrt2Pi, invSqrt2Pi + 1⟩).mul (phiSeries x2 600 0 x x)
    if up then half.add z else half.sub z

/-- 1 / (1 + e^-a). -/
def sigmoidIv (a : Q) : Iv := Iv.one.div (Iv.one.add (Iv.ofQ a.neg).exp)

/-- One unit in the last place of a BF16 value of the magnitude of fixed-point `x`. -/
def bfUlp (x : Int) : Int := 2 ^ (max 514 (Nat.log2 x.natAbs) - 7)
/-- A BF16 result within `n` units in the last place of a real number (R178): the free value `f` where it is one, else the
nearest. A magnitude beyond the largest finite value saturates, with its kind (R180); one below the smallest normal value is zero
of its sign (R62). -/
def boundedBf (n : Nat) (x : Iv) (f : BitVec 16) : BitVec 16 × Nat :=
  let mid := (x.lo + x.hi) / 2
  let top : Int := 511 * 2 ^ 759
  let err := n * bfUlp mid
  let v := valBf f
  let ok := !(nonFiniteBf f) && bits f.toNat 7 8 != 0 && decide ((x.lo - err) * v.d ≤ v.n * fxOne) &&
    decide (v.n * fxOne ≤ (x.hi + err) * v.d)
  if top ≤ mid then (0x7F7F#16, 1)
  else if mid ≤ -top then (0xFF7F#16, 2)
  else if mid.natAbs < 2 ^ 514 then (if mid < 0 then 0x8000#16 else 0, 0)
  else (if ok then f else rndBf ⟨mid, 2 ^ 640⟩, 0)

end Sys2Proof.Machine
end

