-- ==== Sys2Proof/Config.lean ====
section
/-! DEFINITION. What the manual leaves open: values with no body, so that no proof can see what they are. Each is named
in an assumption log entry. -/

namespace Sys2Proof

/-- A fresh 64-bit free value: the n-th value the manual leaves open in a run (log entries 3, 4). -/
opaque Config.freeValue : Nat → BitVec 64

/-- A value fused at manufacture, by item and index (R2, R297, R381-R384; log entry 5): the manual gives the item and no
value. Item 0 serial, 1 MAC, 2 fused voltage of (site × 16 + entry) in mV, 3 VMAX of a site, 4 activity weight, 5 other. -/
opaque Config.fused : Nat → Nat → Nat

/-- The digest of a byte string (SHA-384 of R374-R379), as a number of 384 bits: the manual names the algorithm and does
not state it (log entry 6). -/
opaque Config.digest : List (BitVec 8) → Nat

/-- Whether a signature verifies under a key (ECDSA P-384 of R375; log entry 6). -/
opaque Config.sigValid : Nat → Nat → Nat → Bool

/-- The result of a row function where the manual gives only an error bound (R178; log entry 7): function number, parameter
and the operands as bit patterns. -/
opaque Config.rowFn : Nat → Nat → Nat → Nat → Nat

end Sys2Proof
end

