-- ==== Sys2Proof/Machine/Map.lean ====
section
/-! DEFINITION. Reading and writing a sparse array. `d` is what the index reads as when it is not listed. -/

namespace Sys2Proof.Machine

/-- The value at index `k`. -/
def mget {α : Type} (d : α) : SMap α → Nat → α
  | [], _ => d
  | (k', v') :: t, k => if k = k' then v' else mget d t k

/-- Write `v` at index `k`, keeping the form: writing `d` removes the entry. -/
def mset {α : Type} [DecidableEq α] (d : α) : SMap α → Nat → α → SMap α
  | [], k, v => if v = d then [] else [(k, v)]
  | (k', v') :: t, k, v =>
    if k < k' then (if v = d then (k', v') :: t else (k, v) :: (k', v') :: t)
    else if k = k' then (if v = d then t else (k, v) :: t)
    else (k', v') :: mset d t k v

/-- Apply `f` to the value at index `k`. -/
def mupd {α : Type} [DecidableEq α] (d : α) (m : SMap α) (k : Nat) (f : α → α) : SMap α :=
  mset d m k (f (mget d m k))

/-- Every index is above `b`, and the indices rise strictly. -/
def mRising {α : Type} : Nat → SMap α → Bool
  | _, [] => true
  | b, (k, _) :: t => decide (b ≤ k) && mRising (k + 1) t

/-- No entry equals what its index reads as when it is not listed. -/
def mNoDefault {α : Type} [DecidableEq α] (d : Nat → α) (m : SMap α) : Bool :=
  m.all (fun e => decide (e.2 ≠ d e.1))

/-- The canonical form of a sparse array. -/
def mwf {α : Type} [DecidableEq α] (d : Nat → α) (m : SMap α) : Bool :=
  mRising 0 m && mNoDefault d m

end Sys2Proof.Machine
end

