-- ==== Sys2Proof/Machine/Operands.lean ====
section
/-! DEFINITION. Operand forms: the fields of a panel address (R20), the sizes and alignments of a register access (R6), and the
halves of a 64-bit register. -/

namespace Sys2Proof.Machine

/-- SPACE, SITE and OFFSET of a panel address (R20). -/
def addrSpace (a : Nat) : Nat := bits a 45 3
def addrSite (a : Nat) : Nat := bits a 38 7
def addrOfs (a : Nat) : Nat := bits a 0 38
/-- A register access of 32 bits aligned to 4 bytes, or of 64 bits aligned to 8 bytes (R6). -/
def accessLegal (a len : Nat) : Bool := (len == 4 && a % 4 == 0) || (len == 8 && a % 8 == 0)
/-- A write of a 64-bit register, whole (0), low half (1) or high half (2). -/
def mergeHalf (half old v : Nat) : Nat :=
  if half = 0 then v % 2 ^ 64 else if half = 1 then setBits old 0 32 v else setBits old 32 32 v

/-- Is `a` one of the `n` registers of `w` bytes from `r` on? -/
def isNth (r w n a : Nat) : Bool := decide (r ≤ a) && decide (a < r + w * n)

end Sys2Proof.Machine
end

