-- ==== Sys2Proof/Machine/Regs.lean ====
section
/-! DEFINITION. The registers of BAR0 (the summary and layout tables of every register block): address, width, reset
value and the masks of writable bits by register type (Table 00.4). A site-window register is listed by its offset in
the window of a site. The queue registers of BAR2 (Tables 10.19-10.21) are held per queue pair in State. -/

namespace Sys2Proof.Machine

/-- One row of a register summary: `count` registers `stride` bytes apart (twice, for a table of two indices). -/
structure RegRow where
  site    : Bool
  base    : Nat
  stride  : Nat
  count   : Nat
  stride2 : Nat
  count2  : Nat
  wide    : Bool
  reset   : Nat
  /-- bits of type RW -/
  rw      : Nat
  /-- bits of type RWL -/
  rwl     : Nat
  /-- bits of type W1C -/
  w1c     : Nat
  /-- bits of type WO or W1S, whose write is an action -/
  act     : Nat
  deriving DecidableEq, Repr

/-- Byte distance between the register windows of two sites (site windows begin at BAR0 0x0010_0000). -/
def siteStride : Nat := 0x80000
def siteWindow0 : Nat := 0x100000
/-- BAR0 offset of offset `o` in the window of physical site `p`. -/
def siteReg (p o : Nat) : Nat := siteWindow0 + siteStride * p + o

/-- COMB_CFG (R60), offset in a site window. -/
def rCOMB_CFG : Nat := 0x4000
/-- COMB_SHADOW_CMD (R60), offset in a site window. -/
def rCOMB_SHADOW_CMD : Nat := 0x4008
/-- COMB_SHADOW_STAT (R60), offset in a site window. -/
def rCOMB_SHADOW_STAT : Nat := 0x400c
/-- COMB_SHADOW_SWAP_STROKE (R60), offset in a site window. -/
def rCOMB_SHADOW_SWAP_STROKE : Nat := 0x4010
/-- COMB_BMAP_SEL (R60), offset in a site window. -/
def rCOMB_BMAP_SEL : Nat := 0x4018
/-- COMB_BMAP_DATA (R60), offset in a site window. -/
def rCOMB_BMAP_DATA : Nat := 0x401c
/-- COMB_CNT_PLANE (R60), offset in a site window. -/
def rCOMB_CNT_PLANE : Nat := 0x4100
/-- COMB_CNT_SKIP (R60), offset in a site window. -/
def rCOMB_CNT_SKIP : Nat := 0x4108
/-- COMB_CNT_ZVEC (R60), offset in a site window. -/
def rCOMB_CNT_ZVEC : Nat := 0x4110
/-- COMB_CNT_HOLD (R60), offset in a site window. -/
def rCOMB_CNT_HOLD : Nat := 0x4118
/-- COMB_CNT_DSTALL (R60), offset in a site window. -/
def rCOMB_CNT_DSTALL : Nat := 0x4120
/-- COMB_CNT_OVF (R60), offset in a site window. -/
def rCOMB_CNT_OVF : Nat := 0x4128
/-- COMB_CNT_TAINT (R60), offset in a site window. -/
def rCOMB_CNT_TAINT : Nat := 0x4130
/-- COMB_CNT_THRPASS (R60), offset in a site window. -/
def rCOMB_CNT_THRPASS : Nat := 0x4138
/-- COMB_CNT_SWAP (R60), offset in a site window. -/
def rCOMB_CNT_SWAP : Nat := 0x4140
/-- RQ_CTL (R86), offset in a site window. -/
def rRQ_CTL : Nat := 0x5000
/-- RQ_STAGE_CMD (R86), offset in a site window. -/
def rRQ_STAGE_CMD : Nat := 0x5008
/-- RQ_STAGE_STAT (R86), offset in a site window. -/
def rRQ_STAGE_STAT : Nat := 0x500c
/-- RQ_STAGE_STROKE (R86), offset in a site window. -/
def rRQ_STAGE_STROKE : Nat := 0x5010
/-- RQ_CNT_TILE (R86), offset in a site window. -/
def rRQ_CNT_TILE : Nat := 0x5100
/-- RQ_CNT_CLIP (R86), offset in a site window. -/
def rRQ_CNT_CLIP : Nat := 0x5108
/-- RQ_CNT_CLIPTRIG (R86), offset in a site window. -/
def rRQ_CNT_CLIPTRIG : Nat := 0x5110
/-- RQ_CNT_UNDER (R86), offset in a site window. -/
def rRQ_CNT_UNDER : Nat := 0x5118
/-- RQ_CNT_FB (R86), offset in a site window. -/
def rRQ_CNT_FB : Nat := 0x5120
/-- RQ_CNT_FBDENY (R86), offset in a site window. -/
def rRQ_CNT_FBDENY : Nat := 0x5128
/-- RQ_CNT_SLACK (R86), offset in a site window. -/
def rRQ_CNT_SLACK : Nat := 0x5130
/-- RQ_CNT_GCLAMP (R86), offset in a site window. -/
def rRQ_CNT_GCLAMP : Nat := 0x5138
/-- RQ_CNT_VOID (R86), offset in a site window. -/
def rRQ_CNT_VOID : Nat := 0x5140
/-- RQ_ING_CLIP (R86), offset in a site window. -/
def rRQ_ING_CLIP : Nat := 0x5148
/-- RQ_ING_NF (R86), offset in a site window. -/
def rRQ_ING_NF : Nat := 0x5150
/-- RQ_SSE (R86), offset in a site window. -/
def rRQ_SSE : Nat := 0x5158
/-- RQ_SAMP (R86), offset in a site window. -/
def rRQ_SAMP : Nat := 0x5160
/-- SPARSE_STAT (R115), offset in a site window. -/
def rSPARSE_STAT : Nat := 0x6000
/-- SPARSE_MRG_STAT (R115), offset in a site window. -/
def rSPARSE_MRG_STAT : Nat := 0x6004
/-- SPARSE_CNT_PACKS (R115), offset in a site window. -/
def rSPARSE_CNT_PACKS : Nat := 0x6100
/-- SPARSE_CNT_PACKD (R115), offset in a site window. -/
def rSPARSE_CNT_PACKD : Nat := 0x6108
/-- SPARSE_CNT_NNZ (R115), offset in a site window. -/
def rSPARSE_CNT_NNZ : Nat := 0x6110
/-- SPARSE_CNT_POS (R115), offset in a site window. -/
def rSPARSE_CNT_POS : Nat := 0x6118
/-- SPARSE_CNT_METAF (R115), offset in a site window. -/
def rSPARSE_CNT_METAF : Nat := 0x6120
/-- SPARSE_CNT_PAIR (R115), offset in a site window. -/
def rSPARSE_CNT_PAIR : Nat := 0x6128
/-- SPARSE_CNT_ZRPL (R115), offset in a site window. -/
def rSPARSE_CNT_ZRPL : Nat := 0x6130
/-- SPARSE_CNT_ZRSK (R115), offset in a site window. -/
def rSPARSE_CNT_ZRSK : Nat := 0x6138
/-- SPARSE_CNT_MARR (R115), offset in a site window. -/
def rSPARSE_CNT_MARR : Nat := 0x6140
/-- SPARSE_CNT_MDONE (R115), offset in a site window. -/
def rSPARSE_CNT_MDONE : Nat := 0x6148
/-- SPARSE_CNT_MSPEC (R115), offset in a site window. -/
def rSPARSE_CNT_MSPEC : Nat := 0x6150
/-- STRK_CTL (R149). -/
def rSTRK_CTL : Nat := 0x10000
/-- STRK_PERIOD (R149). -/
def rSTRK_PERIOD : Nat := 0x10004
/-- STRK_PHASE (R149). -/
def rSTRK_PHASE : Nat := 0x10008
/-- STRK_TICK_CFG (R149). -/
def rSTRK_TICK_CFG : Nat := 0x1000c
/-- STRK_PHASE_OFS (R149). -/
def rSTRK_PHASE_OFS : Nat := 0x10010
/-- STRK_STATUS (R149). -/
def rSTRK_STATUS : Nat := 0x10014
/-- STRK_TICK (R149). -/
def rSTRK_TICK : Nat := 0x10018
/-- STRK_TICK_TIME (R149). -/
def rSTRK_TICK_TIME : Nat := 0x10020
/-- STRK_NOW (R149). -/
def rSTRK_NOW : Nat := 0x10028
/-- STRK_LAST_ERR (R149). -/
def rSTRK_LAST_ERR : Nat := 0x10030
/-- STRK_PSTROKE_n (R149). -/
def rSTRK_PSTROKE : Nat := 0x10100
/-- STRK_PBUCKET_n (R149). -/
def rSTRK_PBUCKET : Nat := 0x10180
/-- STRK_PSLIP_n (R149). -/
def rSTRK_PSLIP : Nat := 0x101c0
/-- STRK_CNT_SLIP (R149). -/
def rSTRK_CNT_SLIP : Nat := 0x10200
/-- STRK_CNT_CONSUMED (R149). -/
def rSTRK_CNT_CONSUMED : Nat := 0x10208
/-- STRK_CNT_OVERRUN (R149). -/
def rSTRK_CNT_OVERRUN : Nat := 0x10210
/-- STRK_CNT_HUNG (R149). -/
def rSTRK_CNT_HUNG : Nat := 0x10218
/-- STRK_CNT_MISS (R149). -/
def rSTRK_CNT_MISS : Nat := 0x10220
/-- STRK_CNT_WINDOW (R149). -/
def rSTRK_CNT_WINDOW : Nat := 0x10228
/-- STRK_CNT_SRCCHG (R149). -/
def rSTRK_CNT_SRCCHG : Nat := 0x10230
/-- STRK_CNT_REALIGN (R149). -/
def rSTRK_CNT_REALIGN : Nat := 0x10238
/-- STRK_CNT_SHORT (R149). -/
def rSTRK_CNT_SHORT : Nat := 0x10240
/-- STRK_CNT_DEFER (R149). -/
def rSTRK_CNT_DEFER : Nat := 0x10248
/-- STRK_CNT_GATENR (R149). -/
def rSTRK_CNT_GATENR : Nat := 0x10250
/-- KV_CFG (R215), offset in a site window. -/
def rKV_CFG : Nat := 0x7000
/-- KV_PT_STAT (R215), offset in a site window. -/
def rKV_PT_STAT : Nat := 0x7004
/-- KV_HBM_STAT (R215), offset in a site window. -/
def rKV_HBM_STAT : Nat := 0x7008
/-- KV_FRAME_STAT (R215), offset in a site window. -/
def rKV_FRAME_STAT : Nat := 0x7010
/-- KV_CNT_PAGE (R215), offset in a site window. -/
def rKV_CNT_PAGE : Nat := 0x7100
/-- KV_CNT_REC (R215), offset in a site window. -/
def rKV_CNT_REC : Nat := 0x7108
/-- KV_CNT_CE (R215), offset in a site window. -/
def rKV_CNT_CE : Nat := 0x7110
/-- KV_CNT_UE (R215), offset in a site window. -/
def rKV_CNT_UE : Nat := 0x7118
/-- KV_CNT_REREAD (R215), offset in a site window. -/
def rKV_CNT_REREAD : Nat := 0x7120
/-- KV_CNT_BUDGET (R215), offset in a site window. -/
def rKV_CNT_BUDGET : Nat := 0x7128
/-- KV_CNT_FLIP (R215), offset in a site window. -/
def rKV_CNT_FLIP : Nat := 0x7130
/-- KV_CNT_CRESTART (R215), offset in a site window. -/
def rKV_CNT_CRESTART : Nat := 0x7138
/-- KV_CNT_PARK (R215), offset in a site window. -/
def rKV_CNT_PARK : Nat := 0x7140
/-- KV_CNT_RESUME (R215), offset in a site window. -/
def rKV_CNT_RESUME : Nat := 0x7148
/-- KV_CNT_SAMPLE (R215), offset in a site window. -/
def rKV_CNT_SAMPLE : Nat := 0x7150
/-- KV_CNT_SSHORT (R215), offset in a site window. -/
def rKV_CNT_SSHORT : Nat := 0x7158
/-- KV_CNT_HOTREF (R215), offset in a site window. -/
def rKV_CNT_HOTREF : Nat := 0x7160
/-- FAB_CFG (R243), offset in a site window. -/
def rFAB_CFG : Nat := 0x8000
/-- FAB_STAT (R243), offset in a site window. -/
def rFAB_STAT : Nat := 0x8004
/-- FAB_LINK (R243), offset in a site window. -/
def rFAB_LINK : Nat := 0x8008
/-- FAB_HUBWHEEL_w (R243), offset in a site window. -/
def rFAB_HUBWHEEL : Nat := 0x8040
/-- FAB_LEQ_STAT_n (R243), offset in a site window. -/
def rFAB_LEQ_STAT : Nat := 0x8100
/-- FAB_CNT_TX (R243), offset in a site window. -/
def rFAB_CNT_TX : Nat := 0x8200
/-- FAB_CNT_RX (R243), offset in a site window. -/
def rFAB_CNT_RX : Nat := 0x8208
/-- FAB_CNT_RETRY (R243), offset in a site window. -/
def rFAB_CNT_RETRY : Nat := 0x8210
/-- FAB_CNT_LATE (R243), offset in a site window. -/
def rFAB_CNT_LATE : Nat := 0x8218
/-- FAB_CNT_TMO (R243), offset in a site window. -/
def rFAB_CNT_TMO : Nat := 0x8220
/-- FAB_CNT_STALE (R243), offset in a site window. -/
def rFAB_CNT_STALE : Nat := 0x8228
/-- FAB_CNT_BADHDR (R243), offset in a site window. -/
def rFAB_CNT_BADHDR : Nat := 0x8230
/-- SPAD_STAT (R243), offset in a site window. -/
def rSPAD_STAT : Nat := 0x9000
/-- SPAD_CNT_STALLn (R243), offset in a site window. -/
def rSPAD_CNT_STALL : Nat := 0x9100
/-- SPAD_CNT_CE (R243), offset in a site window. -/
def rSPAD_CNT_CE : Nat := 0x9128
/-- SPAD_CNT_UE (R243), offset in a site window. -/
def rSPAD_CNT_UE : Nat := 0x9130
/-- SPAD_CNT_TREG (R243), offset in a site window. -/
def rSPAD_CNT_TREG : Nat := 0x9138
/-- SPAD_CNT_REDIR (R243), offset in a site window. -/
def rSPAD_CNT_REDIR : Nat := 0x9140
/-- SEAL_STAT (R267). -/
def rSEAL_STAT : Nat := 0x40000
/-- SEAL_INSP_SEL (R267). -/
def rSEAL_INSP_SEL : Nat := 0x40004
/-- SEAL_INSP_DATAi (R267). -/
def rSEAL_INSP_DATA : Nat := 0x40008
/-- SEAL_PQUOTA_n (R267). -/
def rSEAL_PQUOTA : Nat := 0x40040
/-- SEAL_CNT_OPS (R267). -/
def rSEAL_CNT_OPS : Nat := 0x40100
/-- SEAL_CNT_WAKE (R267). -/
def rSEAL_CNT_WAKE : Nat := 0x40108
/-- SEAL_CNT_REL (R267). -/
def rSEAL_CNT_REL : Nat := 0x40110
/-- SEAL_CNT_ABANDON (R267). -/
def rSEAL_CNT_ABANDON : Nat := 0x40118
/-- SEAL_CNT_STALE (R267). -/
def rSEAL_CNT_STALE : Nat := 0x40120
/-- SEAL_CNT_FWD (R267). -/
def rSEAL_CNT_FWD : Nat := 0x40128
/-- SEAL_CNT_SPIN (R267). -/
def rSEAL_CNT_SPIN : Nat := 0x40130
/-- STRM_STAT (R296). -/
def rSTRM_STAT : Nat := 0x20000
/-- STRM_INSP_SEL (R296). -/
def rSTRM_INSP_SEL : Nat := 0x20004
/-- STRM_INSP_DATAi (R296). -/
def rSTRM_INSP_DATA : Nat := 0x20040
/-- STRM_PCOUNT_n (R296). -/
def rSTRM_PCOUNT : Nat := 0x20100
/-- STRM_CNT_ADMIT (R296). -/
def rSTRM_CNT_ADMIT : Nat := 0x20200
/-- STRM_CNT_REJECT (R296). -/
def rSTRM_CNT_REJECT : Nat := 0x20208
/-- STRM_CNT_TOKEN (R296). -/
def rSTRM_CNT_TOKEN : Nat := 0x20210
/-- STRM_CNT_PTOK (R296). -/
def rSTRM_CNT_PTOK : Nat := 0x20218
/-- STRM_CNT_WHELD (R296). -/
def rSTRM_CNT_WHELD : Nat := 0x20220
/-- STRM_CNT_DEFr (R296). -/
def rSTRM_CNT_DEF : Nat := 0x20228
/-- STRM_CNT_ENDED (R296). -/
def rSTRM_CNT_ENDED : Nat := 0x20258
/-- STRM_CNT_DEFCAP (R296). -/
def rSTRM_CNT_DEFCAP : Nat := 0x20260
/-- PART_CMD (R296). -/
def rPART_CMD : Nat := 0x30000
/-- PART_CMD_STAT (R296). -/
def rPART_CMD_STAT : Nat := 0x30004
/-- PART_CFG_ADDR (R296). -/
def rPART_CFG_ADDR : Nat := 0x30008
/-- PART_STATE_n (R296). -/
def rPART_STATE : Nat := 0x30100
/-- PART_SITES_n (R296). -/
def rPART_SITES : Nat := 0x30140
/-- PART_STREAMS_n (R296). -/
def rPART_STREAMS : Nat := 0x30200
/-- PWR_CTL (R321). -/
def rPWR_CTL : Nat := 0x50000
/-- PWR_STATUS (R321). -/
def rPWR_STATUS : Nat := 0x50004
/-- PWR_LIMIT_A (R321). -/
def rPWR_LIMIT_A : Nat := 0x50008
/-- PWR_LIMIT_B (R321). -/
def rPWR_LIMIT_B : Nat := 0x5000c
/-- PWR_THERM (R321). -/
def rPWR_THERM : Nat := 0x50010
/-- PWR_GRANT_NOW (R321). -/
def rPWR_GRANT_NOW : Nat := 0x50014
/-- PWR_BUDGET_NOW (R321). -/
def rPWR_BUDGET_NOW : Nat := 0x50018
/-- PWR_CAL (R321). -/
def rPWR_CAL : Nat := 0x5001c
/-- PWR_SITE_SEL (R321). -/
def rPWR_SITE_SEL : Nat := 0x50020
/-- PWR_SITE_DATAi (R321). -/
def rPWR_SITE_DATA : Nat := 0x50024
/-- PWR_PREF_n (R321). -/
def rPWR_PREF : Nat := 0x50040
/-- PWR_E_TICK (R321). -/
def rPWR_E_TICK : Nat := 0x50100
/-- PWR_E_SHARED (R321). -/
def rPWR_E_SHARED : Nat := 0x50108
/-- PWR_E_UNASSIGNED (R321). -/
def rPWR_E_UNASSIGNED : Nat := 0x50110
/-- PWR_E_RESID (R321). -/
def rPWR_E_RESID : Nat := 0x50118
/-- PWR_E_TOTAL (R321). -/
def rPWR_E_TOTAL : Nat := 0x50120
/-- PWR_FLOOR_RATIO (R321). -/
def rPWR_FLOOR_RATIO : Nat := 0x50128
/-- PWR_E_PART_n (R321). -/
def rPWR_E_PART : Nat := 0x50200
/-- PWR_THR_US_r (R321). -/
def rPWR_THR_US : Nat := 0x50300
/-- PWR_THR_EV_r (R321). -/
def rPWR_THR_EV : Nat := 0x50308
/-- PWR_CNT_HOLD (R321). -/
def rPWR_CNT_HOLD : Nat := 0x50380
/-- PWR_CNT_GUARD (R321). -/
def rPWR_CNT_GUARD : Nat := 0x50388
/-- PWR_CNT_DROOP (R321). -/
def rPWR_CNT_DROOP : Nat := 0x50390
/-- PWR_CNT_GRANT (R321). -/
def rPWR_CNT_GRANT : Nat := 0x50398
/-- PWR_CNT_MISS (R321). -/
def rPWR_CNT_MISS : Nat := 0x503a0
/-- PWR_CNT_CAL (R321). -/
def rPWR_CNT_CAL : Nat := 0x503a8
/-- CLT_CTL (R340). -/
def rCLT_CTL : Nat := 0x60000
/-- CLT_STATUS (R340). -/
def rCLT_STATUS : Nat := 0x60004
/-- CLT_SET (R340). -/
def rCLT_SET : Nat := 0x60008
/-- CLT_GAIN (R340). -/
def rCLT_GAIN : Nat := 0x6000c
/-- CLT_LIMIT (R340). -/
def rCLT_LIMIT : Nat := 0x60010
/-- CLT_FLUID (R340). -/
def rCLT_FLUID : Nat := 0x60014
/-- CLT_VALVE (R340). -/
def rCLT_VALVE : Nat := 0x60018
/-- CLT_CAP (R340). -/
def rCLT_CAP : Nat := 0x6001c
/-- CLT_TEMP_IN (R340). -/
def rCLT_TEMP_IN : Nat := 0x60020
/-- CLT_TEMP_OUT (R340). -/
def rCLT_TEMP_OUT : Nat := 0x60024
/-- CLT_PRESS (R340). -/
def rCLT_PRESS : Nat := 0x60028
/-- CLT_FLOW (R340). -/
def rCLT_FLOW : Nat := 0x6002c
/-- CLT_CNT_LOOP (R340). -/
def rCLT_CNT_LOOP : Nat := 0x60100
/-- CLT_CNT_FLOWLOW (R340). -/
def rCLT_CNT_FLOWLOW : Nat := 0x60108
/-- CLT_CNT_CAP (R340). -/
def rCLT_CNT_CAP : Nat := 0x60110
/-- CLT_CNT_STEPS (R340). -/
def rCLT_CNT_STEPS : Nat := 0x60118
/-- DOM_STATUS (R340). -/
def rDOM_STATUS : Nat := 0x70000
/-- DOM_CMD (R340). -/
def rDOM_CMD : Nat := 0x70004
/-- DOM_CMD_STAT (R340). -/
def rDOM_CMD_STAT : Nat := 0x70008
/-- DOM_SEL (R340). -/
def rDOM_SEL : Nat := 0x7000c
/-- DOM_DATA0 (R340). -/
def rDOM_DATA0 : Nat := 0x70010
/-- DOM_DATA1 (R340). -/
def rDOM_DATA1 : Nat := 0x70014
/-- DOM_FAULT_w (R340). -/
def rDOM_FAULT : Nat := 0x70040
/-- DOM_CNT_SS (R340). -/
def rDOM_CNT_SS : Nat := 0x70100
/-- DOM_CNT_SHORT (R340). -/
def rDOM_CNT_SHORT : Nat := 0x70108
/-- DOM_CNT_HOLD (R340). -/
def rDOM_CNT_HOLD : Nat := 0x70110
/-- DOM_CNT_ABORT (R340). -/
def rDOM_CNT_ABORT : Nat := 0x70118
/-- GLB_WGL_STAT (R367). -/
def rGLB_WGL_STAT : Nat := 0x400
/-- GLB_OD_CMD (R367). -/
def rGLB_OD_CMD : Nat := 0x404
/-- GLB_OD_STAT (R367). -/
def rGLB_OD_STAT : Nat := 0x408
/-- GLB_WGL_CNT_RX (R367). -/
def rGLB_WGL_CNT_RX : Nat := 0x410
/-- GLB_WGL_CNT_TX (R367). -/
def rGLB_WGL_CNT_TX : Nat := 0x418
/-- GLB_WGL_CNT_FWD (R367). -/
def rGLB_WGL_CNT_FWD : Nat := 0x420
/-- GLB_WGL_CNT_LATE (R367). -/
def rGLB_WGL_CNT_LATE : Nat := 0x428
/-- GLB_WGL_CNT_SLOW (R367). -/
def rGLB_WGL_CNT_SLOW : Nat := 0x430
/-- GLB_WGL_CNT_INVALID (R367). -/
def rGLB_WGL_CNT_INVALID : Nat := 0x438
/-- GLB_WGL_CNT_DENIED (R367). -/
def rGLB_WGL_CNT_DENIED : Nat := 0x440
/-- GLB_WGL_CNT_GRANT (R367). -/
def rGLB_WGL_CNT_GRANT : Nat := 0x448
/-- GLB_WGL_CNT_NOTIFY (R367). -/
def rGLB_WGL_CNT_NOTIFY : Nat := 0x450
/-- GLB_WGL_CNT_NDROP (R367). -/
def rGLB_WGL_CNT_NDROP : Nat := 0x458
/-- GLB_OD_BUF (R367). -/
def rGLB_OD_BUF : Nat := 0x800
/-- SEC_BOOT_CMD (R389). -/
def rSEC_BOOT_CMD : Nat := 0xb0000
/-- SEC_BOOT_STAT (R389). -/
def rSEC_BOOT_STAT : Nat := 0xb0004
/-- SEC_IMG_ADDR (R389). -/
def rSEC_IMG_ADDR : Nat := 0xb0008
/-- SEC_IFLEVEL (R389). -/
def rSEC_IFLEVEL : Nat := 0xb0010
/-- SEC_LC (R389). -/
def rSEC_LC : Nat := 0xb0014
/-- SEC_KEYS (R389). -/
def rSEC_KEYS : Nat := 0xb0018
/-- SEC_CAP (R389). -/
def rSEC_CAP : Nat := 0xb001c
/-- SEC_LOAD_BYTES (R389). -/
def rSEC_LOAD_BYTES : Nat := 0xb0020
/-- SEC_MEAS_i (R389). -/
def rSEC_MEAS : Nat := 0xb0030
/-- SEC_PMEAS_n_i (R389). -/
def rSEC_PMEAS : Nat := 0xb0100
/-- BIST_CTL (R416). -/
def rBIST_CTL : Nat := 0x90000
/-- BIST_WINDOW (R416). -/
def rBIST_WINDOW : Nat := 0x90004
/-- BIST_STAT (R416). -/
def rBIST_STAT : Nat := 0x90008
/-- BIST_SEL (R416). -/
def rBIST_SEL : Nat := 0x9000c
/-- BIST_SITE_DATAi (R416). -/
def rBIST_SITE_DATA : Nat := 0x90010
/-- BIST_RESULT_i (R416). -/
def rBIST_RESULT : Nat := 0x90020
/-- BIST_CNT_SLICE (R416). -/
def rBIST_CNT_SLICE : Nat := 0x90100
/-- BIST_CNT_SKIP (R416). -/
def rBIST_CNT_SKIP : Nat := 0x90108
/-- BIST_CNT_CURTAIL (R416). -/
def rBIST_CNT_CURTAIL : Nat := 0x90110
/-- BIST_CNT_YIELD (R416). -/
def rBIST_CNT_YIELD : Nat := 0x90118
/-- BIST_CNT_GROUP (R416). -/
def rBIST_CNT_GROUP : Nat := 0x90120
/-- BIST_CNT_SOFT (R416). -/
def rBIST_CNT_SOFT : Nat := 0x90128
/-- BIST_CNT_FAIL (R416). -/
def rBIST_CNT_FAIL : Nat := 0x90130
/-- BIST_CNT_REPAIR (R416). -/
def rBIST_CNT_REPAIR : Nat := 0x90138
/-- BIST_CNT_ANALOG (R416). -/
def rBIST_CNT_ANALOG : Nat := 0x90140
/-- FLT_JRNL_STAT (R416). -/
def rFLT_JRNL_STAT : Nat := 0x80000
/-- FLT_JRNL_CMD (R416). -/
def rFLT_JRNL_CMD : Nat := 0x80004
/-- FLT_JRNL_SEL (R416). -/
def rFLT_JRNL_SEL : Nat := 0x80008
/-- FLT_JRNL_DATA_i (R416). -/
def rFLT_JRNL_DATA : Nat := 0x80020
/-- FLT_STBY_STAT (R416). -/
def rFLT_STBY_STAT : Nat := 0x80040
/-- FLT_STBY_SEL (R416). -/
def rFLT_STBY_SEL : Nat := 0x80044
/-- FLT_STBY_DATA_i (R416). -/
def rFLT_STBY_DATA : Nat := 0x80060
/-- FLT_BADACC_ADDR (R416). -/
def rFLT_BADACC_ADDR : Nat := 0x80080
/-- FLT_BADACC_INFO (R416). -/
def rFLT_BADACC_INFO : Nat := 0x80084
/-- FLT_CNT_ENTRY (R416). -/
def rFLT_CNT_ENTRY : Nat := 0x80100
/-- FLT_CNT_DROP (R416). -/
def rFLT_CNT_DROP : Nat := 0x80108
/-- FLT_CNT_ECC (R416). -/
def rFLT_CNT_ECC : Nat := 0x80110
/-- PAIR_CTL (R442). -/
def rPAIR_CTL : Nat := 0xa0000
/-- PAIR_CMD (R442). -/
def rPAIR_CMD : Nat := 0xa0004
/-- PAIR_STATUS (R442). -/
def rPAIR_STATUS : Nat := 0xa0008
/-- PAIR_EPOCH (R442). -/
def rPAIR_EPOCH : Nat := 0xa000c
/-- PAIR_PARTNER (R442). -/
def rPAIR_PARTNER : Nat := 0xa0010
/-- PAIR_SKEW (R442). -/
def rPAIR_SKEW : Nat := 0xa0018
/-- PAIR_CNT_HBMISS (R442). -/
def rPAIR_CNT_HBMISS : Nat := 0xa0100
/-- PAIR_CNT_PWAIT (R442). -/
def rPAIR_CNT_PWAIT : Nat := 0xa0108
/-- PAIR_CNT_MISMATCH (R442). -/
def rPAIR_CNT_MISMATCH : Nat := 0xa0110
/-- PAIR_CNT_TAKEOVER (R442). -/
def rPAIR_CNT_TAKEOVER : Nat := 0xa0118
/-- PAIR_CNT_STALE (R442). -/
def rPAIR_CNT_STALE : Nat := 0xa0120
/-- PAIR_CNT_REPLAY (R442). -/
def rPAIR_CNT_REPLAY : Nat := 0xa0128
/-- PAIR_CNT_DELTA (R442). -/
def rPAIR_CNT_DELTA : Nat := 0xa0130
/-- PAIR_CNT_CQWAIT (R442). -/
def rPAIR_CNT_CQWAIT : Nat := 0xa0138
/-- RPL_CTL_n (R460). -/
def rRPL_CTL : Nat := 0xc0000
/-- RPL_STATUS_n (R460). -/
def rRPL_STATUS : Nat := 0xc0004
/-- RPL_BASE_n (R460). -/
def rRPL_BASE : Nat := 0xc0008
/-- RPL_SIZE_n (R460). -/
def rRPL_SIZE : Nat := 0xc0010
/-- RPL_HEAD_n (R460). -/
def rRPL_HEAD : Nat := 0xc0014
/-- RPL_TAIL_n (R460). -/
def rRPL_TAIL : Nat := 0xc0018
/-- RPL_OFFSET_n (R460). -/
def rRPL_OFFSET : Nat := 0xc0020
/-- RPL_DIV_STROKE_n (R460). -/
def rRPL_DIV_STROKE : Nat := 0xc0028
/-- RPL_TAP_STAT (R460). -/
def rRPL_TAP_STAT : Nat := 0xc0400
/-- RPL_CNT_ENTRY (R460). -/
def rRPL_CNT_ENTRY : Nat := 0xc0500
/-- RPL_CNT_DROP (R460). -/
def rRPL_CNT_DROP : Nat := 0xc0508
/-- RPL_CNT_WAIT (R460). -/
def rRPL_CNT_WAIT : Nat := 0xc0510
/-- GLB_ID (R2). -/
def rGLB_ID : Nat := 0x0
/-- GLB_CFG_LOCK (R10). -/
def rGLB_CFG_LOCK : Nat := 0x4
/-- GLB_STATUS (R10). -/
def rGLB_STATUS : Nat := 0x8
/-- GLB_LOCK_VIOL_COUNT (R10). -/
def rGLB_LOCK_VIOL_COUNT : Nat := 0x10
/-- GLB_SITEMAP_n (R18). -/
def rGLB_SITEMAP : Nat := 0x100

/-- Register rows, part 0. -/
def regRows0 : List RegRow := [
  ⟨true, rCOMB_CFG, 0, 1, 0, 1, false, 0x3, 0x0, 0x3, 0x0, 0x0⟩,
  ⟨true, rCOMB_SHADOW_CMD, 0, 1, 0, 1, false, 0x0, 0x0, 0x0, 0x0, 0xffffffff⟩,
  ⟨true, rCOMB_SHADOW_STAT, 0, 1, 0, 1, false, 0x0, 0x0, 0x0, 0x40000000, 0x0⟩,
  ⟨true, rCOMB_SHADOW_SWAP_STROKE, 0, 1, 0, 1, true, 0x0, 0x0, 0x0, 0x0, 0x0⟩,
  ⟨true, rCOMB_BMAP_SEL, 0, 1, 0, 1, false, 0x0, 0x1fffff, 0x0, 0x0, 0x0⟩,
  ⟨true, rCOMB_BMAP_DATA, 0, 1, 0, 1, false, 0x0, 0x0, 0x0, 0x0, 0x0⟩,
  ⟨true, rCOMB_CNT_PLANE, 0, 1, 0, 1, true, 0x0, 0x0, 0x0, 0x0, 0x0⟩,
  ⟨true, rCOMB_CNT_SKIP, 0, 1, 0, 1, true, 0x0, 0x0, 0x0, 0x0, 0x0⟩,
  ⟨true, rCOMB_CNT_ZVEC, 0, 1, 0, 1, true, 0x0, 0x0, 0x0, 0x0, 0x0⟩,
  ⟨true, rCOMB_CNT_HOLD, 0, 1, 0, 1, true, 0x0, 0x0, 0x0, 0x0, 0x0⟩,
  ⟨true, rCOMB_CNT_DSTALL, 0, 1, 0, 1, true, 0x0, 0x0, 0x0, 0x0, 0x0⟩,
  ⟨true, rCOMB_CNT_OVF, 0, 1, 0, 1, true, 0x0, 0x0, 0x0, 0x0, 0x0⟩,
  ⟨true, rCOMB_CNT_TAINT, 0, 1, 0, 1, true, 0x0, 0x0, 0x0, 0x0, 0x0⟩,
  ⟨true, rCOMB_CNT_THRPASS, 0, 1, 0, 1, true, 0x0, 0x0, 0x0, 0x0, 0x0⟩,
  ⟨true, rCOMB_CNT_SWAP, 0, 1, 0, 1, true, 0x0, 0x0, 0x0, 0x0, 0x0⟩,
  ⟨true, rRQ_CTL, 0, 1, 0, 1, false, 0x7, 0x0, 0x7, 0x0, 0x0⟩,
  ⟨true, rRQ_STAGE_CMD, 0, 1, 0, 1, false, 0x0, 0x0, 0x0, 0x0, 0xffffffff⟩,
  ⟨true, rRQ_STAGE_STAT, 0, 1, 0, 1, false, 0x0, 0x0, 0x0, 0xc0000000, 0x0⟩,
  ⟨true, rRQ_STAGE_STROKE, 0, 1, 0, 1, true, 0x0, 0x0, 0x0, 0x0, 0x0⟩,
  ⟨true, rRQ_CNT_TILE, 0, 1, 0, 1, true, 0x0, 0x0, 0x0, 0x0, 0x0⟩,
  ⟨true, rRQ_CNT_CLIP, 0, 1, 0, 1, true, 0x0, 0x0, 0x0, 0x0, 0x0⟩,
  ⟨true, rRQ_CNT_CLIPTRIG, 0, 1, 0, 1, true, 0x0, 0x0, 0x0, 0x0, 0x0⟩,
  ⟨true, rRQ_CNT_UNDER, 0, 1, 0, 1, true, 0x0, 0x0, 0x0, 0x0, 0x0⟩,
  ⟨true, rRQ_CNT_FB, 0, 1, 0, 1, true, 0x0, 0x0, 0x0, 0x0, 0x0⟩]
/-- Register rows, part 1. -/
def regRows1 : List RegRow := [
  ⟨true, rRQ_CNT_FBDENY, 0, 1, 0, 1, true, 0x0, 0x0, 0x0, 0x0, 0x0⟩,
  ⟨true, rRQ_CNT_SLACK, 0, 1, 0, 1, true, 0x0, 0x0, 0x0, 0x0, 0x0⟩,
  ⟨true, rRQ_CNT_GCLAMP, 0, 1, 0, 1, true, 0x0, 0x0, 0x0, 0x0, 0x0⟩,
  ⟨true, rRQ_CNT_VOID, 0, 1, 0, 1, true, 0x0, 0x0, 0x0, 0x0, 0x0⟩,
  ⟨true, rRQ_ING_CLIP, 0, 1, 0, 1, true, 0x0, 0x0, 0x0, 0x0, 0x0⟩,
  ⟨true, rRQ_ING_NF, 0, 1, 0, 1, true, 0x0, 0x0, 0x0, 0x0, 0x0⟩,
  ⟨true, rRQ_SSE, 0, 1, 0, 1, true, 0x0, 0x0, 0x0, 0x0, 0x0⟩,
  ⟨true, rRQ_SAMP, 0, 1, 0, 1, true, 0x0, 0x0, 0x0, 0x0, 0x0⟩,
  ⟨true, rSPARSE_STAT, 0, 1, 0, 1, false, 0x0, 0x0, 0x0, 0x3, 0x0⟩,
  ⟨true, rSPARSE_MRG_STAT, 0, 1, 0, 1, false, 0x0, 0x0, 0x0, 0x0, 0x0⟩,
  ⟨true, rSPARSE_CNT_PACKS, 0, 1, 0, 1, true, 0x0, 0x0, 0x0, 0x0, 0x0⟩,
  ⟨true, rSPARSE_CNT_PACKD, 0, 1, 0, 1, true, 0x0, 0x0, 0x0, 0x0, 0x0⟩,
  ⟨true, rSPARSE_CNT_NNZ, 0, 1, 0, 1, true, 0x0, 0x0, 0x0, 0x0, 0x0⟩,
  ⟨true, rSPARSE_CNT_POS, 0, 1, 0, 1, true, 0x0, 0x0, 0x0, 0x0, 0x0⟩,
  ⟨true, rSPARSE_CNT_METAF, 0, 1, 0, 1, true, 0x0, 0x0, 0x0, 0x0, 0x0⟩,
  ⟨true, rSPARSE_CNT_PAIR, 0, 1, 0, 1, true, 0x0, 0x0, 0x0, 0x0, 0x0⟩,
  ⟨true, rSPARSE_CNT_ZRPL, 0, 1, 0, 1, true, 0x0, 0x0, 0x0, 0x0, 0x0⟩,
  ⟨true, rSPARSE_CNT_ZRSK, 0, 1, 0, 1, true, 0x0, 0x0, 0x0, 0x0, 0x0⟩,
  ⟨true, rSPARSE_CNT_MARR, 0, 1, 0, 1, true, 0x0, 0x0, 0x0, 0x0, 0x0⟩,
  ⟨true, rSPARSE_CNT_MDONE, 0, 1, 0, 1, true, 0x0, 0x0, 0x0, 0x0, 0x0⟩,
  ⟨true, rSPARSE_CNT_MSPEC, 0, 1, 0, 1, true, 0x0, 0x0, 0x0, 0x0, 0x0⟩,
  ⟨false, rSTRK_CTL, 0, 1, 0, 1, false, 0x40107, 0x0, 0xf0103, 0x0, 0x0⟩,
  ⟨false, rSTRK_PERIOD, 0, 1, 0, 1, false, 0x1f4, 0x0, 0xfff, 0x0, 0x0⟩,
  ⟨false, rSTRK_PHASE, 0, 1, 0, 1, false, 0x641414, 0x0, 0xfffffff, 0x0, 0x0⟩]
/-- Register rows, part 2. -/
def regRows2 : List RegRow := [
  ⟨false, rSTRK_TICK_CFG, 0, 1, 0, 1, false, 0x643801f4, 0x0, 0xffff1fff, 0x0, 0x0⟩,
  ⟨false, rSTRK_PHASE_OFS, 0, 1, 0, 1, false, 0x0, 0x0, 0xffffffff, 0x0, 0x0⟩,
  ⟨false, rSTRK_STATUS, 0, 1, 0, 1, false, 0x12, 0x0, 0x0, 0xf00, 0x0⟩,
  ⟨false, rSTRK_TICK, 0, 1, 0, 1, true, 0x0, 0x0, 0x0, 0x0, 0x0⟩,
  ⟨false, rSTRK_TICK_TIME, 0, 1, 0, 1, true, 0x0, 0x0, 0x0, 0x0, 0x0⟩,
  ⟨false, rSTRK_NOW, 0, 1, 0, 1, true, 0x0, 0x0, 0x0, 0x0, 0x0⟩,
  ⟨false, rSTRK_LAST_ERR, 0, 1, 0, 1, false, 0x0, 0x0, 0x0, 0x0, 0x0⟩,
  ⟨false, rSTRK_PSTROKE, 8, 16, 0, 1, true, 0x5000000000000, 0x0, 0x0, 0x0, 0x0⟩,
  ⟨false, rSTRK_PBUCKET, 4, 16, 0, 1, false, 0xc0, 0x0, 0x0, 0x0, 0x0⟩,
  ⟨false, rSTRK_PSLIP, 4, 16, 0, 1, false, 0x0, 0x0, 0x0, 0x0, 0x0⟩,
  ⟨false, rSTRK_CNT_SLIP, 0, 1, 0, 1, true, 0x0, 0x0, 0x0, 0x0, 0x0⟩,
  ⟨false, rSTRK_CNT_CONSUMED, 0, 1, 0, 1, true, 0x0, 0x0, 0x0, 0x0, 0x0⟩,
  ⟨false, rSTRK_CNT_OVERRUN, 0, 1, 0, 1, true, 0x0, 0x0, 0x0, 0x0, 0x0⟩,
  ⟨false, rSTRK_CNT_HUNG, 0, 1, 0, 1, true, 0x0, 0x0, 0x0, 0x0, 0x0⟩,
  ⟨false, rSTRK_CNT_MISS, 0, 1, 0, 1, true, 0x0, 0x0, 0x0, 0x0, 0x0⟩,
  ⟨false, rSTRK_CNT_WINDOW, 0, 1, 0, 1, true, 0x0, 0x0, 0x0, 0x0, 0x0⟩,
  ⟨false, rSTRK_CNT_SRCCHG, 0, 1, 0, 1, true, 0x0, 0x0, 0x0, 0x0, 0x0⟩,
  ⟨false, rSTRK_CNT_REALIGN, 0, 1, 0, 1, true, 0x0, 0x0, 0x0, 0x0, 0x0⟩,
  ⟨false, rSTRK_CNT_SHORT, 0, 1, 0, 1, true, 0x0, 0x0, 0x0, 0x0, 0x0⟩,
  ⟨false, rSTRK_CNT_DEFER, 0, 1, 0, 1, true, 0x0, 0x0, 0x0, 0x0, 0x0⟩,
  ⟨false, rSTRK_CNT_GATENR, 0, 1, 0, 1, true, 0x0, 0x0, 0x0, 0x0, 0x0⟩,
  ⟨true, rKV_CFG, 0, 1, 0, 1, false, 0x19011f, 0x0, 0xff011f, 0x0, 0x0⟩,
  ⟨true, rKV_PT_STAT, 0, 1, 0, 1, false, 0x0, 0x0, 0x0, 0x0, 0x0⟩,
  ⟨true, rKV_HBM_STAT, 0, 1, 0, 1, false, 0x0, 0x0, 0x0, 0x3, 0x0⟩]
/-- Register rows, part 3. -/
def regRows3 : List RegRow := [
  ⟨true, rKV_FRAME_STAT, 0, 1, 0, 1, true, 0x0, 0x0, 0x0, 0x0, 0x0⟩,
  ⟨true, rKV_CNT_PAGE, 0, 1, 0, 1, true, 0x0, 0x0, 0x0, 0x0, 0x0⟩,
  ⟨true, rKV_CNT_REC, 0, 1, 0, 1, true, 0x0, 0x0, 0x0, 0x0, 0x0⟩,
  ⟨true, rKV_CNT_CE, 0, 1, 0, 1, true, 0x0, 0x0, 0x0, 0x0, 0x0⟩,
  ⟨true, rKV_CNT_UE, 0, 1, 0, 1, true, 0x0, 0x0, 0x0, 0x0, 0x0⟩,
  ⟨true, rKV_CNT_REREAD, 0, 1, 0, 1, true, 0x0, 0x0, 0x0, 0x0, 0x0⟩,
  ⟨true, rKV_CNT_BUDGET, 0, 1, 0, 1, true, 0x0, 0x0, 0x0, 0x0, 0x0⟩,
  ⟨true, rKV_CNT_FLIP, 0, 1, 0, 1, true, 0x0, 0x0, 0x0, 0x0, 0x0⟩,
  ⟨true, rKV_CNT_CRESTART, 0, 1, 0, 1, true, 0x0, 0x0, 0x0, 0x0, 0x0⟩,
  ⟨true, rKV_CNT_PARK, 0, 1, 0, 1, true, 0x0, 0x0, 0x0, 0x0, 0x0⟩,
  ⟨true, rKV_CNT_RESUME, 0, 1, 0, 1, true, 0x0, 0x0, 0x0, 0x0, 0x0⟩,
  ⟨true, rKV_CNT_SAMPLE, 0, 1, 0, 1, true, 0x0, 0x0, 0x0, 0x0, 0x0⟩,
  ⟨true, rKV_CNT_SSHORT, 0, 1, 0, 1, true, 0x0, 0x0, 0x0, 0x0, 0x0⟩,
  ⟨true, rKV_CNT_HOTREF, 0, 1, 0, 1, true, 0x0, 0x0, 0x0, 0x0, 0x0⟩,
  ⟨true, rFAB_CFG, 0, 1, 0, 1, false, 0x3000a, 0x0, 0xf00ff, 0x0, 0x0⟩,
  ⟨true, rFAB_STAT, 0, 1, 0, 1, false, 0x0, 0x0, 0x0, 0xf, 0x0⟩,
  ⟨true, rFAB_LINK, 0, 1, 0, 1, false, 0x0, 0x0, 0x0, 0x0, 0x0⟩,
  ⟨true, rFAB_HUBWHEEL, 4, 16, 0, 1, false, 0x1f1f1f1f, 0x0, 0x0, 0x0, 0x0⟩,
  ⟨true, rFAB_LEQ_STAT, 4, 16, 0, 1, false, 0x0, 0x0, 0x0, 0x20000000, 0x0⟩,
  ⟨true, rFAB_CNT_TX, 0, 1, 0, 1, true, 0x0, 0x0, 0x0, 0x0, 0x0⟩,
  ⟨true, rFAB_CNT_RX, 0, 1, 0, 1, true, 0x0, 0x0, 0x0, 0x0, 0x0⟩,
  ⟨true, rFAB_CNT_RETRY, 0, 1, 0, 1, true, 0x0, 0x0, 0x0, 0x0, 0x0⟩,
  ⟨true, rFAB_CNT_LATE, 0, 1, 0, 1, true, 0x0, 0x0, 0x0, 0x0, 0x0⟩,
  ⟨true, rFAB_CNT_TMO, 0, 1, 0, 1, true, 0x0, 0x0, 0x0, 0x0, 0x0⟩]
/-- Register rows, part 4. -/
def regRows4 : List RegRow := [
  ⟨true, rFAB_CNT_STALE, 0, 1, 0, 1, true, 0x0, 0x0, 0x0, 0x0, 0x0⟩,
  ⟨true, rFAB_CNT_BADHDR, 0, 1, 0, 1, true, 0x0, 0x0, 0x0, 0x0, 0x0⟩,
  ⟨true, rSPAD_STAT, 0, 1, 0, 1, false, 0x0, 0x0, 0x0, 0x3, 0x0⟩,
  ⟨true, rSPAD_CNT_STALL, 8, 5, 0, 1, true, 0x0, 0x0, 0x0, 0x0, 0x0⟩,
  ⟨true, rSPAD_CNT_CE, 0, 1, 0, 1, true, 0x0, 0x0, 0x0, 0x0, 0x0⟩,
  ⟨true, rSPAD_CNT_UE, 0, 1, 0, 1, true, 0x0, 0x0, 0x0, 0x0, 0x0⟩,
  ⟨true, rSPAD_CNT_TREG, 0, 1, 0, 1, true, 0x0, 0x0, 0x0, 0x0, 0x0⟩,
  ⟨true, rSPAD_CNT_REDIR, 0, 1, 0, 1, true, 0x0, 0x0, 0x0, 0x0, 0x0⟩,
  ⟨false, rSEAL_STAT, 0, 1, 0, 1, false, 0x0, 0x0, 0x0, 0xf, 0x0⟩,
  ⟨false, rSEAL_INSP_SEL, 0, 1, 0, 1, false, 0x0, 0x3fff, 0x0, 0x0, 0x0⟩,
  ⟨false, rSEAL_INSP_DATA, 4, 5, 0, 1, false, 0x0, 0x0, 0x0, 0x0, 0x0⟩,
  ⟨false, rSEAL_PQUOTA, 4, 16, 0, 1, false, 0x0, 0x0, 0x0, 0x0, 0x0⟩,
  ⟨false, rSEAL_CNT_OPS, 0, 1, 0, 1, true, 0x0, 0x0, 0x0, 0x0, 0x0⟩,
  ⟨false, rSEAL_CNT_WAKE, 0, 1, 0, 1, true, 0x0, 0x0, 0x0, 0x0, 0x0⟩,
  ⟨false, rSEAL_CNT_REL, 0, 1, 0, 1, true, 0x0, 0x0, 0x0, 0x0, 0x0⟩,
  ⟨false, rSEAL_CNT_ABANDON, 0, 1, 0, 1, true, 0x0, 0x0, 0x0, 0x0, 0x0⟩,
  ⟨false, rSEAL_CNT_STALE, 0, 1, 0, 1, true, 0x0, 0x0, 0x0, 0x0, 0x0⟩,
  ⟨false, rSEAL_CNT_FWD, 0, 1, 0, 1, true, 0x0, 0x0, 0x0, 0x0, 0x0⟩,
  ⟨false, rSEAL_CNT_SPIN, 0, 1, 0, 1, true, 0x0, 0x0, 0x0, 0x0, 0x0⟩,
  ⟨false, rSTRM_STAT, 0, 1, 0, 1, false, 0x0, 0x0, 0x0, 0x7, 0x0⟩,
  ⟨false, rSTRM_INSP_SEL, 0, 1, 0, 1, false, 0x0, 0xfffff, 0x0, 0x0, 0x0⟩,
  ⟨false, rSTRM_INSP_DATA, 4, 16, 0, 1, false, 0x0, 0x0, 0x0, 0x0, 0x0⟩,
  ⟨false, rSTRM_PCOUNT, 8, 16, 0, 1, true, 0x0, 0x0, 0x0, 0x0, 0x0⟩,
  ⟨false, rSTRM_CNT_ADMIT, 0, 1, 0, 1, true, 0x0, 0x0, 0x0, 0x0, 0x0⟩]
/-- Register rows, part 5. -/
def regRows5 : List RegRow := [
  ⟨false, rSTRM_CNT_REJECT, 0, 1, 0, 1, true, 0x0, 0x0, 0x0, 0x0, 0x0⟩,
  ⟨false, rSTRM_CNT_TOKEN, 0, 1, 0, 1, true, 0x0, 0x0, 0x0, 0x0, 0x0⟩,
  ⟨false, rSTRM_CNT_PTOK, 0, 1, 0, 1, true, 0x0, 0x0, 0x0, 0x0, 0x0⟩,
  ⟨false, rSTRM_CNT_WHELD, 0, 1, 0, 1, true, 0x0, 0x0, 0x0, 0x0, 0x0⟩,
  ⟨false, rSTRM_CNT_DEF, 8, 6, 0, 1, true, 0x0, 0x0, 0x0, 0x0, 0x0⟩,
  ⟨false, rSTRM_CNT_ENDED, 0, 1, 0, 1, true, 0x0, 0x0, 0x0, 0x0, 0x0⟩,
  ⟨false, rSTRM_CNT_DEFCAP, 0, 1, 0, 1, true, 0x0, 0x0, 0x0, 0x0, 0x0⟩,
  ⟨false, rPART_CMD, 0, 1, 0, 1, false, 0x0, 0x0, 0x0, 0x0, 0xffffffff⟩,
  ⟨false, rPART_CMD_STAT, 0, 1, 0, 1, false, 0x0, 0x0, 0x0, 0x80000000, 0x0⟩,
  ⟨false, rPART_CFG_ADDR, 0, 1, 0, 1, true, 0x0, 0xffffffffffffffc0, 0x0, 0x0, 0x0⟩,
  ⟨false, rPART_STATE, 4, 16, 0, 1, false, 0x0, 0x0, 0x0, 0x0, 0x0⟩,
  ⟨false, rPART_SITES, 8, 16, 0, 1, true, 0x0, 0x0, 0x0, 0x0, 0x0⟩,
  ⟨false, rPART_STREAMS, 4, 16, 0, 1, false, 0x0, 0x0, 0x0, 0x0, 0x0⟩,
  ⟨false, rPWR_CTL, 0, 1, 0, 1, false, 0x10f, 0x0, 0x10f, 0x0, 0x80000000⟩,
  ⟨false, rPWR_STATUS, 0, 1, 0, 1, false, 0x4400, 0x0, 0x0, 0x1f, 0x0⟩,
  ⟨false, rPWR_LIMIT_A, 0, 1, 0, 1, false, 0x42684650, 0x0, 0xffffffff, 0x0, 0x0⟩,
  ⟨false, rPWR_LIMIT_B, 0, 1, 0, 1, false, 0x12c0fa0, 0x0, 0x1ffffff, 0x0, 0x0⟩,
  ⟨false, rPWR_THERM, 0, 1, 0, 1, false, 0x32869, 0x0, 0xfffff, 0x0, 0x0⟩,
  ⟨false, rPWR_GRANT_NOW, 0, 1, 0, 1, false, 0x80000fa0, 0x0, 0x0, 0x0, 0x0⟩,
  ⟨false, rPWR_BUDGET_NOW, 0, 1, 0, 1, false, 0x810fa0, 0x0, 0x0, 0x0, 0x0⟩,
  ⟨false, rPWR_CAL, 0, 1, 0, 1, false, 0x400000, 0x0, 0x0, 0x0, 0x0⟩,
  ⟨false, rPWR_SITE_SEL, 0, 1, 0, 1, false, 0x0, 0x7f, 0x0, 0x0, 0x0⟩,
  ⟨false, rPWR_SITE_DATA, 4, 4, 0, 1, false, 0x0, 0x0, 0x0, 0x0, 0x0⟩,
  ⟨false, rPWR_PREF, 4, 16, 0, 1, false, 0xa8c, 0x0, 0xffff, 0x0, 0x0⟩]
/-- Register rows, part 6. -/
def regRows6 : List RegRow := [
  ⟨false, rPWR_E_TICK, 0, 1, 0, 1, true, 0x0, 0x0, 0x0, 0x0, 0x0⟩,
  ⟨false, rPWR_E_SHARED, 0, 1, 0, 1, true, 0x0, 0x0, 0x0, 0x0, 0x0⟩,
  ⟨false, rPWR_E_UNASSIGNED, 0, 1, 0, 1, true, 0x0, 0x0, 0x0, 0x0, 0x0⟩,
  ⟨false, rPWR_E_RESID, 0, 1, 0, 1, true, 0x0, 0x0, 0x0, 0x0, 0x0⟩,
  ⟨false, rPWR_E_TOTAL, 0, 1, 0, 1, true, 0x0, 0x0, 0x0, 0x0, 0x0⟩,
  ⟨false, rPWR_FLOOR_RATIO, 0, 1, 0, 1, false, 0x0, 0x0, 0x0, 0x0, 0x0⟩,
  ⟨false, rPWR_E_PART, 8, 16, 0, 1, true, 0x0, 0x0, 0x0, 0x0, 0x0⟩,
  ⟨false, rPWR_THR_US, 16, 8, 0, 1, true, 0x0, 0x0, 0x0, 0x0, 0x0⟩,
  ⟨false, rPWR_THR_EV, 16, 8, 0, 1, true, 0x0, 0x0, 0x0, 0x0, 0x0⟩,
  ⟨false, rPWR_CNT_HOLD, 0, 1, 0, 1, true, 0x0, 0x0, 0x0, 0x0, 0x0⟩,
  ⟨false, rPWR_CNT_GUARD, 0, 1, 0, 1, true, 0x0, 0x0, 0x0, 0x0, 0x0⟩,
  ⟨false, rPWR_CNT_DROOP, 0, 1, 0, 1, true, 0x0, 0x0, 0x0, 0x0, 0x0⟩,
  ⟨false, rPWR_CNT_GRANT, 0, 1, 0, 1, true, 0x0, 0x0, 0x0, 0x0, 0x0⟩,
  ⟨false, rPWR_CNT_MISS, 0, 1, 0, 1, true, 0x0, 0x0, 0x0, 0x0, 0x0⟩,
  ⟨false, rPWR_CNT_CAL, 0, 1, 0, 1, true, 0x0, 0x0, 0x0, 0x0, 0x0⟩,
  ⟨false, rCLT_CTL, 0, 1, 0, 1, false, 0x1, 0x0, 0x1e3, 0x0, 0x80000000⟩,
  ⟨false, rCLT_STATUS, 0, 1, 0, 1, false, 0x0, 0x0, 0x0, 0xf, 0x0⟩,
  ⟨false, rCLT_SET, 0, 1, 0, 1, false, 0x5537, 0x0, 0xffff, 0x0, 0x0⟩,
  ⟨false, rCLT_GAIN, 0, 1, 0, 1, false, 0x800280, 0x0, 0xffffffff, 0x0, 0x0⟩,
  ⟨false, rCLT_LIMIT, 0, 1, 0, 1, false, 0x643c46, 0x0, 0x3ffffff, 0x0, 0x0⟩,
  ⟨false, rCLT_FLUID, 0, 1, 0, 1, false, 0x4100e74, 0x0, 0x7ff1fff, 0x0, 0x0⟩,
  ⟨false, rCLT_VALVE, 0, 1, 0, 1, false, 0x3e8, 0x0, 0x0, 0x0, 0x0⟩,
  ⟨false, rCLT_CAP, 0, 1, 0, 1, false, 0xf4650, 0x0, 0x0, 0x0, 0x0⟩,
  ⟨false, rCLT_TEMP_IN, 0, 1, 0, 1, false, 0x0, 0x0, 0x0, 0x0, 0x0⟩]
/-- Register rows, part 7. -/
def regRows7 : List RegRow := [
  ⟨false, rCLT_TEMP_OUT, 0, 1, 0, 1, false, 0x0, 0x0, 0x0, 0x0, 0x0⟩,
  ⟨false, rCLT_PRESS, 0, 1, 0, 1, false, 0x0, 0x0, 0x0, 0x0, 0x0⟩,
  ⟨false, rCLT_FLOW, 0, 1, 0, 1, false, 0x0, 0x0, 0x0, 0x0, 0x0⟩,
  ⟨false, rCLT_CNT_LOOP, 0, 1, 0, 1, true, 0x0, 0x0, 0x0, 0x0, 0x0⟩,
  ⟨false, rCLT_CNT_FLOWLOW, 0, 1, 0, 1, true, 0x0, 0x0, 0x0, 0x0, 0x0⟩,
  ⟨false, rCLT_CNT_CAP, 0, 1, 0, 1, true, 0x0, 0x0, 0x0, 0x0, 0x0⟩,
  ⟨false, rCLT_CNT_STEPS, 0, 1, 0, 1, true, 0x0, 0x0, 0x0, 0x0, 0x0⟩,
  ⟨false, rDOM_STATUS, 0, 1, 0, 1, false, 0x0, 0x0, 0x0, 0x7, 0x0⟩,
  ⟨false, rDOM_CMD, 0, 1, 0, 1, false, 0x0, 0x0, 0x0, 0x0, 0xffffffff⟩,
  ⟨false, rDOM_CMD_STAT, 0, 1, 0, 1, false, 0x0, 0x0, 0x0, 0x80000000, 0x0⟩,
  ⟨false, rDOM_SEL, 0, 1, 0, 1, false, 0x0, 0x1ff, 0x0, 0x0, 0x0⟩,
  ⟨false, rDOM_DATA0, 0, 1, 0, 1, false, 0x0, 0x0, 0x0, 0x0, 0x0⟩,
  ⟨false, rDOM_DATA1, 0, 1, 0, 1, false, 0x0, 0x0, 0x0, 0x0, 0x0⟩,
  ⟨false, rDOM_FAULT, 4, 14, 0, 1, false, 0x0, 0x0, 0x0, 0x0, 0x0⟩,
  ⟨false, rDOM_CNT_SS, 0, 1, 0, 1, true, 0x0, 0x0, 0x0, 0x0, 0x0⟩,
  ⟨false, rDOM_CNT_SHORT, 0, 1, 0, 1, true, 0x0, 0x0, 0x0, 0x0, 0x0⟩,
  ⟨false, rDOM_CNT_HOLD, 0, 1, 0, 1, true, 0x0, 0x0, 0x0, 0x0, 0x0⟩,
  ⟨false, rDOM_CNT_ABORT, 0, 1, 0, 1, true, 0x0, 0x0, 0x0, 0x0, 0x0⟩,
  ⟨false, rGLB_WGL_STAT, 0, 1, 0, 1, false, 0x1000000, 0x0, 0x0, 0xf000, 0x0⟩,
  ⟨false, rGLB_OD_CMD, 0, 1, 0, 1, false, 0x0, 0x0, 0x0, 0x0, 0xffffffff⟩,
  ⟨false, rGLB_OD_STAT, 0, 1, 0, 1, false, 0x0, 0x0, 0x0, 0x70000000, 0x0⟩,
  ⟨false, rGLB_WGL_CNT_RX, 0, 1, 0, 1, true, 0x0, 0x0, 0x0, 0x0, 0x0⟩,
  ⟨false, rGLB_WGL_CNT_TX, 0, 1, 0, 1, true, 0x0, 0x0, 0x0, 0x0, 0x0⟩,
  ⟨false, rGLB_WGL_CNT_FWD, 0, 1, 0, 1, true, 0x0, 0x0, 0x0, 0x0, 0x0⟩]
/-- Register rows, part 8. -/
def regRows8 : List RegRow := [
  ⟨false, rGLB_WGL_CNT_LATE, 0, 1, 0, 1, true, 0x0, 0x0, 0x0, 0x0, 0x0⟩,
  ⟨false, rGLB_WGL_CNT_SLOW, 0, 1, 0, 1, true, 0x0, 0x0, 0x0, 0x0, 0x0⟩,
  ⟨false, rGLB_WGL_CNT_INVALID, 0, 1, 0, 1, true, 0x0, 0x0, 0x0, 0x0, 0x0⟩,
  ⟨false, rGLB_WGL_CNT_DENIED, 0, 1, 0, 1, true, 0x0, 0x0, 0x0, 0x0, 0x0⟩,
  ⟨false, rGLB_WGL_CNT_GRANT, 0, 1, 0, 1, true, 0x0, 0x0, 0x0, 0x0, 0x0⟩,
  ⟨false, rGLB_WGL_CNT_NOTIFY, 0, 1, 0, 1, true, 0x0, 0x0, 0x0, 0x0, 0x0⟩,
  ⟨false, rGLB_WGL_CNT_NDROP, 0, 1, 0, 1, true, 0x0, 0x0, 0x0, 0x0, 0x0⟩,
  ⟨false, rGLB_OD_BUF, 4, 512, 0, 1, false, 0x0, 0xffffffff, 0x0, 0x0, 0x0⟩,
  ⟨false, rSEC_BOOT_CMD, 0, 1, 0, 1, false, 0x0, 0x0, 0x0, 0x0, 0xffffffff⟩,
  ⟨false, rSEC_BOOT_STAT, 0, 1, 0, 1, false, 0x0, 0x0, 0x0, 0xc0000000, 0x0⟩,
  ⟨false, rSEC_IMG_ADDR, 0, 1, 0, 1, true, 0x0, 0xfffffffffffff000, 0x0, 0x0, 0x0⟩,
  ⟨false, rSEC_IFLEVEL, 0, 1, 0, 1, false, 0x0, 0xf, 0x0, 0x0, 0x0⟩,
  ⟨false, rSEC_LC, 0, 1, 0, 1, false, 0x0, 0x40000000, 0x0, 0x0, 0x0⟩,
  ⟨false, rSEC_KEYS, 0, 1, 0, 1, false, 0x0, 0x0, 0x0, 0x0, 0x0⟩,
  ⟨false, rSEC_CAP, 0, 1, 0, 1, false, 0x10ff7f, 0x0, 0x0, 0x0, 0x0⟩,
  ⟨false, rSEC_LOAD_BYTES, 0, 1, 0, 1, true, 0x0, 0x0, 0x0, 0x0, 0x0⟩,
  ⟨false, rSEC_MEAS, 4, 12, 0, 1, false, 0x0, 0x0, 0x0, 0x0, 0x0⟩,
  ⟨false, rSEC_PMEAS, 48, 16, 4, 12, false, 0x0, 0x0, 0x0, 0x0, 0x0⟩,
  ⟨false, rBIST_CTL, 0, 1, 0, 1, false, 0x100005, 0x0, 0x7f0007, 0x0, 0x0⟩,
  ⟨false, rBIST_WINDOW, 0, 1, 0, 1, false, 0x334026c, 0x0, 0x3ff03ff, 0x0, 0x0⟩,
  ⟨false, rBIST_STAT, 0, 1, 0, 1, false, 0x0, 0x0, 0x0, 0xf, 0x0⟩,
  ⟨false, rBIST_SEL, 0, 1, 0, 1, false, 0x0, 0x7f, 0x0, 0x0, 0x0⟩,
  ⟨false, rBIST_SITE_DATA, 4, 3, 0, 1, false, 0x0, 0x0, 0x0, 0x0, 0x0⟩,
  ⟨false, rBIST_RESULT, 4, 8, 0, 1, false, 0x0, 0x0, 0x0, 0x0, 0x0⟩]
/-- Register rows, part 9. -/
def regRows9 : List RegRow := [
  ⟨false, rBIST_CNT_SLICE, 0, 1, 0, 1, true, 0x0, 0x0, 0x0, 0x0, 0x0⟩,
  ⟨false, rBIST_CNT_SKIP, 0, 1, 0, 1, true, 0x0, 0x0, 0x0, 0x0, 0x0⟩,
  ⟨false, rBIST_CNT_CURTAIL, 0, 1, 0, 1, true, 0x0, 0x0, 0x0, 0x0, 0x0⟩,
  ⟨false, rBIST_CNT_YIELD, 0, 1, 0, 1, true, 0x0, 0x0, 0x0, 0x0, 0x0⟩,
  ⟨false, rBIST_CNT_GROUP, 0, 1, 0, 1, true, 0x0, 0x0, 0x0, 0x0, 0x0⟩,
  ⟨false, rBIST_CNT_SOFT, 0, 1, 0, 1, true, 0x0, 0x0, 0x0, 0x0, 0x0⟩,
  ⟨false, rBIST_CNT_FAIL, 0, 1, 0, 1, true, 0x0, 0x0, 0x0, 0x0, 0x0⟩,
  ⟨false, rBIST_CNT_REPAIR, 0, 1, 0, 1, true, 0x0, 0x0, 0x0, 0x0, 0x0⟩,
  ⟨false, rBIST_CNT_ANALOG, 0, 1, 0, 1, true, 0x0, 0x0, 0x0, 0x0, 0x0⟩,
  ⟨false, rFLT_JRNL_STAT, 0, 1, 0, 1, false, 0x18000000, 0x0, 0x0, 0x60000000, 0x0⟩,
  ⟨false, rFLT_JRNL_CMD, 0, 1, 0, 1, false, 0x0, 0x0, 0x0, 0x0, 0xffffffff⟩,
  ⟨false, rFLT_JRNL_SEL, 0, 1, 0, 1, false, 0x0, 0xffffffff, 0x0, 0x0, 0x0⟩,
  ⟨false, rFLT_JRNL_DATA, 4, 8, 0, 1, false, 0x0, 0x0, 0x0, 0x0, 0x0⟩,
  ⟨false, rFLT_STBY_STAT, 0, 1, 0, 1, false, 0x0, 0x0, 0x0, 0x0, 0x0⟩,
  ⟨false, rFLT_STBY_SEL, 0, 1, 0, 1, false, 0x0, 0x3f, 0x0, 0x0, 0x0⟩,
  ⟨false, rFLT_STBY_DATA, 4, 8, 0, 1, false, 0x0, 0x0, 0x0, 0x0, 0x0⟩,
  ⟨false, rFLT_BADACC_ADDR, 0, 1, 0, 1, false, 0x0, 0x0, 0x0, 0x0, 0x0⟩,
  ⟨false, rFLT_BADACC_INFO, 0, 1, 0, 1, false, 0x0, 0x0, 0x0, 0x80000000, 0x0⟩,
  ⟨false, rFLT_CNT_ENTRY, 0, 1, 0, 1, true, 0x0, 0x0, 0x0, 0x0, 0x0⟩,
  ⟨false, rFLT_CNT_DROP, 0, 1, 0, 1, true, 0x0, 0x0, 0x0, 0x0, 0x0⟩,
  ⟨false, rFLT_CNT_ECC, 0, 1, 0, 1, true, 0x0, 0x0, 0x0, 0x0, 0x0⟩,
  ⟨false, rPAIR_CTL, 0, 1, 0, 1, false, 0x4, 0x0, 0xffff0007, 0x0, 0x0⟩,
  ⟨false, rPAIR_CMD, 0, 1, 0, 1, false, 0x0, 0x0, 0x0, 0x0, 0xffffffff⟩,
  ⟨false, rPAIR_STATUS, 0, 1, 0, 1, false, 0x0, 0x0, 0x0, 0xf0000000, 0x0⟩]
/-- Register rows, part 10. -/
def regRows10 : List RegRow := [
  ⟨false, rPAIR_EPOCH, 0, 1, 0, 1, false, 0x0, 0x0, 0x0, 0x0, 0x0⟩,
  ⟨false, rPAIR_PARTNER, 0, 1, 0, 1, true, 0x0, 0x0, 0x0, 0x0, 0x0⟩,
  ⟨false, rPAIR_SKEW, 0, 1, 0, 1, false, 0x0, 0x0, 0x0, 0x0, 0x0⟩,
  ⟨false, rPAIR_CNT_HBMISS, 0, 1, 0, 1, true, 0x0, 0x0, 0x0, 0x0, 0x0⟩,
  ⟨false, rPAIR_CNT_PWAIT, 0, 1, 0, 1, true, 0x0, 0x0, 0x0, 0x0, 0x0⟩,
  ⟨false, rPAIR_CNT_MISMATCH, 0, 1, 0, 1, true, 0x0, 0x0, 0x0, 0x0, 0x0⟩,
  ⟨false, rPAIR_CNT_TAKEOVER, 0, 1, 0, 1, true, 0x0, 0x0, 0x0, 0x0, 0x0⟩,
  ⟨false, rPAIR_CNT_STALE, 0, 1, 0, 1, true, 0x0, 0x0, 0x0, 0x0, 0x0⟩,
  ⟨false, rPAIR_CNT_REPLAY, 0, 1, 0, 1, true, 0x0, 0x0, 0x0, 0x0, 0x0⟩,
  ⟨false, rPAIR_CNT_DELTA, 0, 1, 0, 1, true, 0x0, 0x0, 0x0, 0x0, 0x0⟩,
  ⟨false, rPAIR_CNT_CQWAIT, 0, 1, 0, 1, true, 0x0, 0x0, 0x0, 0x0, 0x0⟩,
  ⟨false, rRPL_CTL, 64, 16, 0, 1, false, 0x400100, 0x0, 0xff0103, 0x0, 0x0⟩,
  ⟨false, rRPL_STATUS, 64, 16, 0, 1, false, 0x4000000, 0x0, 0x0, 0x58000000, 0x0⟩,
  ⟨false, rRPL_BASE, 64, 16, 0, 1, true, 0x0, 0x0, 0xfffffffffffff000, 0x0, 0x0⟩,
  ⟨false, rRPL_SIZE, 64, 16, 0, 1, false, 0x6, 0x0, 0x1f, 0x0, 0x0⟩,
  ⟨false, rRPL_HEAD, 64, 16, 0, 1, false, 0x0, 0x1ffffff, 0x0, 0x0, 0x0⟩,
  ⟨false, rRPL_TAIL, 64, 16, 0, 1, false, 0x0, 0x1ffffff, 0x0, 0x0, 0x0⟩,
  ⟨false, rRPL_OFFSET, 64, 16, 0, 1, true, 0x0, 0x0, 0xffffffffffff, 0x0, 0x0⟩,
  ⟨false, rRPL_DIV_STROKE, 64, 16, 0, 1, true, 0x0, 0x0, 0x0, 0x0, 0x0⟩,
  ⟨false, rRPL_TAP_STAT, 0, 1, 0, 1, false, 0x1, 0x0, 0x0, 0x500, 0x0⟩,
  ⟨false, rRPL_CNT_ENTRY, 0, 1, 0, 1, true, 0x0, 0x0, 0x0, 0x0, 0x0⟩,
  ⟨false, rRPL_CNT_DROP, 0, 1, 0, 1, true, 0x0, 0x0, 0x0, 0x0, 0x0⟩,
  ⟨false, rRPL_CNT_WAIT, 0, 1, 0, 1, true, 0x0, 0x0, 0x0, 0x0, 0x0⟩,
  ⟨false, rGLB_ID, 0, 1, 0, 1, false, 0x4b322010, 0x0, 0x0, 0x0, 0x0⟩]
/-- Register rows, part 11. -/
def regRows11 : List RegRow := [
  ⟨false, rGLB_CFG_LOCK, 0, 1, 0, 1, false, 0x0, 0x0, 0x0, 0x0, 0x1⟩,
  ⟨false, rGLB_STATUS, 0, 1, 0, 1, false, 0x0, 0x0, 0x0, 0x1, 0x0⟩,
  ⟨false, rGLB_LOCK_VIOL_COUNT, 0, 1, 0, 1, true, 0x0, 0x0, 0x0, 0x0, 0x0⟩,
  ⟨false, rGLB_SITEMAP, 4, 64, 0, 1, false, 0x0, 0x0, 0x0, 0x0, 0x0⟩]
/-- Every register row. -/
def regRows : List RegRow := regRows0 ++ regRows1 ++ regRows2 ++ regRows3 ++ regRows4 ++ regRows5 ++ regRows6 ++ regRows7 ++ regRows8 ++ regRows9 ++ regRows10 ++ regRows11

/-- Does `o` (an offset in the row's window) name a register of the row? -/
def RegRow.covers (r : RegRow) (o : Nat) : Bool :=
  decide (r.base ≤ o) &&
    (let d := o - r.base
     if r.count2 > 1 then
       decide (d / r.stride < r.count) && decide (d % r.stride / r.stride2 < r.count2) && d % r.stride % r.stride2 == 0
     else if r.count > 1 then decide (d / r.stride < r.count) && d % r.stride == 0
     else d == 0)

/-- Is the BAR0 offset in a site window? Site windows exist for physical sites 0-71. -/
def inSiteWindow (a : Nat) : Bool := decide (siteWindow0 ≤ a) && decide (a < siteWindow0 + 72 * siteStride)

/-- The row of the register at BAR0 offset `a`, if there is one. -/
def regRow (a : Nat) : Option RegRow :=
  if inSiteWindow a then regRows.find? (fun r => r.site && r.covers ((a - siteWindow0) % siteStride))
  else regRows.find? (fun r => !r.site && r.covers a)

end Sys2Proof.Machine
end

