-- ==== Sys2Proof/Machine/State.lean ====
section
/-! DEFINITION. The machine state as plain data, the ways a command can stop, and the state after reset. -/

namespace Sys2Proof.Machine

/-- How a command can stop with a fault. No command of this block does: every condition the manual calls a fault is
journalled and answered by a next state (R485). The one constructor names a state no run reaches. -/
inductive Fault where
  /-- raised by no command; safe -/
  | unreachable
  deriving DecidableEq, Repr

/-- How a command can be refused. -/
inductive Refusal where
  /-- the command has no meaning yet, rejected by name in Dispatch; safe -/
  | notModelled (mnemonic : String)
  deriving DecidableEq, Repr


/-! ### The journal (chapter 15) -/

/-- A journal event (Table 15.8 without SEQ). -/
structure Event where
  time : Nat
  /-- stroke or tick number, 48 bits -/
  num  : Nat
  /-- the number is the tick number (TNUM) -/
  tnum : Bool
  code : Nat
  sslot : Nat
  part : Nat
  site : Nat
  d0   : Nat
  d1   : Nat
  deriving DecidableEq, Repr

/-- A journal entry: an event with its SEQ. -/
structure JEntry where
  ev  : Event
  seq : Nat
  deriving DecidableEq, Repr

/-- The journal and its standby store (R410-R414). -/
structure JrnlSt where
  /-- events on their way to the hub that assigns SEQ, oldest first, at most 256 (R411) -/
  queue   : List Event
  /-- events dropped since the last JOURNAL_OVERRUN entry (R411) -/
  dropped : Nat
  /-- entries of copy A and copy B, oldest first, at most 4,096 each -/
  copyA   : List JEntry
  copyB   : List JEntry
  /-- entries of copy A that copy B does not hold yet, oldest first, at most 64 -/
  toCopy  : List JEntry
  okA     : Bool
  okB     : Bool
  /-- next SEQ (COUNT) -/
  seq     : BitVec 32
  lost    : Bool
  /-- last-ditch file: entries 0-14, then entry 15 -/
  ditch   : List JEntry
  ditch15 : Option JEntry
  /-- the standby store: entries kept at the last reset, oldest first (R414) -/
  standby : List JEntry
  cause   : Nat
  /-- CLEAR_LOST test in progress (R413) -/
  testing : Bool
  /-- once-per-stroke or once-per-tick marks: code, partition (16 for none), item -/
  once    : List (Nat × Nat × Nat)
  /-- SEQ of entries with an uncorrectable read in copy A and in copy B (R412) -/
  badA    : List Nat
  badB    : List Nat
  /-- latched words 1-7 of the last data read -/
  latch   : List Nat
  deriving DecidableEq, Repr

def JrnlSt.init : JrnlSt :=
  ⟨[], 0, [], [], [], true, true, 0, false, [], none, [], 0, false, [], [], [], []⟩

/-! ### Requests handed to the outside world -/

/-- Something the panel sends out of the model: host memory writes, interrupts, packets, frames, pin changes. -/
inductive OutMsg where
  /-- a write to host memory through a port: address, bytes, little-endian value -/
  | hostWrite (port addr len data : Nat)
  /-- an MSI-X message: port, function (0 PF, n VF n), vector, message address and data -/
  | msix (port fn vec addr data : Nat)
  /-- a completer abort answered to a refused access -/
  | abort (port fn : Nat)
  /-- a fabric packet: header (Table 08.2) and its payload granules -/
  | packet (hdr : Nat) (payload : List Nat)
  /-- a waggle frame on port 0 (A) or 1 (B): message type, destination, body -/
  | waggle (port msg dst : Nat) (body : List Nat)
  /-- a pair frame: lane-group, type, body -/
  | pair (lane type : Nat) (body : List Nat)
  /-- an ingress or requantizer vector: site, header, elements -/
  | vector (site hdr : Nat) (elems : List Nat)
  /-- an access-fault exception of a site core -/
  | coreFault (site core : Nat)
  /-- a pulse on the tick output, rising at this instant -/
  | tickOut (time : Nat)
  /-- a value returned on a read -/
  | value (addr value : Nat)
  deriving DecidableEq, Repr

/-! ### Strokes (chapter 05) -/

/-- The tick generator (R119-R122). -/
structure TickSt where
  /-- ticks have begun (the first edge after ready is tick 0, R116) -/
  started : Bool
  number  : BitVec 48
  /-- instant of the last tick edge, ns -/
  last    : Nat
  /-- active source: 0 J9, 1 gPTP, 2 internal -/
  active  : Nat
  /-- consecutive good J9 edges and gPTP ticks -/
  qualJ9  : Nat
  qualGptp : Nat
  /-- consecutive missing J9 instants -/
  missJ9  : Nat
  /-- instant of the last J9 edge -/
  lastJ9  : Option Nat
  /-- e measured by the active source for the last tick -/
  err     : Option Int
  /-- an edge taken for the coming tick, by which it precedes or follows it -/
  early   : Option Int
  /-- the new source has been chosen and its first reference instant is awaited (R121) -/
  realign : Bool
  deriving DecidableEq, Repr

def TickSt.init : TickSt := ⟨false, 0, 0, 2, 0, 0, 0, none, none, none, false⟩

/-! ### Partitions, queues and streams (chapter 10) -/

/-- Table 10.3. -/
inductive PState where
  | unconfigured | configured | loading | running
  deriving DecidableEq, Repr

/-- The grants of a partition: Table 10.4 after clamping, and what was granted. -/
structure Grants where
  /-- logical sites, bit s -/
  sites : Nat
  ports : Nat
  nsq   : Nat
  quota : Nat
  rsvFr : Nat
  heapCh : Nat
  baseBlk : Nat
  nblk  : Nat
  wheel : Nat
  srow  : Nat
  stageKib : Nat
  pfCap : Nat
  maxctx : Nat
  liveOff : Nat
  nlayer : Nat
  deriving DecidableEq, Repr

def Grants.none : Grants := ⟨0, 0, 0, 0, 0, 0, 0, 0, 0, 0, 0, 0, 0, 0, 0⟩

/-- A PART_CMD that waits for the next tick edge (R273). -/
inductive PendCmd where
  | configure (g : Grants)
  | release
  | reset
  deriving DecidableEq, Repr

/-- A stroke position filled by a stream (R289). -/
structure Placed where
  /-- stream ID -/
  stream : Nat
  slot   : Nat
  /-- a prefill chunk, else a decode slot -/
  prefill : Bool
  /-- positions taken, ascending -/
  pos    : List Nat
  /-- tokens of the chunk, or the one input token -/
  tokens : List Nat
  /-- the stream slot was withheld, and is recomputed here -/
  recomp : Bool
  /-- SCALE_FALLBACK_DENIED seen for the token (R81) -/
  sfd    : Bool
  /-- the token record drawn (Table 07.13) -/
  draw   : Option (BitVec 512)
  /-- a record written or a token drawn carries TAINT, with its origin -/
  taint  : Bool
  origin : Nat
  deriving DecidableEq, Repr

/-- A completion entry (Table 10.10) of a partition. -/
structure Completion where
  qp     : Nat
  cid    : Nat
  stream : Nat
  last   : Bool
  tok    : Bool
  tnt    : Bool
  recomp : Bool
  short  : Bool
  sfd    : Bool
  token  : Nat
  pos    : Nat
  fault  : Nat
  status : Nat
  origin : Nat
  /-- stroke of the submission's admission (STROKES is counted from it when the entry is written, R292) -/
  adm    : Nat
  strokeL : Nat
  deriving DecidableEq, Repr

/-- An entry of a partition's error queue (Table 08.8). -/
structure ErrEntry where
  stroke : Nat
  tag    : Nat
  src    : Nat
  reason : Nat
  stream : Nat
  kind   : Nat
  dst    : Nat
  addr   : Nat
  seq    : Nat
  time   : Nat
  deriving DecidableEq, Repr

/-- What the panel holds for one partition. -/
structure Part where
  st      : PState
  g       : Grants
  pend    : Option PendCmd
  /-- a reset is due at the next edge, with its cause (0 for a RESET command) (R486) -/
  resetDue : Option Nat
  /-- the load in progress has failed (R376) -/
  loadFailed : Bool
  /-- every check of the load has passed; RUNNING from the next edge (R382) -/
  loadDone : Bool
  lib     : Option Library
  /-- stroke number (R116) -/
  stroke  : BitVec 48
  /-- a stroke is in progress -/
  inStroke : Bool
  /-- Table 05.19 PHASE; 6 stands for GUARD of a consumed period, which reads as 4 -/
  phase   : Nat
  /-- instant of RUN open of the stroke, ns -/
  runAt   : Nat
  /-- ticks consumed by the stroke; its register field stops at 255 -/
  slipDepth : Nat
  /-- the stroke was not finished at GUARD start: the next edge is consumed (R146) -/
  slipping : Bool
  hung    : Bool
  /-- ticks of the present stroke consumed by pair or replay waits -/
  waits   : Nat
  idleRun : Nat
  /-- quadrants announced for gating in the next stroke, bit q -/
  gateSet : Nat
  /-- quadrants that were powered and ready at the edge, bit q -/
  ready   : Nat
  /-- entry chosen; none for a stroke begun without an entry -/
  entry   : Option Nat
  opmark  : Nat
  decLive : Nat
  idle    : Bool
  short   : Bool
  demandD : Nat
  demandP : Nat
  /-- demand has been formed in this stroke -/
  formed  : Bool
  /-- physical sites that have passed their end marker -/
  done    : List Nat
  finished : Bool
  /-- the stream table has been committed for the stroke, and its record and completions have been formed at EMIT -/
  committed : Bool
  emitted : Bool
  /-- an issue fault stops the stroke (R183) -/
  issueFault : Bool
  placed  : List Placed
  /-- submission tails of the snapshot, per queue pair -/
  snap    : List (Nat × Nat)
  /-- completions waiting for EMIT, oldest first -/
  compl   : List Completion
  /-- error queue (R231), entries dropped, counts -/
  errq    : List ErrEntry
  errDropped : Nat
  lateFailed : Bool
  lateStrokes : Nat
  /-- the pair or the recorder withholds these stream slots in addition (R434) -/
  withheld : List Nat
  deriving DecidableEq, Repr

def Part.init : Part :=
  { st := .unconfigured, g := Grants.none, pend := none, resetDue := none, loadFailed := false, loadDone := false, lib := none, stroke := 0,
    inStroke := false, phase := 5, runAt := 0, slipDepth := 0, slipping := false, hung := false, waits := 0, idleRun := 0, gateSet := 0, ready := 0,
    entry := none, opmark := 3, decLive := 0, idle := false, short := false, demandD := 0, demandP := 0, formed := false,
    done := [], finished := false, committed := false, emitted := false, issueFault := false, placed := [], snap := [], compl := [], errq := [],
    errDropped := 0, lateFailed := false, lateStrokes := 0, withheld := [] }

/-- A queue pair of a partition (Tables 10.19-10.21); its registers are one set, reached through every port (R270). -/
structure QPair where
  sqBase : BitVec 64
  cqBase : BitVec 64
  sqEn   : Bool
  sqSize : Nat
  cqEn   : Bool
  irqEn  : Bool
  vec    : Nat
  cqSize : Nat
  sqHead : Nat
  cqTail : Nat
  phase  : Bool
  /-- CQ_DMA_ERR, SQ_DMA_ERR, DB_ERR, CFG_ERR in bits 3-0 -/
  stat   : Nat
  sqDb   : Nat
  cqDb   : Nat
  /-- completion entries of room reserved (R277) -/
  reserved : Nat
  /-- ports through which the queues were enabled -/
  sqPort : Nat
  cqPort : Nat
  deriving DecidableEq, Repr

def QPair.init : QPair := ⟨0, 0, false, 6, false, true, 0, 6, 0, 0, true, 0, 0, 0, 0, 0, 0⟩

/-- Table 10.8. -/
inductive StreamState where
  | free | opened | resident | active | parked | draining | closed
  deriving DecidableEq, Repr

/-- An admitted submission entry (R278, R281). -/
structure AdmOp where
  opc   : Nat
  cid   : Nat
  qp    : Nat
  port  : Nat
  addr  : Nat
  count : Nat
  child : Nat
  temp  : Nat
  /-- W7 of Table 10.5: TOPP and TOPK -/
  topw  : Nat
  seed  : Nat
  /-- stroke of its admission -/
  stroke : Nat
  deriving DecidableEq, Repr

/-- A stream-table entry (Table 10.7) with the operations admitted for it (R281). OP, CID and STROKES are those of the
running operation, and NTOK is one below the length (R284). -/
structure Stream where
  st     : StreamState
  wheld  : Nat
  qp     : Nat
  hb     : Nat
  part   : Nat
  taint  : Bool
  /-- L (R284) -/
  len    : Nat
  maxctx : Nat
  fault  : Nat
  origin : Nat
  remain : Nat
  haddr  : Nat
  temp   : Nat
  topw   : Nat
  seed   : Nat
  lasttok : Nat
  sslot  : Nat
  /-- stroke in which SSLOT was given -/
  slotStroke : Nat
  lstroke : Nat
  /-- operations admitted, oldest first, at most four -/
  ops    : List AdmOp
  /-- the first of them has started -/
  started : Bool
  /-- a child whose FORK has not finished -/
  waitFork : Bool
  /-- the state is in host memory only -/
  parked : Bool
  /-- room reserved for the stroke's token (R277) -/
  rsv    : Bool
  /-- a chunk of the running APPEND carried TAINT, with its first origin -/
  opTaint : Bool
  opOrigin : Nat
  /-- code of the stream-fatal fault of this stroke (R486), 0 none -/
  endCode : Nat
  /-- draining toward FREE (CLOSE) rather than CLOSED -/
  toFree : Bool
  /-- the CLOSEs whose completion is due when the draining ends -/
  closeOps : List AdmOp
  deriving DecidableEq, Repr

def Stream.init : Stream :=
  { st := .free, wheld := 0, qp := 0, hb := 0, part := 0, taint := false, len := 0, maxctx := 0, fault := 0,
    origin := 0, remain := 0, haddr := 0, temp := 0, topw := 0, seed := 0, lasttok := 0, sslot := 0x3FFF,
    slotStroke := 0, lstroke := 0, ops := [], started := false, waitFork := false, parked := false, rsv := false,
    opTaint := false, opOrigin := 0, endCode := 0, toFree := false, closeOps := [] }

def Stream.ntok (x : Stream) : Nat := x.len - 1

/-- PCIe ports, MSI-X and latches of the host interface. -/
structure HostSt where
  streams : SMap Stream
  /-- queue pairs: key partition × 16 + q -/
  qps     : SMap QPair
  /-- ports up, bit p -/
  portsUp : Nat
  /-- VF n enabled at port p: bit 17 × p + n -/
  vfEn    : Nat
  /-- MSI-X Enable: key port × 17 + function (0 PF, n VF n) -/
  msixOn  : SMap Bool
  /-- Function Mask: key as of MSI-X Enable -/
  fmask   : SMap Bool
  /-- MSI-X tables: key ((port × 17 + function) × 2,048 + vector) × 4 + word; word 3 bit 0 masks and is 1 at reset -/
  msixTab : SMap (BitVec 32)
  /-- pending bits: key (port × 17 + function) × 2,048 + vector -/
  pendBit : SMap Bool
  /-- hub wheel slots that the pending CONFIGUREs change at the next edge: hub, slot, owner -/
  wheelNext : List (Nat × Nat × Nat)
  /-- partition of the last accepted PART_CMD -/
  lastCmd : Option Nat
  /-- latched STRM_INSP_DATA1-15 -/
  inspLatch : List Nat
  deriving DecidableEq, Repr

def HostSt.init : HostSt := ⟨[], [], 0, 0, [], [], [], [], [], none, []⟩

/-! ### Combs (chapter 02) -/

/-- Bank header, trailer and marks of a slot (Tables 02.4, 04.2). -/
structure SlotHdr where
  valid  : Bool
  dense  : Bool
  format : Nat
  /-- reserved header bits as written -/
  rsv    : Nat
  /-- CRC and reserved bits of trailer word 0 as written -/
  crc    : Nat
  crcRsv : Nat
  nnz    : Nat
  nzEnd  : Nat
  /-- a header check is in progress (R29) -/
  checking : Bool
  metaBad : Bool
  testBad : Bool
  retired : Bool
  deriving DecidableEq, Repr

def SlotHdr.init : SlotHdr := ⟨false, false, 1, 0, 0, 0, 0, 0, false, false, false, false⟩

/-- State of a shadow slot (R56). -/
inductive ShadowState where
  | free | opened | armed | completeArmed
  deriving DecidableEq, Repr

/-- One of the two shadow slots of a comb. -/
structure Shadow where
  /-- physical slot -/
  slot    : Nat
  st      : ShadowState
  bank    : Nat
  /-- rows written since OPEN -/
  rows    : BitVec 256
  /-- metadata rows written since OPEN, and the CRC word of the trailer in bit 256 -/
  metaW   : BitVec 257
  /-- stroke number of the partition from which the armed slot is eligible -/
  eligible : Nat
  /-- filled together with the comb's other shadow slot by one AUTO entry (R99) -/
  linked  : Bool
  deriving DecidableEq, Repr

def Shadow.init (i : Nat) : Shadow := ⟨64 + i, .free, 0, 0, 0, 0, false⟩

/-- Table 02.9. -/
inductive SetState where
  | free | filling | draining | held
  deriving DecidableEq, Repr

/-- An accumulator set (Tables 02.8, 02.9) and what the tile carries with it. -/
structure AccSet where
  st     : SetState
  acc    : SMap (BitVec 32)
  csum   : SMap (BitVec 32)
  sumx   : BitVec 32
  za     : Nat
  /-- the tile has taken its ZA -/
  zaSet  : Bool
  taint  : Bool
  ownOvf : Bool
  /-- origin word (W2 of Table 04.8); 0 empty -/
  origin : Nat
  stream : Nat
  tag    : Nat
  /-- late-error mark (R82) -/
  late   : Bool
  /-- threshold T (R53) -/
  thr    : BitVec 32
  /-- pass mask of a HELD set -/
  mask   : Nat
  /-- every accumulator holds POISON to the end of the tile (R37, R103) -/
  poisoned : Bool
  /-- every accumulator that is not POISON holds +INF to the end of the tile (R46) -/
  forced : Bool
  /-- a fallback is in progress with this gain (R80) -/
  fbGain : Option (BitVec 32)
  deriving DecidableEq, Repr

def AccSet.init : AccSet :=
  ⟨.free, [], [], 0, 0, false, false, false, 0, 0x3FFF, 0, false, 0, 0, false, false, none⟩

/-- The combs of the panel. A comb is keyed by its physical index `site × 4,160 + quadrant × 1,040 + index`. -/
structure CombSt where
  /-- comb ID (site × 4,096 + ID) to physical comb; unlisted: the first 1,024 of each quadrant in order (R19) -/
  repair : SMap Nat
  /-- physical slot of logical bank: key comb × 64 + bank (R25) -/
  bmap   : SMap Nat
  /-- weight rows: key (comb × 66 + slot) × 256 + row -/
  rows   : SMap (BitVec 256)
  /-- metadata rows, same key -/
  metaR  : SMap (BitVec 128)
  /-- WZP of a channel: key (comb × 66 + slot) × 128 + channel, 8 bits -/
  wzp    : SMap (BitVec 8)
  /-- COLSUM, same key, 20 bits -/
  colsum : SMap (BitVec 20)
  /-- key comb × 66 + slot -/
  hdr    : SMap SlotHdr
  /-- key comb × 2 + i -/
  shadow : SMap Shadow
  /-- key comb × 2 + set -/
  sets   : SMap AccSet
  /-- the set the comb claimed last (1 after reset, so that A is first, R38) -/
  lastSet : SMap Nat
  /-- the slot the comb selected last (R51) -/
  lastSlot : SMap Nat
  /-- combs whose present issue cycle ends with the last plane of a W4S vector (R92) -/
  tailW4S : SMap Bool
  /-- combs whose last tile is left FILLING by OPEN_END (R167), with its WFMT -/
  openTile : SMap Nat
  /-- shadow slot of the last accepted shadow command: key site, 1 + comb × 2 + i -/
  lastShadow : SMap Nat
  deriving DecidableEq, Repr

def CombSt.init : CombSt := ⟨[], [], [], [], [], [], [], [], [], [], [], [], [], []⟩

/-! ### Requantizers and ingress units (chapter 03) -/

/-- A scale set (Table 03.4) of a requantizer. Channel entries are held apart. -/
structure ScaleSet where
  w0     : BitVec 32
  gInit  : BitVec 32
  gCur   : BitVec 32
  gPrev  : BitVec 32
  fStroke : BitVec 32
  fPend  : BitVec 32
  strokeValid : Bool
  pendValid : Bool
  inexact : Bool
  headIdx : Nat
  nvalid : Nat
  sse0   : Nat
  n0     : Nat
  sse1   : Nat
  n1     : Nat
  ring   : SMap (BitVec 32)
  /-- the gain that takes effect at the edge that begins the next stroke (R76) -/
  gNext  : Option (BitVec 32)
  deriving DecidableEq, Repr

def ScaleSet.init : ScaleSet :=
  ⟨4, 0x3F800000, 0x3F800000, 0x3F800000, 0, 0, false, false, false, 0, 0, 0, 0, 0, 0, [], none⟩

/-- A run of tiles at a requantizer (R79). -/
structure RqRun where
  tag    : Nat
  stream : Nat
  slack  : Nat
  active : Bool
  deriving DecidableEq, Repr

def RqRun.init : RqRun := ⟨0, 0, 0, false⟩

/-- The requantizers, keyed by physical comb, and the ingress slots, keyed by site × 64 + slot. -/
structure RqSt where
  /-- key comb × 16 + set -/
  sets   : SMap ScaleSet
  /-- channel entries C0-C3 (C3 is the active S and M): key (comb × 16 + set) × 128 + channel -/
  chan   : SMap (BitVec 128)
  /-- staging buffer words: key comb × 576 + word -/
  stage  : SMap (BitVec 32)
  /-- pending commit: set + 1 + 32 × eligible stroke, 0 none -/
  pend   : SMap Nat
  run    : SMap RqRun
  /-- ingress slots: words 0-2 of Table 03.1 in one 96-bit value -/
  ingress : SMap (BitVec 96)
  /-- comb of the last accepted staging command: key site, 1 + comb -/
  lastCmd : SMap Nat
  deriving DecidableEq, Repr

def RqSt.init : RqSt := ⟨[], [], [], [], [], [], []⟩

/-! ### Packers and merge trees (chapter 04) -/

/-- A merge context (Table 04.10) with the arrivals it has staged. -/
structure MergeCtx where
  opened : Bool
  layer  : Nat
  nval   : Nat
  latem  : Bool
  token  : Nat
  stream : Nat
  dest   : Nat
  stage  : Nat
  expect : BitVec 256
  arrived : BitVec 256
  /-- ranks whose leaf holds POISON because their write was rejected (R112) -/
  lost   : BitVec 256
  part   : Nat
  deriving DecidableEq, Repr

def MergeCtx.init : MergeCtx := ⟨false, 0, 0, false, 0, 0, 0, 0, 0, 0, 0, 0⟩

/-- The packer of a site: the entry it is taking (Table 04.3), none when idle. -/
structure SparseSt where
  packer : SMap (Option (BitVec 256))
  /-- key site × 2,048 + context -/
  merge  : SMap MergeCtx
  deriving DecidableEq, Repr

def SparseSt.init : SparseSt := ⟨[], []⟩

/-! ### Descriptor streams and row function units (chapter 06) -/

/-- One descriptor stream of a site (R150). -/
structure DStream where
  /-- descriptors of the stream fetched in the stroke: the next one's number in the section's list -/
  next    : Nat
  /-- fetched descriptor (both halves of a fused pair) and its offset in the library -/
  fetched : Option (BitVec 1024 × Nat)
  /-- code of the first issue check that failed and its detail words; none when all pass -/
  failed  : Option (Nat × Nat × Nat)
  /-- descriptor issued and running -/
  running : Option (BitVec 1024)
  /-- the running descriptor has issued its last plane or transfer -/
  issued  : Bool
  /-- descriptors signalled complete in the stroke -/
  count   : Nat
  /-- the seal wait of the fetched descriptor: 0 not issued, 1 waiting, 2 satisfied -/
  wait    : Nat
  /-- that wait is the one of a fused pair's second half -/
  half2   : Bool
  /-- descriptors that have issued and whose signal is due, oldest first -/
  signal  : List (BitVec 1024)
  /-- threshold blocks that the checks of the fetched and of the running THRESHOLD have read (R166) -/
  thrNext : BitVec 512
  thr     : BitVec 512
  deriving DecidableEq, Repr

def DStream.init : DStream := ⟨0, none, none, none, false, 0, 0, false, [], 0, 0⟩

/-- Descriptor streams, keyed site × 8 + stream, and the row function tables. -/
structure DescSt where
  streams : SMap DStream
  /-- program entries: key (site × 64 + PROG) × 4 + entry -/
  rfu    : SMap (BitVec 256)
  /-- piecewise-cubic coefficients: key ((site × 32 + TBL) × 256 + segment) × 4 + i -/
  pwc    : SMap (BitVec 32)
  /-- tables loaded: key site × 32 + TBL -/
  pwcLoaded : SMap Bool
  /-- rows that a site's row function units have saturated (R180) -/
  satRows : SMap Nat
  deriving DecidableEq, Repr

def DescSt.init : DescSt := ⟨[], [], [], [], []⟩

/-! ### Key/value store (chapter 07) -/

/-- A directory entry (Table 07.5). -/
structure DirEntry where
  v     : Bool
  taint : Bool
  capc  : Nat
  npg   : Nat
  leaf  : Nat
  deriving DecidableEq, Repr

def DirEntry.init : DirEntry := ⟨false, false, 0, 0, 0⟩

/-- A page-table entry (Table 07.6). -/
structure PageEntry where
  v     : Bool
  shr   : Bool
  frame : Nat
  deriving DecidableEq, Repr

def PageEntry.init : PageEntry := ⟨false, false, 0⟩

/-- A frame-table entry (Table 07.7): STATE 0 FREE, 1 USED, 2 HELD, 3 RETIRED; `retire` marks a frame to be retired when
its owners free it (R187). -/
structure FrameEntry where
  st     : Nat
  cestr  : Nat
  refcnt : Nat
  retire : Bool
  deriving DecidableEq, Repr

def FrameEntry.init : FrameEntry := ⟨0, 0, 0, false⟩

/-- A change-log entry (R196): directory index, the entry after the change (V 0 for a log freed), and whether its leaf was laid
anew. -/
structure KvChange where
  idx   : Nat
  ent   : DirEntry
  moved : Bool
  deriving DecidableEq, Repr

/-- Page service of a site (R195-R197). -/
structure PageSvc where
  /-- current generation -/
  gen    : Nat
  compacting : Bool
  flipReady : Bool
  /-- change log, oldest first, at most 4,096 entries -/
  log    : List KvChange
  /-- heap top and holes of each generation, chunks -/
  top0   : Nat
  top1   : Nat
  holes0 : Nat
  holes1 : Nat
  /-- stroke from which compaction may start again (R196) -/
  notBefore : Nat
  /-- the stack is in self-refresh; its refresh rate is doubled; its temperature, °C (R186) -/
  selfRef : Bool
  hot     : Bool
  temp    : Nat
  /-- error-severity reports of the stack's on-die ECC read so far (R185) -/
  sev     : Nat
  deriving DecidableEq, Repr

def PageSvc.init : PageSvc := ⟨0, false, false, [], 0, 0, 0, 0, 0, false, false, 0, 0⟩

/-- A page that a PARK has copied into the parking buffer (R206): the frame of the buffer, and the page's stream, layer and number. -/
structure ParkPage where
  site   : Nat
  frame  : Nat
  stream : Nat
  layer  : Nat
  page   : Nat
  deriving DecidableEq, Repr

/-- The HBM stacks and their tables. -/
structure KvSt where
  /-- data granules of 64 bytes: key (site × 589,824 + frame) × 1,024 + granule -/
  hbm    : SMap (BitVec 512)
  /-- granules of 32 bytes whose read is uncorrectable: key (site × 589,824 + frame) × 2,048 + granule -/
  bad    : SMap Bool
  /-- key site × 589,824 + frame -/
  frames : SMap FrameEntry
  /-- key ((site × 2 + generation) × 2^26) + index -/
  dir    : SMap DirEntry
  /-- key ((site × 2 + generation) × 2^24) + chunk × 64 + entry -/
  leaf   : SMap PageEntry
  svc    : SMap PageSvc
  /-- KV layout entries: words 0-3 of Table 07.8, key site × 16 + LSEL -/
  layout : SMap (BitVec 128)
  /-- pages in the parking buffers -/
  park   : List ParkPage
  deriving DecidableEq, Repr

def KvSt.init : KvSt := ⟨[], [], [], [], [], [], [], []⟩

/-- The background test of a scratchpad region (R240): 1 + region, 0 none; the copied and the restored bit of each granule; a
verify has failed, so that the region stays redirected until firmware repairs it (R241). -/
structure SpadTest where
  region   : Nat
  copied   : BitVec 64
  restored : BitVec 64
  failed   : Bool
  deriving DecidableEq, Repr

def SpadTest.init : SpadTest := ⟨0, 0, 0, false⟩

/-- The scratchpads (chapter 08) and their marks. -/
structure SpadSt where
  /-- granules of 64 bytes: key site × 2^20 + granule -/
  mem    : SMap (BitVec 512)
  /-- granules whose read is uncorrectable -/
  bad    : SMap Bool
  /-- bad-granule list per site: granules, oldest first, at most 16 (R234) -/
  badList : SMap (List Nat)
  /-- late-mark ranges per site: (first granule, last granule), at most 16 (R232) -/
  marks  : SMap (List (Nat × Nat))
  /-- mark everything at the site (R232) -/
  markAll : SMap Bool
  /-- region registers: key (site × 64 + master type) × 16 + n (Table 08.11) -/
  region : SMap (BitVec 64)
  /-- region under background test; granules saved (R240) -/
  test   : SMap SpadTest
  save   : SMap (BitVec 512)
  deriving DecidableEq, Repr

def SpadSt.init : SpadSt := ⟨[], [], [], [], [], [], [], []⟩

/-! ### Fabric (chapter 08) -/

/-- A packet handed to the fabric that awaits its reply (R229). -/
structure OutPkt where
  src    : Nat
  dst    : Nat
  seq    : Nat
  /-- descriptor stream of the source that sent it, 0-5 -/
  dstream : Nat
  part   : Nat
  tag    : Nat
  /-- stream slot -/
  slot   : Nat
  /-- 0 PWRITE, 1 READ_REQ, 2 SEAL_OP that a LAND_ACK answers (R255) -/
  kind   : Nat
  addr   : Nat
  /-- where the data of a READ_REQ go: panel address, and a granule that goes with them to a second address (none: value 0) -/
  into   : List (Nat × Nat × Nat)
  /-- number within its stream and stroke of the descriptor that sent it -/
  ord    : Nat
  /-- port through which it leaves, whether a grant has been found for it, and the instant at which it leaves -/
  port   : Nat
  sent   : Bool
  time   : Nat
  /-- the destination has judged it; it has answered it with a late error -/
  landed : Bool
  failed : Bool
  deriving DecidableEq, Repr

/-- Acknowledgements held back for one (destination, source, VC) (R227). -/
structure Gather where
  count  : Nat
  since  : Nat
  /-- header of the last packet concerned -/
  hdr    : Nat
  deriving DecidableEq, Repr

def Gather.init : Gather := ⟨0, 0, 0⟩

/-- What the fabric interfaces of the sites hold. -/
structure FabSt where
  /-- outstanding counts, key site × 8 + descriptor stream -/
  outst  : SMap Nat
  /-- packets that wait for a reply, oldest first -/
  flight : List OutPkt
  /-- next SEQ, key (source × 128 + destination) × 4 + VC -/
  seqs   : SMap Nat
  /-- key (destination × 128 + source) × 4 + VC -/
  gather : SMap Gather
  /-- ports taken down: key site × 5 + port -/
  down   : SMap Bool
  /-- replays of the present flit, same key -/
  replays : SMap Nat
  /-- physical sites out of service: faulted, or being promoted or reloaded -/
  siteOut : SMap Bool
  /-- instant, in ps, from which a port is free for a further packet: key site × 5 + port (R221) -/
  busy   : SMap Nat
  deriving DecidableEq, Repr

def FabSt.init : FabSt := ⟨[], [], [], [], [], [], [], []⟩

/-! ### Boot, security and the input stage (chapters 14 and 18) -/

/-- A section entry of an image (Table 14.3). -/
structure ImgSect where
  ty     : Nat
  part   : Nat
  len    : Nat
  digest : Nat
  deriving DecidableEq, Repr

/-- The image being loaded: what the header says (Table 14.2), its measurement, and the sections already taken. -/
structure Image where
  /-- partition of a LOAD_PART, none for LOAD_BOOT -/
  target  : Option Nat
  version : Nat
  svn     : Nat
  adv     : Bool
  romkey  : Bool
  keyslot : Nat
  revoke  : Nat
  measure : Nat
  sects   : List ImgSect
  got     : List Nat
  /-- port that reads each section (R373) -/
  via     : List Nat
  deriving DecidableEq, Repr

/-- The boot of the panel; the phase and the last result stand in SEC_BOOT_STAT. -/
structure BootSt where
  /-- a boot image is being loaded into the whole panel (phases 3 to 5) -/
  loading : Bool
  /-- a load command has been accepted and its header or sections are awaited: the target partition, 16 for a BOOT image -/
  cmd     : Option Nat
  image   : Option Image
  /-- IMAGE_VERSION of the last boot image that reached READY -/
  version : Nat
  /-- hub firmware runs -/
  fw      : Bool
  /-- events raised before it ran, at most 8 (R388) -/
  early   : List Event
  /-- physical sites whose stack training has completed, and whose training has failed -/
  trained : List Nat
  /-- hubs that have not completed ROM_INIT (R405) -/
  badHubs : Nat
  /-- fuses programmed since manufacture: life-cycle state, SVN_MIN, slots revoked (none: as fused, log entry 5) -/
  lcFuse  : Option Nat
  svnMin  : Option Nat
  revoked : Nat
  /-- life-cycle state in force since the last panel reset -/
  lcNow   : Option Nat
  /-- clearing in progress or due: cause 0 TAP_ENABLE, 1 RMA, 2 SCRAPPED, and the instant at which it began -/
  clear   : Option (Nat × Nat)
  /-- target of the life-cycle transition accepted, and whether its clearing is over and its fuses are due -/
  lcGoal  : Option Nat
  lcDue   : Bool
  /-- hub key registers hold the device key; fuse read path locked -/
  keys    : Bool
  /-- hubs lost since panel reset (R405), bit h -/
  hubLost : Nat
  /-- measurement of the image held for a repair reload: partitions whose image in host memory is known -/
  reload  : List (Nat × Nat × Nat × Nat)
  deriving DecidableEq, Repr

def BootSt.init : BootSt :=
  { loading := false, cmd := none, image := none, version := 0, fw := false, early := [], trained := [], badHubs := 0, lcFuse := none,
    svnMin := none, revoked := 0, lcNow := none, clear := none, lcGoal := none, lcDue := false, keys := true, hubLost := 0,
    reload := [] }

/-- The input stage and the pins of J9 (R465-R470, R478). -/
structure InpSt where
  /-- 0 no input, 1 charging, 2 paused, 3 charged -/
  stage   : Nat
  standby : Bool
  /-- power-good is asserted -/
  good    : Bool
  /-- a power-fail sequence runs -/
  failing : Bool
  /-- an over-voltage has disconnected J1 -/
  cut     : Bool
  /-- an INPUT_LOW event is under way -/
  low     : Bool
  /-- RESET# is held low -/
  resetLow : Bool
  deriving DecidableEq, Repr

/-- Right after the panel reset of a power-up: charged and good. -/
def InpSt.init : InpSt := ⟨3, true, true, false, false, false, false⟩

/-! ### Self-test, repair and ageing (chapter 15) -/

/-- What firmware records of a site: spare combs left in each quadrant, spares used, monitors and prediction. -/
structure BistSite where
  retired : Nat
  spares  : List Nat
  cols    : Nat
  rows    : Nat
  vread   : Nat
  dmax    : Nat
  /-- (POWER_ON_H, d_max) samples of the present run, oldest first -/
  samples : List (Nat × Nat)
  /-- remaining life, h -/
  eol     : Nat
  /-- the last logic test of the site failed -/
  bad     : Bool
  deriving DecidableEq, Repr

def BistSite.init : BistSite := ⟨0, [16, 16, 16, 16], 0, 0, 0, 0, [], 0xFFFFFFFF, false⟩

/-- A comb slot with confirmed failures (R402). -/
structure SlotFix where
  /-- failing rows and failing column groups not yet mapped; a failure that spares of the slot cannot repair -/
  rows   : List Nat
  groups : List Nat
  hard   : Bool
  /-- spare rows and column groups of the slot in use -/
  usedR  : Nat
  usedC  : Nat
  /-- firmware has mapped spares and the slot is being tested whole -/
  mapped : Bool
  passed : Nat
  /-- W1 of the result of the first failure -/
  loc    : Nat
  deriving DecidableEq, Repr

def SlotFix.init : SlotFix := ⟨[], [], false, 0, 0, false, 0, 0⟩

structure BistSt where
  sites  : SMap BistSite
  /-- where each test goes on: key site × 8 + unit; comb quadrants (comb × 66 + slot) × 64 + row group -/
  pos    : SMap Nat
  /-- key comb × 66 + slot -/
  fixes  : SMap SlotFix
  /-- spare combs whose last test failed -/
  badComb : List Nat
  /-- combs to be replaced at their partition's next stroke: site, comb ID, spare -/
  replace : List (Nat × Nat × Nat)
  /-- spare scratchpad rows in use: key site × 32 + bank -/
  spadRows : SMap Nat
  /-- latched BIST_SITE_DATA1-2 -/
  latch  : List Nat
  /-- POWER_ON_H, THERM_CYCLES and VALVE_CYCLES as last read; none: as fused -/
  hours  : Option Nat
  therm  : Option Nat
  valve  : Option Nat
  /-- module prediction and band, and the comparisons of R409 -/
  eolH   : Nat
  eolC   : Nat
  warn   : Bool
  crit   : Bool
  deriving DecidableEq, Repr

def BistSt.init : BistSt :=
  { sites := [], pos := [], fixes := [], badComb := [], replace := [], spadRows := [], latch := [], hours := none,
    therm := none, valve := none, eolH := 0xFFFFFFFF, eolC := 0, warn := false, crit := false }

/-! ### Power, coolant and domains (chapters 11 and 12) -/

/-- Power state of a site. Energies are in fJ × mV² (R300: times V² over 750²). -/
structure SitePwr where
  entry  : Nat
  /-- entry at whose clock the site runs: that of the plan once RUN has opened (R299) -/
  prev   : Nat
  /-- target entry of the plan, and the reasons that hold the entry below it -/
  tgt    : Nat
  capWhy : Nat
  age    : Nat
  /-- ageing level that firmware has set; in force from the next plan (R298) -/
  ageReq : Nat
  droopCap : Nat
  thermCap : Nat
  /-- stretches of R309, R310 and R311, and consecutive calm windows -/
  kFast  : Nat
  calm   : Nat
  kDroop : Nat
  kTherm : Nat
  /-- T_j, °C -/
  temp   : Nat
  pEst   : Nat
  iEst   : Nat
  reasons : Nat
  /-- uncalibrated energy of the present and of the last tick period -/
  unc    : Nat
  uncLast : Nat
  /-- dynamic part normalised to k = 16 (times 45,045) and static part, present and last period -/
  dyn    : Nat
  dynLast : Nat
  stat   : Nat
  statLast : Nat
  /-- calibrated energy of the last tick period, µJ -/
  eTick  : Nat
  /-- plane cycles of the period and of the second, and those times V² -/
  planes : Nat
  planesV : Nat
  secPlanes : Nat
  secPlanesV : Nat
  /-- ns of droop stretch in the tick period, instant at which it began, events in the stroke, periods without one -/
  droopNs : Nat
  droopAt : Option Nat
  droopEv : Nat
  droopOk : Nat
  /-- the next plan forecasts from full activity (R306) -/
  fresh  : Bool
  /-- partition that owned the site at the opening edge, 16 none -/
  owner0 : Nat
  /-- sum of w_s over the quadrant states of the last period, per µs -/
  wsLast : Nat
  /-- quadrants powered in the last period -/
  quadsLast : Nat
  deriving DecidableEq, Repr

def SitePwr.init : SitePwr :=
  { entry := 0, prev := 0, tgt := 0, capWhy := 0, age := 0, ageReq := 0, droopCap := 15, thermCap := 15, kFast := 16, calm := 0,
    kDroop := 16, kTherm := 16, temp := 0, pEst := 0, iEst := 0, reasons := 0, unc := 0, uncLast := 0, dyn := 0, dynLast := 0,
    stat := 0, statLast := 0, eTick := 0, planes := 0, planesV := 0, secPlanes := 0, secPlanesV := 0, droopNs := 0,
    droopAt := none, droopEv := 0, droopOk := 0, fresh := true, owner0 := 16, wsLast := 0, quadsLast := 0 }

/-- Power state of a partition. -/
structure PartPwr where
  /-- entry of the last plan and target -/
  entry : Nat
  /-- held strokes since panel reset, and the tick number at which the present hold was chosen -/
  heldCnt : Nat
  heldAt : Option Nat
  /-- entry that its last stroke with demand needed -/
  need  : Nat
  /-- energy of the last tick period and of the second, tokens of the second and since panel reset -/
  eTick : Nat
  eSec  : Nat
  tokSec : Nat
  tok   : Nat
  /-- tokens per MWh over the last second -/
  perMwh : Nat
  /-- entry that the partner panel reported (R430) -/
  pace  : Option Nat
  deriving DecidableEq, Repr

def PartPwr.init : PartPwr := ⟨0, 0, none, 0, 0, 0, 0, 0, 0, none⟩

/-- Panel-wide power state. -/
structure PwrSt where
  sites : SMap SitePwr
  parts : SMap PartPwr
  /-- last GRANT received and not yet latched -/
  grant : Option Nat
  /-- metered energies of the last tick periods, newest first, µJ -/
  hist  : List Nat
  /-- sums since the last calibration: metered µJ, uncalibrated fJ × mV², ticks -/
  secE  : Nat
  secUnc : Nat
  secTicks : Nat
  /-- metered energy of the last whole second and its tokens per MWh -/
  lastSecE : Nat
  perMwh : Nat
  /-- planned k in force since RUN opened, that of the plan, and steps of the budget guard in the tick period (R308, R309) -/
  k     : Nat
  kNext : Nat
  guard : Nat
  /-- excess of R319: W above and plans left -/
  excess : Nat
  excessLeft : Nat
  /-- reasons active in the last window -/
  reasons : Nat
  /-- latched PWR_SITE_DATA1-3 -/
  latch : List Nat
  /-- the meter was marked bad when the tick period began (R316) -/
  est   : Bool
  /-- COOL_CAP as it stood at the tick edge: the plan takes what the loop runs before it have set (R326) -/
  cool  : Nat
  deriving DecidableEq, Repr

def PwrSt.init : PwrSt := ⟨[], [], none, [], 0, 0, 0, 0, 0, 16, 16, 0, 0, 0, 0, [], false, 15⟩

/-- A switched domain (Table 12.5): 0 OFF, 1 WAIT, 2 INRUSH, 3 HELD, 4 ON, 5 FAULT. -/
structure Dom where
  st    : Nat
  /-- instant at which the present soft start began -/
  start : Nat
  ext   : Bool
  /-- code of the last fault, and the switch current, 0.1 A -/
  fault : Nat
  cur   : Nat
  /-- the request is made again at the next edge (R337) -/
  again : Bool
  deriving DecidableEq, Repr

def Dom.init : Dom := ⟨0, 0, false, 0, 0, false⟩

structure DomSt where
  doms  : SMap Dom
  /-- sites that go out of service at the next edge -/
  outNext : List Nat
  /-- latched DOM_DATA1 -/
  latch : Nat
  deriving DecidableEq, Repr

def DomSt.init : DomSt := ⟨[], [], 0⟩

/-- A coolant sensor over the present interval: sum and number of valid samples, last reading, marks. -/
structure Sensor where
  sum   : Int
  n     : Nat
  last  : Int
  bad   : Bool
  deriving DecidableEq, Repr

def Sensor.init : Sensor := ⟨0, 0, 0, false⟩

/-- The coolant loop. Temperatures in 0.1 °C, pressures in kPa, flow in 0.1 L/min. -/
structure CltSt where
  sensors : SMap Sensor
  /-- I as a fraction -/
  iNum  : Int
  iDen  : Nat
  lastRun : Option Nat
  enc   : Nat
  /-- hottest T_j of the interval -/
  hotJ  : Nat
  /-- events under way: disagreement (bit 0 inlet, 1 outlet), range (2 inlet low, 3 inlet high, 4 flow high), 5 flow low,
  6 outlet cap, 7 flow sensor invalid -/
  marks : Nat
  /-- settings written and not yet in force (R331), newest last -/
  staged : List (Nat × DWord)
  deriving DecidableEq, Repr

def CltSt.init : CltSt := ⟨[], 1000, 1, none, 1000, 0, 0, []⟩


/-! ### Waggle link and object dictionary (chapter 13) -/

/-- A clamp report entry (Table 13.10). -/
structure ClampEntry where
  id      : Nat
  req     : Nat
  applied : Nat
  reason  : Nat
  deriving DecidableEq, Repr

/-- The clamp report at 0x1F80 (Table 13.14). -/
structure ClampReport where
  entries : List ClampEntry
  gen     : Nat
  source  : Nat
  tick    : Nat
  rep     : Nat
  total   : Nat
  deriving DecidableEq, Repr

def ClampReport.init : ClampReport := ⟨[], 0, 0, 0, 0, 0⟩

/-- A NOTIFY that waits for sending (R355). -/
structure Notify where
  nseq  : Nat
  kind  : Nat
  index : Nat
  sub   : Nat
  time  : Nat
  /-- DATA, 32 bytes, first byte most significant -/
  data  : Nat
  deriving DecidableEq, Repr

/-- A request that waits for its answer (R357, R364), or an answer kept for a retried WRITE (R358). -/
structure WglReq where
  mac   : Nat
  port  : Nat
  msg   : Nat
  seq   : Nat
  /-- SRC_NODE of the request -/
  node  : Nat
  /-- timestamp of the request -/
  time  : Nat
  /-- of a READ or READ_MULTI: the items, INDEX × 256 + SUB; none once the answer is formed -/
  keys  : Option (List Nat)
  /-- of a WRITE: CLAMPED and the payload of its answer -/
  clamped : Bool
  body  : List Nat
  /-- link parameters that apply when the answer is sent (R352) -/
  link  : List (Nat × Nat)
  gcl   : Option (List Nat)
  deriving DecidableEq, Repr

/-- Statistics of a partition since panel reset (Table 13.21). -/
structure PartStat where
  prompt : Nat
  wheld  : Nat
  ended  : Nat
  defer  : Nat
  /-- RQ_SSE and RQ_SAMP of its sites at the last calibration second, and the mean squared error of that second -/
  sse    : Nat
  samp   : Nat
  mse    : Nat
  deriving DecidableEq, Repr

def PartStat.init : PartStat := ⟨0, 0, 0, 0, 0, 0, 0⟩

/-- The waggle link and the stored objects. -/
structure WaggleSt where
  /-- stored RW objects: key INDEX × 256 + SUB -/
  od      : SMap Nat
  /-- gate control list (0x1100:0A), entries of Table 13.1, and the list written and not yet in force -/
  gcl     : List Nat
  gclNext : Option (List Nat)
  clamps  : ClampReport
  notes   : List Notify
  nseq    : Nat
  /-- NOTIFYs dropped in the tick, and the first one's NSEQ -/
  dropped : Nat
  dropSeq : Nat
  /-- requests with firmware, oldest first; the last answers to WRITEs; requests seen in the last 2 ms -/
  queue   : List WglReq
  kept    : List WglReq
  seen    : List WglReq
  /-- module's own SEQ for periodic frames -/
  hseq    : Nat
  /-- gPTP: last corrected offset in ns, consecutive good Syncs, instant of the last Sync -/
  gpOfs   : Int
  gpGood  : Nat
  gpLast  : Nat
  /-- late answers in the tick, and detail word 0 of the first -/
  lateCnt : Nat
  lateD0  : Nat
  /-- the request in the mailbox -/
  mbox    : Option WglReq
  /-- key partition -/
  stats   : SMap PartStat
  deriving DecidableEq, Repr

def WaggleSt.init : WaggleSt :=
  { od := [], gcl := [], gclNext := none, clamps := ClampReport.init, notes := [], nseq := 0, dropped := 0, dropSeq := 0,
    queue := [], kept := [], seen := [], hseq := 0, gpOfs := 0, gpGood := 0, gpLast := 0, lateCnt := 0,
    lateD0 := 0, mbox := none, stats := [] }

/-! ### Seals (chapter 09) -/

/-- A physical seal (Table 09.1) with what its binding entry fixes. -/
structure Seal where
  count  : Nat
  target : Nat
  gen    : Nat
  next   : Nat
  /-- 0 UNBOUND, 1 READY, 2 HELD, 3 ABANDONED, 4 ARMED -/
  st     : Nat
  owner  : Nat
  epoch  : Nat
  /-- waiter set: logical sites 0-63, hubs 64-67 -/
  wset   : List Nat
  /-- 0 COUNTER, 1 LOCK, 2 BARRIER -/
  kind   : Nat
  clr    : Bool
  tkt    : Bool
  part   : Nat
  /-- T_rel of the barrier's latest release, as the wave lines carry it (R261) -/
  trel   : Nat
  deriving DecidableEq, Repr

def Seal.init : Seal := ⟨0, 0, 0, 0, 0, 0, 0, [], 0, false, false, 0, 0⟩

/-- A master that waits on a seal (R245). -/
structure SealWait where
  /-- owner word of the master (Table 09.5) -/
  req   : Nat
  /-- 2 WAIT, 3 ACQUIRE, 6 READ; others only await their ACK -/
  op    : Nat
  sl    : Nat
  value : Nat
  vseal : Nat
  /-- the operation has joined the seal's waiter set -/
  joined : Bool
  /-- a lock granted whose GRANT is on its way -/
  granted : Bool
  /-- T_rel of the release that this barrier WAIT follows (R261) -/
  trel  : Option Nat
  deriving DecidableEq, Repr

/-- A core port (R254): an operation is in progress, a load of its result is blocked, the result word, and a store that stalls until
the operation completes, with its partition. -/
structure CorePort where
  busy    : Bool
  blocked : Bool
  result  : BitVec 64
  stalled : Option (Nat × Nat)
  deriving DecidableEq, Repr

def CorePort.init : CorePort := ⟨false, false, 0, none⟩

/-- A SEAL_OP that rule 5 of Table 08.6 holds back: its source and descriptor stream, the PWRITEs (destination, SEQ) that it waits
for, partition, descriptor tag, destination, whether a LAND_ACK answers it, and its payload. -/
structure HeldSeal where
  src    : Nat
  ds     : Nat
  need   : List (Nat × Nat)
  part   : Nat
  tag    : Nat
  dst    : Nat
  posted : Bool
  body   : Nat
  deriving DecidableEq, Repr

structure SealSt where
  /-- key logical site × 256 + index -/
  seals : SMap Seal
  /-- translation tables: key partition × 4,096 + virtual seal -/
  xlat  : SMap (BitVec 64)
  waits : List SealWait
  /-- key physical site × 8 + core -/
  ports : SMap CorePort
  /-- latched SEAL_INSP_DATA1-4 -/
  insp  : List Nat
  /-- SEAL_OPs not yet sent, oldest first -/
  held  : List HeldSeal
  deriving DecidableEq, Repr

def SealSt.init : SealSt := ⟨[], [], [], [], [], []⟩

/-! ### Record and replay, test access (chapter 17) -/

/-- A record entry (Table 17.2) without SEQ and PCRC; the payload as 32-bit words. -/
structure RecItem where
  kind  : Nat
  tnum  : Bool
  num   : Nat
  time  : Nat
  words : List Nat
  deriving DecidableEq, Repr

/-- What the recorder holds for one partition. -/
structure RecPart where
  /-- MODE in force: 0 off, 1 record, 2 replay -/
  mode   : Nat
  /-- MODE written and not yet in force -/
  req    : Option Nat
  /-- entries formed and not yet written, oldest first -/
  items  : List RecItem
  seq    : Nat
  /-- entries dropped since the last MARK, and the first stroke dropped -/
  dropped : Nat
  dropStroke : Nat
  /-- the stroke's entries wait for room (R452) -/
  waiting : Bool
  /-- swaps and commits that took effect at the edge that began the stroke -/
  upd    : Nat
  /-- PDIG and ODIG of the stroke -/
  pdig   : Nat
  odig   : Nat
  /-- the stroke was held (R307) -/
  held   : Bool
  /-- consecutive replay waits -/
  waits  : Nat
  /-- replay has diverged; the partition idles -/
  diverged : Bool
  /-- the recorded STROKE words, the streams withheld, tokens (stream, first, tokens) and background completions of the
  stroke that is replayed -/
  rStroke : Option (List Nat)
  rWheld : List Nat
  rTokens : List (Nat × Nat × List Nat)
  rBg    : List Nat
  /-- (queue pair, submission entry) that the stroke admits, in order -/
  rAdmit : List (Nat × Nat)
  deriving DecidableEq, Repr

def RecPart.init : RecPart :=
  { mode := 0, req := none, items := [], seq := 0, dropped := 0, dropStroke := 0, waiting := false, upd := 0,
    pdig := 0, odig := 0, held := false, waits := 0, diverged := false, rStroke := none, rWheld := [], rTokens := [],
    rBg := [], rAdmit := [] }

/-- The recorder and the test access port. -/
structure RecSt where
  parts  : SMap RecPart
  /-- instruction loaded (Table 17.4) -/
  ir     : Nat
  /-- boundary register as preloaded or sampled -/
  bsr    : Nat
  /-- the outputs of J9 and J10: 0 normal, 1 from the boundary register, 2 held at the preloaded values, 3 high impedance -/
  outs   : Nat
  /-- hubs whose clocks a scan has stopped, bit h -/
  scanned : Nat
  /-- cores halted: hub or site × 8 + core -/
  halted : List Nat
  /-- bytes accepted on UART_RX, newest first -/
  uart   : List Nat
  deriving DecidableEq, Repr

def RecSt.init : RecSt := ⟨[], 1, 0, 0, 0, [], []⟩


/-! ### The redundant pair (chapter 16) -/

/-- Per partition. -/
structure PairPart where
  /-- the stroke's INGEST (R429); both ENDs, each with its stroke -/
  ingest  : Option (Nat × IngestArg)
  ownEnd  : Option (Nat × EndArg)
  peerEnd : Option (Nat × EndArg)
  /-- entry and hold of the partner's last PACE; arrived in this stroke -/
  pace    : Option (Nat × Bool)
  paceNow : Bool
  /-- stroke acknowledged by DELTA_ACK -/
  acked   : Option Nat
  /-- swaps and commits may take effect at the next edge (R435) -/
  updGo   : Bool
  /-- streams whose last withholding was a hash difference -/
  differ  : List Nat
  /-- streams the standby has refused -/
  unprot  : List Nat
  /-- the reset that is due was asked for by the partner (R432) -/
  told    : Bool
  deriving DecidableEq, Repr

def PairPart.init : PairPart := ⟨none, none, none, none, false, none, false, [], [], false⟩

/-- A pair frame that has not been acknowledged: lane-group, SEQ, TYPE, partition (16 for PANEL), STROKE, LAST, its payload
granules as bytes, and the bytes sent. -/
structure PairFrame where
  lane : Nat
  seq  : Nat
  type : Nat
  part : Nat
  stroke : Nat
  last : Bool
  pay  : List Nat
  body : List Nat
  deriving DecidableEq, Repr

structure PairSt where
  /-- a PAIR_CMD REJOIN asks for HELLO -/
  hello   : Bool
  /-- HEARTBEAT with the current EPOCH has arrived in this tick period -/
  seen    : Bool
  /-- quadrants ready at the partner, per partition -/
  quads   : SMap Nat
  parts   : SMap PairPart
  /-- lane-groups that were up at the last tick edge: they carry the frames of the partitions (R421) -/
  edge    : Nat
  /-- the two panels run in step: a role is taken and the resynchronisation is over -/
  inStep  : Bool
  txSeq   : SMap Nat
  rxSeq   : SMap Nat
  frames  : List PairFrame
  /-- consecutive replays of the oldest frame of a lane-group -/
  replays : SMap Nat
  /-- this panel is the joiner of the resynchronisation in progress, and when it began -/
  joiner  : Bool
  since   : Nat
  /-- the larger epoch of the two HELLOs -/
  epoch   : Nat
  /-- a CONTROL QUARANTINE has been sent in this tick -/
  fenced  : Bool
  /-- token log of the standby: key stream × 131,072 + position; token plus one -/
  tokens  : SMap Nat
  /-- frames of the token log (R438): (stream, 16,384-token block, frame at the stream's HB) -/
  logFr   : List (Nat × Nat × Nat)
  /-- H so far of the stroke: key partition × 16,384 + stream slot (R433) -/
  hash    : SMap (BitVec 64)
  /-- tick number of the last PAIR_TICK_SKEW entry -/
  skewAt  : Option Nat
  /-- type of a frame with PANEL = 1 to one more than the STROKE of the last one processed (R421) -/
  lastPanel : SMap Nat
  /-- a coordinated update that firmware has been told of (R435): partition, banks and scale sets by global comb ID -/
  want    : List (Nat × List (Nat × Nat) × List (Nat × Nat))
  deriving DecidableEq, Repr

def PairSt.init : PairSt :=
  { hello := false, seen := false, quads := [], parts := [], edge := 0, inStep := false, txSeq := [], rxSeq := [], frames := [],
    replays := [], joiner := false, since := 0, epoch := 0, fenced := false, tokens := [], logFr := [], hash := [], skewAt := none,
    lastPanel := [], want := [] }


/-! ### The whole state -/

/-- The state of the panel. -/
structure State where
  /-- registers written or updated, by BAR0 offset; unlisted: the reset value of the register tables -/
  regs    : SMap DWord
  /-- panel time, ns (R118) -/
  time    : Nat
  /-- latched high halves of 64-bit registers (R6): reader and offset of the high half (Registers.lean), value, instant of
  expiry -/
  latch   : List (Nat × Nat × Nat)
  /-- W1C bits that hardware has set at the present instant (R8): offset of the register and bit -/
  hot     : List (Nat × Nat)
  /-- number of free values taken so far (the model's own field, log entry 4) -/
  free    : Nat
  /-- what the panel has sent to the outside world, newest first -/
  out     : List OutMsg
  /-- settings written and not yet in force (R126), newest last: BAR0 offset and value -/
  staged  : List (Nat × DWord)
  tick    : TickSt
  parts   : SMap Part
  host    : HostSt
  comb    : CombSt
  rq      : RqSt
  sparse  : SparseSt
  desc    : DescSt
  kv      : KvSt
  spad    : SpadSt
  fab     : FabSt
  pwr     : PwrSt
  dom     : DomSt
  clt     : CltSt
  boot    : BootSt
  inp     : InpSt
  bist    : BistSt
  wgl     : WaggleSt
  sls     : SealSt
  rcd     : RecSt
  pair    : PairSt
  jrnl    : JrnlSt
  /-- commands waiting, oldest first (the model's own field) -/
  pending : List Instr
  deriving DecidableEq, Repr

/-- The state after reset: every field at the value the manual gives for panel reset, or at the value a log entry names. -/
def State.reset : State :=
  { regs := [], time := 0, latch := [], hot := [], free := 0, out := [], staged := [], tick := TickSt.init, parts := [],
    host := HostSt.init, comb := CombSt.init, rq := RqSt.init, sparse := SparseSt.init, desc := DescSt.init,
    kv := KvSt.init, spad := SpadSt.init,
    fab := FabSt.init, pwr := PwrSt.init, dom := DomSt.init, clt := CltSt.init, boot := BootSt.init,
    inp := InpSt.init, bist := BistSt.init, wgl := WaggleSt.init, sls := SealSt.init,
    rcd := RecSt.init, pair := PairSt.init, jrnl := JrnlSt.init, pending := [] }

end Sys2Proof.Machine
end

