-- ==== Sys2Proof/Machine/Ops.lean ====
section
/-! DEFINITION. The shared operations: registers, panel time, sites, partitions, scratchpad bytes, the journal and the
response to a fault (chapters 00, 01, 15, 19). -/

namespace Sys2Proof.Machine

/-- What a command answers. -/
abbrev Res := Host.Outcome State Fault Refusal

/-! ### Sites (R15-R18) -/

/-- Hub sites by physical index. -/
def isHub (p : Nat) : Bool := p == 4 || p == 27 || p == 44 || p == 67
/-- Spare compute sites. -/
def isSpare (p : Nat) : Bool := p == 0 || p == 8 || p == 63 || p == 71
/-- Physical index of hub h (Table 01.2). -/
def hubSite (h : Nat) : Nat := if h = 0 then 4 else if h = 1 then 27 else if h = 2 then 44 else 67
/-- Mesh hops of a site from site 31 (R143). -/
def hops31 (p : Nat) : Nat :=
  let r := p / 9
  let c := p % 9
  (if r < 3 then 3 - r else r - 3) + (if c < 4 then 4 - c else c - 4)
/-- Table 01.3. -/
def defaultPhys (l : Nat) : Nat :=
  if l < 3 then l + 1 else if l < 6 then l + 2 else if l < 24 then l + 3 else if l < 40 then l + 4
  else if l < 58 then l + 5 else if l < 61 then l + 6 else l + 7

/-! ### Registers (R6, R7) -/

/-- Reset value of the register at BAR0 offset `a`. -/
def regReset (a : Nat) : DWord :=
  if rGLB_SITEMAP ≤ a ∧ a < rGLB_SITEMAP + 256 then BitVec.ofNat 64 (defaultPhys ((a - rGLB_SITEMAP) / 4))
  else
    match regRow a with
    | none => 0
    | some r =>
      if r.base = rFAB_HUBWHEEL ∧ ((a - siteWindow0) % siteStride - rFAB_HUBWHEEL) % 16 = 0 ∧ r.site then 0x1F1F1F10
      else BitVec.ofNat 64 r.reset

/-- The register as stored. -/
def State.reg (s : State) (a : Nat) : DWord := mget (regReset a) s.regs a
/-- Write a whole register. -/
def State.setReg (s : State) (a : Nat) (v : DWord) : State := { s with regs := mset (regReset a) s.regs a v }
/-- A field of a register. -/
def State.fld (s : State) (a lo n : Nat) : Nat := bits (s.reg a).toNat lo n
/-- One bit of a register. -/
def State.flag (s : State) (a i : Nat) : Bool := bit (s.reg a).toNat i
/-- Write a field of a register. -/
def State.setFld (s : State) (a lo n v : Nat) : State :=
  s.setReg a (BitVec.ofNat 64 (setBits (s.reg a).toNat lo n v))
/-- Note that hardware sets bit `i` of the W1C register at `a` at this instant (R8). -/
def State.heat (s : State) (a i : Nat) : State :=
  { s with hot := if s.hot.contains (a, i) then s.hot else (a, i) :: s.hot }
/-- The bits of the register at `a` that a write of 1 cannot clear at this instant (R8). -/
def State.hotMask (s : State) (a : Nat) : Nat := (s.hot.filter (fun e => e.1 == a)).foldl (fun m e => m ||| 2 ^ e.2) 0
/-- Set a sticky bit. -/
def State.sticky (s : State) (a i : Nat) : State := (s.setFld a i 1 1).heat a i
/-- Add to a 64-bit counter, which wraps. -/
def State.bumpBy (s : State) (a k : Nat) : State := s.setReg a (s.reg a + BitVec.ofNat 64 k)
/-- Count one event. -/
def State.bump (s : State) (a : Nat) : State := s.bumpBy a 1
/-- A write that the lock discards or refuses is counted and flagged (R9, R10). -/
def State.lockViol (s : State) : State := (s.bump rGLB_LOCK_VIOL_COUNT).sticky rGLB_STATUS 0
/-- Count in a field that stops at its largest value. -/
def State.satFld (s : State) (a lo n k : Nat) : State := s.setFld a lo n (min (2 ^ n - 1) (s.fld a lo n + k))
/-- The lock of R9. -/
def State.locked (s : State) : Bool := s.flag rGLB_CFG_LOCK 0
/-- PHASE is READY: from then on every PF BAR0 serves all its offsets (R370). -/
def State.ready (s : State) : Bool := s.fld rSEC_BOOT_STAT 0 4 == 6

/-- Panel time moves on to `t` and never backwards (R118); with it the instant of R8 is over. -/
def State.at (s : State) (t : Nat) : State :=
  { s with time := max s.time t, hot := if s.time < t then [] else s.hot }

/-! ### Times of a stroke (R125) -/

def State.periodUs (s : State) : Nat := s.fld rSTRK_PERIOD 0 12
def State.ingestNs (s : State) : Nat := 1000 * s.fld rSTRK_PHASE 0 8
def State.emitNs (s : State) : Nat := 1000 * s.fld rSTRK_PHASE 8 8
def State.guardNs (s : State) : Nat := 250 * s.fld rSTRK_PHASE 16 12
def State.periodNs (s : State) : Nat := 1000 * s.periodUs
/-- Times within a stroke, from its tick edge (Table 05.3). -/
def State.runCloseNs (s : State) : Nat := s.periodNs - s.guardNs - s.emitNs
def State.guardOpenNs (s : State) : Nat := s.periodNs - s.guardNs
/-- Time since the tick edge. -/
def State.sinceEdge (s : State) : Nat := s.time - s.tick.last
/-- Has the time for admission passed: the last 8 µs of INGEST (R127)? -/
def State.admitOver (s : State) : Bool := decide (s.ingestNs ≤ s.sinceEdge + 8000)
/-- Is it GUARD, in which nothing new starts (R128)? -/
def State.inGuard (s : State) : Bool := s.tick.started && decide (s.guardOpenNs ≤ s.sinceEdge)

/-- Hand something to the outside world. -/
def State.emit (s : State) (m : OutMsg) : State := { s with out := m :: s.out }
/-- Take a fresh free value (log entry 4). -/
def State.takeFree (s : State) : BitVec 64 × State := (Config.freeValue s.free, { s with free := s.free + 1 })

/-- Physical site bound to logical site `l`. -/
def State.phys (s : State) (l : Nat) : Nat := s.fld (rGLB_SITEMAP + 4 * l) 0 7
/-- Logical site bound to physical site `p`, if any. -/
def State.lsite (s : State) (p : Nat) : Option Nat := (List.range 64).find? (fun l => s.phys l == p)

/-! ### Partitions -/

def State.part (s : State) (n : Nat) : Part := mget Part.init s.parts n
def State.setPart (s : State) (n : Nat) (p : Part) : State := { s with parts := mset Part.init s.parts n p }
def State.updPart (s : State) (n : Nat) (f : Part → Part) : State := s.setPart n (f (s.part n))

/-- The bucket entry that the partition runs. -/
def State.bucketOf (s : State) (n : Nat) : Option Bucket :=
  match (s.part n).lib, (s.part n).entry with
  | some l, some i => l.entries[i]?
  | _, _ => none

/-- Physical sites of partition `n` in ascending logical site (the order of site ranks, R190). -/
def State.partSites (s : State) (n : Nat) : List Nat := (setBitsOf 64 (s.part n).g.sites).map s.phys
/-- Number of sites. -/
def State.nsite (s : State) (n : Nat) : Nat := popCount 64 (s.part n).g.sites
/-- Site rank `r` of partition `n`, as a physical site. -/
def State.rankSite (s : State) (n r : Nat) : Nat := ((s.partSites n).getD r 0)
/-- Site rank of physical site `p` in partition `n`. -/
def State.rankOf (s : State) (n p : Nat) : Nat := ((s.partSites n).findIdx? (fun x => x == p)).getD 0
/-- The partition that owns logical site `l`. -/
def State.ownerL (s : State) (l : Nat) : Option Nat := (List.range 16).find? (fun n => bit (s.part n).g.sites l)
/-- The partition that owns physical site `p`; 16 none (journal field PART reads 0xF for it, log entry 9). -/
def State.owner (s : State) (p : Nat) : Nat :=
  match s.lsite p with
  | none => 16
  | some l => (s.ownerL l).getD 16
/-- Does a partition own physical site `p`? -/
def State.owned (s : State) (p : Nat) : Bool :=
  match s.lsite p with
  | none => false
  | some l => (s.ownerL l).isSome

/-- Is site `p` being loaded (R27, R382)? -/
def State.loadingSite (s : State) (p : Nat) : Bool :=
  s.boot.loading || decide ((s.part (s.owner p)).st = .loading)
/-- The first stroke at whose start a command accepted now may take effect (R57): the next, or one later during GUARD. -/
def State.nextStroke (s : State) (n : Nat) : Nat :=
  let p := s.part n
  if p.phase = 3 ∨ p.phase = 6 then p.stroke.toNat + 2 else p.stroke.toNat + 1

/-! ### Streams -/

def State.stream (s : State) (i : Nat) : Stream := mget Stream.init s.host.streams i
def State.setStream (s : State) (i : Nat) (x : Stream) : State :=
  { s with host := { s.host with streams := mset Stream.init s.host.streams i x } }
def State.updStream (s : State) (i : Nat) (f : Stream → Stream) : State := s.setStream i (f (s.stream i))
/-- The placement of stream slot `slot` in the present stroke of partition `n`. -/
def State.placedAt (s : State) (n slot : Nat) : Option Placed := (s.part n).placed.find? (fun p => p.slot == slot)
/-- Stream IDs of the partition (R282). -/
def State.partStreams (s : State) (n : Nat) : List Nat :=
  (s.host.streams.map Prod.fst).filter (fun i =>
    decide (256 * (s.part n).g.baseBlk ≤ i) && decide (i < 256 * ((s.part n).g.baseBlk + (s.part n).g.nblk)))

/-! ### The journal and the response to a fault (R410-R411, R484-R487, R489) -/

/-- Class of a fault code (Table 19.1). -/
def faultClass (code : Nat) : Nat := code / 4096
/-- The cause reported when several faults end the same stream or reset the same partition (R486). -/
def mergeCause (old new : Nat) : Nat :=
  if faultClass new > faultClass old then new
  else if faultClass new = faultClass old ∧ new < old then new
  else if old = 0 then new else old

/-- Hub that holds the error queue of partition `n`. -/
def partHub (n : Nat) : Nat := hubSite (n % 4)

/-- The event of a fault: it carries the partition's stroke number, or the tick number when it belongs to none (R117). -/
def State.event (s : State) (code part sslot site d0 d1 : Nat) : Event :=
  { time := s.time,
    num := if part < 16 then (s.part part).stroke.toNat else s.tick.number.toNat,
    tnum := decide (16 ≤ part), code := code, sslot := sslot, part := part, site := site,
    d0 := d0 % 2 ^ 32, d1 := d1 % 2 ^ 32 }

/-- Put an event on its way to the journal, or drop it when 256 are waiting (R411). -/
def State.queueEvent (s : State) (e : Event) : State :=
  if !s.boot.fw then
    -- before HUB_FW runs the boot ROM keeps up to 8 events (R388)
    (if s.boot.early.length < 8 then { s with boot := { s.boot with early := s.boot.early ++ [e] } } else s)
  else if s.jrnl.queue.length < 256 then { s with jrnl := { s.jrnl with queue := s.jrnl.queue ++ [e] } }
  else ({ s with jrnl := { s.jrnl with dropped := s.jrnl.dropped + 1 } }).bump rFLT_CNT_DROP

/-- Journal a fault with no further response. -/
def State.journal (s : State) (code part sslot site d0 d1 : Nat) : State :=
  s.queueEvent (s.event code part sslot site d0 d1)

/-- Has the item been journalled in this stroke (or tick)? -/
def State.marked (s : State) (code part item : Nat) : Bool := s.jrnl.once.contains (code, part, item)
/-- Mark the item for this stroke (or tick). -/
def State.mark (s : State) (code part item : Nat) : State :=
  if s.marked code part item then s else { s with jrnl := { s.jrnl with once := (code, part, item) :: s.jrnl.once } }
/-- Forget the marks of partition `part` at the start of its stroke (16: the marks of the tick). -/
def State.clearMarks (s : State) (part : Nat) : State :=
  { s with jrnl := { s.jrnl with once := s.jrnl.once.filter (fun m => m.2.1 != part) } }

/-- A partition reset becomes due at the next edge (R272, R485, R486). A partition fault while the partition
loads fails the load instead; a panel-fatal one resets it too (R312, R405). -/
def State.resetPart (s : State) (part code : Nat) : State :=
  s.updPart part (fun p =>
    if p.st = .loading ∧ code ≠ 0 ∧ faultClass code ≠ 4 then { p with loadFailed := true }
    else { p with resetDue := some (match p.resetDue with | none => code | some c => mergeCause c code) })

/-- A stream-fatal fault is raised against a stream (R286). -/
def State.endStream (s : State) (i code : Nat) : State :=
  s.updStream i (fun x => { x with endCode := mergeCause x.endCode code })

/-- The response of the class (R485). A stream-fatal fault that names no stream is partition-fatal as an issue fault is (R183,
R184). -/
def State.respond (s : State) (code part sslot : Nat) : State :=
  if faultClass code = 3 then (if part < 16 then s.resetPart part code else s)
  else if faultClass code = 2 then
    if sslot = 0x3FFF then
      (if part < 16 then (s.resetPart part code).updPart part (fun p => { p with issueFault := p.issueFault || p.inStroke }) else s)
    else
      match s.placedAt part sslot with
      | some p => s.endStream p.stream code
      | none => s
  else s

/-- Raise a fault: journal it and give the response of its class. -/
def State.raise (s : State) (code part sslot site d0 d1 : Nat) : State :=
  (s.journal code part sslot site d0 d1).respond code part sslot

/-- Raise a fault whose entry is made once per stroke (or tick) per item. -/
def State.raiseOnce (s : State) (item code part sslot site d0 d1 : Nat) : State :=
  if s.marked code part item then s.respond code part sslot
  else ((s.mark code part item).journal code part sslot site d0 d1).respond code part sslot

/-! ### NOTIFYs and the clamp report (R355, R362) -/

/-- Make a NOTIFY: queued, or dropped when 64 wait (R355). -/
def State.notify (s : State) (kind index sub data : Nat) : State :=
  let w := s.wgl
  let n : Notify := ⟨w.nseq + 1, kind, index, sub, s.time, data⟩
  if w.notes.length < 64 then { s with wgl := { w with notes := w.notes ++ [n], nseq := w.nseq + 1 } }
  else
    ({ s with wgl := { w with nseq := w.nseq + 1, dropped := w.dropped + 1,
                              dropSeq := if w.dropped = 0 then w.nseq + 1 else w.dropSeq } }).bump rGLB_WGL_CNT_NDROP

/-- Bytes of a clamp entry as one big-endian number (Table 13.10). -/
def clampBytes (e : ClampEntry) : Nat :=
  ((e.id % 2 ^ 32 * 2 ^ 64 + e.req % 2 ^ 64) * 2 ^ 64 + e.applied % 2 ^ 64) * 2 ^ 32 + e.reason % 256 * 2 ^ 24

/-- The clamps of one write, in check order (R362). -/
def State.clamped (s : State) (source : Nat) (es : List ClampEntry) : State :=
  if es.isEmpty then s
  else
    let c := s.wgl.clamps
    let s := s.sticky rGLB_WGL_STAT 15
    if c.entries = es.take 32 ∧ c.total = es.length then
      { s with wgl := { s.wgl with clamps := { c with rep := (c.rep + 1) % 2 ^ 32 } } }
    else
      let c' : ClampReport := ⟨es.take 32, (c.gen + 1) % 2 ^ 32, source, s.tick.number.toNat, 0, es.length⟩
      let s := { s with wgl := { s.wgl with clamps := c' } }
      s.notify 1 0x1F80 0x10 ((es.head?.map clampBytes).getD 0 * 2 ^ 64)

/-- Clamp a value into lo..hi, with the entry it causes. -/
def clampE (id lo hi x : Nat) : Nat × List ClampEntry :=
  if x < lo then (lo, [⟨id, x, lo, 1⟩]) else if hi < x then (hi, [⟨id, x, hi, 2⟩]) else (x, [])

/-! ### Scratchpad and HBM granules -/

/-- Key of granule `g` of the scratchpad of site `p`. -/
def spadKey (p g : Nat) : Nat := p * 2 ^ 20 + g % 2 ^ 20
/-- Is the granule in a region that is served from the save buffer (R240, R241)? -/
def State.redirected (s : State) (p g : Nat) : Bool :=
  let x := mget SpadTest.init s.spad.test p
  x.region == 1 + g % 2 ^ 20 / 64 && x.copied.getLsbD (g % 64) && !(x.restored.getLsbD (g % 64))
def State.granule (s : State) (p g : Nat) : BitVec 512 :=
  if s.redirected p g then mget 0 s.spad.save (p * 64 + g % 64) else mget 0 s.spad.mem (spadKey p g)
/-- Write a whole granule; this clears its uncorrectable mark and its entry in the bad-granule list (R234). -/
def State.setGranule (s : State) (p g : Nat) (v : BitVec 512) : State :=
  let sp :=
    if s.redirected p g then { s.spad with save := mset 0 s.spad.save (p * 64 + g % 64) v }
    else { s.spad with mem := mset 0 s.spad.mem (spadKey p g) v }
  { s with spad :=
      if mget false sp.bad (spadKey p g) then
        { sp with bad := mset false sp.bad (spadKey p g) false,
                  badList := mupd [] sp.badList p (fun l => l.filter (fun x => x != g % 2 ^ 20)) }
      else sp }
/-- `n` granules from granule `g` as one little-endian number. -/
def State.readGran (s : State) (p g : Nat) : Nat → Nat
  | 0 => 0
  | n + 1 => (s.granule p g).toNat + 2 ^ 512 * State.readGran s p (g + 1) n
/-- Write `n` granules of the little-endian number `x`. -/
def State.writeGran (s : State) (p g x : Nat) : Nat → State
  | 0 => s
  | n + 1 => State.writeGran (s.setGranule p g (BitVec.ofNat 512 x)) p (g + 1) (x / 2 ^ 512) n
/-- `len` bytes at byte offset `off` as a little-endian number. -/
def State.spadBytes (s : State) (p off len : Nat) : Nat :=
  bits (s.readGran p (off / 64) (ceilDiv (off % 64 + len) 64)) (8 * (off % 64)) (8 * len)
/-- Write part of a granule: its uncorrectable mark stays (R234). -/
def State.patchGranule (s : State) (p g : Nat) (v : BitVec 512) : State :=
  if s.redirected p g then { s with spad := { s.spad with save := mset 0 s.spad.save (p * 64 + g % 64) v } }
  else { s with spad := { s.spad with mem := mset 0 s.spad.mem (spadKey p g) v } }
/-- Write bytes `lo` to `hi - 1` of the area whose first granule is `g`; `x` holds the bytes from granule `g` on. -/
def State.writeBytes (s : State) (p g x lo hi : Nat) : Nat → State
  | 0 => s
  | n + 1 =>
    let whole := lo = 0 ∧ 64 ≤ hi
    let a := min 64 hi - lo
    let v := setBits (s.granule p g).toNat (8 * lo) (8 * a) (bits x (8 * lo) (8 * a))
    let s := if whole then s.setGranule p g (BitVec.ofNat 512 v) else s.patchGranule p g (BitVec.ofNat 512 v)
    State.writeBytes s p (g + 1) (x / 2 ^ 512) 0 (hi - 64) n
/-- Write `len` bytes at byte offset `off`. -/
def State.setSpadBytes (s : State) (p off len x : Nat) : State :=
  s.writeBytes p (off / 64) (x * 2 ^ (8 * (off % 64))) (off % 64) (off % 64 + len) (ceilDiv (off % 64 + len) 64)
/-- A vector (32-byte header and payload of `len` bytes) written at a granule boundary, padded to whole granules. -/
def State.writeVec (s : State) (p off hdr payload len : Nat) : State :=
  s.writeGran p (off / 64) (hdr % 2 ^ 256 + 2 ^ 256 * (payload % 2 ^ (8 * len))) (ceilDiv (32 + len) 64)

/-- Key of granule `g` of frame `f` of the stack of site `p`. -/
def hbmKey (p f g : Nat) : Nat := (p * 589824 + f) * 1024 + g
def State.hbmGran (s : State) (p f g : Nat) : BitVec 512 := mget 0 s.kv.hbm (hbmKey p f g)
def State.setHbmGran (s : State) (p f g : Nat) (v : BitVec 512) : State :=
  { s with kv := { s.kv with hbm := mset 0 s.kv.hbm (hbmKey p f g) v } }
/-- One byte of a frame. -/
def State.hbmByte (s : State) (p f b : Nat) : Nat := bits (s.hbmGran p f (b / 64)).toNat (8 * (b % 64)) 8
def State.setHbmByte (s : State) (p f b v : Nat) : State :=
  s.setHbmGran p f (b / 64) (BitVec.ofNat 512 (setBits (s.hbmGran p f (b / 64)).toNat (8 * (b % 64)) 8 v))

/-- Pack numbers of `w` bits, first lowest. -/
def packNat (w : Nat) : List Nat → Nat
  | [] => 0
  | x :: t => x % 2 ^ w + 2 ^ w * packNat w t
/-- The first `n` fields of `w` bits of `x`. -/
def unpackNat (w : Nat) : Nat → Nat → List Nat
  | 0, _ => []
  | n + 1, x => x % 2 ^ w :: unpackNat w n (x / 2 ^ w)

/-- An access fault with the shared layout of R487. -/
def State.accessFault (s : State) (code part site addr master : Nat) : State :=
  s.raise code part 0x3FFF site (bits addr 0 32) (bits addr 32 16 + 2 ^ 16 * master)

/-! ### Record entries (R449, R451) and state changes of a partition -/

def State.recOf (s : State) (n : Nat) : RecPart := mget RecPart.init s.rcd.parts n
def State.updRec (s : State) (n : Nat) (f : RecPart → RecPart) : State :=
  { s with rcd := { s.rcd with parts := mupd RecPart.init s.rcd.parts n f } }
/-- Form a record entry for a recording partition; kinds 6 to 8 carry the tick number (Table 17.3). -/
def State.record (s : State) (n kind : Nat) (words : List Nat) : State :=
  if (s.recOf n).mode = 1 then
    let tn := kind == 6 || kind == 7 || kind == 8
    s.updRec n (fun r => { r with items := r.items ++
      [⟨kind, tn, if tn then s.tick.number.toNat else (s.part n).stroke.toNat, s.time, words⟩] })
  else s
/-- Form a record entry for every recording partition. -/
def State.recordAll (s : State) (kind : Nat) (words : List Nat) : State :=
  (List.range 16).foldl (fun (s : State) n => s.record n kind words) s

def pstateCode : PState → Nat
  | .unconfigured => 0
  | .configured => 1
  | .loading => 2
  | .running => 3
/-- A partition changes state; the manager is notified (Table 13.7). -/
def State.setPState (s : State) (n : Nat) (st : PState) : State :=
  let old := (s.part n).st
  if old = st then s
  else
    (s.updPart n (fun p => { p with st := st })).notify 4 (0x5000 + n) 1
      ((pstateCode old * 256 + pstateCode st) * 2 ^ 240)

/-- Statistics of a partition (Table 13.21). -/
def State.stat (s : State) (n : Nat) : PartStat := mget PartStat.init s.wgl.stats n
def State.updStat (s : State) (n : Nat) (f : PartStat → PartStat) : State :=
  { s with wgl := { s.wgl with stats := mset PartStat.init s.wgl.stats n (f (s.stat n)) } }

/-! ### Interrupts (R268) -/

def fnKey (port fn vec : Nat) : Nat := (port * 17 + fn) * 2048 + vec
def State.msixWord (s : State) (port fn vec w : Nat) : BitVec 32 :=
  mget (if w % 4 = 3 then 1 else 0) s.host.msixTab (fnKey port fn vec * 4 + w)
def State.setMsixWord (s : State) (port fn vec w : Nat) (v : BitVec 32) : State :=
  { s with host := { s.host with msixTab := mset (if w % 4 = 3 then 1 else 0) s.host.msixTab (fnKey port fn vec * 4 + w) v } }
def State.setPendBit (s : State) (k : Nat) (b : Bool) : State :=
  { s with host := { s.host with pendBit := mset false s.host.pendBit k b } }
/-- Does a vector send its message: MSI-X Enable set, the function and the entry unmasked (R268)? -/
def State.msixOpen (s : State) (port fn vec : Nat) : Bool :=
  mget false s.host.msixOn (port * 17 + fn) && !(mget false s.host.fmask (port * 17 + fn)) && !(bit (s.msixWord port fn vec 3).toNat 0)
def State.sendMsix (s : State) (port fn vec : Nat) : State :=
  s.emit (.msix port fn vec ((s.msixWord port fn vec 0).toNat + 2 ^ 32 * (s.msixWord port fn vec 1).toNat)
    (s.msixWord port fn vec 2).toNat)
/-- Raise a vector: a message, or the pending bit while it is masked. -/
def State.raiseVec (s : State) (port fn vec : Nat) : State :=
  if s.msixOpen port fn vec then s.sendMsix port fn vec else s.setPendBit (fnKey port fn vec) true
/-- Raise a vector of every PF that has MSI-X enabled. -/
def State.raisePf (s : State) (vec : Nat) : State :=
  (List.range 4).foldl (fun (s : State) p => if mget false s.host.msixOn (p * 17) then s.raiseVec p 0 vec else s) s

/-! ### Roles of the redundant pair (R423, R437, R440) -/

/-- MODE in force: 0 none, 1 MIRROR, 2 SHARE. -/
def State.modeNow (s : State) : Nat := s.fld rPAIR_CTL 0 2
/-- Table 16.3. -/
def State.role (s : State) : Nat := s.fld rPAIR_STATUS 0 2
/-- Phase of the resynchronisation (Table 16.5). -/
def State.resyncing (s : State) : Nat := s.fld rPAIR_STATUS 12 3
def State.epoch (s : State) : Nat := s.fld rPAIR_EPOCH 0 32
def State.servesPart (s : State) (n : Nat) : Bool := s.flag rPAIR_CTL (16 + n)
/-- A standby partition of a SHARE pair (R437). -/
def State.standbyPart (s : State) (n : Nat) : Bool := s.modeNow == 2 && (s.role == 1 || s.role == 2) && !(s.servesPart n)
/-- This panel is being overwritten by the resynchronisation (R440, log entry 80). -/
def State.joining (s : State) : Bool := s.pair.joiner && s.resyncing != 0
/-- Work that this panel only holds for its partner: a standby partition's streams, or those that the resynchronisation writes. -/
def State.heldForPartner (s : State) (n : Nat) : Bool := s.standbyPart n || s.joining

end Sys2Proof.Machine
end

