-- ==== Sys2Proof/Machine/Flags.lean ====
section
/-! DEFINITION. Accumulator-domain values (R42, R43), origins and taint (R44-R47), and the checks of a vector header
(R108): the flags a value carries through the panel. -/

namespace Sys2Proof.Machine

/-- An accumulator-domain value (R42). -/
inductive AccVal where
  | fin (i : Int) | pinf | ninf | poison
  deriving DecidableEq, Repr

/-- Largest finite magnitude, 2^31 - 2. -/
def accMax : Int := 2147483646
/-- The range rule of Table 02.10. -/
def accOf (i : Int) : AccVal := if i > accMax then .pinf else if i < -accMax then .ninf else .fin i
/-- Reading of a pattern (R42). -/
def accDec (x : BitVec 32) : AccVal :=
  if x = 0x7FFFFFFF#32 then .pinf else if x = 0x80000000#32 then .ninf else if x = 0x80000001#32 then .poison
  else .fin (signed 32 x.toNat)
/-- Pattern of a value (R42). -/
def accEnc : AccVal → BitVec 32
  | .fin i => BitVec.ofNat 32 (unsigned 32 i)
  | .pinf => 0x7FFFFFFF#32
  | .ninf => 0x80000000#32
  | .poison => 0x80000001#32
/-- Addition of accumulator-domain values (Table 02.10). -/
def accAdd : AccVal → AccVal → AccVal
  | .poison, _ => .poison
  | _, .poison => .poison
  | .fin a, .fin b => accOf (a + b)
  | .fin _, y => y
  | x, .fin _ => x
  | .pinf, .pinf => .pinf
  | .ninf, .ninf => .ninf
  | .pinf, .ninf => .poison
  | .ninf, .pinf => .poison
/-- A special value negates to itself, +INF and -INF exchanged (R43). -/
def accNeg : AccVal → AccVal
  | .fin i => .fin (-i)
  | .pinf => .ninf
  | .ninf => .pinf
  | .poison => .poison
def accFinite : AccVal → Bool
  | .fin _ => true
  | _ => false
/-- The value of a finite value; 0 for a special one. -/
def accInt : AccVal → Int
  | .fin i => i
  | _ => 0
/-- Origin kind of a special value: 1 +INF, 2 -INF, 3 POISON (R44). -/
def accKind : AccVal → Nat
  | .fin _ => 0
  | .pinf => 1
  | .ninf => 2
  | .poison => 3

/-- Origin word: global comb ID, layer tag and kind (W2 of Table 04.8). -/
def originWord (comb layer kind : Nat) : Nat := comb % 2 ^ 19 + 2 ^ 19 * (layer % 256) + 2 ^ 27 * (kind % 8)
/-- The kept origin of two (R47): lowest layer tag, then lowest comb; an empty one (0) never wins. -/
def minOrigin (a b : Nat) : Nat :=
  if a = 0 then b else if b = 0 then a
  else
    let ka := bits a 19 8 * 2 ^ 19 + bits a 0 19
    let kb := bits b 19 8 * 2 ^ 19 + bits b 0 19
    if kb < ka then b else a

/-! ### Vector headers (Table 04.8) -/

def vhMrg (h : Nat) : Bool := bit h 28
def vhFb (h : Nat) : Bool := bit h 27
def vhLate (h : Nat) : Bool := bit h 26
def vhTaint (h : Nat) : Bool := bit h 25
def vhZero (h : Nat) : Bool := bit h 24
def vhLen (h : Nat) : Nat := wf h 0 20 4
def vhEfmt (h : Nat) : Nat := wf h 0 18 2
def vhKind (h : Nat) : Nat := wf h 0 16 2
def vhPmask (h : Nat) : Nat := wf h 0 0 16
def vhVlen (h : Nat) : Nat := wf h 1 12 10
def vhZa (h : Nat) : Nat := wf h 1 0 12
def vhOrigin (h : Nat) : Nat := wf h 2 0 30
def vhGain (h : Nat) : BitVec 32 := BitVec.ofNat 32 (wf h 3 0 32)
def vhTag (h : Nat) : Nat := wf h 4 16 16
def vhStream (h : Nat) : Nat := wf h 4 0 14
def vhRank (h : Nat) : Nat := wf h 5 16 8
def vhToken (h : Nat) : Nat := wf h 5 0 16
def vhMwgt (h : Nat) : Nat := wf h 6 16 16
def vhMctx (h : Nat) : Nat := wf h 6 0 11
/-- Elements of the vector, 32 × (LEN + 1). -/
def vhElems (h : Nat) : Nat := 32 * (vhLen h + 1)
/-- Planes of an activation format (Table 02.6); 0 for the reserved code. -/
def planesOf (f : Nat) : Nat := if f = 0 then 4 else if f = 1 then 8 else if f = 2 then 12 else 0

/-- Build a vector header. -/
def mkHdr (kind efmt len vlen za pmask : Nat) (zero taint late fb mrg : Bool) (origin : Nat) (gain : BitVec 32)
    (tag stream rank token mwgt mctx : Nat) : Nat :=
  packNat 32
    [pmask % 2 ^ 16 + kind * 2 ^ 16 + efmt * 2 ^ 18 + len * 2 ^ 20 + b2n zero * 2 ^ 24 + b2n taint * 2 ^ 25 +
       b2n late * 2 ^ 26 + b2n fb * 2 ^ 27 + b2n mrg * 2 ^ 28,
     za % 2 ^ 12 + (vlen % 2 ^ 10) * 2 ^ 12, origin, gain.toNat, stream % 2 ^ 14 + (tag % 2 ^ 16) * 2 ^ 16,
     token % 2 ^ 16 + (rank % 2 ^ 8) * 2 ^ 16, mctx % 2 ^ 11 + (mwgt % 2 ^ 16) * 2 ^ 16, 0]

/-- Payload bytes that a header announces, before padding (Table 04.9). -/
def payloadBytes (h : Nat) : Nat :=
  let n := vhElems h
  match vhKind h with
  | 0 => if vhZero h then 0 else popCount 16 (vhPmask h) * (n / 8)
  | 1 => if vhEfmt h = 0 then n / 2 else if vhEfmt h = 2 then 2 * n else n
  | 2 => 2 * n
  | _ => 4 * n
/-- Payload bytes padded to a multiple of 32 (R107). -/
def paddedBytes (h : Nat) : Nat := 32 * ceilDiv (payloadBytes h) 32

/-- The first failing field of a header in Table 04.8 row order, or none (R108). `planes` are the present planes of a ZR
payload, `len` the payload bytes received. A wrong payload length is named by the LEN row (log entry 10). -/
def hdrFail (h : Nat) (planes : List Nat) (len : Nat) : Option Nat :=
  let kind := vhKind h
  let lenOk := if kind = 0 then vhLen h == 7 || vhLen h == 15 else true
  let efmtOk := if kind = 0 then decide (vhEfmt h < 3) else if kind = 1 then true else vhEfmt h == 0
  let pmaskOk :=
    if kind = 0 then decide (vhPmask h < 2 ^ planesOf (vhEfmt h)) && !(planes.any (fun p => p == 0)) else vhPmask h == 0
  if bits h 29 3 != 0 then some 0
  else if vhMrg h && kind != 3 then some 1
  else if vhZero h && (kind != 0 || vhPmask h != 0) then some 5
  else if !lenOk || (len != paddedBytes h) then some 6
  else if !efmtOk then some 7
  else if !pmaskOk then some 9
  else if wf h 1 22 10 != 0 then some 10
  else if vhVlen h > vhElems h then some 11
  else if wf h 2 30 2 != 0 then some 13
  else if wf h 4 14 2 != 0 then some 19
  else if wf h 5 24 8 != 0 then some 21
  else if vhMwgt h > 0x8000 then some 24
  else if wf h 6 11 5 != 0 then some 25
  else if wf h 7 0 32 != 0 then some 27
  else none

/-- Consumer types in detail word 1 of VECTOR_HEADER_INVALID, in the order R108 lists them (log entry 10). -/
def State.badVector (s : State) (part site h consumer field : Nat) : State :=
  s.raise 0x30C6 part 0x3FFF site (wf h 0 0 32) (consumer + 2 ^ 4 * field)

end Sys2Proof.Machine
end

