-- ==== Sys2Proof/Machine/Spad.lean ====
section
/-! DEFINITION. What every master of a site does with the scratchpad and the fabric: reads that carry the late-error mark
(R232, R234), region checks (R237), panel addresses (R20, R21), packets handed to the fabric (R218) and error-queue
entries (R231). -/

namespace Sys2Proof.Machine

/-! ### Reads and writes by a master -/

/-- Is granule `g` of site `p` in the late-mark table (R232)? -/
def State.lateMarked (s : State) (p g : Nat) : Bool :=
  mget false s.spad.markAll p || (mget [] s.spad.marks p).any (fun r => decide (r.1 ≤ g) && decide (g ≤ r.2))

/-- Record a failed range in the late-mark table; the seventeenth marks every read (R232). -/
def State.lateMark (s : State) (p g0 g1 : Nat) : State :=
  if (mget [] s.spad.marks p).length < 16 then
    { s with spad := { s.spad with marks := mupd [] s.spad.marks p (fun l => l ++ [(g0, g1)]) } }
  else { s with spad := { s.spad with markAll := mset false s.spad.markAll p true } }

/-- An uncorrectable read of granule `g` by `master` (R234). The list keeps sixteen granules; a seventeenth is not entered
(log entry 11). -/
def State.spadUe (s : State) (part p slot master g : Nat) : State :=
  let s := (s.bump (siteReg p rSPAD_CNT_UE)).sticky (siteReg p rSPAD_STAT) 0
  let l := mget [] s.spad.badList p
  if l.contains g then s.raise 0x3203 part slot p g master
  else
    let s := if l.length < 16 then { s with spad := { s.spad with badList := mset [] s.spad.badList p (l ++ [g]) } } else s
    s.journal 0x1202 part slot p g master

/-- Count an access that the save buffer serves (R240). -/
def State.redirCount (s : State) (p g : Nat) : State :=
  if s.redirected p g then s.bump (siteReg p rSPAD_CNT_REDIR) else s

/-- A read of `n` granules from `g` for stream slot `slot`: whether it delivers the late-error mark, and what it leaves behind. -/
def State.spadReadG (s : State) (part p slot master g : Nat) : Nat → Bool × State
  | 0 => (false, s)
  | n + 1 =>
    let s1 := s.redirCount p g
    let ue := mget false s1.spad.bad (spadKey p g)
    let s2 := if ue then s1.spadUe part p slot master g else s1
    let r := State.spadReadG s2 part p slot master (g + 1) n
    (ue || s.lateMarked p g || r.1, r.2)

/-- A read of the granules that hold `len` bytes at `off`. -/
def State.spadRead (s : State) (part p slot master off len : Nat) : Bool × State :=
  s.spadReadG part p slot master (off / 64) (ceilDiv (off % 64 + len) 64)

/-- Corrected reads of a step: data written back, counted, journalled once per stroke (R234). -/
def State.spadCe (s : State) (part p slot g b : Nat) : State :=
  (s.bump (siteReg p rSPAD_CNT_CE)).raiseOnce p 0x1201 part slot p g b

/-- Bits of the scratchpad that turned uncorrectable, or failed correctably, before this step (R234). -/
def State.spadErrs (s : State) (part p slot : Nat) (ue : List Nat) (ce : List (Nat × Nat)) : State :=
  let s := { s with spad := { s.spad with bad := ue.foldl (fun m g => mset false m (spadKey p g) true) s.spad.bad } }
  ce.foldl (fun s e => s.spadCe part p slot (e.1 % 2 ^ 20) (e.2 % 512)) s

/-- A vector read from the scratchpad by a master: header, payload and late-error mark. -/
structure VecIn where
  hdr : Nat
  payload : Nat
  late : Bool
  deriving DecidableEq, Repr

def State.readVec (s : State) (part p master off : Nat) : VecIn × State :=
  let h := s.spadBytes p off 32
  let len := paddedBytes h
  let r := s.spadRead part p (vhStream h) master off (32 + len)
  (⟨h, s.spadBytes p (off + 32) len, r.1 || vhLate h⟩, r.2)

/-! ### The background test of a region (R240, R241) -/

/-- The test of site `p`'s scratchpad region goes on as `x`. -/
def State.setTest (s : State) (p : Nat) (x : SpadTest) : State :=
  { s with spad := { s.spad with test := mset SpadTest.init s.spad.test p x } }
/-- The granules of a region that are listed in `m`. -/
def granList (m : BitVec 64) : List Nat := (List.range 64).filter m.getLsbD
/-- Copied granules that are not restored yet are written back from the save buffer (R240, R241). -/
def State.spadRestore (s : State) (p : Nat) (m : BitVec 64) : State :=
  let z := mget SpadTest.init s.spad.test p
  if z.region = 0 ∨ z.failed then s
  else
    let todo := m &&& z.copied &&& ~~~z.restored
    { s with spad := { s.spad with
        mem := (granList todo).foldl (fun a i => mset 0 a (spadKey p ((z.region - 1) * 64 + i)) (mget 0 s.spad.save (p * 64 + i))) s.spad.mem } }.setTest
      p { z with restored := z.restored ||| todo }
/-- The save buffer of a site is empty and no region is under test. -/
def State.spadDone (s : State) (p : Nat) : State :=
  { s with spad := { s.spad with save := (List.range 64).foldl (fun m i => mset 0 m (p * 64 + i) 0) s.spad.save } }.setTest p SpadTest.init
/-- A region that has been begun is restored, whoever waits for it; one that was not saved whole is tested again from its start
(R241). -/
def State.finishRestore (s : State) (p : Nat) : State :=
  let z := mget SpadTest.init s.spad.test p
  let s := s.spadRestore p (BitVec.allOnes 64)
  if z.region = 0 ∨ z.failed ∨ z.copied = BitVec.allOnes 64 then s else s.spadDone p

/-! ### Regions (R237) -/

/-- Key of region register `r` of master type `m` at site `p`. -/
def regionKey (p m r : Nat) : Nat := (p * 64 + m) * 16 + r
/-- Does one enabled region of the master grant the access to granule `g`? -/
def State.regionGran (s : State) (p m g : Nat) (rd wr : Bool) : Bool :=
  let rs := (List.range 16).map (fun r => (mget 0 s.spad.region (regionKey p m r)).toNat)
  let hit (b : Nat) : Bool := rs.any (fun x => bit x 63 && bit x b && decide (bits x 0 20 ≤ g) && decide (g ≤ bits x 20 20))
  (!rd || hit 61) && (!wr || hit 62)
/-- The first byte offset out of bounds or outside the regions, for an area of `n` granules from byte offset `off`. -/
def State.areaFail (s : State) (p m off : Nat) (rd wr : Bool) : Nat → Option Nat
  | 0 => none
  | n + 1 =>
    if 2 ^ 26 ≤ off || !(s.regionGran p m (off / 64) rd wr) then some off
    else State.areaFail s p m (off + 64) rd wr n

/-! ### Panel addresses (R20, R21) -/

/-- Panel address of byte offset `o` of space `sp` at physical site `p`. -/
def mkAddr (sp p o : Nat) : Nat := (sp % 8) * 2 ^ 45 + (p % 128) * 2 ^ 38 + o % 2 ^ 38
/-- Is the address one the panel does not send (R21, R26, R234)? `exempt` is for firmware and the self-test engine. -/
def State.addrBad (s : State) (a : Nat) (exempt : Bool) : Bool :=
  let sp := addrSpace a
  let p := addrSite a
  decide (4 < sp) || decide (71 < p) || (decide (sp < 3) && isHub p) ||
    (decide (sp < 3) && isSpare p && !exempt && (s.lsite p).isNone) ||
    (sp == 0 && bits a 26 12 != 0) || (sp == 2 && (bits a 36 2 != 0 || decide (589824 ≤ bits a 16 20))) ||
    (sp == 1 &&
      (bit a 34 || bits a 21 13 > 4095 || bits a 13 8 > 63 || bits a 36 2 == 3 ||
        (bits a 36 2 == 1 && bit a 12 && bits a 0 12 > 7) || (bits a 36 2 == 2 && bits a 2 11 > 128)))

/-- Does an access of `len` bytes at the address name a position that is not sent (R21, R26, R87)? -/
def State.rangeBad (s : State) (a len : Nat) (exempt : Bool) : Bool :=
  (List.range (max 1 len)).any (fun i => s.addrBad (a + i) exempt)

/-! ### Packets (R218, R219) -/

/-- Header of a packet (Table 08.2). -/
def mkPkt (type part vc bg src dst len ofs space err seq tag stroke stream : Nat) : Nat :=
  packNat 32
    [len % 64 + (dst % 128) * 2 ^ 7 + (src % 128) * 2 ^ 14 + (bg % 2) * 2 ^ 21 + (vc % 4) * 2 ^ 22 +
       (part % 16) * 2 ^ 24 + (type % 16) * 2 ^ 28,
     ofs, tag % 2 ^ 16 + (seq % 4096) * 2 ^ 16 + (err % 2) * 2 ^ 28 + (space % 8) * 2 ^ 29,
     stream % 2 ^ 14 + (stroke % 256) * 2 ^ 22]

def pkType (h : Nat) : Nat := wf h 0 28 4
def pkPart (h : Nat) : Nat := wf h 0 24 4
def pkVc (h : Nat) : Nat := wf h 0 22 2
def pkSrc (h : Nat) : Nat := wf h 0 14 7
def pkDst (h : Nat) : Nat := wf h 0 7 7
def pkLen (h : Nat) : Nat := wf h 0 0 6
def pkOfs (h : Nat) : Nat := wf h 1 0 32
def pkSpace (h : Nat) : Nat := wf h 2 29 3
def pkErr (h : Nat) : Bool := bit (wf h 2 0 32) 28
def pkSeq (h : Nat) : Nat := wf h 2 16 12
def pkTag (h : Nat) : Nat := wf h 2 0 16
def pkStrokeLo (h : Nat) : Nat := wf h 3 22 8
def pkStream (h : Nat) : Nat := wf h 3 0 14
/-- Panel address that a packet names. -/
def pkAddr (h : Nat) : Nat := mkAddr (pkSpace h) (pkDst h) (64 * pkOfs h)

def seqKey (src dst vc : Nat) : Nat := (src * 128 + dst) * 4 + vc
def outKey (site ds : Nat) : Nat := site * 8 + ds
/-- Outstanding count of a descriptor stream (R229). -/
def State.outst (s : State) (site ds : Nat) : Nat := mget 0 s.fab.outst (outKey site ds)

def State.setOutst (s : State) (site ds n : Nat) : State :=
  { s with fab := { s.fab with outst := mset 0 s.fab.outst (outKey site ds) n } }

/-- Number, within its stream and stroke, of the descriptor of a stream that runs. -/
def State.descOrd (s : State) (site ds : Nat) : Nat :=
  let x := mget DStream.init s.desc.streams (outKey site ds)
  x.count + x.signal.length
/-! ### The error queue (R231) -/

/-- Error-queue status of partition `n`, a register of its hub. -/
def leqReg (n : Nat) : Nat := siteReg (partHub n) (rFAB_LEQ_STAT + 4 * n)

/-- One late error enters the partition's error queue; with 256 entries it is dropped and counted (R231); LATE_QUEUE_FULL
is journalled with the count when the stroke finishes (log entry 12). -/
def State.lateEntry (s : State) (part src reason stream kind dst addr tag seq : Nat) : State :=
  let p := s.part part
  if p.errq.length < 256 then
    s.setPart part { p with errq := p.errq ++
      [⟨p.stroke.toNat, tag, src, reason, stream, kind, dst, addr, seq, s.time⟩] }
  else (s.setPart part { p with errDropped := p.errDropped + 1 }).sticky (leqReg part) 29

/-- The late error of a packet that is given up or answered by one: the outstanding count falls and the entry is made. -/
def State.failPkt (s : State) (o : OutPkt) (reason : Nat) : State :=
  let f := { s.fab with flight := s.fab.flight.filter (fun x => x != o),
                        outst := mset 0 s.fab.outst (outKey o.src o.dstream) (s.outst o.src o.dstream - 1) }
  { s with fab := f }.lateEntry o.part o.src reason o.slot (if o.kind = 1 then 1 else 0) o.dst o.addr o.tag o.seq

/-! ### Slots and the hub wheel (R221, R222, R225) -/

/-- Grant fields (Table 08.5). -/
def grSrc (g : Nat) : Nat := bits g 0 7
def grDest (g : Nat) : Nat := bits g 7 7
def grPort (g : Nat) : Nat := bits g 14 3
def grVc (g : Nat) : Nat := bits g 17 2
/-- Physical site that a port leads to; 72 where the grid ends (R14). -/
def neighbour (p port : Nat) : Nat :=
  let r := p / 9
  let c := p % 9
  if port = 0 then (if r = 0 then 72 else p - 9) else if port = 1 then (if c = 8 then 72 else p + 1)
  else if port = 2 then (if r = 7 then 72 else p + 9) else (if c = 0 then 72 else p - 1)
/-- Physical site of a destination field. -/
def State.destSite (s : State) (d : Nat) : Nat := if d < 64 then s.phys d else hubSite (d - 64)
/-- First and end instant, in ps, of a grant in the stroke: slot 0 of a site begins when its quadrant 0 opens. -/
def State.grantWindow (s : State) (n g : Nat) : Nat × Nat :=
  let p := s.part n
  let o := (if p.phase = 0 then s.tick.last + s.ingestNs else p.runAt) + 2 * hops31 (s.phys (grSrc g))
  (1000 * (o + 32 * wf g 1 0 17), 1000 * (o + 32 * (wf g 1 0 17 + wf g 1 17 12 + 1)))
/-- Time that a packet of `n` payload granules takes on a port, in ps: 4 TB/s on the mesh, 1.6 TB/s on the optical network (Table
08.1). -/
def packetTime (port n : Nat) : Nat := if port = 4 then ceilDiv (5 * (16 + 64 * n)) 8 else ceilDiv (16 + 64 * n) 4
/-- Register of wheel slot `slot` of a hub, and the slot's owner (Table 08.18). -/
def wheelReg (h slot : Nat) : Nat := siteReg (hubSite h) (rFAB_HUBWHEEL + 4 * (slot / 4))
def State.wheelOwner (s : State) (h slot : Nat) : Nat := s.fld (wheelReg h slot) (8 * (slot % 4)) 8
/-- First instant at or after `t`, in ps, from which a packet of duration `d` fits a wheel slot of partition `n` at hub `h`. -/
def State.wheelFit (s : State) (h n d : Nat) : Nat → Nat → Option Nat
  | 0, _ => none
  | fuel + 1, t =>
    let k := (t - 1000 * s.tick.last) / 32000
    let e := 1000 * s.tick.last + 32000 * (k + 1)
    if s.wheelOwner h (k % 64) = n ∧ t + d ≤ e then some t else State.wheelFit s h n d fuel e
/-- Grants of the stroke's slot table for a packet, which have not ended. -/
def State.grantsFor (s : State) (n vc src dst : Nat) : List Nat :=
  match s.bucketOf n with
  | none => []
  | some b => (b.grants.map BitVec.toNat).filter (fun g =>
      s.phys (grSrc g) == src && s.destSite (grDest g) == dst && grVc g == vc && decide (1000 * s.time < (s.grantWindow n g).2))
/-- Instant, in ps, at which a packet of `len` granules leaves within a grant: its last byte leaves before the grant ends, behind the
packets that the port and the pair of sites already carry, and in a wheel slot of its partition at a hub. -/
def State.fitGrant (s : State) (n src dst len g : Nat) : Option Nat :=
  let port := grPort g
  let w := s.grantWindow n g
  let d := packetTime port len
  let behind := ((s.fab.flight.filter (fun o => o.src == src && o.dst == dst && o.sent)).map (fun o => 1000 * o.time)).foldl max 0
  let t := max (max (1000 * s.time) w.1) (max (mget 0 s.fab.busy (src * 5 + port)) behind)
  let at' := if mget false s.fab.down (src * 5 + port) || (port == 4 && mget false s.fab.down (dst * 5 + 4)) then none
    else match (List.range 4).find? (fun h => hubSite h == dst) with
      | some h => s.wheelFit h n d 66 t
      | none => some t
  at'.bind (fun t => if t + d ≤ w.2 then some t else none)
/-- Port and instant, in ps, at which a packet leaves: within the first grant that takes it. Control packets have a lane of their own
(R224), and a hub's own packets need its wheel alone (R225). -/
def State.leaves (s : State) (n vc src dst len : Nat) : Option (Nat × Nat) :=
  if vc = 3 then some (4, 1000 * s.time)
  else
    match (List.range 4).find? (fun h => hubSite h == src) with
    | some h => (s.wheelFit h n (packetTime 4 len) 66 (max (1000 * s.time) (mget 0 s.fab.busy (src * 5 + 4)))).map (fun t => (4, t))
    | none =>
      (s.grantsFor n vc src dst).foldl (fun (m : Option (Nat × Nat)) g =>
        match m, s.fitGrant n src dst len g with
        | none, some t => some (grPort g, t)
        | some b, some t => if t < b.2 then some (grPort g, t) else some b
        | m, none => m) none
/-- Hand a packet to the fabric. A PWRITE or READ_REQ stays outstanding until its reply (R229). One that no grant is left for is given
up at once with NO_SLOT; one that no grant takes waits until the last of them ends (R221, log entry 147). -/
def State.sendPkt (s : State) (type part vc src dst len ofs space err tag stream ds : Nat) (into : List (Nat × Nat × Nat))
    (payload : List Nat) : State :=
  let k := seqKey src dst vc
  let seq := mget 0 s.fab.seqs k
  let h := mkPkt type part vc 0 src dst len ofs space err seq tag (s.part part).stroke.toNat stream
  let at' := s.leaves part vc src dst payload.length
  let f := { s.fab with seqs := mset 0 s.fab.seqs k ((seq + 1) % 4096) }
  let addr := mkAddr space dst (64 * ofs)
  if type ≤ 1 ∧ at'.isNone ∧ !(isHub src) ∧ (s.grantsFor part vc src dst).isEmpty then
    { s with fab := f }.lateEntry part src 6 stream type dst addr tag seq
  else
    let f :=
      if type ≤ 1 then
        { f with outst := mset 0 f.outst (outKey src ds) (mget 0 f.outst (outKey src ds) + 1),
                 flight := f.flight ++
                   [⟨src, dst, seq, ds, part, tag, stream, type, addr, into, s.descOrd src ds, (at'.map (·.1)).getD 4, at'.isSome,
                     ((at'.map (·.2)).getD 0) / 1000, false, false⟩] }
      else f
    match at' with
    | some x =>
      let f := if vc = 3 then f else { f with busy := mset 0 f.busy (src * 5 + x.1) (x.2 + packetTime x.1 payload.length) }
      ({ s with fab := f }.emit (.packet h payload)).bump (siteReg src rFAB_CNT_TX)
    | none => { s with fab := f }

/-- Write `n` granules of the little-endian number `x` at byte offset `off` of space 0 of site `dst`: directly at the own
site, in PWRITEs of up to 64 granules elsewhere. -/
def State.storeAt (s : State) (part src dst ds tag stream off x : Nat) : Nat → Nat → State
  | 0, _ => s
  | _, 0 => s
  | fuel + 1, n =>
    let k := min n 64
    let s1 :=
      if src = dst then s.writeGran dst (off / 64) x k
      else s.sendPkt 0 part 0 src dst (k - 1) (off / 64) 0 0 tag stream ds [] (unpackNat 512 k x)
    State.storeAt s1 part src dst ds tag stream (off + 64 * k) (x / 2 ^ (512 * k)) fuel (n - k)

/-- A row of `n` granules and the granule that goes with it are stored: together when the granule is the one before the row,
else the row first. -/
def State.placeRow (s : State) (part src ds tag stream x n : Nat) (e : Nat × Nat × Nat) : State :=
  let put (s : State) (a x n : Nat) : State := s.storeAt part src (addrSite a) ds tag stream (addrOfs a) x n n
  if e.2.2 = 0 then put s e.1 x n
  else if e.2.1 + 64 = e.1 then put s e.2.1 (e.2.2 % 2 ^ 512 + 2 ^ 512 * x) (n + 1)
  else put (put s e.1 x n) e.2.1 e.2.2 1

end Sys2Proof.Machine
end

