-- ==== Sys2Proof/Machine/Comb.lean ====
section
/-! DEFINITION. The combs: bank map, slots, accumulator sets, what a vector does to a tile, the checks of a bank and the
shadow slots (chapter 02 and the metadata checks of chapter 04). -/

namespace Sys2Proof.Machine

/-! ### Names and slots (R19, R24, R25) -/

/-- Physical comb, panel-wide, that comb ID `k` of site `p` is bound to. -/
def State.pcomb (s : State) (p k : Nat) : Nat := mget (p * 4160 + k / 1024 * 1040 + k % 1024) s.comb.repair (p * 4096 + k)
/-- Comb ID that physical comb `pc` of site `p` is bound to: the listed binding, else that of its place (R19). -/
def State.combIdOf (s : State) (p pc : Nat) : Nat :=
  match s.comb.repair.find? (fun e => e.2 == pc && e.1 / 4096 == p) with
  | some e => e.1 % 4096
  | none => pc % 4160 / 1040 * 1024 + pc % 1040
/-- Global comb ID. -/
def State.gcomb (s : State) (p k : Nat) : Nat := (s.lsite p).getD 0 * 4096 + k
/-- Slot bound to a logical bank. -/
def State.liveSlot (s : State) (pc bank : Nat) : Nat := mget bank s.comb.bmap (pc * 64 + bank)
def slotKey (pc slot : Nat) : Nat := pc * 66 + slot
def State.slotHdr (s : State) (sk : Nat) : SlotHdr := mget SlotHdr.init s.comb.hdr sk
def State.setSlotHdr (s : State) (sk : Nat) (h : SlotHdr) : State :=
  { s with comb := { s.comb with hdr := mset SlotHdr.init s.comb.hdr sk h } }
def State.weightRow (s : State) (sk r : Nat) : BitVec 256 := mget 0 s.comb.rows (sk * 256 + r)
def State.setWeightRow (s : State) (sk r : Nat) (v : BitVec 256) : State :=
  { s with comb := { s.comb with rows := mset 0 s.comb.rows (sk * 256 + r) v } }
def State.metaRow (s : State) (sk r : Nat) : BitVec 128 := mget 0 s.comb.metaR (sk * 256 + r)
def State.setMetaRow (s : State) (sk r : Nat) (v : BitVec 128) : State :=
  { s with comb := { s.comb with metaR := mset 0 s.comb.metaR (sk * 256 + r) v } }
def State.wzp (s : State) (sk c : Nat) : Int := signed 8 (mget 0 s.comb.wzp (sk * 128 + c)).toNat
def State.setWzp (s : State) (sk c v : Nat) : State :=
  { s with comb := { s.comb with wzp := mset 0 s.comb.wzp (sk * 128 + c) (BitVec.ofNat 8 v) } }
def State.colsum (s : State) (sk c : Nat) : Int := signed 20 (mget 0 s.comb.colsum (sk * 128 + c)).toNat
def State.setColsum (s : State) (sk c : Nat) (v : Int) : State :=
  { s with comb := { s.comb with colsum := mset 0 s.comb.colsum (sk * 128 + c) (BitVec.ofNat 20 (unsigned 20 v)) } }

/-- Bits per weight of a format (Table 02.5). -/
def fmtBits (f : Nat) : Nat := if f = 0 then 2 else if f = 2 then 8 else 4
/-- Channels per bank. -/
def fmtChans (f : Nat) : Nat := if f = 0 then 128 else if f = 2 then 32 else 64
/-- Logical inputs per bank. -/
def fmtInputs (f : Nat) : Nat := if f = 3 then 512 else 256
/-- Drain length D in cycles (R39, R40, R79). -/
def drainLen (f : Nat) : Nat := if f = 0 then 8 else if f = 2 then 2 else 4

/-- Weight of row `r`, channel `c` (R30). -/
def State.weight (s : State) (sk f r c : Nat) : Int :=
  signed (fmtBits f) (bits (s.weightRow sk r).toNat (fmtBits f * c) (fmtBits f))
/-- Position code of row `r`, channel `c` (R87). -/
def State.posCode (s : State) (sk r c : Nat) : Nat := bits (s.metaRow sk r).toNat (2 * c) 2

/-! ### The header check (R29, R88-R90, R99, R101) -/

def crcShift : Nat → Nat → Nat
  | 0, c => c
  | n + 1, c => crcShift n (if bit c 15 then (2 * c % 65536) ^^^ 0x1021 else 2 * c % 65536)
/-- CRC-16 of R89. -/
def crc16 (l : List Nat) : Nat := l.foldl (fun c b => crcShift 8 (c ^^^ (b % 256 * 256))) 0xFFFF
/-- CRC of the metadata sub-array of a slot. -/
def State.metaCrc (s : State) (sk : Nat) : Nat :=
  crc16 ((List.range 4096).map (fun i => bits (s.metaRow sk (i / 16)).toNat (8 * (i % 16)) 8))
/-- First group and channel, in ascending group and then channel order, whose two codes do not rise (R90). -/
def State.badCodes (s : State) (sk : Nat) : Option (Nat × Nat) :=
  ((List.range 128).flatMap (fun g => (List.range 64).map (fun c => (g, c)))).find?
    (fun x => decide (s.posCode sk (2 * x.1 + 1) x.2 ≤ s.posCode sk (2 * x.1) x.2))
/-- Legal range of WZP (Table 02.5). -/
def wzpLegal (f : Nat) (z : Int) : Bool :=
  if f = 0 then decide (-2 ≤ z ∧ z ≤ 1) else if f = 1 then decide (-8 ≤ z ∧ z ≤ 7) else if f = 2 then true else decide (z = 0)
/-- First failing entry of the header check: a channel, or 128 for the header itself (log entry 13). -/
def State.hdrBad (s : State) (sk : Nat) : Option Nat :=
  let h := s.slotHdr sk
  if h.format > 3 || h.rsv != 0 || h.crcRsv != 0 || (h.dense && h.format != 1) then some 128
  else (List.range (fmtChans h.format)).find? (fun c => !(wzpLegal h.format (s.wzp sk c)))
/-- COLSUM of a channel (Table 02.3). -/
def State.colsumOf (s : State) (sk f c : Nat) : Int :=
  (List.range 256).foldl (fun a r => a + (s.weight sk f r c - s.wzp sk c)) 0
/-- Rows and channels whose stored weight differs from WZP. -/
def State.nzWeights (s : State) (sk f : Nat) : List (Nat × Nat) :=
  ((List.range 256).flatMap (fun r => (List.range (fmtChans f)).map (fun c => (r, c)))).filter
    (fun x => decide (s.weight sk f x.1 x.2 ≠ s.wzp sk x.2))
/-- Logical input that the stored weight of row `r`, channel `c` multiplies. -/
def State.inputOf (s : State) (sk f r c : Nat) : Nat := if f = 3 then 4 * (r / 2) + s.posCode sk r c else r

/-! ### Shadow slots (R56) -/

def State.shadow (s : State) (pc i : Nat) : Shadow := mget (Shadow.init (i % 2)) s.comb.shadow (pc * 2 + i)
def State.setShadow (s : State) (pc i : Nat) (x : Shadow) : State :=
  { s with comb := { s.comb with shadow := mset (Shadow.init (i % 2)) s.comb.shadow (pc * 2 + i) x } }
/-- The open slot of a bank: shadow index. -/
def State.openShadow (s : State) (pc bank : Nat) : Option Nat :=
  [0, 1].find? (fun i => decide ((s.shadow pc i).st ≠ .free) && (s.shadow pc i).bank == bank)
/-- A shadow slot is complete: every row, every metadata row and the CRC word for W4S, and a header that passed (R56). -/
def State.shadowComplete (s : State) (pc i : Nat) : Bool :=
  let x := s.shadow pc i
  let h := s.slotHdr (slotKey pc x.slot)
  x.rows == BitVec.allOnes 256 && (h.format != 3 || x.metaW == BitVec.allOnes 257) && h.valid
/-- ARMED and COMPLETE-ARMED follow the slot's completeness (R56). -/
def State.shadowRefresh (s : State) (pc i : Nat) : State :=
  let x := s.shadow pc i
  if x.st = .armed ∧ s.shadowComplete pc i then s.setShadow pc i { x with st := .completeArmed }
  else if x.st = .completeArmed ∧ !s.shadowComplete pc i then s.setShadow pc i { x with st := .armed }
  else s
/-- Shadow index whose physical slot is `slot`, when it is bound. -/
def State.shadowOfSlot (s : State) (pc slot : Nat) : Option Nat :=
  [0, 1].find? (fun i => decide ((s.shadow pc i).st ≠ .free) && (s.shadow pc i).slot == slot)
/-- A write to rows, metadata or side array clears VALID and makes the slot incomplete (Table 02.4, R56). A header check that
is in progress ends without a verdict (DESIGN CHOICE, log entry 127): R29 does not say what a write during its 260 cycles does. -/
def State.slotDirty (s : State) (pc slot : Nat) : State :=
  let sk := slotKey pc slot
  let h := s.slotHdr sk
  let s := s.setSlotHdr sk { h with valid := false, checking := false }
  match s.shadowOfSlot pc slot with
  | some i => s.shadowRefresh pc i
  | none => s
/-- Mark rows and metadata of a bound shadow slot as written. A row counts as written once a byte of it has been (DESIGN
CHOICE, log entry 128). -/
def State.shadowWrote (s : State) (pc slot : Nat) (rows : BitVec 256) (metaW : BitVec 257) : State :=
  match s.shadowOfSlot pc slot with
  | some i =>
    let x := s.shadow pc i
    s.setShadow pc i { x with rows := x.rows ||| rows, metaW := x.metaW ||| metaW }
  | none => s

/-- A failing load: the fault fails the load, whatever its class (R29, R97, R102); a failing shadow update fails only that update
(log entry 14). -/
def State.loadFault (s : State) (shadow : Bool) (code part site d0 d1 : Nat) : State :=
  if shadow then s.journal code part 0x3FFF site d0 d1
  else
    let s := s.raise code part 0x3FFF site d0 d1
    if part < 16 ∧ (s.part part).st = .loading then s.updPart part (fun q => { q with loadFailed := true }) else s

/-- The header check ends (R29, R101, R102): the slot has checked header, WZP and metadata, and computed COLSUM, NNZ and
NZ_END. -/
def State.headerCheck (s : State) (p k bank : Nat) (shadow : Bool) (slot : Nat) : State :=
  let pc := s.pcomb p k
  let sk := slotKey pc slot
  let h := s.slotHdr sk
  let part := s.owner p
  let d0 := k + bank * 2 ^ 13 + b2n shadow * 2 ^ 21
  if !h.checking then s
  else
    let done (h' : SlotHdr) (s : State) : State :=
      let s := s.setSlotHdr sk { h' with checking := false }
      match s.shadowOfSlot pc slot with
      | some i => s.shadowRefresh pc i
      | none => s
    match s.hdrBad sk with
    | some e => (done { h with valid := false } s).loadFault shadow 0x3043 part p d0 (e + h.format * 2 ^ 9)
    | none =>
      let f := h.format
      let pairFirst := f = 1 ∧ h.dense
      let crc := if f = 3 then s.metaCrc sk else 0
      if f = 3 ∧ crc ≠ h.crc then
        (done { h with valid := false } s).loadFault shadow 0x10C4 part p d0 (h.crc + crc * 2 ^ 16)
      else
        match if f = 3 ∧ ¬ pairFirst then s.badCodes sk else none with
        | some (g, c) =>
          (done { h with valid := false } s).loadFault shadow 0x30C2 part p (d0 + g * 2 ^ 23)
            (c + s.posCode sk (2 * g) c * 2 ^ 6 + s.posCode sk (2 * g + 1) c * 2 ^ 8)
        | none =>
          let nz := s.nzWeights sk f
          let ends := nz.map (fun x => s.inputOf sk f x.1 x.2 + 1)
          let cs := (List.range (fmtChans f)).map (fun c => s.colsumOf sk f c)
          let s1 := (List.range 128).foldl (fun t c => t.setColsum sk c (cs.getD c 0)) s
          done { h with valid := true, nnz := nz.length, nzEnd := ends.foldl max 0 } s1

/-! ### Tiles (R34-R38, R43-R50, R101-R103) -/

def setKey (pc i : Nat) : Nat := pc * 2 + i
def State.accSet (s : State) (pc i : Nat) : AccSet := mget AccSet.init s.comb.sets (setKey pc i)
def State.setAccSet (s : State) (pc i : Nat) (x : AccSet) : State :=
  { s with comb := { s.comb with sets := mset AccSet.init s.comb.sets (setKey pc i) x } }

/-- The sets of a tile: the claimed one, or both for W2 (R40), with the tile's marks taken from the first. -/
structure Tile where
  m    : AccSet
  acc  : List AccVal
  csum : List AccVal
  deriving DecidableEq, Repr

/-- Set the comb claims next (R38). -/
def State.nextSet (s : State) (pc wfmt : Nat) : Nat := if wfmt = 0 then 0 else 1 - mget 1 s.comb.lastSet pc
/-- Set the comb claimed last. -/
def State.curSet (s : State) (pc wfmt : Nat) : Nat := if wfmt = 0 then 0 else mget 1 s.comb.lastSet pc
/-- Sparse form of a list of patterns. -/
def toSMap (l : List (BitVec 32)) : SMap (BitVec 32) :=
  (l.zipIdx).filterMap (fun x => if x.1 = 0 then none else some (x.2, x.1))
def accList (m : SMap (BitVec 32)) (n : Nat) : List AccVal := (List.range n).map (fun c => accDec (mget 0 m c))

/-- The tile held in set `i`. -/
def State.tile (s : State) (pc i wfmt : Nat) : Tile :=
  let a := s.accSet pc i
  if wfmt = 0 then
    let b := s.accSet pc 1
    ⟨a, accList a.acc 64 ++ accList b.acc 64, accList a.csum 64 ++ accList b.csum 64⟩
  else ⟨a, accList a.acc (fmtChans wfmt), accList a.csum (fmtChans wfmt)⟩
/-- Put a tile back. -/
def State.setTile (s : State) (pc i wfmt : Nat) (t : Tile) : State :=
  let mk (l : List AccVal) := toSMap (l.map accEnc)
  if wfmt = 0 then
    (s.setAccSet pc 0 { t.m with acc := mk (t.acc.take 64), csum := mk (t.csum.take 64) }).setAccSet pc 1
      { t.m with acc := mk (t.acc.drop 64), csum := mk (t.csum.drop 64) }
  else s.setAccSet pc i { t.m with acc := mk t.acc, csum := mk t.csum }
/-- May a tile claim its set (R38, R40, R55)? -/
def State.claimable (s : State) (pc wfmt : Nat) : Bool :=
  if wfmt = 0 then decide ((s.accSet pc 0).st = .free) && decide ((s.accSet pc 1).st = .free)
  else decide ((s.accSet pc (s.nextSet pc wfmt)).st = .free)

/-- Add a candidate origin to the tile's (R47). -/
def AccSet.meet (m : AccSet) (o : Nat) : AccSet := { m with origin := minOrigin m.origin o }
/-- Every accumulator becomes POISON, tainted with this origin (R37, R103, R395). -/
def Tile.poison (t : Tile) (o : Nat) : Tile :=
  { t with m := { (t.m.meet o) with taint := true, poisoned := true }, acc := t.acc.map (fun _ => .poison) }
/-- A tainted vector forces every accumulator that is not POISON to +INF (R46). -/
def Tile.force (t : Tile) (o : Nat) : Tile :=
  { t with m := { (t.m.meet o) with taint := true, forced := true },
           acc := t.acc.map (fun x => if x = .poison then .poison else .pinf) }

/-- One step of a sum over the channels: new values, and the lowest channel and kind of a special value that two finite
operands produced. -/
def addChannels (xs : List AccVal) (ds : List Int) : List AccVal × Option (Nat × Nat) :=
  let ys := xs.zipWith (fun x d => accAdd x (.fin d)) ds
  let bad := ((xs.zip ys).zipIdx).find? (fun e => accFinite e.1.1 && !(accFinite e.1.2))
  (ys, bad.map (fun e => (e.2, accKind e.1.2)))

/-- The tile's own overflow (R44): OWN_OVF, the origin and the first channel of the tile's first overflow. -/
structure OwnOvf where
  chan : Nat
  origin : Nat
  deriving DecidableEq, Repr

/-- Add the COLSUM of a bank for one vector (R37, R44). -/
def Tile.addCsum (t : Tile) (gc layer : Nat) (cs : List Int) : Tile × Option OwnOvf :=
  let r := addChannels t.csum cs
  let gone := ((t.csum.zip r.1)).map (fun e => accFinite e.1 && !(accFinite e.2))
  match r.2 with
  | none => ({ t with csum := r.1 }, none)
  | some (c, _) =>
    let o := originWord gc layer 4
    ({ m := { (t.m.meet o) with ownOvf := true }, csum := r.1,
       acc := t.acc.zipWith (fun x g => if g then .poison else x) gone }, some ⟨c, o⟩)

/-- Partial sums of one plane over the channels in one pass (R34), already weighted by the plane's place. `rows` are the
pass's inputs that carry a 1; `ps` is its slot key, format and first input. -/
def State.planeSums (s : State) (ps : Nat × Nat × Nat) (nchan place : Nat) (rows : List Nat) : List Int :=
  let sk := ps.1
  let f := ps.2.1
  let mine := rows.map (· - ps.2.2)
  (List.range nchan).map (fun c =>
    (if f = 3 then
       ((mine.map (· / 4)).dedup).foldl (fun b g =>
         [2 * g, 2 * g + 1].foldl (fun b r =>
           if mine.contains (4 * g + s.posCode sk r c) then b + s.weight sk f r c else b) b) 0
     else mine.foldl (fun b r => b + (s.weight sk f r c - s.wzp sk c)) 0) * (2 ^ place : Nat))

/-- One plane passes ACC (R34, R44). -/
def Tile.addPlane (t : Tile) (gc layer : Nat) (sums : List Int) (u place : Nat) : Tile × Option OwnOvf :=
  let r := addChannels t.acc sums
  let m := { t.m with sumx := t.m.sumx + BitVec.ofNat 32 (u * 2 ^ place) }
  match r.2 with
  | none => ({ t with m := m, acc := r.1 }, none)
  | some (c, kind) =>
    let o := originWord gc layer kind
    ({ t with m := { (m.meet o) with ownOvf := true }, acc := r.1 }, some ⟨c, o⟩)

/-- The bits of a vector by plane: (plane, inputs below K_valid that carry a 1). -/
def planeRows (pmask n kvalid : Nat) (planes : List (BitVec 512)) : List (Nat × List Nat) :=
  ((setBitsOf 16 pmask).zip planes).map (fun e => (e.1, (setBitsOf n e.2.toNat).filter (fun r => decide (r < kvalid))))

/-- Passes of a vector through the comb: one, or two on a dense pair (R98, R105). -/
def State.passes (s : State) (pc bank wfmt : Nat) : List (Nat × Nat × Nat) :=
  let sk := slotKey pc (s.liveSlot pc bank)
  let h := s.slotHdr sk
  if wfmt = 3 ∧ h.format = 1 ∧ h.dense then [(sk, 1, 0), (slotKey pc (s.liveSlot pc (bank + 1)), 1, 256)]
  else [(sk, wfmt, 0)]

/-- What the metadata check at use finds (R101): fault code, detail words; and the slot key for META_CRC. -/
def State.metaFault (s : State) (k bank layer kvalid : Nat) (passes : List (Nat × Nat × Nat)) : Option (Nat × Nat × Nat) :=
  match passes with
  | [] => none
  | (sk, f, _) :: rest =>
    let h := s.slotHdr sk
    let d0 := k + bank * 2 ^ 13
    let crc := s.metaCrc sk
    if h.metaBad || crc != h.crc then some (0x10C4, d0 + 2 ^ 22 + layer * 2 ^ 23, h.crc + crc * 2 ^ 16)
    else
      match if f = 3 then s.badCodes sk else none with
      | some (g, c) =>
        some (0x30C2, d0 + 2 ^ 22 + g * 2 ^ 23, c + s.posCode sk (2 * g) c * 2 ^ 6 + s.posCode sk (2 * g + 1) c * 2 ^ 8)
      | none =>
        let nzEnd :=
          match rest with
          | [] => h.nzEnd
          | (sk2, _, _) :: _ => let e := (s.slotHdr sk2).nzEnd; if e = 0 then h.nzEnd else 256 + e
        if nzEnd ≤ kvalid then none else some (0x20C3, d0 + layer * 2 ^ 21, nzEnd + kvalid * 2 ^ 16)

/-- Mark a slot META_BAD (R103). -/
def State.markMetaBad (s : State) (p sk : Nat) : State :=
  let h := s.slotHdr sk
  if h.metaBad then s
  else ((s.setSlotHdr sk { h with metaBad := true }).satFld (siteReg p rSPARSE_STAT) 16 16 1).sticky (siteReg p rSPARSE_STAT) 0

/-- The response to a metadata fault at use (R103). -/
def State.metaRespond (s : State) (a : TileArgs) (part sk : Nat) (f : Nat × Nat × Nat) : State :=
  let s := s.bump (siteReg a.site rSPARSE_CNT_METAF)
  if f.1 = 0x10C4 then (s.markMetaBad a.site sk).raiseOnce sk f.1 part a.stream a.site f.2.1 f.2.2
  else s.raise f.1 part a.stream a.site f.2.1 f.2.2

/-- Claim a set and apply CLEAR or LOAD to it (R36, R38). `part0` is the partial of LOAD. -/
def State.claim (s : State) (a : TileArgs) (pc : Nat) (partial0 : Option VecIn) : State :=
  let i := s.nextSet pc a.wfmt
  let m := { AccSet.init with st := .filling, stream := a.stream, tag := a.tag }
  let n := fmtChans a.wfmt
  let t : Tile :=
    match partial0 with
    | some v =>
      let acc := (unpackNat 32 n v.payload).map (fun x => accDec (BitVec.ofNat 32 x))
      ⟨{ m with taint := vhTaint v.hdr, origin := if vhTaint v.hdr then vhOrigin v.hdr else 0, late := v.late }, acc,
        List.replicate n (.fin 0)⟩
    | none => ⟨m, List.replicate n (.fin 0), List.replicate n (.fin 0)⟩
  let s := s.setTile pc i a.wfmt t
  { s with comb := { s.comb with lastSet := mset 1 s.comb.lastSet pc (if a.wfmt = 0 then 1 else i) } }

/-- Cycles, planes and skips of one vector are counted (R49-R51, R105). -/
def State.countIssue (s : State) (p afmt passes nz : Nat) (zero : Bool) (zskip pskip delayed : Bool) : State :=
  let r (o : Nat) := siteReg p o
  let all := planesOf afmt
  let s := if delayed then s.bump (r rCOMB_CNT_HOLD) else s
  if zero && zskip then s.bump (r rCOMB_CNT_ZVEC)
  else if pskip then
    let s := (s.bumpBy (r rCOMB_CNT_PLANE) (nz * passes)).bumpBy (r rCOMB_CNT_HOLD) ((2 - nz) * passes)
    if zero then s else s.bumpBy (r rCOMB_CNT_SKIP) ((all - nz) * passes)
  else s.bumpBy (r rCOMB_CNT_PLANE) (all * passes)

/-- What a vector's entry tells before its planes run: a ZA that differs from the tile's (R37) and the response to a metadata
fault at use (R103). -/
def State.consumeTell (s : State) (a : TileArgs) (part gc sk : Nat) (mis : Option Nat) (mf : Option (Nat × Nat × Nat)) : State :=
  let s := match mis with
    | some w1 => s.raise 0x2042 part a.stream a.site (gc + a.layer * 2 ^ 19) w1
    | none => s
  match mf with
  | some f => s.metaRespond a part sk f
  | none => s

/-- One plane of one pass added to a tile: the rows `e` that belong to the slot row `w` (R44-R46); the first plane of a tainted
vector forces the tile (R48). -/
def State.planeStep (s : State) (gc layer : Nat) (taint : Option Nat) (x : Tile × Option OwnOvf × Bool)
    (e : (Nat × Nat × Nat) × Nat × List Nat) : Tile × Option OwnOvf × Bool :=
  let mine := e.2.2.filter (fun r => decide (e.1.2.2 ≤ r) && decide (r < e.1.2.2 + fmtInputs e.1.2.1))
  let y := x.1.addPlane gc layer (s.planeSums e.1 (fmtChans e.1.2.1) e.2.1 mine) mine.length e.2.1
  let t := match taint with
    | some og => if x.2.2 then y.1 else y.1.force og
    | none => y.1
  (t, x.2.1 <|> y.2, true)

/-- The counters, the journal entry and the write-back of a tile whose planes have run (R47-R51, R92, R105). `old` is the tile
before the vector, `own` its first own overflow, `ps` its passes: the last of them selects the slot that hold cycles drive. -/
def State.consumeDone (s : State) (a : TileArgs) (part pc gc i : Nat) (ps : List (Nat × Nat × Nat)) (nlive : Nat)
    (zero tainted delayed : Bool) (old : AccSet) (own : Option OwnOvf) (t : Tile) : State :=
  let cfg := siteReg a.site rCOMB_CFG
  let s := if tainted && !old.forced then s.bump (siteReg a.site rCOMB_CNT_TAINT) else s
  let s := match own with
    | some o =>
      let s := if old.ownOvf then s else s.bump (siteReg a.site rCOMB_CNT_OVF)
      s.raiseOnce gc 0x0041 part a.stream a.site t.m.origin (o.chan + a.tag * 2 ^ 16)
    | none => s
  let skipped := zero && s.flag cfg 1
  let last := ps.getLast?.getD (0, a.wfmt, 0)
  let s := s.countIssue a.site a.afmt ps.length nlive zero (s.flag cfg 1) (s.flag cfg 0) (delayed && last.2.1 != 3 && !skipped)
  let s := if ps.length = 2 && !skipped then s.bump (siteReg a.site rSPARSE_CNT_PAIR) else s
  let s := s.setTile pc i a.wfmt t
  if skipped then s
  else
    let tail := last.2.1 == 3 && (!(s.flag cfg 0) || decide (2 ≤ nlive))
    { s with comb := { s.comb with lastSlot := mset 0 s.comb.lastSlot pc (last.1 % 66),
                                   tailW4S := mset false s.comb.tailW4S pc tail } }

/-- A vector enters a tile (R36, R37, R44-R50, R82, R101-R103). `delayed` says that R92 delayed it by a cycle. -/
def State.consume (s : State) (a : TileArgs) (hdr : Nat) (late : Bool) (planes : List (BitVec 512)) (partial0 : Option VecIn)
    (delayed : Bool) : State :=
  let p := a.site
  let part := s.owner p
  let pc := s.pcomb p a.comb
  let gc := s.gcomb p a.comb
  let np := popCount 16 (vhPmask hdr)
  let s := (s.bumpBy (siteReg p rSPARSE_CNT_ZRPL) np).bumpBy (siteReg p rSPARSE_CNT_ZRSK) (planesOf a.afmt - np)
  -- the tile mode
  let s := if a.first && a.tmode != 1 then s.claim a pc partial0 else s
  let i := s.curSet pc a.wfmt
  let passes := s.passes pc a.bank a.wfmt
  let sk := (passes.head?.map (·.1)).getD 0
  let old := s.tile pc i a.wfmt
  let t0 := { old with m := { old.m with late := old.m.late || late } }
  -- CSUM and ZA
  let c := passes.foldl (fun (x : Tile × Option OwnOvf) ps =>
    let y := x.1.addCsum gc a.layer ((List.range (fmtChans a.wfmt)).map (fun c => s.colsum ps.1 c))
    (y.1, x.2 <|> y.2)) (t0, none)
  let za := vhZa hdr
  let mis := if c.1.m.zaSet && c.1.m.za != za then some (c.1.m.za + za * 2 ^ 16) else none
  let t2 := if c.1.m.zaSet then c.1 else { c.1 with m := { c.1.m with za := za, zaSet := true } }
  let t3 := if mis.isSome then t2.poison (originWord gc a.layer 3) else t2
  -- metadata at use, and slots that failed a self-test
  let mf := if a.wfmt = 3 then s.metaFault a.comb a.bank a.layer a.kvalid passes else none
  let t4 := if mf.isSome then t3.poison (originWord gc a.layer 6) else t3
  let s := s.consumeTell a part gc sk mis mf
  let t5 := if passes.any (fun ps => (s.slotHdr ps.1).testBad) then t4.poison (originWord gc a.layer 3) else t4
  -- planes
  let rowsOf := if vhZero hdr then [] else planeRows (vhPmask hdr) (fmtInputs a.wfmt) a.kvalid planes
  let live := rowsOf.filter (fun e => !(e.2.isEmpty))
  let taint := if vhTaint hdr then some (vhOrigin hdr) else none
  let x := (passes.flatMap (fun ps => live.map (fun e => (ps, e)))).foldl (s.planeStep gc a.layer taint) (t5, c.2, false)
  let t6 := if vhTaint hdr && !x.2.2 then x.1.force (vhOrigin hdr) else x.1
  s.consumeDone a part pc gc i passes live.length (vhZero hdr) (vhTaint hdr) delayed t0.m x.2.1 t6

/-- Shadow state codes of COMB_SHADOW_STAT. -/
def shadowCode : ShadowState → Nat
  | .free => 0
  | .opened => 1
  | .armed => 2
  | .completeArmed => 3

end Sys2Proof.Machine
end

