-- ==== Sys2Proof/Machine/Sparse.lean ====
section
/-! DEFINITION. The packer (R93-R100) and the merge tree (R109-R113). -/

namespace Sys2Proof.Machine

/-! ### The packer -/

def peKlen (e : Nat) : Nat := wf e 0 16 10
def peShadow (e : Nat) : Bool := bit e 6
def peDfmt (e : Nat) : Nat := wf e 0 3 3
def peMode (e : Nat) : Nat := wf e 0 0 3
def peBank (e : Nat) : Nat := wf e 1 16 8
def peComb (e : Nat) : Nat := wf e 1 0 13
def peSeq (e : Nat) : Nat := wf e 2 0 16

/-- First failing field of a pack entry in Table 04.3 row order (R94). An entry for the shadow slot is taken while the slot is
in any of its three bound states, as R56 takes writes (DEDUCED, log entry 15). -/
def State.packFail (s : State) (p e : Nat) : Option Nat :=
  let mode := peMode e
  let pc := s.pcomb p (peComb e)
  let kmax := if mode = 0 then 256 else 512
  if wf e 0 26 6 != 0 then some 0
  else if peKlen e = 0 || peKlen e > kmax then some 1
  else if wf e 0 7 9 != 0 then some 2
  else if peShadow e && ((s.openShadow pc (peBank e)).isNone || (mode == 2 && (s.openShadow pc (peBank e + 1)).isNone)) then some 3
  else if (mode != 0 && peDfmt e != 0) || peDfmt e > 2 then some 4
  else if mode > 2 then some 5
  else if wf e 1 24 8 != 0 then some 6
  else if peBank e > 63 || (mode == 2 && peBank e == 63) then some 7
  else if wf e 1 13 3 != 0 then some 8
  else if peComb e > 4095 then some 9
  else if wf e 2 16 16 != 0 then some 10
  else if bits e 96 160 != 0 then some 12
  else none

/-- Weight of the source tile at input `i`, channel `c` (4 bits). -/
def srcWeight (rows : List (BitVec 256)) (klen i c : Nat) : Int :=
  if i < klen then signed 4 (bits (rows.getD i 0).toNat (4 * c) 4) else 0
/-- The positions of the non-zero weights of a group. -/
def groupNz (rows : List (BitVec 256)) (klen g c : Nat) : List Nat :=
  (List.range 4).filter (fun j => decide (srcWeight rows klen (4 * g + j) c ≠ 0))
/-- Storage of one group of one channel (Table 04.4): codes and values of its two rows. -/
def groupStore (rows : List (BitVec 256)) (klen g c : Nat) : (Nat × Int) × (Nat × Int) :=
  match groupNz rows klen g c with
  | i :: j :: _ => ((i, srcWeight rows klen (4 * g + i) c), (j, srcWeight rows klen (4 * g + j) c))
  | [i] => if i = 3 then ((2, 0), (3, srcWeight rows klen (4 * g + 3) c)) else ((i, srcWeight rows klen (4 * g + i) c), (3, 0))
  | [] => ((2, 0), (3, 0))
/-- The first overfull group, in ascending order of group, then channel (R97): group, channel, non-zeros. -/
def overfull (rows : List (BitVec 256)) (klen : Nat) : Option (Nat × Nat × Nat) :=
  (((List.range 128).flatMap (fun g => (List.range 64).map (fun c => (g, c, (groupNz rows klen g c).length))))).find?
    (fun x => decide (2 < x.2.2))
/-- Non-zero weights of the tile. -/
def tileNnz (rows : List (BitVec 256)) (klen : Nat) : Nat :=
  (List.range 128).foldl (fun a g => (List.range 64).foldl (fun a c => a + (groupNz rows klen g c).length) a) 0
/-- Row 2g + h of the W4S form: weights and codes. -/
def packedRow (rows : List (BitVec 256)) (klen r : Nat) : BitVec 256 × BitVec 128 :=
  let e := (List.range 64).map (fun c => let x := groupStore rows klen (r / 2) c; if r % 2 = 0 then x.1 else x.2)
  (BitVec.ofNat 256 (packNat 4 (e.map (fun x => unsigned 4 x.2))), BitVec.ofNat 128 (packNat 2 (e.map (·.1))))

/-- Write a whole slot, header last; the header check of R29 then runs. `md` is the metadata and its CRC when written. -/
def State.packStore (s : State) (pc slot f : Nat) (dense : Bool) (rows : List (BitVec 256)) (md : Option (List (BitVec 128) × Nat))
    (zp : List Nat) : State :=
  let sk := slotKey pc slot
  let s := (List.range 256).foldl (fun s r => s.setWeightRow sk r (rows.getD r 0)) s
  let s := match md with
    | some (m, _) => (List.range 256).foldl (fun (t : State) r => t.setMetaRow sk r (m.getD r 0)) s
    | none => s
  let s := (List.range 128).foldl (fun s c => s.setWzp sk c (zp.getD c 0)) s
  let s := s.shadowWrote pc slot (BitVec.allOnes 256) (if md.isSome then BitVec.allOnes 257 else 0)
  let s := s.slotDirty pc slot
  let h := s.slotHdr sk
  let h := { h with format := f, dense := dense, rsv := 0, valid := false, checking := true }
  s.setSlotHdr sk (match md with
    | some (_, crc) => { h with crc := crc, crcRsv := 0 }
    | none => h)

/-- A row of a dense tile whose every weight is the channel's WZP (R95). -/
def wzpRow (f : Nat) (zp : List Nat) : BitVec 256 :=
  BitVec.ofNat 256 (packNat (fmtBits f) ((List.range (fmtChans f)).map (fun c => zp.getD c 0 % 2 ^ fmtBits f)))

/-- Slot that an entry writes for a bank: the live slot of a site being loaded, or the bank's open shadow slot (R27); none
where neither is so. -/
def State.packSlot (s : State) (p pc bank : Nat) (shadow : Bool) : Option Nat :=
  if shadow then (s.openShadow pc bank).map (fun i => (s.shadow pc i).slot)
  else if s.loadingSite p then some (s.liveSlot pc bank) else none

/-- The whole tile has been received, and its slots may be written: `slot` for BANK and `slot2` for BANK + 1 of an AUTO entry
(R95-R100). -/
def State.packTile (s : State) (p e slot slot2 : Nat) (rows : List (BitVec 256)) (zp : List Nat) : State :=
  let k := peComb e
  let pc := s.pcomb p k
  let klen := peKlen e
  let sh := peShadow e
  let r (o : Nat) := siteReg p o
  let count (s : State) (nnz : Nat) : State := (s.bumpBy (r rSPARSE_CNT_NNZ) nnz).bumpBy (r rSPARSE_CNT_POS) (64 * klen)
  let w4s (s : State) : State :=
    let prs := (List.range 256).map (packedRow rows klen)
    let ms := prs.map (·.2)
    let crc := crc16 (ms.flatMap (fun x => (List.range 16).map (fun b => bits x.toNat (8 * b) 8)))
    (count (s.packStore pc slot 3 false (prs.map (·.1)) (some (ms, crc)) []) (tileNnz rows klen)).bump (r rSPARSE_CNT_PACKS)
  if peMode e = 0 then
    let f := peDfmt e
    let full := (List.range 256).map (fun i => if i < klen then rows.getD i 0 else wzpRow f zp)
    let s := s.packStore pc slot f false full none zp
    count s (s.nzWeights (slotKey pc slot) f).length
  else if peMode e = 1 then
    match overfull rows klen with
    | some (g, c, n) =>
      s.loadFault sh 0x30C1 (s.owner p) p (k + peBank e * 2 ^ 13 + b2n sh * 2 ^ 21 + g * 2 ^ 22) (c + n * 2 ^ 6 + peSeq e * 2 ^ 16)
    | none => w4s s
  else
    let s := match overfull rows klen with
      | none => (w4s s).packStore pc slot2 1 false [] none []
      | some _ =>
        let cut (b : Nat) := (List.range 256).map (fun i => if b + i < klen then rows.getD (b + i) 0 else 0)
        let zeros : List (BitVec 128) := []
        let crc := crc16 (List.replicate 4096 0)
        let s := (s.packStore pc slot 1 true (cut 0) (some (zeros, crc)) []).packStore pc slot2 1 true (cut 256) none []
        (count s (tileNnz rows klen)).bump (r rSPARSE_CNT_PACKD)
    if sh then
      [peBank e, peBank e + 1].foldl (fun s b =>
        match s.openShadow pc b with
        | some i => s.setShadow pc i { s.shadow pc i with linked := true }
        | none => s) s
    else s

/-! ### Merge contexts -/

def mergeKey (p m : Nat) : Nat := p * 2048 + m
def State.mergeCtx (s : State) (p m : Nat) : MergeCtx := mget MergeCtx.init s.sparse.merge (mergeKey p m)
def State.setMergeCtx (s : State) (p m : Nat) (x : MergeCtx) : State :=
  { s with sparse := { s.sparse with merge := mset MergeCtx.init s.sparse.merge (mergeKey p m) x } }
/-- Contexts of a site that are OPEN, ascending. -/
def State.openCtxs (s : State) (p : Nat) : List Nat :=
  (s.sparse.merge.filter (fun e => decide (mergeKey p 0 ≤ e.1) && decide (e.1 < mergeKey (p + 1) 0) && e.2.opened)).map
    (fun e => e.1 - mergeKey p 0)

/-- The stream slot's token is withheld with the late-error mark (R82, R112, R233). -/
def State.withhold (s : State) (part slot : Nat) : State :=
  s.updPart part (fun p => if p.withheld.contains slot then p else { p with withheld := slot :: p.withheld })

/-- The merge-open action (R109, R172). -/
def State.mergeOpen (s : State) (p m : Nat) (x : MergeCtx) : State :=
  let st := siteReg p rSPARSE_MRG_STAT
  if (s.mergeCtx p m).opened then
    (s.sticky (siteReg p rSPARSE_STAT) 1).raise 0x30C9 x.part 0x3FFF p m (s.mergeCtx p m).stream
  else
    let s := s.setMergeCtx p m { x with opened := true }
    let s := s.setFld st 0 12 (s.fld st 0 12 + 1)
    s.setFld st 16 12 (max (s.fld st 16 12) (s.fld st 0 12))

/-- Free a context. -/
def State.mergeFree (s : State) (p m : Nat) : State :=
  let st := siteReg p rSPARSE_MRG_STAT
  if (s.mergeCtx p m).opened then (s.setMergeCtx p m MergeCtx.init).setFld st 0 12 (s.fld st 0 12 - 1) else s

/-- Bytes of one staged arrival (R110). -/
def stageSlot (nval : Nat) : Nat := 64 * (nval + 2)
/-- Expected ranks below `r`. -/
def ranksBelow (e : BitVec 256) (r : Nat) : Nat := popCount r e.toNat
/-- Staging offset of rank `r`. -/
def MergeCtx.stageOf (x : MergeCtx) (r : Nat) : Nat := x.stage + ranksBelow x.expect r * stageSlot x.nval

/-- A merge arrival reaches the tree of site `p` (R110). -/
def State.mergeArrive (s : State) (p hdr payload : Nat) (late : Bool) : State :=
  let m := vhMctx hdr
  let rk := vhRank hdr
  let x := s.mergeCtx p m
  let part := s.owner p
  let why : Option Nat :=
    if !x.opened then some 3
    else if x.stream != vhStream hdr || x.token != vhToken hdr then some 2
    else if !(bit x.expect.toNat rk) then some 0
    else if bit x.arrived.toNat rk then some 1
    else none
  match why with
  | some w =>
    (s.sticky (siteReg p rSPARSE_STAT) 1).raiseOnce (mergeKey p m) 0x20C7 part (vhStream hdr) p
      (m + rk * 2 ^ 11 + w * 2 ^ 19) (vhToken hdr + vhTag hdr * 2 ^ 16)
  | none =>
    let s := s.writeGran p (x.stageOf rk / 64) (hdr + 2 ^ 256 * (payload % 2 ^ (512 * (x.nval + 1)))) (x.nval + 2)
    (s.setMergeCtx p m { x with arrived := x.arrived ||| BitVec.ofNat 256 (2 ^ rk), latem := x.latem || vhLate hdr || late }).bump
      (siteReg p rSPARSE_CNT_MARR)

/-- An arrival whose posted write was rejected counts as arrived; its leaf holds POISON (R112). -/
def State.mergeLost (s : State) (p m rk : Nat) : State :=
  let x := s.mergeCtx p m
  let b := BitVec.ofNat 256 (2 ^ rk)
  if x.opened && bit x.expect.toNat rk && !(bit x.arrived.toNat rk) then
    s.setMergeCtx p m { x with arrived := x.arrived ||| b, lost := x.lost ||| b, latem := true }
  else s

/-- One level of the tree: adjacent sums, and the kind of the first special value made of two finite operands. -/
def pairSums : List AccVal → List AccVal × Option Nat
  | a :: b :: t =>
    let r := pairSums t
    let y := accAdd a b
    (y :: r.1, if accFinite a && accFinite b && !(accFinite y) then some (accKind y) else r.2)
  | l => (l, none)
/-- The fixed tree (R111). -/
def treeSum : Nat → List AccVal → AccVal × Option Nat
  | 0, l => (l.headD (.fin 0), none)
  | n + 1, l =>
    let r := pairSums l
    let t := treeSum n r.1
    (t.1, r.2 <|> t.2)
/-- A leaf: the arrival's value weighted by MWGT. -/
def leafVal (v : AccVal) (w : Nat) : AccVal :=
  match v with
  | .fin i => .fin (roundQ ⟨i * w, 32768⟩)
  | x => x

/-- Combine the leaves of an open context, write the result and free the context (R111, R113). Ranks not arrived hold
POISON; `incomplete` adds the taint of origin kind 7. Staged values that carry the late-error mark set LATEM (R112, R232). -/
def State.mergeFinish (s : State) (p m : Nat) (incomplete : Bool) : State :=
  let x := s.mergeCtx p m
  let part := s.owner p
  let nv := 16 * (x.nval + 1)
  let ranks := setBitsOf 256 x.expect.toNat
  let ok (r : Nat) : Bool := bit x.arrived.toNat r && !(bit x.lost.toNat r)
  let rd := (ranks.filter ok).foldl (fun (y : Bool × State) r =>
    let z := y.2.spadRead part p x.stream 9 (x.stageOf r) (32 + 4 * nv)
    (y.1 || z.1, z.2)) (x.latem, s)
  let s := rd.2
  let arr : List (Nat × Nat × Nat) :=
    (ranks.filter ok).map (fun r => (r, s.spadBytes p (x.stageOf r) 32, s.spadBytes p (x.stageOf r + 32) (4 * nv)))
  let leaf (c r : Nat) : AccVal :=
    if !(bit x.expect.toNat r) then .fin 0
    else
      match arr.find? (fun e => e.1 == r) with
      | some e => leafVal (accDec (BitVec.ofNat 32 (bits e.2.2 (32 * c) 32))) (vhMwgt e.2.1)
      | none => .poison
  let sums := (List.range nv).map (fun c => treeSum 8 ((List.range 256).map (leaf c)))
  let gc := (s.lsite p).getD 0 * 4096
  let own := (sums.findSome? (·.2))
  let o0 := arr.foldl (fun o e => if vhTaint e.2.1 then minOrigin o (vhOrigin e.2.1) else o) 0
  let o1 := match own with
    | some k => minOrigin o0 (originWord gc x.layer k)
    | none => o0
  let o2 := if incomplete then minOrigin o1 (originWord gc x.layer 7) else o1
  let taint := arr.any (fun e => vhTaint e.2.1) || own.isSome || incomplete || rd.1
  let late := rd.1 || arr.any (fun e => vhLate e.2.1)
  let tag := ((arr.head?).map (fun e => vhTag e.2.1)).getD 0
  let hdr := mkHdr 3 0 ((nv + 31) / 32 - 1) nv 0 0 false taint late false false o2 one32 tag x.stream 0 x.token 0 0
  let s := s.writeVec p x.dest hdr (packNat 32 (sums.map (fun y => (accEnc y.1).toNat))) (4 * nv)
  let s := if own.isSome then s.bump (siteReg p rSPARSE_CNT_MSPEC) else s
  let s := (s.bump (siteReg p rSPARSE_CNT_MDONE)).mergeFree p m
  let s := if late then s.withhold part x.stream else s
  if incomplete then
    let miss := ((ranks.filter (fun r => !(bit x.arrived.toNat r))).head?).getD 0
    (s.sticky (siteReg p rSPARSE_STAT) 1).raiseOnce (mergeKey p m) 0x20C8 part x.stream p
      (m + popCount 256 x.arrived.toNat * 2 ^ 11 + ranks.length * 2 ^ 20) miss
  else s

/-- Hand a merge arrival to the tree of its home site: at once at the own site, in a PWRITE elsewhere (R165). The packet's
address is a free value (log entry 23). -/
def State.sendArrival (s : State) (part src home ds tag hdr payload : Nat) : State :=
  if home = src then s.mergeArrive home hdr payload false
  else
    let f := s.takeFree
    let n := ceilDiv (32 + paddedBytes hdr) 64
    f.2.sendPkt 0 part 0 src home (n - 1) (f.1.toNat % 2 ^ 20) 0 0 tag (vhStream hdr) ds []
      (unpackNat 512 n (hdr + 2 ^ 256 * payload))

end Sys2Proof.Machine
end

