-- ==== Sys2Proof/Machine/Quant.lean ====
section
/-! DEFINITION. The requantizers and the ingress units (chapter 03). -/

namespace Sys2Proof.Machine

/-! ### Scale sets (R71-R77) -/

def scaleKey (pc set : Nat) : Nat := pc * 16 + set
def State.scaleSet (s : State) (k : Nat) : ScaleSet := mget ScaleSet.init s.rq.sets k
def State.setScaleSet (s : State) (k : Nat) (x : ScaleSet) : State :=
  { s with rq := { s.rq with sets := mset ScaleSet.init s.rq.sets k x } }
/-- Channel entry C0-C3 of channel `c` (Table 03.5). -/
def State.chanEntry (s : State) (k c : Nat) : Nat := (mget 0 s.rq.chan (k * 128 + c)).toNat
def State.setChanEntry (s : State) (k c v : Nat) : State :=
  { s with rq := { s.rq with chan := mset 0 s.rq.chan (k * 128 + c) (BitVec.ofNat 128 v) } }

def ScaleSet.mode (x : ScaleSet) : Nat := bits x.w0.toNat 0 2
def ScaleSet.ofmt (x : ScaleSet) : Nat := bits x.w0.toNat 2 3
def ScaleSet.adapt (x : ScaleSet) : Bool := bit x.w0.toNat 5
def ScaleSet.fbEn (x : ScaleSet) : Bool := bit x.w0.toNat 6
def ScaleSet.aff (x : ScaleSet) : Bool := bit x.w0.toNat 7
def ScaleSet.wlog (x : ScaleSet) : Nat := bits x.w0.toNat 8 3
def ScaleSet.head (x : ScaleSet) : Nat := bits x.w0.toNat 11 5
def ScaleSet.clipFrac (x : ScaleSet) : Nat := bits x.w0.toNat 16 8
def ScaleSet.underFrac (x : ScaleSet) : Nat := bits x.w0.toNat 24 8

/-- A channel entry read out: BM, BS, LO, HI, ZOUT and the active M and S. -/
structure Chan where
  bm : Nat
  bs : Nat
  lo : Int
  hi : Int
  zo : Int
  m  : Nat
  sh : Nat
  deriving DecidableEq, Repr

/-- Reading of a 12-bit code field: two's complement for S8. -/
def codeField (ofmt x : Nat) : Int := if ofmt = 3 then signed 12 x else (x % 4096 : Nat)
def chanOf (ofmt e : Nat) : Chan :=
  { bm := wf e 0 0 24, bs := wf e 0 24 6, lo := codeField ofmt (wf e 1 12 12), hi := codeField ofmt (wf e 2 0 12),
    zo := codeField ofmt (wf e 1 0 12), m := wf e 3 0 24, sh := wf e 3 24 6 }

/-- M, S and whether they were clamped, from BM, BS and the gain (R77). -/
def deriveMS (bm bs : Nat) (g : BitVec 32) : Nat × Nat × Bool :=
  if bm = 0 then (0, bs, false)
  else
    let sig := 2 ^ 23 + bits g.toNat 0 23
    let q : Int := (bits g.toNat 23 8 : Nat) - 150
    let p := bm * sig
    let k0 := bitLen p - 24
    let m0 := roundNat p (2 ^ k0)
    let m1 := if m0 = 2 ^ 24 then 2 ^ 23 else m0
    let k1 := if m0 = 2 ^ 24 then k0 + 1 else k0
    let sh : Int := (bs : Int) - q - k1
    if sh > 47 then (roundNat m1 (2 ^ (sh - 47).toNat), 47, true)
    else if sh < 0 then (2 ^ 24 - 1, 0, true)
    else (m1, sh.toNat, false)

def minGain : BitVec 32 := 0x37800000#32
def maxGain : BitVec 32 := 0x47800000#32

/-- SCALE_GAIN_CLAMPED: counted, and journalled once per stroke by the site (R76, R77); `sslot` is the tile's stream slot, or
0x3FFF where no tile is concerned (R85). -/
def State.gainClamped (s : State) (p k set sslot n : Nat) (g : BitVec 32) : State :=
  if n = 0 then s
  else (s.bumpBy (siteReg p rRQ_CNT_GCLAMP) n).raiseOnce p 0x0082 (s.owner p) sslot p (k + set * 2 ^ 13) g.toNat

/-- The clamped channel derivations of a tile under a gain are counted (R77, R80, R83). -/
def State.countClamps (s : State) (a : TileArgs) (key : Nat) (g : BitVec 32) : State :=
  let n := ((List.range (fmtChans a.wfmt)).filter (fun c =>
    let e := s.chanEntry key c
    (deriveMS (wf e 0 0 24) (wf e 0 24 6) g).2.2)).length
  s.gainClamped a.site a.comb a.sset a.stream n g

/-- Derive the active M and S of every channel of a set from a gain (R76). -/
def State.deriveSet (s : State) (p k pc set : Nat) (g : BitVec 32) : State :=
  let key := scaleKey pc set
  let r := (List.range 128).foldl (fun (x : State × Nat) c =>
    let e := x.1.chanEntry key c
    let d := deriveMS (wf e 0 0 24) (wf e 0 24 6) g
    (x.1.setChanEntry key c (bits e 0 96 + 2 ^ 96 * (d.1 + d.2.1 * 2 ^ 24)), if d.2.2 then x.2 + 1 else x.2)) (s, 0)
  r.1.gainClamped p k set 0x3FFF r.2 g

/-- One field of a structure clamped under R12: the value and the entry it causes. -/
structure Fix where
  v  : Int
  es : List ClampEntry
  deriving DecidableEq, Repr

/-- Structure IDs of Table 13.10. -/
def structId (code row : Nat) : Nat := 0x40000000 + code * 0x10000 + row
/-- Clamp a field of row `row`; `reason` is used when the value changes. -/
def fixTo (row : Nat) (req applied : Int) (reason : Nat) : Fix :=
  ⟨applied, if req = applied then [] else [⟨structId 2 row, unsigned 64 req, unsigned 64 applied, reason⟩]⟩
/-- Clamp into a range. -/
def fixRange (row : Nat) (lo hi req : Int) : Fix :=
  if req < lo then fixTo row req lo 1 else if hi < req then fixTo row req hi 2 else ⟨req, []⟩

/-- Code range of an output format. -/
def ofmtLo (f : Nat) : Int := if f = 3 then -128 else 0
def ofmtHi (f : Nat) : Int := if f = 0 then 15 else if f = 1 then 255 else if f = 2 then 4095 else 127

/-- Reason of a clamped gain or scale: substituted by 1.0, else below or above its range (R64, R72, Table 13.10). -/
def gainReason (req : Nat) (g : BitVec 32) : Nat := if g = one32 then 8 else if lt32 (BitVec.ofNat 32 req) g then 1 else 2

/-- The header words of a set clamped (R72): W0 and G_INIT. -/
def clampSetHdr (w0 w1 : Nat) : (Nat × BitVec 32) × List ClampEntry :=
  let mode := fixTo 8 (bits w0 0 2) (if bits w0 0 2 = 3 then 2 else bits w0 0 2) 5
  let ofmt := fixTo 7 (bits w0 2 3) (if bits w0 2 3 > 3 then 3 else bits w0 2 3) 5
  let wlog := fixRange 3 0 4 (bits w0 8 3)
  let head := fixRange 2 0 16 (bits w0 11 5)
  let gi := clampGain minGain maxGain (BitVec.ofNat 32 w1)
  let gf := fixTo 9 w1 gi.toNat (gainReason w1 gi)
  let v := setBits (setBits (setBits (setBits (w0 % 2 ^ 32) 0 2 mode.v.toNat) 2 3 ofmt.v.toNat) 8 3 wlog.v.toNat) 11 5 head.v.toNat
  ((v, gi), head.es ++ wlog.es ++ ofmt.es ++ mode.es ++ gf.es)

/-- A channel entry clamped (R72): words C0-C2. -/
def clampChan (mode ofmt e : Nat) : Nat × List ClampEntry :=
  let r0 := fixTo 0 (wf e 0 30 2) 0 4
  let bs := fixRange 1 0 47 (wf e 0 24 6)
  let r1 := fixTo 3 (wf e 1 24 8) 0 4
  let r2 := fixTo 6 (wf e 2 12 20) 0 4
  let lo0 := codeField ofmt (wf e 1 12 12)
  let hi0 := codeField ofmt (wf e 2 0 12)
  let zo0 := codeField ofmt (wf e 1 0 12)
  let lo := if mode = 0 then fixRange 4 (ofmtLo ofmt) (ofmtHi ofmt) lo0 else fixTo 4 lo0 0 6
  let hi := if mode = 0 then fixRange 7 lo.v (ofmtHi ofmt) hi0 else fixTo 7 hi0 0 6
  let zo := if mode = 0 then fixRange 5 lo.v hi.v zo0 else fixTo 5 zo0 0 6
  (wf e 0 0 24 + bs.v.toNat * 2 ^ 24 + 2 ^ 32 * (unsigned 12 zo.v + unsigned 12 lo.v * 2 ^ 12) + 2 ^ 64 * unsigned 12 hi.v,
    r0.es ++ bs.es ++ r1.es ++ lo.es ++ zo.es ++ r2.es ++ hi.es)

/-- Put a set in place (R72, R73): clamped, gains at G_INIT, ring, fills, marks and statistics cleared. `chan c` gives words
C0-C2 of channel `c`. -/
def State.putSet (s : State) (p k pc set w0 w1 : Nat) (chan : Nat → Nat) : State × List ClampEntry :=
  let h := clampSetHdr w0 w1
  let key := scaleKey pc set
  let x : ScaleSet := { ScaleSet.init with w0 := BitVec.ofNat 32 h.1.1, gInit := h.1.2, gCur := h.1.2, gPrev := h.1.2 }
  let r := (List.range 128).foldl (fun (y : State × List ClampEntry) c =>
    let e := clampChan x.mode x.ofmt (chan c)
    (y.1.setChanEntry key c e.1, y.2 ++ e.2)) (s.setScaleSet key x, h.2)
  (r.1.deriveSet p k pc set h.1.2, r.2)

/-- Staging buffer words (R73). -/
def stageKey (pc w : Nat) : Nat := pc * 576 + w
def State.stageWord (s : State) (pc w : Nat) : Nat := (mget 0 s.rq.stage (stageKey pc w)).toNat

/-- A pending commit takes effect (R73). -/
def State.applyCommit (s : State) (p k pc set : Nat) : State :=
  let chan (c : Nat) : Nat :=
    s.stageWord pc (64 + 4 * c) + 2 ^ 32 * s.stageWord pc (65 + 4 * c) + 2 ^ 64 * s.stageWord pc (66 + 4 * c)
  let r := s.putSet p k pc set (s.stageWord pc 0) (s.stageWord pc 1) chan
  r.1.clamped 6 r.2

/-! ### Conversion (R68-R70, R74, R78, R84) -/

/-- The corrected value ACC - ZA × CSUM (R68), also v[c] of R53. -/
def corrected (acc csum : AccVal) (za : Nat) : AccVal :=
  match acc, csum with
  | .fin a, .fin c => accOf (a - za * c)
  | a, c => accAdd a (accNeg c)

/-- What the first conversion of a CODE tile finds (R74, R78). -/
structure Judged where
  /-- finite delivered channels, and those clipped -/
  n     : Nat
  c     : Nat
  /-- largest fill, exact -/
  fill  : Q
  /-- some finite channel meets the underuse test -/
  meets : Bool
  deriving DecidableEq, Repr

/-- Code before the clamp. -/
def preCode (ch : Chan) (m sh : Nat) (v : Int) : Int := roundQ ⟨v * m, 2 ^ sh⟩ + ch.zo
/-- Code of a corrected value (R68, R69). -/
def codeOf (ch : Chan) (m sh : Nat) : AccVal → Int
  | .fin v => clampI ch.lo ch.hi (preCode ch m sh v)
  | .pinf => ch.hi
  | .ninf => ch.lo
  | .poison => ch.zo
/-- Fill of a finite corrected value (R74); none where its span is 0. -/
def fillOf (ch : Chan) (v : Int) : Option Q :=
  let span := if 0 ≤ v then ch.hi - ch.zo else ch.zo - ch.lo
  if span = 0 then none else some ⟨v.natAbs * ch.bm, 2 ^ ch.bs * span.natAbs⟩
/-- Does the channel meet the underuse test (R78)? A code equal to ZOUT is taken to lie on the upper side (DESIGN CHOICE, log
entry 130). -/
def meetsUnder (frac : Nat) (ch : Chan) (y : Int) : Bool :=
  let span := if ch.zo ≤ y then ch.hi - ch.zo else ch.zo - ch.lo
  span == 0 || decide (256 * (y - ch.zo).natAbs ≥ frac * span.natAbs)
/-- Judge a tile from its channels, corrected values and first-pass M and S. -/
def judge (frac : Nat) (l : List (Chan × (Nat × Nat) × AccVal)) : Judged :=
  l.foldl (fun j e =>
    match e.2.2 with
    | .fin v =>
      let y := preCode e.1 e.2.1.1 e.2.1.2 v
      let out := decide (y < e.1.lo) || decide (e.1.hi < y)
      let f := match fillOf e.1 v with
        | some q => if j.fill.lt q then q else j.fill
        | none => j.fill
      ⟨j.n + 1, if out then j.c + 1 else j.c, f, j.meets || meetsUnder frac e.1 (clampI e.1.lo e.1.hi y)⟩
    | _ => j) ⟨0, 0, ⟨0, 1⟩, false⟩

/-- Width of a code in the payload (Table 04.9). -/
def codeWidth (ofmt : Nat) : Nat := if ofmt = 0 then 4 else if ofmt = 2 then 16 else 8

/-- 1 / F_tile rounded and clamped (R80): the gain, and the unclamped gain when a clamp acted. A tile without a fill takes
the upper clamp (log entry 19). -/
def fallbackGain (f : BitVec 32) (h : Nat) : BitVec 32 × Option (BitVec 32) :=
  if (val32 f).n = 0 then (maxGain, some 0x7F7FFFFF#32)
  else
    let g := rnd32 (Q.div ⟨1, 1⟩ ((val32 f).mul ⟨h, 16⟩))
    let g' := clampGain minGain maxGain g
    (g', if g = g' then none else some g)

/-- Where a tile's output goes (R160, R165). -/
def State.release (s : State) (a : TileArgs) (kind efmt : Nat) (taint late fb : Bool) (origin : Nat) (gain : BitVec 32) (vlen : Nat)
    (payload : Nat) : State :=
  let part := s.owner a.site
  let n := fmtChans a.wfmt
  let s := if late then s.withhold part a.stream else s
  match a.mrg with
  | some m =>
    let h := mkHdr kind efmt (n / 32 - 1) vlen 0 0 false taint late fb true origin gain a.tag m.stream m.rank m.token m.mwgt m.ctx
    s.sendArrival part a.site (s.phys m.home) (a.comb / 1024) a.tag h payload
  | none =>
    let h := mkHdr kind efmt (n / 32 - 1) vlen 0 0 false taint late fb false origin gain a.tag a.stream 0 a.token 0 0
    s.writeVec a.site a.out h payload (paddedBytes h)

/-- Squared-error statistics of the released codes (R84). -/
def State.sseAdd (s : State) (p key : Nat) (l : List (Nat × Chan × (Nat × Nat) × AccVal × Int)) : State :=
  let one (e : Nat × Chan × (Nat × Nat) × AccVal × Int) : Option (Nat × Nat) :=
    match e.2.2.2.1 with
    | .fin v =>
      let num : Int := (e.2.2.2.2 - e.2.1.zo) * 2 ^ (e.2.2.1.2 + 8) - v * e.2.2.1.1 * 2 ^ 8
      let q := num.natAbs / 2 ^ e.2.2.1.2
      some (e.1 / 64, q * q)
    | _ => none
  let es := l.filterMap one
  let g (i : Nat) := es.filter (fun x => x.1 == i)
  let sum (l : List (Nat × Nat)) : Nat := l.foldl (fun a x => a + x.2) 0
  let x := s.scaleSet key
  let x := { x with sse0 := min (2 ^ 48 - 1) (x.sse0 + sum (g 0)), n0 := min (2 ^ 32 - 1) (x.n0 + (g 0).length),
                    sse1 := min (2 ^ 48 - 1) (x.sse1 + sum (g 1)), n1 := min (2 ^ 32 - 1) (x.n1 + (g 1).length) }
  let r := siteReg p rRQ_SSE
  let s := (s.setScaleSet key x).setReg r (BitVec.ofNat 64 (min (2 ^ 64 - 1) ((s.reg r).toNat + sum es)))
  s.bumpBy (siteReg p rRQ_SAMP) es.length

/-- Corrected values of the delivered channels of a tile. -/
def Tile.corr (t : Tile) (cvalid : Nat) : List AccVal :=
  ((t.acc.zip t.csum).take cvalid).map (fun e => corrected e.1 e.2 t.m.za)
/-- Is some delivered value special? -/
def anySpecial (l : List AccVal) : Bool := l.any (fun x => !(accFinite x))
/-- Origin of a tile with an origin for a special value made at the requantizer (R68, log entry 18). -/
def tileOrigin (gc layer : Nat) (o : Nat) (l : List AccVal) : Nat :=
  if o = 0 then
    match l.find? (fun x => !(accFinite x)) with
    | some x => originWord gc layer (accKind x)
    | none => 0
  else o

/-- Release the codes of a CODE tile made with gain `g` (R68-R70, R84). -/
def State.releaseCode (s : State) (a : TileArgs) (key : Nat) (t : Tile) (cs : List (Chan × (Nat × Nat) × AccVal)) (g : BitVec 32)
    (fb : Bool) : State :=
  let x := s.scaleSet key
  let gc := s.gcomb a.site a.comb
  let vals := cs.map (·.2.2)
  let ys := cs.map (fun e => codeOf e.1 e.2.1.1 e.2.1.2 e.2.2)
  let clip := (cs.filter (fun e => match e.2.2 with
    | .fin v => let y := preCode e.1 e.2.1.1 e.2.1.2 v; decide (y < e.1.lo) || decide (e.1.hi < y)
    | _ => false)).length
  let taint := t.m.taint || anySpecial vals
  let s := if t.m.late then s else s.bumpBy (siteReg a.site rRQ_CNT_CLIP) clip
  let s := if s.flag (siteReg a.site rRQ_CTL) 0 && !t.m.late then
      s.sseAdd a.site key ((cs.zip ys).zipIdx.map (fun e => (e.2, e.1.1.1, e.1.1.2.1, e.1.1.2.2, e.1.2))) else s
  s.release a 1 x.ofmt taint t.m.late fb (if taint then tileOrigin gc a.layer t.m.origin vals else 0) g (cs.length)
    (packNat (codeWidth x.ofmt) (ys.map (unsigned (codeWidth x.ofmt))))

/-- Channel data of a tile under a set: the channels, their M and S, and the corrected values. -/
def State.tileChans (s : State) (key ofmt : Nat) (ms : Nat → Chan → Nat × Nat) (vals : List AccVal) :
    List (Chan × (Nat × Nat) × AccVal) :=
  vals.zipIdx.map (fun e => let ch := chanOf ofmt (s.chanEntry key e.2); (ch, ms e.2 ch, e.1))

/-- Free the set or sets of a tile. -/
def State.freeSets (s : State) (pc i wfmt : Nat) : State :=
  if wfmt = 0 then (s.setAccSet pc 0 AccSet.init).setAccSet pc 1 AccSet.init else s.setAccSet pc i AccSet.init

/-- The runs at the requantizers of site `p` end: with the descriptor that drains there, and at the site's end marker; slack left
over lapses (R79). -/
def State.endRuns (s : State) (p : Nat) : State :=
  { s with rq := { s.rq with run := s.rq.run.filter (fun e => e.1 / 4160 != p) } }
/-- Hold cycles part the vectors of a site's combs from those that follow (R92). -/
def State.cutTails (s : State) (p : Nat) : State :=
  { s with comb := { s.comb with tailW4S := s.comb.tailW4S.filter (fun e => e.1 / 4160 != p) } }

/-- The run of tiles a drained tile belongs to, with its slack (R79). -/
def State.enterRun (s : State) (a : TileArgs) (pc : Nat) : State :=
  let r := mget RqRun.init s.rq.run pc
  if r.active && r.tag == a.tag && r.stream == a.stream then s
  else { s with rq := { s.rq with run := mset RqRun.init s.rq.run pc ⟨a.tag, a.stream, a.slack, true⟩ } }

/-- A fill joins F_STROKE, or F_PEND in a recomputation (R75, R83). -/
def ScaleSet.collect (x : ScaleSet) (recomp : Bool) (f : BitVec 32) : ScaleSet :=
  if recomp then { x with fPend := max32 x.fPend f, pendValid := true }
  else { x with fStroke := max32 x.fStroke f, strokeValid := true }

/-- The fill of a code tile joins its set's window (R75, R78, R83). `trig` says that a fallback trigger acted. Every re-marked tile
journals SCALE_WINDOW_INEXACT (DESIGN CHOICE, log entry 131: R83 does not say how often). -/
def State.joinWindow (s : State) (a : TileArgs) (part key : Nat) (x : ScaleSet) (late taint trig : Bool) (f : BitVec 32) : State :=
  if x.adapt && late && a.recomp then
    ((s.setScaleSet key { x with inexact := true }).mark 0x1084 part 0).raise 0x1084 part a.stream a.site (a.comb + a.sset * 2 ^ 13)
      (s.part part).stroke.toNat.pred
  else if x.adapt && !taint && !late && (!trig || x.aff) then s.setScaleSet key (x.collect a.recomp f)
  else s

/-- A granted fallback (R79): its cost leaves the slack, its gain is kept with the tile, the set stays DRAINING. -/
def State.grantFallback (s : State) (a : TileArgs) (pc i cost : Nat) (run : RqRun) (t : Tile) (f : BitVec 32) : State :=
  let r (o : Nat) := siteReg a.site o
  let s := { s with rq := { s.rq with run := mset RqRun.init s.rq.run pc { run with slack := run.slack - cost } } }
  let s := (s.bump (r rRQ_CNT_FB)).bumpBy (r rRQ_CNT_SLACK) cost
  let g := fallbackGain f 16
  let s := match g.2 with
    | some u => s.gainClamped a.site a.comb a.sset a.stream 1 u
    | none => s
  s.setTile pc i a.wfmt { t with m := { t.m with fbGain := some g.1 } }

/-- A denied fallback (R81): counted, told once, and the stream's placement marked. -/
def State.denyFallback (s : State) (a : TileArgs) (part : Nat) (j : Judged) : State :=
  let s := s.bump (siteReg a.site rRQ_CNT_FBDENY)
  let s := s.updPart part (fun q => { q with placed := q.placed.map (fun pl => if pl.slot = a.stream then { pl with sfd := true } else pl) })
  s.raiseOnce a.site 0x0081 part a.stream a.site (a.comb + a.sset * 2 ^ 13 + a.layer * 2 ^ 17) (j.c + j.n * 2 ^ 8 + a.tag * 2 ^ 16)

/-- The drain ends (R39, R68-R70, R78-R84): the tile is converted under its scale set, judged, and its output released
and its set freed, unless a granted fallback keeps it DRAINING. -/
def State.drainTile (s : State) (a : TileArgs) (i : Nat) : State :=
  let p := a.site
  let r (o : Nat) := siteReg p o
  let pc := s.pcomb p a.comb
  let gc := s.gcomb p a.comb
  let part := s.owner p
  let t := s.tile pc i a.wfmt
  let vals := t.corr a.cvalid
  let key := scaleKey pc a.sset
  let x := s.scaleSet key
  let s := s.enterRun a pc
  let late := t.m.late
  let taint := t.m.taint || anySpecial vals
  let s := if late then s.bump (r rRQ_CNT_VOID) else s
  if x.mode = 1 then
    let out := (s.tileChans key x.ofmt (fun _ ch => (ch.bm, ch.bs)) vals).map (fun e => match e.2.2 with
      | .fin v => (rndBf ⟨v * e.1.bm, 2 ^ e.1.bs⟩).toNat
      | .pinf => 0x7F7F
      | .ninf => 0xFF7F
      | .poison => 0)
    (s.release a 2 0 taint late false (if taint then tileOrigin gc a.layer t.m.origin vals else 0) one32 vals.length
      (packNat 16 out)).freeSets pc i a.wfmt
  else if x.mode = 2 then
    let out := (s.tileChans key x.ofmt (fun _ ch => (ch.bm, ch.bs)) vals).map (fun e => match e.2.2 with
      | .fin v => accOf (roundQ ⟨v * e.1.bm, 2 ^ e.1.bs⟩)
      | y => y)
    let taint := taint || anySpecial out
    (s.release a 3 0 taint late false (if taint then tileOrigin gc a.layer t.m.origin out else 0) one32 vals.length
      (packNat 32 (out.map (fun v => (accEnc v).toNat)))).freeSets pc i a.wfmt
  else
    let s := s.bump (r rRQ_CNT_TILE)
    let gain := if a.recomp then x.gPrev else x.gCur
    let cs := s.tileChans key x.ofmt (fun _ ch =>
      if a.recomp then let d := deriveMS ch.bm ch.bs x.gPrev; (d.1, d.2.1) else (ch.m, ch.sh)) vals
    let s := if a.recomp then s.countClamps a key x.gPrev else s
    let j := judge x.underFrac cs
    let f := rnd32up j.fill
    let clips := decide (256 * j.c > x.clipFrac * j.n)
    let under := decide ((val32 f).n > 0) && !j.meets
    let can := x.fbEn && s.flag (r rRQ_CTL) 2 && j.n != 0 && !taint && !late
    let trig := can && (clips || under)
    let s := if !trig then s else if clips then s.bump (r rRQ_CNT_CLIPTRIG) else s.bump (r rRQ_CNT_UNDER)
    let s := s.joinWindow a part key x late taint trig f
    let cost := 2 + drainLen a.wfmt
    let run := mget RqRun.init s.rq.run pc
    if trig && cost ≤ run.slack then s.grantFallback a pc i cost run t f
    else
      let s := if trig then s.denyFallback a part j else s
      (s.releaseCode a key t cs gain false).freeSets pc i a.wfmt

/-- The granted fallback ends (R80): codes made with the first-pass gain, FB = 1, and the set FREE. -/
def State.fallbackTile (s : State) (a : TileArgs) (i : Nat) (g : BitVec 32) : State :=
  let pc := s.pcomb a.site a.comb
  let t := s.tile pc i a.wfmt
  let key := scaleKey pc a.sset
  let x := s.scaleSet key
  let vals := t.corr a.cvalid
  let cs := s.tileChans key x.ofmt (fun _ ch => let d := deriveMS ch.bm ch.bs g; (d.1, d.2.1)) vals
  let s := s.countClamps a key g
  (s.releaseCode a key t cs g true).freeSets pc i a.wfmt

/-! ### Threshold readout (R53, R54) -/

/-- Does a corrected value pass (Table 02.12)? -/
def thrPass (thr : Int) : AccVal → Bool
  | .fin v => decide (thr ≤ v)
  | .pinf => true
  | .ninf => false
  | .poison => true

/-- Header of a pass mask or an exact record (log entry 17). -/
def maskHeader (a : TileArgs) (t : Tile) (vlen origin : Nat) (taint : Bool) : Nat :=
  mkHdr 3 0 (fmtChans a.wfmt / 32 - 1) vlen 0 0 false taint t.m.late false false origin one32 a.tag a.stream 0 a.token 0 0

/-- The last plane of a tile passes ACC (R38, R53, R54): DRAINING, or the pass mask and HELD. The descriptor's threshold is loaded
whatever the tile mode. A subtraction of the comparator that leaves the finite range taints the mask with this comb as its
origin; OWN_OVF, its count and OVERFLOW_TAINT are the accumulator's alone (DEDUCED, log entry 18). -/
def State.fillEnd (s : State) (a : TileArgs) (i : Nat) : State :=
  let pc := s.pcomb a.site a.comb
  let t := s.tile pc i a.wfmt
  match a.thr with
  | none => s.setTile pc i a.wfmt { t with m := { t.m with st := .draining } }
  | some tv =>
    let vals := t.corr a.cvalid
    let ps := vals.map (thrPass (signed 32 tv.toNat))
    let n := (ps.filter id).length
    let mask := packNat 1 (ps.map b2n)
    let taint := t.m.taint || anySpecial vals
    let o := if taint then tileOrigin (s.gcomb a.site a.comb) a.layer t.m.origin vals else 0
    let s := if t.m.late then (s.bump (siteReg a.site rRQ_CNT_VOID)).withhold (s.owner a.site) a.stream else s
    let s := s.writeVec a.site a.out (maskHeader a t (fmtChans a.wfmt) o taint) mask (if a.wfmt = 0 then 16 else 8)
    let s := s.bumpBy (siteReg a.site rCOMB_CNT_THRPASS) n
    if n = 0 || a.maskOnly then s.freeSets pc i a.wfmt
    else s.setTile pc i a.wfmt { t with m := { t.m with st := .held, mask := mask, thr := tv } }

/-- The exact drain of the passed channels (R54, R166); it frees the set. -/
def State.exactDrain (s : State) (a : TileArgs) (i : Nat) : State :=
  let pc := s.pcomb a.site a.comb
  let t := s.tile pc i a.wfmt
  let vals := t.corr a.cvalid
  let es := (vals.zipIdx.filter (fun e => bit t.m.mask e.2)).map (fun e => e.2 + 2 ^ 32 * (accEnc e.1).toNat)
  let taint := t.m.taint || anySpecial vals
  let o := if taint then tileOrigin (s.gcomb a.site a.comb) a.layer t.m.origin vals else 0
  (s.writeVec a.site a.exact (maskHeader a t es.length o taint) (packNat 64 es) (8 * es.length)).freeSets pc i a.wfmt

/-! ### The end-of-stroke update (R76) -/

/-- Largest of the most recent ring entries of the window. -/
def ScaleSet.window (x : ScaleSet) : BitVec 32 :=
  (List.range (min (2 ^ x.wlog) x.nvalid)).foldl (fun m i => max32 m (mget 0 x.ring ((x.headIdx + 16 - 1 - i) % 16))) 0

/-- The update of one set after its comb's end marker: the set with its next gain, and the unclamped gain when a clamp acted. -/
def ScaleSet.strokeEnd (x : ScaleSet) (adaptEn : Bool) : ScaleSet × Option (BitVec 32) :=
  if x.mode ≠ 0 then (x, none)
  else
    let y := if x.pendValid then
        { x with ring := mset 0 x.ring x.headIdx x.fPend, headIdx := (x.headIdx + 1) % 16, nvalid := min (x.nvalid + 1) 16 } else x
    let y := { y with fPend := y.fStroke, pendValid := y.strokeValid, fStroke := 0, strokeValid := false }
    let w := y.window
    if y.adapt && adaptEn && decide (0 < y.nvalid) && decide ((val32 w).n > 0) then
      let g := fallbackGain w (16 + y.head)
      ({ y with gNext := some g.1 }, g.2)
    else ({ y with gNext := some y.gCur }, none)

/-- Every set of site `p` is updated after the end marker; the runs at its requantizers are over (R76, R79). -/
def State.scaleUpdate (s : State) (p : Nat) : State :=
  let s := (s.endRuns p).cutTails p
  let keys := (s.rq.sets.map Prod.fst).filter (fun k => k / 16 / 4160 == p)
  keys.foldl (fun s k =>
    let pc := k / 16
    let u := (s.scaleSet k).strokeEnd (s.flag (siteReg p rRQ_CTL) 1)
    let s := s.setScaleSet k u.1
    match u.2 with
    | some g => s.gainClamped p (s.combIdOf p pc) (k % 16) 0x3FFF 1 g
    | none => s) s

/-- The new gains take effect at the edge that begins the next stroke (R76). -/
def State.gainsApply (s : State) (p : Nat) : State :=
  let keys := (s.rq.sets.map Prod.fst).filter (fun k => k / 16 / 4160 == p)
  keys.foldl (fun s k =>
    let x := s.scaleSet k
    match x.gNext with
    | none => s
    | some g =>
      let pc := k / 16
      let s := s.setScaleSet k { x with gPrev := x.gCur, gCur := g, gNext := none }
      s.deriveSet p (s.combIdOf p pc) pc (k % 16) g) s

/-! ### The ingress units (R62-R67) -/

/-- Words 0-2 of an ingress slot (Table 03.1): AFMT A8 and IS 1.0 after reset. -/
def State.ingressSlot (s : State) (p slot : Nat) : Nat := (mget 0x3F80000000000001#96 s.rq.ingress (p * 64 + slot)).toNat
/-- Channels of a block for the handling of non-finite inputs: without rotation the 256 that a unit takes in 4 cycles of 64
(R66, R67; DEDUCED, log entry 117). -/
def nfBlock (n : Nat) : Nat := if n = 1 then 256 else n
/-- Rotation block size; 1 without rotation. -/
def hSize (w0 : Nat) : Nat :=
  if bits w0 2 2 = 1 then 64 else if bits w0 2 2 = 2 then 128 else if bits w0 2 2 = 3 then 256 else 1
/-- c_n of R65. -/
def hConst (n : Nat) : BitVec 32 := if n = 64 then 0x3E000000#32 else if n = 128 then 0x3DB504F3#32 else 0x3D800000#32

/-- One butterfly stage at distance `d` (R65). -/
def butterfly (d : Nat) (t : List (BitVec 32)) : List (BitVec 32) :=
  (List.range t.length).map (fun i =>
    if i / d % 2 = 0 then add32 (t.getD i 0) (t.getD (i + d) 0) else sub32 (t.getD (i - d) 0) (t.getD i 0))
/-- The stages j = 0 to log2(n) - 1. -/
def hadamard : Nat → Nat → List (BitVec 32) → List (BitVec 32)
  | 0, _, t => t
  | k + 1, d, t => hadamard k (2 * d) (butterfly d t)
/-- Rotate one block of n values and scale by c_n; no rotation for n = 1 (R65). -/
def rotateBlock (n : Nat) (t : List (BitVec 32)) : List (BitVec 32) :=
  if n = 1 then t else (hadamard (Nat.log2 n) 1 t).map (fun v => mul32 v (hConst n))
/-- Cut a list into blocks of `n`. -/
def blocks (n : Nat) : Nat → List (BitVec 32) → List (List (BitVec 32))
  | 0, _ => []
  | k + 1, l => l.take n :: blocks n k (l.drop n)

/-- Clamp entries of an ingress slot written in load mode (R64): words 0-2 and the reserved words 3-7 (`rest`, one
field that follows the rows of Table 03.1: DESIGN CHOICE, log entry 133), with the entries for the clamp report. -/
def clampIngress (w0 w1 w2 rest : Nat) : Nat × List ClampEntry :=
  let r0 := fixTo 0 (bits w0 28 4) 0 4
  let afmt := fixTo 5 (bits w0 0 2) (if bits w0 0 2 = 3 then 2 else bits w0 0 2) 5
  let za := fixRange 1 0 (2 ^ planesOf afmt.v.toNat - 1 : Nat) (bits w0 16 12)
  let r2 := fixTo 2 (bits w0 5 11) 0 4
  let is := clampGain 0x2B800000#32 0x53800000#32 (BitVec.ofNat 32 w1)
  let isF := fixTo 6 w1 is.toNat (gainReason w1 is)
  let r7 := fixTo 7 (bits w2 26 6) 0 4
  let off := fixTo 8 (bits w2 0 26) (bits w2 0 26 / 64 * 64 : Nat) 7
  let r9 := fixTo 9 rest 0 4
  (afmt.v.toNat + bits w0 2 3 * 4 + za.v.toNat * 2 ^ 16 + 2 ^ 32 * is.toNat + 2 ^ 64 * off.v.toNat,
    r0.es ++ za.es ++ r2.es ++ afmt.es ++ isF.es ++ r7.es ++ off.es ++ r9.es)

/-- An activation vector from an ingress unit: header (Table 04.8) and present planes. -/
structure ZrVec where
  hdr    : Nat
  planes : List (BitVec 512)
  deriving DecidableEq, Repr

/-- A finite value for one whose part in a computation the manual does not state: a free value (log entry 24). -/
def State.freeBf (s : State) : BitVec 16 × State :=
  let f := s.takeFree
  let x := BitVec.ofNat 16 f.1.toNat
  (if nonFiniteBf x then 0 else x, f.2)

/-- An ingress unit rotates and quantises the blocks of one vector (R65-R67). `chan0` is the row channel of the first value,
`hdr` the header of the input row, `gc` the first comb the vector is delivered to. Smoothing values that carry the late-error mark
give it to the vector (R232). -/
def State.ingress (s : State) (p slot chan0 hdr gc layer tag stream : Nat) (late : Bool) (xs : List (BitVec 16)) : ZrVec × State :=
  let part := s.owner p
  let w := s.ingressSlot p slot
  let afmt := bits w 0 2
  let za := wf w 0 16 12
  let is := BitVec.ofNat 32 (wf w 1 0 32)
  let n := hSize w
  let smooth := bit w 4
  let soff := wf w 2 0 26
  let rd := if smooth then s.spadRead part p stream (gc / 1024 % 4) (soff + 2 * chan0) (2 * xs.length) else (false, s)
  let s := rd.2
  let late := late || rd.1
  let xs := xs.zipIdx.map (fun e => if e.2 < vhVlen hdr then e.1 else 0)
  let d (k : Nat) : BitVec 16 := if smooth then BitVec.ofNat 16 (s.spadBytes p (soff + 2 * (chan0 + k)) 2) else 0x3F80#16
  -- channels with a non-finite value or smoothing value, with the pattern found, and the blocks that hold them
  let bad := xs.zipIdx.filterMap (fun e =>
    if vhVlen hdr ≤ e.2 then none
    else if nonFiniteBf e.1 then some (e.2, e.1) else if nonFiniteBf (d e.2) then some (e.2, d e.2) else none)
  let blk (i : Nat) := (chan0 + i) / nfBlock n
  let badBlocks := (bad.map (fun e => blk e.1)).dedup
  let t := xs.zipIdx.map (fun e =>
    if badBlocks.contains (blk e.2) then 0 else mul32 (bf32 e.1) (bf32 (d e.2)))
  let rot := ((blocks n (ceilDiv t.length n) t).map (rotateBlock n)).flatten
  let top : Int := (2 ^ planesOf afmt - 1 : Nat)
  let raw := rot.map (fun v => roundQ (val32 (mul32 v is)) + za)
  let raw := raw.zipIdx.map (fun e => if badBlocks.contains (blk e.2) then (za : Int) else e.1)
  let codes := raw.zipIdx.map (fun e => if e.2 < vhVlen hdr then (clampI 0 top e.1).toNat else 0)
  let clips := (raw.zipIdx.filter (fun e => decide (e.2 < vhVlen hdr) && (decide (e.1 < 0) || decide (top < e.1)))).length
  let s := s.bumpBy (siteReg p rRQ_ING_CLIP) clips
  let s := s.bumpBy (siteReg p rRQ_ING_NF) badBlocks.length
  let s := match bad with
    | [] => s
    | e :: _ => s.raiseOnce p 0x0083 part stream p (slot + (chan0 + e.1) % 2 ^ 16 * 2 ^ 16) e.2.toNat
  let taint := vhTaint hdr || !bad.isEmpty
  let o := if vhTaint hdr then vhOrigin hdr else 0
  let o := if !bad.isEmpty && o == 0 then originWord gc layer 5 else o
  let plane (i : Nat) : BitVec 512 := BitVec.ofNat 512 (packNat 1 (codes.map (fun c => b2n (bit c i))))
  let pm := (List.range (planesOf afmt)).filter (fun i => plane i != 0)
  let zero := pm.isEmpty
  let h := mkHdr 0 afmt (codes.length / 32 - 1) (vhVlen hdr) za (pm.foldl (fun a i => a + 2 ^ i) 0) zero taint late false false o
    one32 tag stream 0 (vhToken hdr) 0 0
  (⟨h, pm.map plane⟩, s)

end Sys2Proof.Machine
end

