-- ==== Sys2Proof/Machine/CombCmds.lean ====
section
/-! DEFINITION. The commands of the combs, requantizers, packers and merge trees (chapters 02-04). -/

namespace Sys2Proof.Machine

/-! ### Vectors and tiles -/

/-- A tile finds its set taken: the comb stalls for a cycle, which is a hold cycle (R38, R51). -/
def State.stallSet (s : State) (p pc : Nat) : State :=
  ({ s with comb := { s.comb with tailW4S := mset false s.comb.tailW4S pc false } }.bump (siteReg p rCOMB_CNT_DSTALL)).bump
    (siteReg p rCOMB_CNT_HOLD)

/-- VECTOR_CONSUME (R37): checked by the comb input buffer, then consumed; a tile that finds its set taken stalls for this
cycle (R38, log entry 16); a vector for which no tile is open is not consumed. -/
def State.vectorConsume (s : State) (a : TileArgs) (h : Nat) (planes : List (BitVec 512)) (late delayed : Bool) : State :=
  let p := a.site
  let part := s.owner p
  let pc := s.pcomb p a.comb
  match if vhKind h ≠ 0 then some 8 else hdrFail h (planes.map (·.toNat)) (planes.length * (vhElems h / 8)) with
  | some f => s.badVector part p h 0 f
  | none =>
    if a.first && a.tmode != 1 then
      if s.claimable pc a.wfmt then
        if a.tmode = 2 then
          let v := s.readVec part p (a.comb / 1024) a.load
          match if vhKind v.1.hdr ≠ 3 then some 8 else hdrFail v.1.hdr [] (paddedBytes v.1.hdr) with
          | some f => v.2.badVector part p v.1.hdr 0 f
          | none => v.2.consume a h (late || vhLate h) planes (some v.1) delayed
        else s.consume a h (late || vhLate h) planes none delayed
      else s.stallSet p pc
    else if (s.accSet pc (s.curSet pc a.wfmt)).st = .filling then s.consume a h (late || vhLate h) planes none delayed
    else s

def execVectorConsume (a : TileArgs) (hdr : BitVec 256) (planes : List (BitVec 512)) (late delayed : Bool) (s : State) : Res :=
  .next (s.vectorConsume a hdr.toNat planes late delayed)

/-- TILE_FILL_END (R38, R53). -/
def execTileFillEnd (a : TileArgs) (s : State) : Res :=
  let pc := s.pcomb a.site a.comb
  let i := s.curSet pc a.wfmt
  .next (if (s.accSet pc i).st = .filling then s.fillEnd a i else s)

/-- The set of a comb that is in state `st`, the one claimed earlier first. -/
def State.findSet (s : State) (pc : Nat) (f : AccSet → Bool) : Option Nat :=
  [1 - mget 1 s.comb.lastSet pc, mget 1 s.comb.lastSet pc].find? (fun i => f (s.accSet pc i))

/-- DRAIN_COMPLETE (R39, R68). -/
def execDrainComplete (a : TileArgs) (s : State) : Res :=
  .next (match s.findSet (s.pcomb a.site a.comb) (fun x => decide (x.st = .draining) && x.fbGain.isNone) with
  | some i => s.drainTile a (if a.wfmt = 0 then 0 else i)
  | none => s)

/-- FALLBACK_COMPLETE (R80). -/
def execFallbackComplete (a : TileArgs) (s : State) : Res :=
  let pc := s.pcomb a.site a.comb
  .next (match s.findSet pc (fun x => decide (x.st = .draining) && x.fbGain.isSome) with
  | some i =>
    let i := if a.wfmt = 0 then 0 else i
    s.fallbackTile a i (((s.accSet pc i).fbGain).getD one32)
  | none => s)

/-- EXACT_DRAIN_COMPLETE (R54). -/
def execExactDrainComplete (a : TileArgs) (s : State) : Res :=
  .next (match s.findSet (s.pcomb a.site a.comb) (fun x => decide (x.st = .held)) with
  | some i => s.exactDrain a (if a.wfmt = 0 then 0 else i)
  | none => s)

/-- First failing field of an input vector at an ingress unit (R162): a WIDE vector of 256 or 512 values. -/
def ingressFail (h len : Nat) : Option Nat :=
  if vhKind h ≠ 2 then some 8 else if vhLen h ≠ 7 ∧ vhLen h ≠ 15 then some 6 else hdrFail h [] len

/-- INGRESS_BLOCK (R65, R67). -/
def execIngressBlock (site slot chan0 comb layer tag : Nat) (hdr : BitVec 256) (late : Bool) (xs : List (BitVec 16)) (s : State) :
    Res :=
  let h := hdr.toNat
  .next (match ingressFail h (32 * ceilDiv (2 * xs.length) 32) with
  | some f => s.badVector (s.owner site) site h 5 f
  | none =>
    let r := s.ingress site slot chan0 h (s.gcomb site comb) layer tag (vhStream h) (late || vhLate h) xs
    r.2.emit (.vector site r.1.hdr (r.1.planes.map (·.toNat))))

/-! ### Writes to comb bank space (R26-R28, R87) -/

/-- One byte at offset `o` of a slot's region `rg`; `o` is no reserved position (R26, R87). The trailer's second word is computed
by the slot and ignores writes (R88). -/
def State.slotByte (s : State) (pc slot rg o v : Nat) : State :=
  let sk := slotKey pc slot
  if rg = 0 then
    let r := bits o 5 8
    (s.setWeightRow sk r (BitVec.ofNat 256 (setBits (s.weightRow sk r).toNat (8 * (o % 32)) 8 v))).shadowWrote pc slot
      (BitVec.ofNat 256 (2 ^ r)) 0
  else if rg = 1 then
    if bit o 12 then
      let h := s.slotHdr sk
      let w := setBits (h.crc + h.crcRsv * 2 ^ 16) (8 * (o % 8)) 8 v
      if o % 8 < 4 then
        (s.setSlotHdr sk { h with crc := w % 2 ^ 16, crcRsv := bits w 16 16 }).shadowWrote pc slot 0 (BitVec.ofNat 257 (2 ^ 256))
      else s
    else
      let r := bits o 4 8
      (s.setMetaRow sk r (BitVec.ofNat 128 (setBits (s.metaRow sk r).toNat (8 * (o % 16)) 8 v))).shadowWrote pc slot 0
        (BitVec.ofNat 257 (2 ^ r))
  else
    let e := bits o 2 9
    if e < 128 then
      let w := setBits (unsigned 8 (s.wzp sk e) * 2 ^ 20) (8 * (o % 4)) 8 v
      s.setWzp sk e (bits w 20 8)
    else
      let h := s.slotHdr sk
      let w := setBits (h.format + b2n h.dense * 8 + h.rsv * 32) (8 * (o % 4)) 8 v
      s.setSlotHdr sk { h with format := bits w 0 3, dense := bit w 3, rsv := bits w 5 27 }

/-- A write of `len` bytes to a slot; it clears VALID, and a write to the bank header starts the header check (R28, R29). -/
def State.slotWrite (s : State) (pc slot rg o len x : Nat) : State :=
  let s := (List.range len).foldl (fun s i => s.slotByte pc slot rg (o + i) (bits x (8 * i) 8)) s
  let s := s.slotDirty pc slot
  let sk := slotKey pc slot
  let hdr := rg == 2 && (List.range len).any (fun i => bits (o + i) 2 9 == 128)
  if hdr then s.setSlotHdr sk { s.slotHdr sk with checking := true } else s

/-- A write within one bank (R27): by a DMA engine in load mode (`mode` 1) to a live slot of a partition being loaded, or in
shadow mode (2) to the open shadow slot of the bank; any other write is denied. -/
def State.bankWrite (s : State) (part master mode a len x : Nat) : State :=
  let p := addrSite a
  let k := bits a 21 13
  let bank := bits a 13 8
  let pc := s.pcomb p k
  let dma := decide (0x10 ≤ master) && decide (master ≤ 0x13) || master == 0x16
  let slot :=
    if dma && mode == 1 && !(bit a 35) && s.loadingSite p then some (s.liveSlot pc bank)
    else if dma && mode == 2 && bit a 35 then (s.openShadow pc bank).map (fun i => (s.shadow pc i).slot)
    else none
  match slot with
  | some sl => s.slotWrite pc sl (bits a 36 2) (bits a 0 13) len x
  | none => s.accessFault 0x3044 part p a master

/-- SPACE1_WRITE (R26, R27): nothing is sent when any of its bytes lies at a reserved position; a write that runs on into the
next bank is judged there by itself. -/
def execSpace1Write (part master mode : Nat) (addr : BitVec 48) (len : Nat) (data : BitVec 512) (s : State) : Res :=
  let a := addr.toNat
  let n := min len (2 ^ 13 - bits a 0 13)
  .next (
    if s.rangeBad a len false then s.accessFault 0x31C1 part (addrSite a) a master
    else
      let s := s.bankWrite part master mode a n data.toNat
      if n < len then s.bankWrite part master mode (a + n) (len - n) (data.toNat / 2 ^ (8 * n)) else s)

/-- BANK_HEADER_CHECK_COMPLETE (R29). -/
def execBankHeaderCheckComplete (site comb bank : Nat) (shadow : Bool) (s : State) : Res :=
  let pc := s.pcomb site comb
  .next (
    if shadow then
      match s.openShadow pc bank with
      | some i => s.headerCheck site comb bank true (s.shadow pc i).slot
      | none => s
    else s.headerCheck site comb bank false (s.liveSlot pc bank))

/-! ### Shadow commands (R56, R58) -/

/-- COMB_SHADOW_STAT after a command: result, and CMD_ERR for a refusal. -/
def State.shadowStat (s : State) (p k bank result : Nat) : State :=
  let r := siteReg p rCOMB_SHADOW_STAT
  let s := ((s.setFld r 0 13 k).setFld r 16 8 bank).setFld r 24 3 result
  if result = 0 then s else s.sticky r 30
/-- An accepted command names its slot. -/
def State.shadowOk (s : State) (p k bank pc i : Nat) : State :=
  let s := { s with comb := { s.comb with lastShadow := mset 0 s.comb.lastShadow p (1 + pc * 2 + i) } }
  s.shadowStat p k bank 0

/-- Clear META_BAD and TEST_BAD of a slot that an OPEN takes (R103). -/
def State.clearBad (s : State) (p sk : Nat) : State :=
  let h := s.slotHdr sk
  let r := siteReg p rSPARSE_STAT
  let s := s.setSlotHdr sk { h with valid := false, checking := false, metaBad := false, testBad := false }
  if h.metaBad then s.setFld r 16 16 (s.fld r 16 16 - 1) else s

/-- SHADOW_OPEN (R56). -/
def execShadowOpen (site comb bank : Nat) (s : State) : Res :=
  let pc := s.pcomb site comb
  let free := [0, 1].find? (fun i =>
    decide ((s.shadow pc i).st = .free) && !(s.slotHdr (slotKey pc (s.shadow pc i).slot)).retired)
  .next (
    match s.openShadow pc bank, free with
    | none, some i =>
      let x := s.shadow pc i
      ((s.setShadow pc i { x with st := .opened, bank := bank, rows := 0, metaW := 0, eligible := 0, linked := false }).clearBad
        site (slotKey pc x.slot)).shadowOk site comb bank pc i
    | _, _ =>
      (s.shadowStat site comb bank 1).raise 0x0046 (s.owner site) 0x3FFF site (comb + bank * 2 ^ 13) 0)

/-- SHADOW_ARM (R56, R57). -/
def execShadowArm (site comb bank : Nat) (s : State) : Res :=
  let pc := s.pcomb site comb
  .next (
    match s.openShadow pc bank with
    | none => s.shadowStat site comb bank 2
    | some i =>
      let x := s.shadow pc i
      let s :=
        if x.st = .opened then
          s.setShadow pc i { x with st := if s.shadowComplete pc i then .completeArmed else .armed,
                                    eligible := s.nextStroke (s.owner site) }
        else s
      s.shadowOk site comb bank pc i)

/-- SHADOW_CANCEL (R56, R99). -/
def execShadowCancel (site comb bank : Nat) (s : State) : Res :=
  let pc := s.pcomb site comb
  .next (
    match s.openShadow pc bank with
    | none => s.shadowStat site comb bank 2
    | some i =>
      let x := s.shadow pc i
      let free (s : State) (j : Nat) : State := s.setShadow pc j { Shadow.init (j % 2) with slot := (s.shadow pc j).slot }
      let s1 := free s i
      let s1 := if x.linked && (s.shadow pc (1 - i)).linked then free s1 (1 - i) else s1
      s1.shadowOk site comb bank pc i)

/-- SHADOW_CMD_INVALID (R58). -/
def execShadowCmdInvalid (site : Nat) (w : BitVec 32) (s : State) : Res :=
  .next (s.shadowStat site (bits w.toNat 0 13) (bits w.toNat 16 8) 3)

/-! ### Staging and commit (R73) -/

/-- RQ_STAGE_STAT after a command. -/
def State.stageStat (s : State) (p k set result : Nat) : State :=
  let r := siteReg p rRQ_STAGE_STAT
  let s := ((s.setFld r 0 13 k).setFld r 16 4 set).setFld r 24 3 result
  if result = 0 then { s with rq := { s.rq with lastCmd := mset 0 s.rq.lastCmd p (1 + s.pcomb p k) } } else s.sticky r 30

/-- RQ_COMMIT. -/
def execRqCommit (site comb set : Nat) (s : State) : Res :=
  let pc := s.pcomb site comb
  .next (
    if mget 0 s.rq.pend pc ≠ 0 then s.stageStat site comb set 1
    else
      { s with rq := { s.rq with pend := mset 0 s.rq.pend pc (set + 1 + 32 * s.nextStroke (s.owner site)) } }.stageStat site comb set 0)

/-- RQ_CANCEL. -/
def execRqCancel (site comb set : Nat) (s : State) : Res :=
  let pc := s.pcomb site comb
  .next (
    if mget 0 s.rq.pend pc = 0 then s.stageStat site comb set 2
    else { s with rq := { s.rq with pend := mset 0 s.rq.pend pc 0 } }.stageStat site comb set 0)

/-- RQ_STAGE_CMD_INVALID. -/
def execRqStageCmdInvalid (site : Nat) (w : BitVec 32) (s : State) : Res :=
  .next (s.stageStat site (bits w.toNat 0 13) (bits w.toNat 16 4) 3)

/-- Firmware writes a word of the staging buffer of a requantizer (R73): stored, or discarded with WR_ERR while a commit is
pending. -/
def State.stagingWrite (s : State) (p k w : Nat) (v : BitVec 32) : State :=
  let pc := s.pcomb p k
  if mget 0 s.rq.pend pc ≠ 0 then s.sticky (siteReg p rRQ_STAGE_STAT) 31
  else if w < 576 then { s with rq := { s.rq with stage := mset 0 s.rq.stage (stageKey pc w) v } }
  else s

/-- STAGING_WRITE (R73). -/
def execStagingWrite (site comb w : Nat) (v : BitVec 32) (s : State) : Res := .next (s.stagingWrite site comb w v)

/-! ### The packer and the merge tree -/

/-- PACK_ENTRY (R94). -/
def execPackEntry (site : Nat) (entry : BitVec 256) (s : State) : Res :=
  let e := entry.toNat
  .next (
    match s.packFail site e with
    | some f =>
      { s with sparse := { s.sparse with packer := mset none s.sparse.packer site none } }.raise 0x30C5
        (s.owner site) 0x3FFF site (peComb e + peBank e * 2 ^ 13 + peMode e * 2 ^ 21) (peSeq e + f * 2 ^ 16)
    | none => { s with sparse := { s.sparse with packer := mset none s.sparse.packer site (some entry) } })

/-- PACK_TILE_COMPLETE (R100); without an entry there is no tile. A slot that may not be written, because the site is not being
loaded or the shadow slot is no longer bound, is denied (R27); the address is that of the slot's first row (log entry 129). -/
def execPackTileComplete (site : Nat) (rows : List (BitVec 256)) (zp : List (BitVec 8)) (s : State) : Res :=
  let held : Option (BitVec 256) := mget none s.sparse.packer site
  .next (
    match held with
    | none => s
    | some x =>
      let e := BitVec.toNat x
      let s := { s with sparse := { s.sparse with packer := mset none s.sparse.packer site none } }
      let pc := s.pcomb site (peComb e)
      let deny (s : State) (bank : Nat) : State :=
        s.accessFault 0x3044 (s.owner site) site
          (mkAddr 1 site (b2n (peShadow e) * 2 ^ 35 + peComb e * 2 ^ 21 + bank * 2 ^ 13)) 0x10
      match s.packSlot site pc (peBank e) (peShadow e),
          (if peMode e = 2 then s.packSlot site pc (peBank e + 1) (peShadow e) else some 0) with
      | some a, some b => s.packTile site e a b rows (zp.map (fun (b : BitVec 8) => b.toNat))
      | none, _ => deny s (peBank e)
      | _, none => deny s (peBank e + 1))

/-- MERGE_ARRIVAL (R110). A vector without MRG is none of the merge tree's. -/
def execMergeArrival (site : Nat) (hdr : BitVec 256) (payload : List (BitVec 32)) (late : Bool) (s : State) : Res :=
  let h := hdr.toNat
  .next (
    match hdrFail h [] (32 * ceilDiv (4 * payload.length) 32) with
    | some f => s.badVector (s.owner site) site h 1 f
    | none => if vhMrg h then s.mergeArrive site h (packNat 32 (payload.map (·.toNat))) late else s)

/-- MERGE_RESULT_WRITE (R111). -/
def execMergeResultWrite (site mctx : Nat) (s : State) : Res :=
  let x := s.mergeCtx site mctx
  .next (if x.opened && x.arrived == x.expect then s.mergeFinish site mctx false else s)

end Sys2Proof.Machine
end

