-- ==== Sys2Proof/Machine/Seals.lean ====
section
/-! DEFINITION. Seals: what an operation does at its seal, how answers complete at the issuer, and the seal commands
(chapter 09). -/

namespace Sys2Proof.Machine

/-! ### Names -/

def State.sealAt (s : State) (k : Nat) : Seal := mget Seal.init s.sls.seals k
def State.setSeal (s : State) (k : Nat) (x : Seal) : State :=
  { s with sls := { s.sls with seals := mset Seal.init s.sls.seals k x } }
/-- Physical site of a seal. -/
def State.sealSite (s : State) (k : Nat) : Nat := s.phys (k / 256)
/-- Owner word (Table 09.5). -/
def ownerWord (part site master : Nat) : Nat := master % 256 + (site % 128) * 2 ^ 8 + (part % 16) * 2 ^ 16 + 2 ^ 31
def owPart (w : Nat) : Nat := bits w 16 4
def owSite (w : Nat) : Nat := bits w 8 7
def owMaster (w : Nat) : Nat := bits w 0 8
/-- Operation word fields (Table 09.3). -/
def opOp (w : Nat) : Nat := bits w 28 4
def opVseal (w : Nat) : Nat := bits w 12 12
def opValue (w : Nat) : Nat := bits w 32 32
/-- Waiter-set name of a physical site: logical site, or 64 + hub. -/
def State.waiterSite (s : State) (p : Nat) : Nat :=
  match (List.range 4).find? (fun h => hubSite h == p) with
  | some h => 64 + h
  | none => (s.lsite p).getD 0
/-- Translation entry. -/
def State.xlat (s : State) (part v : Nat) : Nat := (mget 0 s.sls.xlat (part * 4096 + v)).toNat
def xlV (e : Nat) : Bool := bit e 31
def xlImp (e : Nat) : Bool := bit e 30
def xlKind (e : Nat) : Nat := bits e 28 2
def xlSeal (e : Nat) : Nat := bits e 8 7 * 256 + bits e 0 8

/-- Is the operation legal for a seal of this kind (R250, R262)? -/
def opLegal (kind : Nat) (tkt : Bool) (w : Nat) : Bool :=
  let v := opValue w
  bits w 24 4 == 0 && bits w 0 12 == 0 &&
  (match opOp w with
   | 0 => v == 0
   | 1 => kind != 1
   | 2 => kind != 1
   | 3 => kind == 1 && v < 65536 && (if tkt then v != 0xFFFF else v == 0xFFFF)
   | 4 => kind == 1 && v == 0
   | 5 => kind == 2 && v != 0
   | 6 => v == 0
   | _ => false)

/-- Detail word 0 of the operation faults. -/
def opDetail (w k : Nat) : Nat := opVseal w + opOp w * 2 ^ 12 + k * 2 ^ 16

/-! ### Completion at the issuer (R254, R264) -/

/-- Descriptor stream of a master type: quadrants 0-3, KV engine 4, DMA 5. -/
def masterStream (m : Nat) : Option Nat :=
  if m < 4 then some m else if m = 0x14 then some 4 else if 0x10 ≤ m ∧ m ≤ 0x13 then some 5 else none
/-- Core index of a master type. -/
def masterCore (m : Nat) : Option Nat :=
  if 0x18 ≤ m ∧ m ≤ 0x1B then some (m - 0x18) else if 0x20 ≤ m ∧ m ≤ 0x27 then some (m - 0x20) else none
def portKey (site core : Nat) : Nat := site * 8 + core
/-- Write a translation entry. -/
def State.setXlat (s : State) (i e : Nat) : State :=
  { s with sls := { s.sls with xlat := mset 0 s.sls.xlat i (BitVec.ofNat 64 e) } }
/-- Change the waiting masters. -/
def State.updWaits (s : State) (f : List SealWait → List SealWait) : State :=
  { s with sls := { s.sls with waits := f s.sls.waits } }
def State.corePort (s : State) (k : Nat) : CorePort := mget CorePort.init s.sls.ports k
def State.setCorePort (s : State) (k : Nat) (x : CorePort) : State :=
  { s with sls := { s.sls with ports := mset CorePort.init s.sls.ports k x } }
def dsKey (site st : Nat) : Nat := site * 8 + st
def State.dstream (s : State) (site st : Nat) : DStream := mget DStream.init s.desc.streams (dsKey site st)
def State.setDstream (s : State) (site st : Nat) (x : DStream) : State :=
  { s with desc := { s.desc with streams := mset DStream.init s.desc.streams (dsKey site st) x } }
/-- Has everything that the stream has fetched issued and signalled? -/
def DStream.finished (x : DStream) : Bool := x.fetched.isNone && (x.running.isNone || x.issued) && x.signal.isEmpty

/-- The panel address of a core port's result word. -/
def portAddr (site core : Nat) : Nat := mkAddr 4 site (0x40 * core + 8)

/-- The operation of a master completes with a result and a status (0 OK, 1 ABANDONED, 2 DENIED). -/
def State.sealDone (s : State) (req result status : Nat) : State :=
  let s := { s with sls := { s.sls with waits := s.sls.waits.filter (fun (w : SealWait) => w.req != req) } }
  match masterCore (owMaster req) with
  | some c =>
    let k := portKey (owSite req) c
    let x := s.corePort k
    let r := BitVec.ofNat 64 (status % 256 + 2 ^ 32 * result)
    let s := s.setCorePort k { x with busy := false, blocked := false, result := r }
    if x.blocked then s.emit (.value (portAddr (owSite req) c) r.toNat) else s
  | none =>
    match masterStream (owMaster req) with
    | some st =>
      let x := s.dstream (owSite req) st
      if x.wait = 1 then s.setDstream (owSite req) st { x with wait := 2 } else s
    | none => s

/-- SEAL_OP payload (Table 09.6). -/
def sealPayload (word k epoch req result status : Nat) : Nat :=
  packNat 32 [word % 2 ^ 32, word / 2 ^ 32, epoch % 2 ^ 16 + (k % 256) * 2 ^ 16, req, result, status % 256]

/-- A word that carries a panel-made operation (7 WAKE, 8 GRANT, 9 ACK) for a virtual seal. -/
def answerWord (op vseal : Nat) : Nat := vseal * 2 ^ 12 + op * 2 ^ 28

/-- A packet with a SEAL_OP payload from one site to another (R255). -/
def State.sealPkt (s : State) (part src dst tag body : Nat) : State := s.sendPkt 5 part 3 src dst 0 0 4 0 tag 0x3FFF 0 [] [body]

/-- Send a panel-made answer to the issuer's site, or complete the operation there at once when the seal is local. The answer to an
importer returns through the owner's hub (R256). -/
def State.sealAnswer (s : State) (k req op vseal result status : Nat) : State :=
  let s := if op = 7 || op = 8 then s.bump rSEAL_CNT_WAKE else s
  let x := s.sealAt k
  let body := sealPayload (answerWord op vseal) k x.epoch req result status
  if owPart req ≠ x.part then
    let hub := partHub x.part
    let s := s.sealPkt x.part (s.sealSite k) hub 0 body
    if owSite req = hub then s else s.sealPkt (owPart req) hub (owSite req) 0 body
  else if owSite req = s.sealSite k then s.sealDone req result status
  else s.sealPkt (owPart req) (s.sealSite k) (owSite req) 0 body

/-- LAND_ACK of a SEAL_OP from `site` to its issuer's site `dst`: it carries SEQ and TAG of the oldest SEAL_OP that waits for one there,
else free values (log entry 27). -/
def State.sealLandAck (s : State) (part site dst : Nat) : State :=
  match s.fab.flight.find? (fun o => o.src == dst && o.dst == site && o.kind == 2 && !o.landed) with
  | some o =>
    let s := { s with fab := { s.fab with flight := s.fab.flight.map (fun x => if x == o then { x with landed := true } else x) } }
    (s.emit (.packet (mkPkt 3 part 3 0 site dst 0 0 4 0 o.seq o.tag (s.part part).stroke.toNat 0x3FFF) [])).bump (siteReg site rFAB_CNT_TX)
  | none =>
    let f := s.takeFree
    let x := f.1.toNat
    (f.2.emit (.packet (mkPkt 3 part 3 0 site dst 0 0 4 0 (bits x 0 12) (bits x 12 16) (s.part part).stroke.toNat 0x3FFF) [])).bump
      (siteReg site rFAB_CNT_TX)
/-- LAND_ACK of an operation at seal `k` (R255): only a packet needs one, and an importer's comes through the owner's hub. -/
def State.sealAck (s : State) (k req : Nat) : State :=
  let own := (s.sealAt k).part
  if owPart req ≠ own then
    let hub := partHub own
    let s := s.sealLandAck own (s.sealSite k) hub
    if owSite req = hub then s else s.sealLandAck (owPart req) hub (owSite req)
  else if owSite req = s.sealSite k then s
  else s.sealLandAck own (s.sealSite k) (owSite req)

/-! ### Waiters -/

/-- Put a master into the local list, and its site into the waiter set. -/
def State.sealJoin (s : State) (k req op value vseal : Nat) : State :=
  let x := s.sealAt k
  let w := s.waiterSite (owSite req)
  let s := s.setSeal k { x with wset := if x.wset.contains w then x.wset else x.wset ++ [w] }
  let rest := s.sls.waits.filter (fun (y : SealWait) => y.req != req)
  { s with sls := { s.sls with waits := rest ++ [⟨req, op, k, value, vseal, true, false, none⟩] } }

/-- Sites that no longer have a master waiting leave the waiter set. -/
def State.sealTrim (s : State) (k : Nat) : State :=
  let x := s.sealAt k
  let still (w : Nat) : Bool := s.sls.waits.any (fun (y : SealWait) =>
    y.sl == k && y.joined && !y.granted && y.trel.isNone && s.waiterSite (owSite y.req) == w)
  s.setSeal k { x with wset := x.wset.filter still }

/-- A lock is granted to the waiter of R262: by ticket, or the lowest owner word. -/
def State.sealGrant (s : State) (k : Nat) : State :=
  let x := s.sealAt k
  let ws := s.sls.waits.filter (fun (w : SealWait) => w.sl == k && w.op == 3 && w.joined && !w.granted)
  let pick : Option SealWait :=
    if x.tkt then ws.find? (fun (w : SealWait) => w.value == x.next)
    else ws.foldl (fun o w => match o with
      | none => some w
      | some b => if w.req < b.req then some w else some b) none
  match pick with
  | none => s
  | some w =>
    let ab := x.st = 3
    let s := s.setSeal k { x with st := 2, owner := w.req }
    let s := s.updWaits (List.map (fun (y : SealWait) => if y.req = w.req then { y with granted := true } else y))
    let s := s.sealTrim k
    let s := if ab then
        (s.sticky rSEAL_STAT 1).journal 0x0242 (owPart w.req) 0x3FFF (owSite w.req) (k + x.epoch * 2 ^ 16) x.owner else s
    s.sealAnswer k w.req 8 w.vseal 0 (b2n ab)

/-- A lock is abandoned (R263): as at a release, NEXT of a ticket-mode lock moves on. Its waiters are served after that, by
`State.sealGrant`. -/
def State.sealAbandon (s : State) (k cause : Nat) : State :=
  let x := s.sealAt k
  let s := s.setSeal k { x with st := 3, next := if x.tkt then (x.next + 1) % 65536 else x.next }
  ((s.bump rSEAL_CNT_ABANDON).sticky rSEAL_STAT 0).journal 0x0241 x.part 0x3FFF (s.sealSite k)
    (k + cause * 2 ^ 14 + x.epoch * 2 ^ 16) x.owner

/-- A WAKE for every site with a counter WAIT that now holds (R258). -/
def State.sealWakeAll (s : State) (k : Nat) : State :=
  let x := s.sealAt k
  let ok := s.sls.waits.filter (fun (w : SealWait) => w.sl == k && w.op == 2 && w.joined && decide (w.value ≤ x.count))
  let sites := (ok.map (fun (w : SealWait) => owSite w.req)).dedup
  let s := sites.foldl (fun s p =>
    match ok.find? (fun (w : SealWait) => owSite w.req == p) with
    | none => s
    | some w =>
      if p = s.sealSite k then
        let s := s.bump rSEAL_CNT_WAKE
        (ok.filter (fun (y : SealWait) => owSite y.req == p)).foldl (fun s y => s.sealDone y.req x.count 0) s
      else
        let s := s.sealAnswer k w.req 7 w.vseal x.count 0
        s.updWaits (List.map (fun (y : SealWait) =>
          if y.sl == k && y.op == 2 && owSite y.req == p && decide (y.value ≤ x.count) then { y with joined := false } else y))) s
  s.sealTrim k

/-- The barrier rule (R260): a release carries the surplus, counts the generation and starts the wave of R261. -/
def State.barrierRule (s : State) (k : Nat) : State :=
  let x := s.sealAt k
  if x.kind = 2 ∧ x.st = 4 ∧ x.target ≤ x.count then
    let g := min 255 (x.gen + 1)
    let s := (s.setSeal k { x with count := x.count - x.target, gen := g, st := 1, trel := s.time + 40 }).bump rSEAL_CNT_REL
    let s := s.updWaits (List.map (fun (w : SealWait) =>
      if w.sl == k && w.op == 2 && decide (w.value ≤ g) && w.trel.isNone then { w with trel := some (s.time + 40) } else w))
    s.sealTrim k
  else s

/-- Wave time of a master after T_rel (R261). -/
def waveTime (trel req : Nat) : Nat :=
  trel + 2 * hops31 (owSite req) + (if owMaster req < 4 then 16 * owMaster req else 0)

/-! ### An operation reaches its seal (R250, R255, R260, R262, R264) -/

/-- The operation is performed (R267). -/
def State.sealCount (s : State) : State := s.bump rSEAL_CNT_OPS

/-- Is the operation's epoch stale? It is then discarded but acknowledged (R255). -/
def State.sealStale (s : State) (k epoch req : Nat) : State :=
  let x := s.sealAt k
  (((s.bump rSEAL_CNT_STALE).sticky rSEAL_STAT 2).raiseOnce k 0x024A (owPart req) 0x3FFF (s.sealSite k) (k + epoch * 2 ^ 14)
    x.epoch).sealAck k req

/-- The operation is not legal for the seal. -/
def State.sealInvalid (s : State) (k word req : Nat) : State :=
  (s.raise 0x3245 (owPart req) 0x3FFF (s.sealSite k) (opDetail word k) req).sealAck k req

def State.applySignal (s : State) (k word req : Nat) : State :=
  let x := s.sealAt k
  let n := x.count + opValue word
  let s := s.sealCount.setSeal k { x with count := min n 0xFFFFFFFF }
  let s := if n > 0xFFFFFFFF then s.raise 0x3247 (owPart req) 0x3FFF (s.sealSite k) (opDetail word k) req else s
  let s := if x.kind = 2 then s.barrierRule k else s.sealWakeAll k
  s.sealAck k req

/-- A WAIT on the generation last released, whose wave has not reached its master yet, completes at its wave time (R261, log
entry 148). -/
def State.applyWait (s : State) (k word req : Nat) : State :=
  let x := s.sealAt k
  let s := s.sealCount
  let now := if x.kind = 2 then x.gen else x.count
  if x.kind = 2 ∧ 0 < x.gen ∧ opValue word = x.gen ∧ s.time < waveTime x.trel req then
    ((s.sealJoin k req 2 (opValue word) (opVseal word)).updWaits (List.map (fun (w : SealWait) =>
      if w.req == req then { w with trel := some x.trel } else w))).sealTrim k
  else if opValue word ≤ now then s.sealAnswer k req 9 (opVseal word) now 0
  else s.sealJoin k req 2 (opValue word) (opVseal word)

def State.applyAcquire (s : State) (k word req : Nat) : State :=
  let x := s.sealAt k
  if x.st = 2 ∧ x.owner = req then s.raise 0x3244 (owPart req) 0x3FFF (s.sealSite k) (opDetail word k) req
  else
    let s := s.sealCount.sealJoin k req 3 (opValue word) (opVseal word)
    if x.st = 1 ∨ x.st = 3 then s.sealGrant k else s

def State.applyRelease (s : State) (k word req : Nat) : State :=
  let x := s.sealAt k
  if x.st = 2 ∧ x.owner = req then
    let x' := { x with st := 1, owner := 0, next := if x.tkt then (x.next + 1) % 65536 else x.next }
    ((s.sealCount.setSeal k x').sealGrant k).sealAck k req
  else (s.raise 0x3243 (owPart req) 0x3FFF (s.sealSite k) (opDetail word k) req).sealAck k req

def State.applyArm (s : State) (k word req : Nat) : State :=
  let x := s.sealAt k
  if x.st = 4 then (s.raise 0x3248 (owPart req) 0x3FFF (s.sealSite k) (opDetail word k) x.target).sealAck k req
  else ((s.sealCount.setSeal k { x with st := 4, target := opValue word }).barrierRule k).sealAck k req

def State.applyRead (s : State) (k word req : Nat) : State :=
  let x := s.sealAt k
  s.sealCount.sealAnswer k req 9 (opVseal word) (if x.kind = 2 then x.gen else x.count) 0

/-- The common part of every operation at a seal: stale and illegal ones are not performed (R250, R255). -/
def State.sealApply (s : State) (k epoch word req op : Nat) (f : State → State) : State :=
  let x := s.sealAt k
  if x.epoch ≠ epoch then s.sealStale k epoch req
  else if x.st = 0 || opOp word != op || !(opLegal x.kind x.tkt word) then s.sealInvalid k word req
  else f s

/-- Any operation word at its seal. -/
def State.sealOp (s : State) (k epoch word req : Nat) : State :=
  let ap := s.sealApply k epoch word req (opOp word)
  match opOp word with
  | 1 => ap (fun t => t.applySignal k word req)
  | 2 => ap (fun t => t.applyWait k word req)
  | 3 => ap (fun t => t.applyAcquire k word req)
  | 4 => ap (fun t => t.applyRelease k word req)
  | 5 => ap (fun t => t.applyArm k word req)
  | 6 => ap (fun t => t.applyRead k word req)
  | _ => ap (fun t => t)

/-! ### Several operations in one cycle (R251) -/

/-- Order in which a seal takes the operations of one cycle: class, then issuing site and master type of a SIGNAL, or the owner word. The
manual gives READ no place; it is judged with ACQUIRE and WAIT (DEDUCED, log entry 124). -/
def arrKey (a : SealArr) : Nat :=
  let op := opOp a.word.toNat
  let r := a.req.toNat
  (if op = 5 then 0 else if op = 1 then 1 else if op = 4 then 2 else 3) * 2 ^ 32 + (if op = 1 then owSite r * 256 + owMaster r else r)
def insertArr (a : SealArr) : List SealArr → List SealArr
  | [] => [a]
  | b :: t => if arrKey a < arrKey b then a :: b :: t else b :: insertArr a t
/-- The operations that reach a seal in one cycle, in the order of R251. -/
def State.sealCycle (s : State) (k : Nat) (arr : List SealArr) : State :=
  (arr.foldl (fun l a => insertArr a l) []).foldl (fun (s : State) a => s.sealOp k a.epoch a.word.toNat a.req.toNat) s

/-! ### Issue (R252-R256) -/

/-- Send a SEAL_OP. One that a LAND_ACK answers counts as outstanding (R229, R255). -/
def State.sendSeal (s : State) (h : HeldSeal) : State :=
  let seq := mget 0 s.fab.seqs (seqKey h.src h.dst 3)
  let s := s.sendPkt 5 h.part 3 h.src h.dst 0 0 4 0 h.tag 0x3FFF h.ds [] [h.body]
  if h.posted then
    let o : OutPkt := ⟨h.src, h.dst, seq, h.ds, h.part, h.tag, 0x3FFF, 2, mkAddr 4 h.dst 0, [], s.descOrd h.src h.ds, 4, true, s.time,
      false, false⟩
    ({ s with fab := { s.fab with flight := s.fab.flight ++ [o] } }).setOutst h.src h.ds (s.outst h.src h.ds + 1)
  else s
/-- Is a PWRITE that a SEAL_OP waits for still outstanding? -/
def State.holds (s : State) (h : HeldSeal) : Bool :=
  s.fab.flight.any (fun o => o.src == h.src && o.dstream == h.ds && o.kind == 0 && h.need.contains (o.dst, o.seq))
/-- Rule 5 of Table 08.6: a SEAL_OP leaves when the PWRITEs that its descriptor stream sent before have been acknowledged or have
failed. -/
def State.queueSeal (s : State) (part src dst ds tag : Nat) (posted : Bool) (body : Nat) : State :=
  let need := (s.fab.flight.filter (fun o => o.src == src && o.dstream == ds && o.kind == 0)).map (fun o => (o.dst, o.seq))
  let h : HeldSeal := ⟨src, ds, need, part, tag, dst, posted, body⟩
  if need.isEmpty then s.sendSeal h else { s with sls := { s.sls with held := s.sls.held ++ [h] } }
/-- SEAL_OPs whose PWRITEs have all been answered leave. -/
def State.freeHeld (s : State) : State :=
  let go := s.sls.held.filter (fun h => !(s.holds h))
  go.foldl State.sendSeal { s with sls := { s.sls with held := s.sls.held.filter s.holds } }

/-- SEAL_IMPORT_FORWARD (R256): the owner's hub checks the grant and forwards, or answers DENIED. The fault names the hub as its site
when no seal is known. -/
def State.importForward (s : State) (w rq : Nat) : State :=
  let imp := owPart rq
  let e := s.xlat imp (opVseal w)
  let own := bits e 16 4
  let ov := bits e 0 12
  let oe := s.xlat own ov
  let hub := partHub own
  let k := xlSeal oe
  let why : Option Nat :=
    if !(xlV e) || !(xlImp e) || !(xlV oe) || xlImp oe then some 0
    else if !(bit oe (48 + imp)) then some 1
    else if opOp w == 5 then some 2
    else none
  match why with
  | some r =>
    let at' := if r = 0 then hub else s.sealSite k
    let s := (s.sticky rSEAL_STAT 3).raise 0x3246 imp 0x3FFF at' (opVseal w + opOp w * 2 ^ 12 + ov * 2 ^ 16) (own + r * 2 ^ 4)
    if owSite rq = hub then s.sealDone rq 0 2 else s.sealPkt imp hub (owSite rq) 0 (sealPayload (answerWord 9 (opVseal w)) 0 0 rq 0 2)
  | none => (s.bump rSEAL_CNT_FWD).sealPkt own hub (s.sealSite k) 0 (sealPayload w k (bits oe 32 16) rq 0 0)

/-- Is the word of a NOP illegal: its VALUE or a reserved field is not 0 (R249, R250)? -/
def nopBad (w : Nat) : Bool := !(opLegal 0 false w)
/-- A master issues an operation word. `ds` is its descriptor stream for the outstanding counts (6 for a core) and `tag` its
descriptor's tag. -/
def State.sealIssue (s : State) (part site master word ds tag : Nat) : State :=
  let req := ownerWord part site master
  let e := s.xlat part (opVseal word)
  let k := xlSeal e
  let s := match masterCore master with
    | some c => s.setCorePort (portKey site c) { s.corePort (portKey site c) with busy := true }
    | none => s
  if (if opOp word = 0 then nopBad word else !(xlV e) || decide (6 < opOp word)) then
    (s.raise 0x3245 part 0x3FFF (if xlV e && !(xlImp e) then s.sealSite k else site) (opDetail word k) req).sealDone req 0 2
  else if opOp word = 0 then s.sealDone req 0 0
  else
    let posted := opOp word == 1 || opOp word == 4 || opOp word == 5
    let wait (s : State) (k : Nat) : State :=
      if posted then s else s.updWaits (fun ws => ws.filter (fun (w : SealWait) => w.req != req) ++
        [⟨req, opOp word, k, opValue word, opVseal word, false, false, none⟩])
    let s :=
      if xlImp e then
        let hub := partHub (bits e 16 4)
        let s := wait s 16384
        if hub = site then s.importForward word req
        else s.queueSeal part site hub ds tag posted (sealPayload word 0 (bits e 32 16) req 0 0)
      else if site = s.sealSite k then s.sealOp k (bits e 32 16) word req
      else (wait s k).queueSeal part site (s.sealSite k) ds tag posted (sealPayload word k (bits e 32 16) req 0 0)
    if posted then s.sealDone req 0 0 else s

/-- Master type of a core: 0x18-0x1B at a site, 0x20-0x27 at a hub (Table 08.10). -/
def coreMaster (site core : Nat) : Nat := if isHub site then 0x20 + core % 8 else 0x18 + core % 4
/-- Stores that stalled at a core port are issued once its operation has completed (R254). -/
def State.portsGo : Nat → State → State
  | 0, s => s
  | n + 1, s =>
    match s.sls.ports.find? (fun e => !e.2.busy && e.2.stalled.isSome) with
    | none => s
    | some e =>
      let w := e.2.stalled.getD (0, 0)
      State.portsGo n ((s.setCorePort e.1 { e.2 with stalled := none }).sealIssue w.1 (e.1 / 8) (coreMaster (e.1 / 8) (e.1 % 8)) w.2 6 0)
/-- What follows an operation that has completed: stores that stalled are issued. -/
def State.sealNext (s : State) : State := State.portsGo s.sls.ports.length s

/-! ### Stroke start, end of a lock, partition reset (R259, R262, R265) -/

/-- Seals bound by a partition, by number. -/
def State.partSeals (s : State) (n : Nat) : List Nat :=
  (s.sls.seals.filter (fun e => e.2.st != 0 && e.2.part == n)).map (·.1)

/-- The partition's seals at the start of its stroke (R259). -/
def State.sealStroke (s : State) (n : Nat) : State :=
  (s.partSeals n).foldl (fun s k =>
    let x := s.sealAt k
    let x := if x.kind = 0 && x.clr then { x with count := 0 } else x
    let x := if x.kind = 2 then { x with count := 0, gen := 0, st := 1, trel := 0 } else x
    let x := if x.kind = 1 && x.tkt then { x with next := 0 } else x
    s.setSeal k x) s

/-- Ticket-mode locks still HELD at the last end marker (R262). -/
def State.sealHeldAtEnd (s : State) (n : Nat) : State :=
  (s.partSeals n).foldl (fun s k =>
    let x := s.sealAt k
    if x.kind = 1 && x.tkt && x.st == 2 then
      ((s.raise 0x3249 n 0x3FFF (s.sealSite k) (k + x.next * 2 ^ 14) x.owner).sealAbandon k 3).sealGrant k
    else s) s

/-- Locks held by a master that satisfies `f`. -/
def State.sealsHeld (s : State) (f : Nat → Bool) : List Nat := (s.sls.seals.filter (fun e => e.2.st == 2 && f e.2.owner)).map (·.1)
/-- Locks held by a master that satisfies `f` are abandoned, and their waiters served (R263). -/
def State.sealAbandonAll (s : State) (f : Nat → Bool) (cause : Nat) : State :=
  let ks := s.sealsHeld f
  ks.foldl State.sealGrant (ks.foldl (fun s k => s.sealAbandon k cause) s)
/-- Masters that satisfy `f` no longer wait on any seal. -/
def State.dropWaits (s : State) (f : Nat → Bool) : State :=
  let gone := (s.sls.waits.filter (fun (w : SealWait) => f w.req)).map (·.sl)
  gone.foldl State.sealTrim (s.updWaits (List.filter (fun (w : SealWait) => !(f w.req))))

/-- What a partition reset does to seals, in the order of R265; the waiters of the locks abandoned are served after it. -/
def State.sealReset (s : State) (n : Nat) : State :=
  let mine (w : Nat) : Bool := owPart w == n
  let held := s.sealsHeld mine
  let s := held.foldl (fun s k => s.sealAbandon k 2) s
  let s := s.dropWaits mine
  let s := { s with sls := { s.sls with held := s.sls.held.filter (fun h => h.part != n) } }
  let s := (s.partSeals n).foldl (fun s k =>
    let x := s.sealAt k
    s.setSeal k { x with count := 0, gen := 0, next := 0, target := 0, trel := 0, epoch := (x.epoch + 1) % 65536,
                         st := if x.st = 3 then 3 else 1 }) s
  let es := (s.sls.xlat.filter (fun e => e.1 / 4096 == n && xlV e.2.toNat && !(xlImp e.2.toNat))).map (·.1)
  let s := es.foldl (fun s i =>
    let e := (mget 0 s.sls.xlat i).toNat
    s.setXlat i (setBits e 32 16 (s.sealAt (xlSeal e)).epoch)) s
  held.foldl State.sealGrant s

/-! ### Binding (R247, R248) -/

/-- Valid local entries of a partition. -/
def State.sealUsed (s : State) (n : Nat) : Nat :=
  (s.sls.xlat.filter (fun e => e.1 / 4096 == n && xlV e.2.toNat && !(xlImp e.2.toNat))).length

/-- A non-zero reserved field of a translation entry becomes 0 and is reported at its row of Table 09.2. -/
def xlClear (raw row lo w : Nat) : List ClampEntry := if bits raw lo w = 0 then [] else [⟨structId 2 row, bits raw lo w, 0, 4⟩]
/-- The entries that a reload leaves: a write of the table from entry 0 begins it afresh (log entry 149). -/
def State.xlatFresh (s : State) (n v : Nat) : State :=
  if v = 0 then { s with sls := { s.sls with xlat := s.sls.xlat.filter (fun e => e.1 / 4096 != n) } } else s
/-- One translation entry written in load mode: checked and clamped in the order of R247, then bound. Reserved fields are cleared in any
case; of the rules that clear V the first that fails decides (log entry 149). -/
def State.bindEntry (s : State) (n v : Nat) (raw : Nat) : State × List ClampEntry :=
  let s := s.xlatFresh n v
  let imp := bit raw 30
  let kind0 := bits raw 28 2
  let l0 :=
    if imp then
      xlClear raw 0 48 16 ++ xlClear raw 4 28 2 ++ xlClear raw 5 27 1 ++ xlClear raw 6 26 1 ++ xlClear raw 7 20 6 ++ xlClear raw 9 15 1 ++
        xlClear raw 11 12 3
    else
      (if kind0 = 3 then [⟨structId 2 4, 3, 0, 5⟩] else []) ++ xlClear raw 7 20 6 ++ xlClear raw 8 16 4 ++ xlClear raw 9 15 1
  let kind := if imp || kind0 = 3 then 0 else kind0
  let base := if imp then bits raw 0 12 + bits raw 16 4 * 2 ^ 16 else bits raw 0 15 + bits raw 48 16 * 2 ^ 48
  let k := bits raw 8 7 * 256 + bits raw 0 8
  let lower := s.sls.xlat.filter (fun e => e.1 / 4096 == n && decide (e.1 % 4096 < v) && xlV e.2.toNat && !(xlImp e.2.toNat))
  let bad : Bool :=
    if imp then bits raw 16 4 == n
    else !(bit (s.part n).g.sites (bits raw 8 7)) || lower.any (fun e => xlSeal e.2.toNat == k) ||
      decide ((s.part n).g.quota ≤ lower.length)
  let vv := bit raw 31 && !bad
  let clr := !imp && bit raw 27 && kind == 0
  let tkt := !imp && bit raw 26 && kind == 1
  let l1 := (if bit raw 31 && bad then [⟨structId 2 2, 1, 0, 6⟩] else []) ++
    (if !imp && bit raw 27 && !clr then [⟨structId 2 5, 1, 0, 6⟩] else []) ++
    (if !imp && bit raw 26 && !tkt then [⟨structId 2 6, 1, 0, 6⟩] else [])
  let x := s.sealAt k
  let ep := if vv && !imp then (x.epoch + 1) % 65536 else 0
  let e := base + b2n tkt * 2 ^ 26 + b2n clr * 2 ^ 27 + kind * 2 ^ 28 + b2n imp * 2 ^ 30 + b2n vv * 2 ^ 31 + ep * 2 ^ 32
  let s := s.setXlat (n * 4096 + v) e
  let s := if vv && !imp then
      s.setSeal k { Seal.init with st := 1, epoch := ep, kind := kind, clr := clr, tkt := tkt, part := n } else s
  (s, l0 ++ l1)

/-- Seals named by no valid entry of the partition become UNBOUND; only EPOCH stays (R247). -/
def State.unbindRest (s : State) (n : Nat) : State :=
  (s.partSeals n).foldl (fun s k =>
    if s.sls.xlat.any (fun e => e.1 / 4096 == n && xlV e.2.toNat && !(xlImp e.2.toNat) && xlSeal e.2.toNat == k) then s
    else s.setSeal k { Seal.init with epoch := (s.sealAt k).epoch }) s

/-! ### The commands -/

/-- SEAL_NOP (R250): completes on issue; a word that is not legal is not performed. -/
def execSealNop (word : BitVec 64) (req : BitVec 32) (s : State) : Res :=
  let w := word.toNat
  let r := req.toNat
  let e := s.xlat (owPart r) (opVseal w)
  .next (
    if nopBad w then
      ((s.raise 0x3245 (owPart r) 0x3FFF (if xlV e && !(xlImp e) then s.sealSite (xlSeal e) else owSite r) (opDetail w (xlSeal e)) r).sealDone
        r 0 2).sealNext
    else (s.sealDone r 0 0).sealNext)

/-- The common part of the six commands: operation `op` reaches seal `sl` at instant `t`, with others of the same cycle (R251); a word
of another operation is invalid here. -/
def State.sealArrive (s : State) (op sl epoch : Nat) (word : BitVec 64) (req : BitVec 32) (same : List SealArr) (t : Nat) : State :=
  let s := s.at t
  (if opOp word.toNat = op then s.sealCycle sl (⟨epoch, word, req⟩ :: same) else s.sealInvalid sl word.toNat req.toNat).sealNext

/-- SEAL_SIGNAL (R250). -/
def execSealSignal (sl epoch : Nat) (word : BitVec 64) (req : BitVec 32) (same : List SealArr) (t : Nat) (s : State) : Res :=
  .next (s.sealArrive 1 sl epoch word req same t)
/-- SEAL_WAIT (R250, R258, R261). -/
def execSealWait (sl epoch : Nat) (word : BitVec 64) (req : BitVec 32) (same : List SealArr) (t : Nat) (s : State) : Res :=
  .next (s.sealArrive 2 sl epoch word req same t)
/-- SEAL_ACQUIRE (R262, R264). -/
def execSealAcquire (sl epoch : Nat) (word : BitVec 64) (req : BitVec 32) (same : List SealArr) (t : Nat) (s : State) : Res :=
  .next (s.sealArrive 3 sl epoch word req same t)
/-- SEAL_RELEASE (R250, R262). -/
def execSealRelease (sl epoch : Nat) (word : BitVec 64) (req : BitVec 32) (same : List SealArr) (t : Nat) (s : State) : Res :=
  .next (s.sealArrive 4 sl epoch word req same t)
/-- ARM_BARRIER (R250, R260). -/
def execArmBarrier (sl epoch : Nat) (word : BitVec 64) (req : BitVec 32) (same : List SealArr) (t : Nat) (s : State) : Res :=
  .next (s.sealArrive 5 sl epoch word req same t)
/-- SEAL_READ (R250). -/
def execSealRead (sl epoch : Nat) (word : BitVec 64) (req : BitVec 32) (same : List SealArr) (t : Nat) (s : State) : Res :=
  .next (s.sealArrive 6 sl epoch word req same t)

/-- A WAKE arrives: every local WAIT on the seal at or below COUNT completes (R258). -/
def State.wakeSite (s : State) (site sl count : Nat) : State :=
  (s.sls.waits.filter (fun (w : SealWait) => w.sl == sl && w.op == 2 && owSite w.req == site && decide (w.value ≤ count))).foldl
    (fun s w => s.sealDone w.req count 0) s
/-- A GRANT arrives (R262). -/
def State.grantSite (s : State) (req status : Nat) : State :=
  if s.sls.waits.any (fun (w : SealWait) => w.req == req && w.op == 3) then s.sealDone req 0 status else s
/-- An ACK arrives (R255). -/
def State.ackSite (s : State) (req result status : Nat) : State :=
  if s.sls.waits.any (fun (w : SealWait) => w.req == req) then s.sealDone req result status else s
/-- A SEAL_OP packet with payload `body` arrives at a site or hub (R255, R256). -/
def State.sealLand (s : State) (site body : Nat) : State :=
  let word := bits body 0 64
  let req := wf body 3 0 32
  (match opOp word with
   | 7 =>
     match s.sls.waits.find? (fun (w : SealWait) => w.req == req) with
     | some w => s.wakeSite site w.sl (wf body 4 0 32)
     | none => s
   | 8 => s.grantSite req (wf body 5 0 8)
   | 9 => s.ackSite req (wf body 4 0 32) (wf body 5 0 8)
   | _ =>
     if isHub site then s.importForward word req
     else s.sealOp ((s.lsite site).getD 0 * 256 + wf body 2 16 8) (wf body 2 0 16) word req).sealNext
/-- Are reserved fields of a SEAL_OP payload set (Table 09.6)? -/
def sealRsv (body : Nat) : Bool := wf body 2 24 8 != 0 || wf body 5 8 24 != 0 || bits body 192 320 != 0

/-- SEAL_WAKE. -/
def execSealWake (site sl count : Nat) (s : State) : Res := .next (s.wakeSite site sl count).sealNext
/-- SEAL_GRANT. -/
def execSealGrant (req : BitVec 32) (status : Nat) (s : State) : Res := .next (s.grantSite req.toNat status).sealNext
/-- SEAL_ACK. -/
def execSealAck (req : BitVec 32) (result : BitVec 32) (status : Nat) (s : State) : Res :=
  .next (s.ackSite req.toNat result.toNat status).sealNext

/-- BARRIER_WAVE_TIME (R261). -/
def execBarrierWaveTime (req : BitVec 32) (t : Nat) (s : State) : Res :=
  let s := s.at t
  .next (match s.sls.waits.find? (fun (w : SealWait) => w.req == req.toNat) with
  | some w =>
    match w.trel with
    | some tr => if waveTime tr w.req ≤ t then (s.sealDone w.req (s.sealAt w.sl).gen 0).sealNext else s
    | none => s
  | none => s)

/-- SEAL_IMPORT_FORWARD (R256). -/
def execSealImportForward (word : BitVec 64) (req : BitVec 32) (s : State) : Res :=
  .next (s.importForward word.toNat req.toNat).sealNext

/-- SEAL_RESULT_LOAD (R254): the result word, or the load blocks until the operation completes. -/
def execSealResultLoad (site core : Nat) (s : State) : Res :=
  let k := portKey site core
  let x := s.corePort k
  .next (if x.busy then s.setCorePort k { x with blocked := true } else s.emit (.value (portAddr site core) x.result.toNat))

/-- SEAL_INSP_READ (R267): DATA0 is returned, DATA1-4 are latched. -/
def execSealInspRead (s : State) : Res :=
  let k := s.fld rSEAL_INSP_SEL 0 14
  let x := s.sealAt k
  let d1 := (if x.st = 0 then 0 else x.part) + x.st * 2 ^ 4 + x.gen * 2 ^ 8 + x.epoch * 2 ^ 16
  .next (if !s.ready then s.emit (.value rSEAL_INSP_DATA 0) else { s with sls := { s.sls with insp := [d1, x.owner, x.target, x.next + x.wset.length * 2 ^ 16] } }.emit
    (.value rSEAL_INSP_DATA x.count))

end Sys2Proof.Machine
end

