-- ==== Sys2Proof/Machine/Stack.lean ====
section
/-! DEFINITION. The HBM stacks: KV layouts (R191, R198), frames and the reserve (R187-R189, R194, R195), page tables, the change
log and compaction (R193-R197), log bytes (R192) and the parking buffer (R206). -/

namespace Sys2Proof.Machine

/-! ### KV layouts (R191, R198) -/

/-- Words 0-3 of a layout entry after reset. -/
def kvLayoutReset : BitVec 128 := 0x3F8000003F8000000000000000000000#128
def State.kvLayout (s : State) (p l : Nat) : Nat := (mget kvLayoutReset s.kv.layout (p * 16 + l)).toNat
def lyLoaded (x : Nat) : Bool := bit x 0
def lyHeads (x : Nat) : Nat := bits x 24 8
def lyGroups (x : Nat) : Nat := bits x 20 4 + 1
def lyDk (x : Nat) : Nat := wf x 1 22 10
def lyDv (x : Nat) : Nat := wf x 1 12 10
def lyDr (x : Nat) : Nat := wf x 1 2 10
def lySm (x : Nat) : BitVec 32 := BitVec.ofNat 32 (wf x 2 0 32)
def lyQstep (x : Nat) : BitVec 32 := BitVec.ofNat 32 (wf x 3 0 32)
def lySec (x : Nat) : Nat := lyDk x + lyDv x + lyDr x + 16
/-- Record size RB (R191). -/
def lyRb (x : Nat) : Nat := lyGroups x * lySec x
/-- RB of layout entry 0 at a site; 0 when it has not been loaded (R290). -/
def State.rb0 (s : State) (p : Nat) : Nat := if lyLoaded (s.kvLayout p 0) then lyRb (s.kvLayout p 0) else 0

/-! ### Frames (R187, R189, R194, R195) -/

def frameKey (p f : Nat) : Nat := p * 589824 + f
def State.frame (s : State) (p f : Nat) : FrameEntry := mget FrameEntry.init s.kv.frames (frameKey p f)
def State.setFrame (s : State) (p f : Nat) (x : FrameEntry) : State :=
  { s with kv := { s.kv with frames := mset FrameEntry.init s.kv.frames (frameKey p f) x } }
/-- The lowest key at or above `f` whose frame is FREE. -/
def lowestFree : SMap FrameEntry → Nat → Nat
  | [], f => f
  | (k, e) :: t, f => if k < f then lowestFree t f else if k = f ∧ e.st ≠ 0 then lowestFree t (f + 1) else f
/-- Frames of a site in state `st`. -/
def State.framesIn (s : State) (p st : Nat) : Nat :=
  (s.kv.frames.filter (fun e => decide (frameKey p 0 ≤ e.1) && decide (e.1 < frameKey (p + 1) 0) && e.2.st == st)).length
/-- Reserve frames of the partition that owns the site. -/
def State.rsvOf (s : State) (p : Nat) : Nat := let n := s.owner p; if n < 16 then (s.part n).g.rsvFr else 589824
/-- FREE data frames. -/
def State.freeFrames (s : State) (p : Nat) : Nat :=
  let r := s.rsvOf p
  589824 - r - (s.kv.frames.filter (fun e => decide (frameKey p r ≤ e.1) && decide (e.1 < frameKey (p + 1) 0) && e.2.st != 0)).length
/-- The lowest FREE data frame, if there is one. -/
def State.lowFrame (s : State) (p : Nat) : Option Nat :=
  let k := lowestFree s.kv.frames (frameKey p (s.rsvOf p))
  if k < frameKey (p + 1) 0 then some (k - frameKey p 0) else none
/-- Take the lowest FREE data frame into state `st` (1 USED, 2 HELD). -/
def State.takeFrame (s : State) (p st : Nat) : Option (Nat × State) :=
  (s.lowFrame p).map (fun f => (f, s.setFrame p f { s.frame p f with st := st, refcnt := if st = 1 then 1 else 0 }))
/-- The lowest HELD frame. -/
def State.heldFrame (s : State) (p : Nat) : Option Nat :=
  ((s.kv.frames.find? (fun e => decide (frameKey p 0 ≤ e.1) && decide (e.1 < frameKey (p + 1) 0) && e.2.st == 2))).map
    (fun e => e.1 - frameKey p 0)
/-- HELD frames that the stroke did not use return to FREE (R195). -/
def State.releaseHeld (s : State) (p : Nat) : State :=
  { s with kv := { s.kv with frames := s.kv.frames.filterMap (fun e =>
      if frameKey p 0 ≤ e.1 ∧ e.1 < frameKey (p + 1) 0 ∧ e.2.st = 2 then
        (if { e.2 with st := 0 } = FrameEntry.init then none else some (e.1, { e.2 with st := 0 }))
      else some e) } }
/-- A log gives a frame up: the count falls, and at 0 the frame becomes FREE, or RETIRED when marked (R187, R205). -/
def State.dropFrame (s : State) (p f : Nat) : State :=
  let x := s.frame p f
  s.setFrame p f (if 1 < x.refcnt then { x with refcnt := x.refcnt - 1 }
    else if x.retire then { x with st := 3, refcnt := 0 } else { x with st := 0, refcnt := 0 })

/-! ### Directories and leaves (R193-R196) -/

def State.svc (s : State) (p : Nat) : PageSvc := mget PageSvc.init s.kv.svc p
def State.setSvc (s : State) (p : Nat) (x : PageSvc) : State :=
  { s with kv := { s.kv with svc := mset PageSvc.init s.kv.svc p x } }
/-- Layers each site of a partition holds per stream (R189). -/
def State.lps (s : State) (n : Nat) : Nat := ceilDiv (s.part n).g.nlayer (max 1 (s.nsite n))
/-- Directory index of a stream and layer (R193). -/
def State.dirIdx (s : State) (n sid layer : Nat) : Nat := sid * s.lps n + layer / max 1 (s.nsite n)
def dirKey (p gen i : Nat) : Nat := (p * 2 + gen) * 2 ^ 26 + i
def leafKey (p gen chunk i : Nat) : Nat := (p * 2 + gen) * 2 ^ 24 + chunk * 64 + i
def State.dirAt (s : State) (p i : Nat) : DirEntry := mget DirEntry.init s.kv.dir (dirKey p (s.svc p).gen i)
def State.setDirRaw (s : State) (p i : Nat) (e : DirEntry) : State :=
  { s with kv := { s.kv with dir := mset DirEntry.init s.kv.dir (dirKey p (s.svc p).gen i) e } }
/-- Page-table entry `i` of a log. -/
def State.leafAt (s : State) (p : Nat) (e : DirEntry) (i : Nat) : PageEntry :=
  mget PageEntry.init s.kv.leaf (leafKey p (s.svc p).gen e.leaf i)
def State.setLeaf (s : State) (p : Nat) (e : DirEntry) (i : Nat) (x : PageEntry) : State :=
  { s with kv := { s.kv with leaf := mset PageEntry.init s.kv.leaf (leafKey p (s.svc p).gen e.leaf i) x } }

/-- Heap top and holes of a generation, and of the current one. -/
def PageSvc.topOf (v : PageSvc) (g : Nat) : Nat := if g = 0 then v.top0 else v.top1
def PageSvc.holesOf (v : PageSvc) (g : Nat) : Nat := if g = 0 then v.holes0 else v.holes1
def PageSvc.setHeapOf (v : PageSvc) (g top holes : Nat) : PageSvc :=
  if g = 0 then { v with top0 := top, holes0 := holes } else { v with top1 := top, holes1 := holes }
def PageSvc.top (v : PageSvc) : Nat := v.topOf v.gen
def PageSvc.holes (v : PageSvc) : Nat := v.holesOf v.gen
def PageSvc.setHeap (v : PageSvc) (top holes : Nat) : PageSvc := v.setHeapOf v.gen top holes
/-- Compaction is over, whatever came of it. -/
def PageSvc.stop (v : PageSvc) : PageSvc := { v with compacting := false, flipReady := false, log := [] }

/-! ### Compaction (R196, R197) -/

/-- The idle generation. -/
def PageSvc.idle (v : PageSvc) : Nat := 1 - v.gen
/-- Entries of a leaf of `c` chunks from chunk `b` of generation `g` are dropped. -/
def dropLeaf (m : SMap PageEntry) (p g b c : Nat) : SMap PageEntry :=
  m.filter (fun x => !(decide (leafKey p g b 0 ≤ x.1) && decide (x.1 < leafKey p g (b + c) 0)))
/-- Directory entry `i` of the idle generation, its leaf at chunk `b`, holds what the current generation holds. -/
def State.copyEntry (s : State) (p i : Nat) (e : DirEntry) (b : Nat) : State :=
  let g := (s.svc p).idle
  let cur := s.dirAt p i
  let old := mget DirEntry.init s.kv.dir (dirKey p g i)
  let m := if old.v then dropLeaf s.kv.leaf p g old.leaf (old.capc + 1) else s.kv.leaf
  let m := (List.range (if cur.v then cur.npg else 0)).foldl (fun (m : SMap PageEntry) k =>
    mset PageEntry.init m (leafKey p g b k) (s.leafAt p cur k)) m
  { s with kv := { s.kv with dir := mset DirEntry.init s.kv.dir (dirKey p g i) { e with leaf := b }, leaf := m } }
/-- The page service copies every valid entry with its leaf into the idle generation: ascending index, leaves packed from chunk 0. -/
def State.copyGen (s : State) (p : Nat) : State :=
  let v := s.svc p
  let mine := s.kv.dir.filter (fun e => e.1 / 2 ^ 26 == p * 2 + v.gen && e.2.v)
  let s := { s with kv := { s.kv with
    dir := s.kv.dir.filter (fun e => e.1 / 2 ^ 26 != p * 2 + v.idle), leaf := s.kv.leaf.filter (fun e => e.1 / 2 ^ 24 != p * 2 + v.idle) } }
  let r := mine.foldl (fun (y : State × Nat) e => (y.1.copyEntry p (e.1 % 2 ^ 26) e.2 y.2, y.2 + e.2.capc + 1)) (s, 0)
  r.1.setSvc p (v.setHeapOf v.idle r.2 0)
/-- A change is replayed into the idle generation: a leaf laid anew goes to the top of its heap, and the chunks it leaves become a
hole. -/
def State.replayChange (s : State) (p : Nat) (c : KvChange) : State :=
  let v := s.svc p
  let g := v.idle
  let old := mget DirEntry.init s.kv.dir (dirKey p g c.idx)
  let freed := if old.v then old.capc + 1 else 0
  if !c.ent.v then
    let s := { s with kv := { s.kv with
      dir := mset DirEntry.init s.kv.dir (dirKey p g c.idx) DirEntry.init,
      leaf := if old.v then dropLeaf s.kv.leaf p g old.leaf (old.capc + 1) else s.kv.leaf } }
    s.setSvc p (v.setHeapOf g (v.topOf g) (v.holesOf g + freed))
  else if c.moved || !old.v then
    (s.copyEntry p c.idx c.ent (v.topOf g)).setSvc p (v.setHeapOf g (v.topOf g + c.ent.capc + 1) (v.holesOf g + freed))
  else s.copyEntry p c.idx c.ent old.leaf

/-- A change to the current generation: it is logged while the copy goes on, a full log abandons compaction, and once the replay has
caught up it is replayed at once (R196, R197). -/
def State.kvChange (s : State) (p : Nat) (c : KvChange) : State :=
  let v := s.svc p
  if v.flipReady then s.replayChange p c
  else if v.compacting then
    if v.log.length < 4096 then s.setSvc p { v with log := v.log ++ [c] }
    else
      let n := s.owner p
      let s := s.setSvc p { v.stop with notBefore := (s.part n).stroke.toNat + 1 }
      (s.bump (siteReg p rKV_CNT_CRESTART)).journal 0x0188 n 0x3FFF p ((s.lsite p).getD 0 + 4096 * 2 ^ 7) 0
  else s
/-- A directory entry changes; `moved`: its leaf has been laid anew. -/
def State.setDir (s : State) (p i : Nat) (e : DirEntry) (moved : Bool) : State := (s.setDirRaw p i e).kvChange p ⟨i, e, moved⟩

/-! ### Leaves -/

/-- Chunks of the leaf heap of the partition. -/
def State.heapCh (s : State) (p : Nat) : Nat := let n := s.owner p; if n < 16 then (s.part n).g.heapCh else 0
/-- Chunks a leaf of `pages` pages has once grown by doubling from `c` chunks (R195). -/
def growTo (pages : Nat) : Nat → Nat → Nat
  | 0, c => c
  | k + 1, c => if pages ≤ 64 * c then c else growTo pages k (min 16 (2 * c))

/-- Make the leaf of directory entry `i` hold `pages` pages; none when the heap has no room (R195). -/
def State.ensureLeaf (s : State) (p i pages : Nat) : Option State :=
  let e := s.dirAt p i
  let v := s.svc p
  let c := e.capc + 1
  if e.v && decide (pages ≤ 64 * c) then some s
  else
    let c' := growTo pages 4 (if e.v then c else 1)
    if s.heapCh p < v.top + c' then none
    else
      let e' : DirEntry := { e with v := true, capc := c' - 1, leaf := v.top, npg := if e.v then e.npg else 0 }
      let s1 := s.setSvc p (v.setHeap (v.top + c') (v.holes + if e.v then c else 0))
      let s2 := (List.range (if e.v then e.npg else 0)).foldl (fun t k =>
        (t.setLeaf p e' k (s.leafAt p e k)).setLeaf p e k PageEntry.init) s1
      some (s2.setDir p i e' true)

/-- Add a page in frame `f` to the log. -/
def State.addPage (s : State) (p i f : Nat) (shr : Bool) : State :=
  let e := s.dirAt p i
  (s.setLeaf p e e.npg ⟨true, shr, f⟩).setDir p i { e with npg := e.npg + 1 } false

/-- Free a log: its frames are given up, its chunks become a hole and its entry is cleared (R205). -/
def State.freeLog (s : State) (p i : Nat) : State :=
  let e := s.dirAt p i
  if e.v then
    let s := (List.range e.npg).foldl (fun t k => (t.dropFrame p (t.leafAt p e k).frame).setLeaf p e k PageEntry.init) s
    let v := s.svc p
    (s.setSvc p (v.setHeap v.top (v.holes + e.capc + 1))).setDir p i DirEntry.init true
  else s

/-- Free every log of a stream at every home, and what a PARK of it holds in the parking buffers (R286). -/
def State.freeStream (s : State) (n sid : Nat) : State :=
  let s := { s with kv := { s.kv with park := s.kv.park.filter (fun x => x.stream != sid) } }
  (s.partSites n).foldl (fun s p => (List.range (s.lps n)).foldl (fun s j => s.freeLog p (sid * s.lps n + j)) s) s

/-! ### Log bytes (R192) -/

/-- Frame of log page `k`. -/
def State.logFrame (s : State) (p i k : Nat) : Nat := (s.leafAt p (s.dirAt p i) k).frame
def State.logByte (s : State) (p i b : Nat) : Nat := s.hbmByte p (s.logFrame p i (b / 65536)) (b % 65536)
def State.logNat (s : State) (p i b n : Nat) : Nat := packNat 8 ((List.range n).map (fun j => s.logByte p i (b + j)))
def State.setLog (s : State) (p i b : Nat) : List Nat → State
  | [] => s
  | v :: t => State.setLog (s.setHbmByte p (s.logFrame p i (b / 65536)) (b % 65536) v) p i (b + 1) t

/-- Does one of the first `n` records of a log, of layout `ly`, carry TAINT (R193)? -/
def State.logTaint (s : State) (p i ly n : Nat) : Bool :=
  (List.range n).any (fun t => (List.range (lyGroups ly)).any (fun g =>
    bit (s.logNat p i (t * lyRb ly + (g + 1) * lySec ly - 2) 2) 1))

/-! ### Errors of the stack (R187) -/

def hbmBadKey (p f g : Nat) : Nat := (p * 589824 + f) * 2048 + g
/-- Granules of the stack that turned uncorrectable, or that a read of this step corrected, and reads whose retry succeeded (R187). -/
def State.hbmErrs (s : State) (part p : Nat) (e : MemErr) : State :=
  let s := { s with kv := { s.kv with bad := e.hue.foldl (fun m (g : Nat × Nat) => mset false m (hbmBadKey p g.1 g.2) true) s.kv.bad } }
  e.hce.foldl (fun s g =>
    let x := s.frame p g.1
    let seen := s.marked 0x1182 part (p * 589824 + g.1 + 2 ^ 32)
    let s := (s.bump (siteReg p rKV_CNT_CE)).raiseOnce p 0x1182 part 0x3FFF p g.1 g.2
    if seen then s
    else
      let c := min 63 (x.cestr + 1)
      (s.setFrame p g.1 { x with cestr := c, retire := x.retire || decide (4 ≤ c) }).mark 0x1182 part (p * 589824 + g.1 + 2 ^ 32))
    (s.bumpBy (siteReg p rKV_CNT_REREAD) e.hre)
/-- What a step does to the memories of site `p`, of which an access for stream slot `slot` is the cause. -/
def State.memErrs (s : State) (part p slot : Nat) (e : MemErr) : State := (s.spadErrs part p slot e.ue e.ce).hbmErrs part p e

/-- The uncorrectable granules among `n` granules of 64 bytes from granule `g` of frame `f`, which may run on into the next frames:
frame and granule of 32 bytes. -/
def State.stackBad (s : State) (p f g n : Nat) : List (Nat × Nat) :=
  ((List.range (2 * n)).map (fun i => (f + (2 * g + i) / 2048, (2 * g + i) % 2048))).filter
    (fun x => mget false s.kv.bad (hbmBadKey p x.1 x.2))
/-- What a read of one granule of 32 bytes delivers: where the granule is uncorrectable, a free value (log entry 145). -/
def State.stackUnit (s : State) (p f u : Nat) : Nat × State :=
  if mget false s.kv.bad (hbmBadKey p f u) then
    (packNat 64 ((List.range 4).map (fun i => (Config.freeValue (s.free + i)).toNat)), { s with free := s.free + 4 })
  else (bits (s.hbmGran p f (u / 2)).toNat (256 * (u % 2)) 256, s)
/-- The same of `n` granules of 32 bytes from granule `u` of frame `f`, which may run on into the next frames. -/
def State.stackUnits (s : State) (p f u : Nat) : Nat → Nat × State
  | 0 => (0, s)
  | n + 1 =>
    let r := s.stackUnit p (f + u / 2048) (u % 2048)
    let q := State.stackUnits r.2 p f (u + 1) n
    (r.1 + 2 ^ 256 * q.1, q.2)
/-- The uncorrectable granules among `len` bytes of a log from byte `b`: frame and granule. -/
def State.logBad (s : State) (p i b len : Nat) : List (Nat × Nat) :=
  ((List.range (ceilDiv (b % 32 + len) 32)).map (fun j =>
    let o := b / 32 * 32 + 32 * j
    (s.logFrame p i (o / 65536), o % 65536 / 32))).filter (fun g => mget false s.kv.bad (hbmBadKey p g.1 g.2))

/-- A granule that stays uncorrectable is counted with its retry, and its frame is retired when freed (R187). -/
def State.stackUe (s : State) (p : Nat) (g : Nat × Nat) : State :=
  ((s.setFrame p g.1 { s.frame p g.1 with retire := true }).bump (siteReg p rKV_CNT_REREAD)).bump (siteReg p rKV_CNT_UE)
/-- An uncorrectable granule read by the attention of a stream (R187). -/
def State.kvUe (s : State) (part p slot layer tag : Nat) (g : Nat × Nat) : State :=
  ((s.stackUe p g).sticky (siteReg p rKV_HBM_STAT) 0).raise 0x2181 part slot p (g.1 + layer * 2 ^ 20) (g.2 + tag * 2 ^ 16)

/-! ### The reserve (R189, Table 07.3) -/

/-- First frames of the directories, the leaf heaps, the change log and the parking buffer. -/
def State.dirFrames (s : State) (p : Nat) : Nat := ceilDiv (8 * 262144 * s.lps (s.owner p)) 65536
def State.heapFrames (s : State) (p : Nat) : Nat := ceilDiv (256 * s.heapCh p) 65536
def State.heapBase (s : State) (p : Nat) : Nat := 36 + 2 * s.dirFrames p
def State.logBase (s : State) (p : Nat) : Nat := s.heapBase p + 2 * s.heapFrames p
def State.parkBase (s : State) (p : Nat) : Nat := s.logBase p + 1
/-- Table 07.7, Table 07.5 and Table 07.6. -/
def FrameEntry.word (x : FrameEntry) : Nat := x.refcnt % 2 ^ 16 + x.cestr % 2 ^ 6 * 2 ^ 24 + x.st % 4 * 2 ^ 30
def DirEntry.word (e : DirEntry) : Nat :=
  e.leaf % 2 ^ 18 + e.npg % 2 ^ 10 * 2 ^ 48 + e.capc % 2 ^ 4 * 2 ^ 58 + b2n e.taint * 2 ^ 62 + b2n e.v * 2 ^ 63
def PageEntry.word (x : PageEntry) : Nat := x.frame % 2 ^ 20 + b2n x.shr * 2 ^ 30 + b2n x.v * 2 ^ 31
/-- Byte `b` of frame `f`: of the reserve what its items hold; what an entry of the change log looks like is not stated (log
entry 146). -/
def State.stackByte (s : State) (p f b : Nat) : Nat :=
  let byte (x i : Nat) : Nat := bits x (8 * i) 8
  let d := s.dirFrames p
  let h := s.heapFrames p
  let o (base : Nat) : Nat := (f - base) * 65536 + b
  if s.owner p = 16 ∨ s.rsvOf p ≤ f ∨ s.parkBase p ≤ f then s.hbmByte p f b
  else if f < 36 then byte (s.frame p (o 0 / 4)).word (b % 4)
  else if f < s.heapBase p then
    byte (mget DirEntry.init s.kv.dir (dirKey p ((f - 36) / d) (o 36 % (d * 65536) / 8))).word (b % 8)
  else if f < s.logBase p then
    byte (mget PageEntry.init s.kv.leaf (leafKey p ((f - s.heapBase p) / h) 0 (o (s.heapBase p) % (h * 65536) / 4))).word (b % 4)
  else
    match (s.svc p).log[b / 16]? with
    | some c => bits (Config.rowFn 0x43 c.idx c.ent.word (b % 16)) 0 8
    | none => 0

/-! ### The parking buffer (R206) -/

/-- Copy a frame of the stack of site `p`. -/
def State.copyFrame (s : State) (p f f' : Nat) : State :=
  (List.range 1024).foldl (fun (s : State) g => s.setHbmGran p f' g (s.hbmGran p f g)) s
/-- The frame of the parking buffer that holds page `k` of layer `l` of a stream. -/
def State.parkedAt (s : State) (p i l k : Nat) : Option Nat :=
  (s.kv.park.find? (fun x => x.site == p && x.stream == i && x.layer == l && x.page == k)).map (fun x => x.frame)
/-- The lowest frame of the parking buffer that is not in use (log entry 43). -/
def State.parkFree (s : State) (p : Nat) : Option Nat :=
  let used := (s.kv.park.filter (fun x => x.site == p)).map (fun x => x.frame)
  ((List.range (used.length + 1)).map (fun j => s.parkBase p + j)).find? (fun f => decide (f < s.rsvOf p) && !(used.contains f))
/-- The first `m` pages of a log are copied into the parking buffer while it has room; a log copied whole is freed (R206). -/
def State.parkLayer (s : State) (p i l d m : Nat) : State :=
  let s := (List.range m).foldl (fun (s : State) k =>
    match s.parkedAt p i l k, s.parkFree p with
    | none, some f =>
      let s : State := s.copyFrame p (s.logFrame p d k) f
      { s with kv := { s.kv with park := s.kv.park ++ [⟨p, f, i, l, k⟩] } }
    | _, _ => s) s
  if (List.range m).all (fun k => (s.parkedAt p i l k).isSome) then s.freeLog p d else s

end Sys2Proof.Machine
end

