-- ==== Sys2Proof/Machine/Fabric.lean ====
section
/-! DEFINITION. The fabric commands: packets received and their landing checks, acknowledgements, late errors, replays of
a link, and the accesses of site cores (chapters 01, 08). -/

namespace Sys2Proof.Machine

/-! ### Received packets (R218, R219) -/

/-- Is site `p` in service: not faulted, not being promoted or reloaded? -/
def State.inService (s : State) (p : Nat) : Bool := !(mget false s.fab.siteOut p) && !(s.loadingSite p)

/-- Is the header of a packet with `n` payload granules invalid (R219)? -/
def pkBad (h n : Nat) : Bool :=
  let t := pkType h
  let l := pkLen h
  decide (5 < t) || wf h 0 6 1 != 0 || wf h 3 30 2 != 0 || wf h 3 14 8 != 0 || (pkErr h && t != 2) ||
    (if t = 0 then n != l + 1
     else if t = 1 then n != 0
     else if t = 2 then (if pkErr h then decide (4 < l) || n != 0 else n != l + 1)
     else if t = 3 then n != 0
     else if t = 4 then decide (4 < l) || n != 0
     else l != 0 || n != 1)

/-- A reply on the control lane to packet `h` from site `p`: header fields not stated otherwise are those of the packet (log entry
27). -/
def State.reply (s : State) (p h type len : Nat) : State :=
  (s.emit (.packet (mkPkt type (pkPart h) 3 0 p (pkSrc h) len (pkOfs h) (pkSpace h) 0 (pkSeq h) (pkTag h) (pkStrokeLo h)
    (pkStream h)) [])).bump (siteReg p rFAB_CNT_TX)

/-- Kind of an outstanding packet of the type of header `h`. -/
def pkKind (h : Nat) : Nat := if pkType h = 5 then 2 else pkType h
/-- The packet of source `src` to `dst` with number `seq` that waits for a reply. -/
def State.inFlight (s : State) (src dst kind seq : Nat) : Option OutPkt :=
  s.fab.flight.find? (fun o => o.src == src && o.dst == dst && o.kind == kind && o.seq == seq)
/-- Is the entry the one of packet `h`, which has reached site `p`? -/
def OutPkt.isFor (o : OutPkt) (p h : Nat) : Bool :=
  o.src == pkSrc h && o.dst == p && o.kind == pkKind h && o.seq == pkSeq h
/-- Site `p` has judged packet `h`; `failed`: no acknowledgement or completion of it is to come. -/
def State.judged (s : State) (p h : Nat) (failed : Bool) : State :=
  { s with fab := { s.fab with flight := s.fab.flight.map (fun o =>
      if o.isFor p h then { o with landed := true, failed := o.failed || failed } else o) } }
/-- Does packet `h` reach site `p` past a PWRITE of its source that was sent before it and has not landed (rules 1 and 2 of Table
08.6)? The fabric never lets one do so. -/
def State.overtakes (s : State) (p h : Nat) : Bool :=
  s.fab.flight.any (fun o => o.isFor p h) &&
    (s.fab.flight.takeWhile (fun o => !(o.isFor p h))).any (fun o =>
      o.src == pkSrc h && o.dst == p && o.kind == 0 && o.sent && !o.landed)

/-- The reply of a packet has arrived: the outstanding count of its stream falls (R229). -/
def State.acked (s : State) (o : OutPkt) : State :=
  { s with fab := { s.fab with flight := s.fab.flight.filter (fun x => x != o),
                               outst := mset 0 s.fab.outst (outKey o.src o.dstream) (s.outst o.src o.dstream - 1) } }
/-- The completion of READ_REQ `h` leaves site `p` in its turn within a VC 2 grant to the initiator, or in a background slot; without one
it is never sent (R220, R221, log entry 147). -/
def State.replyRead (s : State) (p h err len : Nat) (payload : List Nat) : State :=
  let bg := wf h 0 21 1
  let at' := if bg = 1 then some (4, 1000 * s.time) else s.leaves (pkPart h) 2 p (pkSrc h) payload.length
  match at' with
  | none => s.judged p h true
  | some x =>
    let f := if bg = 1 then s.fab else { s.fab with busy := mset 0 s.fab.busy (p * 5 + x.1) (x.2 + packetTime x.1 payload.length) }
    (({ s with fab := f }.judged p h false).emit (.packet (mkPkt 2 (pkPart h) 2 bg p (pkSrc h) len (pkOfs h) (pkSpace h) err (pkSeq h)
      (pkTag h) (pkStrokeLo h) (pkStream h)) payload)).bump (siteReg p rFAB_CNT_TX)

/-- Count a received packet; an invalid one is discarded and counted. -/
def State.received (s : State) (p h n : Nat) : Bool × State :=
  let s := s.bump (siteReg p rFAB_CNT_RX)
  if pkBad h n then (true, (s.bump (siteReg p rFAB_CNT_BADHDR)).sticky (siteReg p rFAB_STAT) 3) else (false, s)

/-- The destination answers a packet with a late error (Table 08.7). -/
def State.lateReply (s : State) (p h reason : Nat) : State :=
  ((s.judged p h true).bump (siteReg p rFAB_CNT_LATE)).reply p h 4 reason

/-- The landing checks 1-5 of Table 08.7 in order: `some none` stale, `some (some r)` reason `r`, `none` all passed. A READ_REQ may name
a data frame of the stack, which has no regions (R170, R188, log entry 150). -/
def State.landFail (s : State) (p h : Nat) (wr : Bool) : Option (Option Nat) :=
  let part := s.owner p
  if part < 16 ∧ pkStrokeLo h ≠ (s.part part).stroke.toNat % 256 then some none
  else if !(s.inService p) then some (some 3)
  else if !wr ∧ pkSpace h = 2 ∧ !(isHub p) then
    (if 2 ^ 10 * s.rsvOf p ≤ pkOfs h ∧ pkOfs h + pkLen h + 1 ≤ 2 ^ 10 * 589824 then (if pkPart h ≠ part then some (some 2) else none)
     else some (some 4))
  else if pkSpace h ≠ 0 ∨ isHub p ∨ 2 ^ 20 < pkOfs h + pkLen h + 1 then some (some 4)
  else if pkPart h ≠ part then some (some 2)
  else if (s.areaFail p 8 (64 * pkOfs h) (!wr) wr (pkLen h + 1)).isSome then some (some 1)
  else none

/-- A stale packet is discarded without a reply (R230). -/
def State.staleDrop (s : State) (p h : Nat) : State :=
  (((s.judged p h true).bump (siteReg p rFAB_CNT_STALE)).sticky (siteReg p rFAB_STAT) 2).raiseOnce p 0x01C6 (pkPart h) (pkStream h) p
    (pkSrc h + pkStrokeLo h * 2 ^ 7) (pkTag h)

/-- Journal a packet that the region registers deny (R239). -/
def State.inboundDenied (s : State) (p h reason : Nat) : State :=
  if reason = 1 then
    (s.sticky (siteReg p rFAB_STAT) 1).raiseOnce p 0x01C7 (pkPart h) (pkStream h) p (pkSrc h + reason * 2 ^ 7)
      (bits (pkAddr h) 0 32)
  else s

/-- Does the vector header of a first payload granule say that the PWRITE carries a merge arrival (R228)? -/
def isArrival (g : Nat) : Bool := vhMrg g
/-- A merge arrival lands: the merge tree checks its header and the length of its payload, `n` granules with the header, and
discards an invalid one (R108, R110). -/
def State.arrivalLand (s : State) (site h data n : Nat) : State :=
  let v := h % 2 ^ 256
  match hdrFail v [] (if n = ceilDiv (32 + paddedBytes v) 64 then paddedBytes v else 64 * n) with
  | some f => s.badVector (s.owner site) site v 1 f
  | none => s.mergeArrive site v (data / 2 ^ 256) false

/-- Send the gathered LAND_ACK of one source and VC (R227). -/
def State.sendAck (s : State) (p src vc : Nat) : State :=
  let k := seqKey p src vc
  let g := mget Gather.init s.fab.gather k
  if g.count = 0 then s
  else ({ s with fab := { s.fab with gather := mset Gather.init s.fab.gather k Gather.init } }).reply p g.hdr 3 (g.count - 1)

/-- Hold back the acknowledgement of packet `h`; 64 are sent at once (R227, log entry 28). -/
def State.holdAck (s : State) (p h : Nat) : State :=
  let k := seqKey p (pkSrc h) (pkVc h)
  let g := mget Gather.init s.fab.gather k
  let g' : Gather := ⟨g.count + 1, if g.count = 0 then s.time else g.since, h⟩
  let s := { s with fab := { s.fab with gather := mset Gather.init s.fab.gather k g' } }
  if 64 ≤ g'.count then s.sendAck p (pkSrc h) (pkVc h) else s

/-- PWRITE_LAND (R227, R228, R230, R232): a PWRITE, or a SEAL_OP packet (R255), reaches site `site`. `badFirst` and `bad`: the first
payload granule, or any, is uncorrectable on arrival. -/
def execPwriteLand (site : Nat) (hdr : BitVec 128) (payload : List (BitVec 512)) (badFirst bad : Bool) (s : State) : Res :=
  let h := hdr.toNat
  let n := payload.length
  let data := packNat 512 (payload.map BitVec.toNat)
  let first := (payload.headD 0).toNat
  .next (
    if pkType h = 0 && s.overtakes site h then s
    else
      let r := s.received site h (if pkType h = 5 && sealRsv first then 0 else n)
      let s := r.2
      if r.1 then s.lateReply site h 4
      else if pkType h = 5 then s.sealLand site first
      else if pkType h ≠ 0 then s
      else
        let fail (s : State) (reason : Nat) : State :=
          let s := s.lateMark site (pkOfs h) (pkOfs h + pkLen h)
          let s := (s.inboundDenied site h reason).lateReply site h reason
          if isArrival first && !badFirst then s.mergeLost site (vhMctx first) (vhRank first) else s
        match s.landFail site h true with
        | some none => s.staleDrop site h
        | some (some reason) => fail s reason
        | none =>
          if bad || badFirst then fail s 0
          else if isArrival first then ((s.judged site h false).arrivalLand site first data n).holdAck site h
          else ((s.judged site h false).writeGran site (pkOfs h) data n).holdAck site h)

/-- LAND_ACK_GATHER_EXPIRY (R227): no acknowledgement is held for more than 256 ns. -/
def execLandAckGatherExpiry (site src vc t : Nat) (s : State) : Res :=
  let s := s.at t
  let g := mget Gather.init s.fab.gather (seqKey site src vc)
  .next (if 0 < g.count ∧ g.since + 256 ≤ t then s.sendAck site src vc else s)

/-- READ_REQ (R227): answered with the granules, or with ERR and the reason. Granules under the late mark are delivered, with an
error-queue entry for the row (R232, log entry 29). -/
def execReadReq (site : Nat) (hdr : BitVec 128) (e : MemErr) (s : State) : Res :=
  let h := hdr.toNat
  let n := pkLen h + 1
  let s := s.memErrs (pkPart h) site (pkStream h) e
  .next (
    if s.overtakes site h then s
    else
      let r := s.received site h 0
      let s := r.2
      if r.1 then s.lateReply site h 4
      else if pkType h ≠ 1 then s
      else
        let fail (s : State) (reason : Nat) : State :=
          ((s.inboundDenied site h reason).bump (siteReg site rFAB_CNT_LATE)).replyRead site h 1 reason []
        match s.landFail site h false with
        | some none => s.staleDrop site h
        | some (some reason) => fail s reason
        | none =>
          if pkSpace h = 2 then
            let f := pkOfs h / 1024
            let g := pkOfs h % 1024
            let bad := s.stackBad site f g n
            if bad.isEmpty then
              s.replyRead site h 0 (n - 1) ((List.range n).map (fun i => (s.hbmGran site (f + (g + i) / 1024) ((g + i) % 1024)).toNat))
            else fail (bad.foldl (fun s b => s.stackUe site b) s) 0
          else
            let ue := (List.range n).any (fun i => mget false s.spad.bad (spadKey site (pkOfs h + i)))
            let rd := s.spadReadG (pkPart h) site (pkStream h) 8 (pkOfs h) n
            let s := rd.2
            if ue then fail s 0
            else
              let s := if rd.1 then
                  s.lateEntry (pkPart h) (pkSrc h) 0 (pkStream h) 1 site (pkAddr h) (pkTag h) (pkSeq h) else s
              s.replyRead site h 0 (n - 1) ((List.range n).map (fun i => (s.granule site (pkOfs h + i)).toNat)))

/-- An invalid reply completes the fence as a late error with reason ADDRESS (R219). -/
def State.badReply (s : State) (site h kind : Nat) : State :=
  match s.inFlight site (pkSrc h) kind (pkSeq h) with
  | some o => s.failPkt o 4
  | none => s

/-- READ_CPL (R231): data into the mover's destination rows or to the core that loads, or an error-queue entry. Completions of one
destination return in request order (rule 3 of Table 08.6). -/
def execReadCpl (site : Nat) (hdr : BitVec 128) (payload : List (BitVec 512)) (s : State) : Res :=
  let h := hdr.toNat
  let older := s.fab.flight.takeWhile (fun o => !(o.src == site && o.dst == pkSrc h && o.kind == 1 && o.seq == pkSeq h))
  .next (
    if pkType h = 2 && (s.inFlight site (pkSrc h) 1 (pkSeq h)).isSome &&
        older.any (fun o => o.src == site && o.dst == pkSrc h && o.kind == 1 && o.sent && !o.failed) then s
    else
      let r := s.received site h payload.length
      let s := r.2
      if r.1 then (s.badReply site h 1).freeHeld
      else if pkType h ≠ 2 then s
      else
        match s.inFlight site (pkSrc h) 1 (pkSeq h) with
        | none => s
        | some o =>
          let core := (o.into.headD (0, 0, 0)).2.2
          if pkErr h then
            let s := s.failPkt o (pkLen h)
            if o.dstream = 6 then s.emit (.coreFault site core) else s
          else
            let x := packNat 512 (payload.map BitVec.toNat)
            if o.dstream = 6 then
              o.into.foldl (fun (s : State) e => s.emit (.value e.1 (bits x (8 * (e.1 % 64)) (8 * e.2.1)))) (s.acked o)
            else o.into.foldl (fun (s : State) e => s.placeRow o.part site o.dstream o.tag o.slot x payload.length e) (s.acked o))

/-- LAND_ACK (R229): the oldest LEN + 1 packets of the destination that no late error has answered; the named one is among them, since
LAND_ACKs arrive in SEQ order (rule 4 of Table 08.6). -/
def execLandAck (site : Nat) (hdr : BitVec 128) (s : State) : Res :=
  let h := hdr.toNat
  let kind := if pkSpace h = 4 then 2 else 0
  let mine := s.fab.flight.filter (fun o => o.src == site && o.dst == pkSrc h && o.kind == kind && o.sent && !o.failed)
  let first := mine.take (pkLen h + 1)
  .next (
    if pkType h = 3 && (mine.drop (pkLen h + 1)).any (fun o => o.seq == pkSeq h) then s
    else
      let r := s.received site h 0
      let s := r.2
      if r.1 then (s.badReply site h kind).freeHeld
      else if pkType h ≠ 3 then s
      else ((first.filter (fun o => decide ((pkSeq h + 4096 - o.seq) % 4096 < 2048))).foldl State.acked s).freeHeld)

/-- LATE_ERR (R231): of a SEAL_OP when SPACE is 4, else of the PWRITE or READ_REQ with its SEQ and OFS. -/
def execLateErr (site : Nat) (hdr : BitVec 128) (s : State) : Res :=
  let h := hdr.toNat
  let r := s.received site h 0
  let s := r.2
  let is (k : Nat) (o : OutPkt) : Bool :=
    o.src == site && o.dst == pkSrc h && o.kind == k && o.seq == pkSeq h &&
      decide (o.addr = mkAddr (pkSpace h) (pkSrc h) (64 * pkOfs h))
  .next (
    if r.1 then (s.badReply site h 0).freeHeld
    else if pkType h ≠ 4 then s
    else
      match s.fab.flight.find? (fun o => is 0 o || is 1 o || is 2 o) with
      | some o => (s.failPkt o (pkLen h)).freeHeld
      | none => s)

/-- FENCE_TIMEOUT (R229): no reply for FENCE_TMO after the PWRITE or READ_REQ left. -/
def execFenceTimeout (site dst kind seq t : Nat) (s : State) : Res :=
  let s := s.at t
  .next (match s.inFlight site dst kind seq with
  | some o =>
    if o.kind < 2 ∧ o.sent ∧ o.time + 1000 * s.fld (siteReg site rFAB_CFG) 0 8 ≤ t then
      ((s.bump (siteReg site rFAB_CNT_TMO)).failPkt o 5).freeHeld
    else s
  | none => s)

/-- NO_SLOT (R221): the last grant for the packet has ended, and it has not left. -/
def execNoSlot (site dst kind seq t : Nat) (s : State) : Res :=
  let s := s.at t
  .next (match s.inFlight site dst kind seq with
  | some o => if !o.sent ∧ (s.grantsFor o.part o.kind o.src o.dst).isEmpty then (s.failPkt o 6).freeHeld else s
  | none => s)

/-! ### Links (R217) -/

/-- The mesh port at the other end of a mesh link. -/
def oppositePort (port : Nat) : Nat := (port + 2) % 4
/-- Is the link at port `port` of site `p` the one that a grant uses? A mesh link is named from either end, an optical port as source or
as destination. -/
def State.grantUses (s : State) (p port g : Nat) : Bool :=
  let src := s.phys (grSrc g)
  (src == p && grPort g == port) ||
    (if port = 4 then grPort g == 4 && s.destSite (grDest g) == p
     else grPort g == oppositePort port && src == neighbour p port)
/-- Does the slot table of the partition's library name the link at port `port` of site `p`? -/
def State.namesLink (s : State) (n p port : Nat) : Bool :=
  match (s.part n).lib with
  | none => false
  | some l => l.entries.any (fun b => b.grants.any (fun g => s.grantUses p port g.toNat))

/-- A port goes down: packets that wait to leave through it are never sent (R217). -/
def State.portOff (s : State) (site port : Nat) : State :=
  let k := site * 5 + port
  let f := { s.fab with
    replays := mset 0 s.fab.replays k 0, down := mset false s.fab.down k true,
    flight := s.fab.flight.map (fun o => if o.src == site && o.port == port && decide (s.time < o.time) then { o with sent := false } else o) }
  ({ s with fab := f }).sticky (siteReg site rFAB_STAT) 0
/-- A link is taken down: its packets are never sent, and the partitions that use it are reset (R217). -/
def State.linkDown (s : State) (site port far : Nat) : State :=
  if mget false s.fab.down (site * 5 + port) then s
  else
    let s := s.portOff site port
    let s := if port < 4 ∧ neighbour site port < 72 then s.portOff (neighbour site port) (oppositePort port) else s
    ((List.range 16).filter (fun i => s.namesLink i site port)).foldl
      (fun s i => s.raise 0x31C5 i 0x3FFF site (site + port * 2 ^ 7) far) s

/-- LINK_REPLAY (R217): a flit CRC error. `first`: of a new flit; else the last replay failed, and the eighth such failure
takes the link down. -/
def execLinkReplay (site port far : Nat) (first : Bool) (s : State) : Res :=
  let k := site * 5 + port
  let n := if first then 0 else mget 0 s.fab.replays k
  .next (
    if mget false s.fab.down k then s
    else if n < 8 then
      ({ s with fab := { s.fab with replays := mset 0 s.fab.replays k (n + 1) } }).bump (siteReg site rFAB_CNT_RETRY)
    else s.linkDown site port far)

/-! ### Site cores (R236, R239, R254) -/

/-- One byte of a slot's region (Table 02.2), as firmware reads it (R27). -/
def State.slotReadByte (s : State) (sk rg o : Nat) : Nat :=
  if rg = 0 then bits (s.weightRow sk (bits o 5 8)).toNat (8 * (o % 32)) 8
  else if rg = 1 then
    if bit o 12 then
      let h := s.slotHdr sk
      bits (h.crc + h.crcRsv * 2 ^ 16 + h.nzEnd * 2 ^ 32 + h.nnz * 2 ^ 48) (8 * (o % 8)) 8
    else bits (s.metaRow sk (bits o 4 8)).toNat (8 * (o % 16)) 8
  else
    let e := bits o 2 9
    if e < 128 then bits (unsigned 20 (s.colsum sk e) + unsigned 8 (s.wzp sk e) * 2 ^ 20) (8 * (o % 4)) 8
    else
      let h := s.slotHdr sk
      bits (h.format + b2n h.dense * 8 + b2n h.valid * 16) (8 * (o % 4)) 8

/-- Header words of a scale set (Table 03.4). -/
def ScaleSet.words (x : ScaleSet) : Nat :=
  packNat 32 ([x.w0.toNat, x.gInit.toNat, x.gCur.toNat, x.gPrev.toNat, x.fStroke.toNat, x.fPend.toNat,
    x.nvalid + x.headIdx * 2 ^ 5 + b2n x.inexact * 2 ^ 9 + b2n x.pendValid * 2 ^ 10 + b2n x.strokeValid * 2 ^ 11, 0,
    x.sse0 % 2 ^ 32, x.sse0 / 2 ^ 32, x.n0, x.sse1 % 2 ^ 32, x.sse1 / 2 ^ 32, x.n1, 0, 0] ++
    (List.range 16).map (fun i => (mget 0 x.ring i).toNat))

/-- A merge context (Table 04.10). -/
def MergeCtx.words (x : MergeCtx) : Nat :=
  packNat 32 [b2n x.opened + b2n x.latem * 2 + x.nval * 16 + x.layer * 2 ^ 8, x.stream + x.token * 2 ^ 16, x.dest, x.stage] +
    2 ^ 128 * x.expect.toNat + 2 ^ 384 * x.arrived.toNat

/-- Byte `o` of space 3 of site `p` as firmware reads it: scale sets and staging buffers, ingress slots, merge contexts, row
function and piecewise-cubic tables, KV layouts, region registers. Other offsets read 0. -/
def State.space3Byte (s : State) (p o : Nat) : Nat :=
  let b (x i : Nat) : Nat := bits x (8 * i) 8
  let l := o % 2 ^ 32
  match o / 2 ^ 32 with
  | 0x20 =>
    if l < 0x10000000 then
      let key := scaleKey (s.pcomb p (l / 0x10000)) (l / 0x1000 % 16)
      let w := l % 0x1000
      if w < 0x80 then b (s.scaleSet key).words w
      else if 0x100 ≤ w ∧ w < 0x900 then b (s.chanEntry key ((w - 0x100) / 16)) (w % 16)
      else 0
    else
      let m := l - 0x10000000
      b (s.stageWord (s.pcomb p (m / 0x1000)) (m % 0x1000 / 4)) (m % 4)
  | 0x21 => if l < 0x800 ∧ l % 32 < 12 then b (s.ingressSlot p (l / 32)) (l % 32) else 0
  | 0x22 => if l < 0x40000 then b (s.mergeCtx p (l / 128)).words (l % 128) else 0
  | 0x23 =>
    if l < 0x2000 then b (mget 0 s.desc.rfu (p * 256 + l / 32)).toNat (l % 32)
    else if 0x10000000 ≤ l ∧ l < 0x10020000 then b (mget 0 s.desc.pwc (p * 32768 + (l - 0x10000000) / 4)).toNat (l % 4)
    else 0
  | 0x24 => if l < 0x400 ∧ l % 64 < 16 then b (mget 0x3F8000003F8000000000000000000000#128 s.kv.layout (p * 16 + l / 64)).toNat (l % 64) else 0
  | 0x25 => if l < 0x4000 ∧ l % 256 < 128 then b (mget 0 s.spad.region (regionKey p (l / 256) (l % 256 / 8))).toNat (l % 8) else 0
  | _ => 0

/-- The fault of a write that the table at offset `o` of space 3 denies. -/
def space3Denied (o : Nat) : Nat :=
  match o / 2 ^ 32 with
  | 0x20 => 0x3085
  | 0x21 => 0x3085
  | 0x22 => 0x30CA
  | 0x23 => 0x3085
  | 0x24 => 0x318B
  | _ => 0x3205

/-- A core's access to the scratchpad of another site: a PWRITE or READ_REQ of the granules concerned. The bytes of a granule that the
core does not write are not stated (log entry 32). -/
def State.coreRemote (s : State) (part site core : Nat) (write : Bool) (a len d : Nat) : State :=
  let o := a % 64
  let n := ceilDiv (o + len) 64
  let g := addrOfs a / 64
  if write then
    let other := packNat 8 ((List.range (64 * n)).map (fun j => bits (Config.rowFn 0x44 s.free a j) 0 8))
    let x := setBits (if o = 0 ∧ len = 64 * n then 0 else other) (8 * o) (8 * len) d
    { s with free := s.free + 1 }.sendPkt 0 part 0 site (addrSite a) (n - 1) g 0 0 0 0x3FFF 6 [] (unpackNat 512 n x)
  else s.sendPkt 1 part 1 site (addrSite a) (n - 1) g 0 0 0 0x3FFF 6 [(a, len, core)] []

/-- A core's access to its core port (R254). -/
def State.corePortAccess (s : State) (part site core : Nat) (write : Bool) (a d : Nat) : State :=
  let k := portKey site core
  let x := s.corePort k
  if write then
    if x.busy then s.setCorePort k { x with stalled := some (x.stalled.getD (part, d)) }
    else (s.sealIssue part site (coreMaster site core) d 6 0).sealNext
  else if x.busy then s.setCorePort k { x with blocked := true }
  else s.emit (.value a x.result.toNat)

/-- SITE_CORE_ACCESS: core `core` of site or hub `site` reads or writes `len` bytes at panel address `addr`; a hub core acts for partition
`pn`. A read with SHADOW = 1 of a bank without an open slot answers nothing (DESIGN CHOICE, log entry 142). -/
def execSiteCoreAccess (site core pn : Nat) (write : Bool) (addr : BitVec 48) (len : Nat) (data : BitVec 512) (e : MemErr)
    (s : State) : Res :=
  let a := addr.toNat
  let m := coreMaster site core
  let part := if isHub site then pn else s.owner site
  let sp := addrSpace a
  let off := addrOfs a
  let dst := addrSite a
  let s := s.memErrs part site 0x3FFF e
  let d := data.toNat % 2 ^ (8 * len)
  let reserved (s : State) : State := s.accessFault 0x31C1 part site a m
  let deny (s : State) (code : Nat) : State := (s.accessFault code part site a m).emit (.coreFault site core)
  let answer (s : State) (f : Nat → Nat) : State := s.emit (.value a (packNat 8 ((List.range len).map f)))
  .next (
    if s.rangeBad a len true then reserved s
    else if sp = 4 then
      if dst = site ∧ len = 8 ∧ off = 0x40 * core + (if write then 0 else 8) then s.corePortAccess part site core write a d
      else reserved s
    else if sp = 0 ∧ dst = site then
      let n := ceilDiv (off % 64 + len) 64
      match s.areaFail site m (64 * (off / 64)) (!write) write n with
      | some _ =>
        ((s.sticky (siteReg site rSPAD_STAT) 1).raise 0x3204 part 0x3FFF site off (m + b2n write * 2 ^ 8)).emit
          (.coreFault site core)
      | none =>
        if write then s.setSpadBytes site off len d
        else
          let bad := (List.range n).any (fun i => mget false s.spad.bad (spadKey site (off / 64 + i)))
          let s := (s.spadReadG part site 0x3FFF m (off / 64) n).2
          if bad then s.emit (.coreFault site core) else s.emit (.value a (s.spadBytes site off len))
    else if sp = 0 then s.coreRemote part site core write a len d
    else if sp = 1 then
      if write then deny s 0x3044
      else
        let pc := s.pcomb dst (bits a 21 13)
        let bank := bits a 13 8
        let slot := if bit a 35 then (s.openShadow pc bank).map (fun i => (s.shadow pc i).slot) else some (s.liveSlot pc bank)
        match slot with
        | some sl => answer s (fun i => s.slotReadByte (slotKey pc sl) (bits a 36 2) (bits a 0 13 + i))
        | none => s
    else if sp = 2 then
      if write then deny s 0x318B
      else answer s (fun i => s.stackByte dst (bits a 16 20) (bits a 0 16 + i))
    else if write then
      if off / 2 ^ 32 = 0x20 ∧ 0x10000000 ≤ off % 2 ^ 32 then
        let o := off % 2 ^ 32 - 0x10000000
        (List.range (len / 4)).foldl
          (fun s i => s.stagingWrite dst (o / 0x1000) (o % 0x1000 / 4 + i) (BitVec.ofNat 32 (bits d (32 * i) 32))) s
      else if 0x20 ≤ off / 2 ^ 32 ∧ off / 2 ^ 32 ≤ 0x25 then deny s (space3Denied off)
      else s
    else answer s (fun i => s.space3Byte dst (off + i)))

end Sys2Proof.Machine
end

