-- ==== Sys2Proof/Machine/Kv.lean ====
section
/-! DEFINITION. The KV engine: positions and the live table (R291), records (R191, R200), attention (R201-R204) and sampling
(R209-R213). -/

namespace Sys2Proof.Machine

/-! ### Positions of the stroke (R132, R291) -/

/-- Decode slots and prefill tokens of an entry (R132). -/
def decSlots (b : Bucket) : Nat := 256 * 2 ^ bits b.raw.toNat 0 3
def preTokens (b : Bucket) : Nat := if bits b.raw.toNat 3 3 = 0 then 0 else 1024 * 2 ^ bits b.raw.toNat 3 3

/-- The section of the site of rank `r`. -/
def bucketSect (b : Bucket) (r : Nat) : SiteSect := b.sects.getD r SiteSect.none
/-- Fields of a position entry (R290). -/
def posBase (e : BitVec 32) : Nat := bits e.toNat 0 7
def posPgb (e : BitVec 32) : Nat := bits e.toNat 16 16
/-- Page group of a position: its BASE and GROUP. -/
def posGroup (e : BitVec 32) : Nat := posBase e * 256 + bits e.toNat 8 8
/-- Every position of an entry, decode first; prefill position j is number 0x4000 + j. The item at the first site of the partition
holds them all (R290; log entry 144). -/
def bucketPos (b : Bucket) : List (Nat × BitVec 32) :=
  let d := decSlots b
  (bucketSect b 0).masks.zipIdx.map (fun x => (if x.2 < d then x.2 else 0x4000 + (x.2 - d), x.1))

/-- A live-table entry (R291). -/
structure Live where
  sslot  : Nat
  token  : Nat
  stream : Nat
  pos    : Nat
  index  : Nat
  deriving DecidableEq, Repr

/-- Is the position within the chosen bucket (Table 06.11 row 12)? -/
def State.posLegal (s : State) (n pos : Nat) : Bool :=
  match s.bucketOf n with
  | some b => decide (pos < min (decSlots b) 0x4000) || (decide (0x4000 ≤ pos) && decide (pos < min (0x4000 + preTokens b) 0xC000))
  | none => false
/-- Offset of a position's entry in the live table. -/
def State.liveOff (s : State) (n pos : Nat) : Nat :=
  let d := match s.bucketOf n with
    | some b => decSlots b
    | none => 0
  (s.part n).g.liveOff + 16 * (if pos < 0x4000 then pos else d + (pos - 0x4000))
/-- The entry of slot position `pos` at site `p`. -/
def State.live (s : State) (p n pos : Nat) : Live :=
  let w := s.spadBytes p (s.liveOff n pos) 16
  ⟨bits w 0 14, bits w 14 18, bits w 32 20, bits w 64 18, bits w 96 16⟩
/-- Does the position's stream recompute the work of its last stroke (R83, R292)? -/
def State.recomputes (s : State) (n slot : Nat) : Bool := (s.part n).placed.any (fun p => p.slot == slot && p.recomp)
/-- Change the placement of a stream slot. -/
def State.updPlaced (s : State) (n slot : Nat) (f : Placed → Placed) : State :=
  s.updPart n (fun p => { p with placed := p.placed.map (fun x => if x.slot = slot then f x else x) })

/-! ### Writing a record (R200) -/

/-- Replace infinities and NaNs, whose treatment the manual does not state, by free values (log entry 24). -/
def State.scrubBf (s : State) (xs : List (BitVec 16)) : List (BitVec 16) × State :=
  xs.foldl (fun (y : List (BitVec 16) × State) x =>
    if nonFiniteBf x then let f := y.2.freeBf; (y.1 ++ [f.1], f.2) else (y.1 ++ [x], y.2)) ([], s)

/-- Codes and step of one part. -/
def quantPart (xs : List (BitVec 16)) : List Int × BitVec 32 :=
  let a := xs.foldl (fun (m : Q) x => let v := (valBf x).abs; if m.lt v then v else m) ⟨0, 1⟩
  if a.n = 0 then (xs.map (fun _ => 0), 0)
  else
    let r := rnd32 (Q.div ⟨127, 1⟩ a)
    (xs.map (fun x => clampI (-127) 127 (roundQ (val32 (rnd32 ((valBf x).mul (val32 r)))))), rnd32 (Q.div a ⟨127, 1⟩))

/-- Bytes of `n`, lowest first. -/
def leBytes (n x : Nat) : List Nat := unpackNat 8 n x

/-- One group of a record (Table 07.4). -/
def groupBytes (ly tpos : Nat) (taint late : Bool) (xs : List (BitVec 16)) : List Nat :=
  let k := quantPart (xs.take (lyDk ly))
  let v := quantPart ((xs.drop (lyDk ly)).take (lyDv ly))
  let r := quantPart ((xs.drop (lyDk ly + lyDv ly)).take (lyDr ly))
  ((k.1 ++ v.1 ++ r.1).map (unsigned 8)) ++ leBytes 4 k.2.toNat ++ leBytes 4 v.2.toNat ++ leBytes 4 r.2.toNat ++
    leBytes 2 tpos ++ leBytes 2 (1 + b2n taint * 2 + b2n late * 4)

/-- Open the pages of a log up to page `k` with HELD frames; false when there is none (R195). -/
def State.openPages (s : State) (p i k : Nat) : Nat → Bool × State
  | 0 => (decide (k < (s.dirAt p i).npg), s)
  | fuel + 1 =>
    if k < (s.dirAt p i).npg then (true, s)
    else
      match s.heldFrame p, s.ensureLeaf p i ((s.dirAt p i).npg + 1) with
      | some f, some s' => State.openPages ((s'.setFrame p f { s'.frame p f with st := 1, refcnt := 1 }).addPage p i f false) p i k fuel
      | _, _ => (false, s)

/-! ### Hashes (R433) -/

/-- One byte of CRC-64, polynomial 0x42F0E1EBA9EA3693, not reflected. -/
def crc64Shift : Nat → Nat → Nat
  | 0, c => c
  | k + 1, c => crc64Shift k (if bit c 63 then (2 * c % 2 ^ 64) ^^^ 0x42F0E1EBA9EA3693 else 2 * c % 2 ^ 64)
def crc64 (l : List Nat) : Nat := l.foldl (fun c b => crc64Shift 8 (c ^^^ (b % 256 * 2 ^ 56))) 0

/-- H of a stream slot of a MIRROR partition takes in one more item (R433). -/
def State.hashItem (s : State) (part slot : Nat) (bytes : List Nat) : State :=
  if s.fld rPAIR_CTL 0 2 = 1 then
    { s with pair := { s.pair with
      hash := mupd 0 s.pair.hash (part * 16384 + slot) (fun h => h ^^^ BitVec.ofNat 64 (crc64 bytes)) } }
  else s

/-! ### Appends -/

/-- KV_APPEND of one position (R200): `vs` are the input vectors of the groups. -/
def State.kvAppendPos (s : State) (p part layer ly : Nat) (lv : Live) (vs : List VecIn) : State :=
  let i := s.dirIdx part lv.stream layer
  let rb := lyRb ly
  let b := lv.pos * rb
  let o := s.openPages p i ((b + rb - 1) / 65536) 2
  if !o.1 then
    o.2.raise 0x2185 part lv.sslot p ((s.lsite p).getD 0 + layer * 2 ^ 7) (o.2.freeFrames p)
  else
    let n := lyDk ly + lyDv ly + lyDr ly
    let r := vs.foldl (fun (y : List Nat × State) v =>
      let xs := (unpackNat 16 n v.payload).map (BitVec.ofNat 16)
      let q := y.2.scrubBf xs
      (y.1 ++ groupBytes ly lv.pos (vhTaint v.hdr) v.late q.1, q.2)) ([], o.2)
    let s := (r.2.setLog p i b r.1).bump (siteReg p rKV_CNT_REC)
    let s := s.hashItem part lv.sslot (r.1 ++ [layer % 256] ++ (leBytes 4 lv.pos).reverse)
    match vs.find? (fun v => vhTaint v.hdr) with
    | some v =>
      let s := s.setDir p i { s.dirAt p i with taint := true } false
      s.updPlaced part lv.sslot (fun x => { x with taint := true, origin := minOrigin x.origin (vhOrigin v.hdr) })
    | none => s

/-! ### Binary32 with the saturation of R203 -/

/-- A binary32 result and the kind of the first saturation on its way: 0 none, 1 above, 2 below. -/
structure Fv where
  v : BitVec 32
  k : Nat
  deriving DecidableEq, Repr

def Fv.of (x : BitVec 32) : Fv := ⟨x, 0⟩
/-- Is a magnitude above the largest finite binary32 value after rounding? -/
def over32 (x : Q) : Bool := x.n ≠ 0 && decide (127 < (roundSig 24 false x.n.natAbs x.d).2 + 23)
def Fv.mk' (k1 k2 : Nat) (x : Q) : Fv :=
  ⟨rnd32 x, if k1 ≠ 0 then k1 else if k2 ≠ 0 then k2 else if over32 x then (if 0 < x.n then 1 else 2) else 0⟩
def Fv.add (a b : Fv) : Fv := Fv.mk' a.k b.k ((val32 a.v).add (val32 b.v))
def Fv.sub (a b : Fv) : Fv := Fv.mk' a.k b.k ((val32 a.v).sub (val32 b.v))
def Fv.mul (a b : Fv) : Fv := Fv.mk' a.k b.k ((val32 a.v).mul (val32 b.v))
def Fv.scale (i : Int) (b : Fv) : Fv := Fv.mk' 0 b.k ((Q.ofInt i).mul (val32 b.v))
/-- Quotient; by 0 a free value (log entry 34). -/
def Fv.div (a b : Fv) : Fv :=
  if (val32 b.v).n = 0 then ⟨BitVec.ofNat 32 (Config.rowFn 0x41 a.v.toNat b.v.toNat 0), a.k⟩
  else Fv.mk' a.k b.k ((val32 a.v).div (val32 b.v))

/-- Sum in the order of R179: adjacent pairs within blocks of 64, then the blocks one after another. -/
def pairUp : List Fv → List Fv
  | a :: b :: t => a.add b :: pairUp t
  | l => l
def blockSum : Nat → List Fv → Fv
  | 0, l => l.headD (Fv.of 0)
  | n + 1, l => blockSum n (pairUp l)
def orderedSum : Nat → List Fv → Option Fv → Fv
  | 0, _, acc => acc.getD (Fv.of 0)
  | n + 1, l, acc =>
    if l.isEmpty then acc.getD (Fv.of 0)
    else
      let b := blockSum 6 (l.take 64)
      orderedSum n (l.drop 64) (some (match acc with | none => b | some a => a.add b))
def sum179 (l : List Fv) : Fv := orderedSum (l.length / 64 + 1) l none

/-! ### The exponential and the sampling unit (R202, R209-R212) -/

def State.pwcCoef (s : State) (p tbl seg i : Nat) : BitVec 32 := mget 0 s.desc.pwc (((p * 32 + tbl) * 256 + seg) * 4 + i)
/-- Piecewise-cubic value at `t` within a segment (R177). -/
def State.pwcAt (s : State) (p tbl seg : Nat) (t : Q) : BitVec 32 :=
  let c := s.pwcCoef p tbl seg
  let h (a b : BitVec 32) : BitVec 32 := add32 a (rnd32 (t.mul (val32 b)))
  h (c 0) (h (c 1) (h (c 2) (c 3)))
/-- Largest integer at or below x. -/
def Q.floor (x : Q) : Int := x.n / (x.d : Int)
/-- exp(x) for x at or below 0 (R202). -/
def State.expAt (s : State) (p : Nat) (x : BitVec 32) : BitVec 32 :=
  let y := val32 (mul32 x 0x3FB8AA3B#32)
  if y.lt ⟨-126, 1⟩ then 0
  else
    let n := y.floor
    let f := y.sub (Q.ofInt n)
    let g := f.mul ⟨256, 1⟩
    let i := g.floor
    rnd32 ((val32 (s.pwcAt p (s.fld (siteReg p rKV_CFG) 0 5) (i.toNat % 256) (g.sub (Q.ofInt i)))).mul (Q.pow2 n))
def State.expFv (s : State) (p : Nat) (x : Fv) : Fv := ⟨s.expAt p x.v, x.k⟩

/-- Philox-4x32 with 10 rounds (R212; PRESUMED, log entry 35): counter and key words. -/
def philoxRound (c : Nat × Nat × Nat × Nat) (k : Nat × Nat) : Nat × Nat × Nat × Nat :=
  let p0 := 0xD2511F53 * c.1
  let p1 := 0xCD9E8D57 * c.2.2.1
  ((p1 / 2 ^ 32) ^^^ c.2.1 ^^^ k.1, p1 % 2 ^ 32, (p0 / 2 ^ 32) ^^^ c.2.2.2 ^^^ k.2, p0 % 2 ^ 32)
def philox : Nat → Nat × Nat × Nat × Nat → Nat × Nat → Nat × Nat × Nat × Nat
  | 0, c, _ => c
  | n + 1, c, k => philox n (philoxRound c k) ((k.1 + 0x9E3779B9) % 2 ^ 32, (k.2 + 0xBB67AE85) % 2 ^ 32)
/-- The draw u of a position (R212). -/
def drawU (seed p : Nat) : Q :=
  let x := philox 10 (p % 2 ^ 32, 0, 0, 0) (seed % 2 ^ 32, seed / 2 ^ 32 % 2 ^ 32)
  ⟨((x.1 / 256 : Nat) : Int), 2 ^ 24⟩

/-- Insert a candidate by v descending, then TOKEN ascending. -/
def insCand (x : Int × Nat) : List (Int × Nat) → List (Int × Nat)
  | [] => [x]
  | y :: t => if y.1 < x.1 ∨ (y.1 = x.1 ∧ x.2 < y.2) then x :: y :: t else y :: insCand x t
/-- Running sums S. -/
def runSums : BitVec 32 → List (BitVec 32) → List (BitVec 32)
  | _, [] => []
  | a, e :: t => let b := add32 a e; b :: runSums b t

/-- What KV_SAMPLE draws (R211). -/
structure Draw where
  token  : Nat
  greedy : Bool
  empty  : Bool
  short  : Bool
  taint  : Bool
  logit  : BitVec 32
  prob   : BitVec 32
  keff   : Nat
  nc     : Nat
  deriving DecidableEq, Repr

/-- Draw from a list of (token, v). `free` stands for the values the manual does not state (log entry 36). -/
def State.drawFrom (s : State) (p pos seed topp topk : Nat) (temp lscale : BitVec 32) (free : Nat) (c : List (Nat × AccVal)) : Draw :=
  let valid := c.filter (fun e => e.2 != .ninf)
  let special := valid.filter (fun e => e.2 == .pinf || e.2 == .poison)
  let lfree := BitVec.ofNat 32 free
  match special with
  | e :: t =>
    ⟨t.foldl (fun m x => min m x.1) e.1, true, false, false, true, lfree, one32, min topk valid.length, valid.length⟩
  | [] =>
    let cs := (valid.map (fun e => (accInt e.2, e.1))).foldr insCand []
    match cs with
    | [] => ⟨free % 2 ^ 18, false, true, false, false, 0, lfree, 0, 0⟩
    | c0 :: _ =>
      let k := min topk cs.length
      let top := cs.take k
      let l (v : Int) : BitVec 32 := mul32 (rnd32 (Q.ofInt v)) lscale
      if (val32 temp).n = 0 then ⟨c0.2, true, false, decide (k < topk), false, l c0.1, one32, k, cs.length⟩
      else
        let it := rnd32 (Q.div ⟨1, 1⟩ (val32 temp))
        let es := top.map (fun e => s.expAt p (mul32 (sub32 (l e.1) (l c0.1)) it))
        let ss := runSums 0 es
        let cut := rnd32 ((Q.mk topp 32768).mul (val32 (ss.getLastD 0)))
        let m := (ss.findIdx? (fun x => le32 cut x)).getD (k - 1)
        let target := rnd32 ((drawU seed pos).mul (val32 (ss.getD m 0)))
        let j := ((ss.take (m + 1)).findIdx? (fun x => lt32 target x)).getD m
        let e := top.getD j c0
        ⟨e.2, false, false, decide (k < topk), false, l e.1, (Fv.div ⟨es.getD j 0, 0⟩ ⟨ss.getD m 0, 0⟩).v, k, cs.length⟩

/-- Token record (Table 07.13). -/
def tokenRecord (d : Draw) (late taint : Bool) (origin pos tag slot : Nat) : Nat :=
  packNat 32 [d.token % 2 ^ 18 + b2n taint * 2 ^ 24 + b2n late * 2 ^ 25 + b2n d.short * 2 ^ 26 + b2n d.empty * 2 ^ 27 +
      b2n d.greedy * 2 ^ 28, d.logit.toNat, d.prob.toNat, d.nc % 2 ^ 13 + d.keff % 2 ^ 9 * 2 ^ 13, origin, pos % 2 ^ 18,
    slot % 2 ^ 14 + tag % 2 ^ 16 * 2 ^ 16]

/-- KV_SAMPLE of one position (R211, R213): the list at `inOff`, the record at `out`. -/
def State.kvSamplePos (s : State) (p part tag cmax : Nat) (lscale : BitVec 32) (lv : Live) (inOff out : Nat) : State :=
  let rd := s.spadRead part p lv.sslot 0x14 inOff (64 * ceilDiv (64 + 8 * cmax) 64)
  let s := rd.2
  let h := s.spadBytes p inOff 64
  let n := min (bits h 0 13) cmax
  let cs := (unpackNat 64 n (s.spadBytes p (inOff + 64) (8 * n))).map (fun e =>
    (bits e 0 18, accDec (BitVec.ofNat 32 (bits e 32 32))))
  let st := s.stream lv.stream
  let f := s.takeFree
  let s := f.2
  let d := s.drawFrom p (lv.pos + 1) st.seed (bits st.topw 16 16) (bits st.topw 0 9) (BitVec.ofNat 32 st.temp) lscale f.1.toNat cs
  let late := rd.1 || bit h 17
  let taint := bit h 16 || d.taint
  let origin := wf h 1 0 32
  let x := tokenRecord d late taint origin (lv.pos + 1) tag lv.sslot
  let s := s.setSpadBytes p out 64 x
  let s := if late then s.withhold part lv.sslot else s
  let s := s.updPlaced part lv.sslot (fun y => { y with draw := some (BitVec.ofNat 512 x) })
  let r (o : Nat) := siteReg p o
  let s := if d.empty then s.journal 0x018A part lv.sslot p tag (lv.pos + 1) else s.bump (r rKV_CNT_SAMPLE)
  if d.short then (s.bump (r rKV_CNT_SSHORT)).raiseOnce p 0x0189 part lv.sslot p (d.nc + bits st.topw 0 9 * 2 ^ 13) tag else s

/-! ### Attention (R201, R203) -/

/-- A query tile: its gain and its S8 codes. -/
structure QTile where
  gain  : BitVec 32
  codes : List Int
  deriving DecidableEq, Repr

/-- One record group read from a log. -/
structure KvRec where
  k : List Int
  v : List Int
  r : List Int
  ksc : BitVec 32
  vsc : BitVec 32
  rsc : BitVec 32
  pos : Nat
  flags : Nat
  deriving DecidableEq, Repr

/-- Group `g` of the record of token `t`. -/
def State.kvRec (s : State) (p i ly g t : Nat) : KvRec :=
  let b := t * lyRb ly + g * lySec ly
  let part (o n : Nat) : List Int := (List.range n).map (fun j => signed 8 (s.logByte p i (b + o + j)))
  let e := b + lySec ly
  ⟨part 0 (lyDk ly), part (lyDk ly) (lyDv ly), part (lyDk ly + lyDv ly) (lyDr ly),
    BitVec.ofNat 32 (s.logNat p i (e - 16) 4), BitVec.ofNat 32 (s.logNat p i (e - 12) 4), BitVec.ofNat 32 (s.logNat p i (e - 8) 4),
    s.logNat p i (e - 4) 2, s.logNat p i (e - 2) 2⟩

/-- Sum over the segments of channels `c0` to `c0 + n - 1` of a head, against codes `ks` (R201). -/
def segSum (ts : List QTile) (c0 : Nat) (ks : List Int) : Nat → Nat → Fv → Fv
  | 0, _, acc => acc
  | fuel + 1, j, acc =>
    if ks.length ≤ j then acc
    else
      let ch := c0 + j
      let n := min (64 - ch % 64) (ks.length - j)
      let tile := ts.getD (ch / 64) ⟨one32, []⟩
      let d := (List.range n).foldl (fun a x => a + tile.codes.getD (ch % 64 + x) 0 * ks.getD (j + x) 0) (0 : Int)
      segSum ts c0 ks fuel (j + n) (acc.add (Fv.scale d (Fv.div (Fv.of one32) (Fv.of tile.gain))))

/-- Running state of one head: M (none is minus infinity), l and acc. -/
structure HeadAcc where
  m   : Option Fv
  l   : Fv
  acc : List Fv
  deriving DecidableEq, Repr

def maxFv (a b : Fv) : Fv := if lt32 a.v b.v then b else a

/-- One span of 256 token positions (R201). -/
def State.spanStep (s : State) (p : Nat) (dv : Nat) (scores : List Fv) (recs : List KvRec) (h : HeadAcc) : HeadAcc :=
  let top := match scores with
    | x :: t => t.foldl maxFv x
    | [] => Fv.of 0
  let mn := match h.m with
    | none => top
    | some m => maxFv m top
  let a := match h.m with
    | none => Fv.of 0
    | some m => s.expFv p (m.sub mn)
  let es := scores.map (fun x => s.expFv p (x.sub mn))
  let ws := (es.zip recs).map (fun e => e.1.mul (Fv.of e.2.vsc))
  let wm := match ws with
    | x :: t => t.foldl maxFv x
    | [] => Fv.of 0
  let zero := (val32 wm.v).n = 0
  let inv := Fv.div (Fv.of 0x437F0000#32) wm
  let qf := ws.map (fun w => w.mul inv)
  let qs := qf.map (fun w => roundQ (val32 w.v))
  let sat := ((qf.map (fun w => w.k)).find? (fun k => k != 0)).getD 0
  let r := if zero then Fv.of 0 else Fv.mk' wm.k sat (Q.div (val32 wm.v) ⟨255, 1⟩)
  let pd (d : Nat) : Int := if zero then 0 else (qs.zip recs).foldl (fun x e => x + e.1 * e.2.v.getD d 0) 0
  { m := some mn, l := (h.l.mul a).add (sum179 es),
    acc := (List.range dv).map (fun d => ((h.acc.getD d (Fv.of 0)).mul a).add (Fv.scale (pd d) r)) }

/-- All spans of one head over tokens `t0` to `n - 1`. -/
def State.headLoop (s : State) (p i ly g c0 n : Nat) (ts : List QTile) (c : Fv) : Nat → Nat → HeadAcc → HeadAcc
  | 0, _, h => h
  | fuel + 1, t0, h =>
    if n ≤ t0 then h
    else
      let recs := (List.range (min 256 (n - t0))).map (fun j => s.kvRec p i ly g (t0 + j))
      let score (x : KvRec) : Fv :=
        let sk := segSum ts c0 x.k (lyDk ly) 0 (Fv.of 0)
        let sr := segSum ts (c0 + lyDk ly) x.r (lyDr ly) 0 (Fv.of 0)
        ((sk.mul (Fv.of x.ksc)).add (sr.mul (Fv.of x.rsc))).mul c
      State.headLoop s p i ly g c0 n ts c fuel (t0 + 256) (s.spanStep p (lyDv ly) (recs.map score) recs h)

/-- The outputs of a position that attends `n` tokens: one value per head and value channel, with saturation kinds. -/
def State.attend (s : State) (p i ly n : Nat) (ts : List QTile) : List Fv :=
  let heads := lyHeads ly
  let c := Fv.mul (Fv.of (lySm ly)) (Fv.of (lyQstep ly))
  (List.range heads).flatMap (fun h =>
    let g := h / (heads / lyGroups ly)
    let a := s.headLoop p i ly g (h * (lyDk ly + lyDr ly)) n ts c (n / 256 + 1) 0 ⟨none, Fv.of 0, []⟩
    (List.range (lyDv ly)).map (fun d => (a.acc.getD d (Fv.of 0)).div a.l))

/-- Write the output vectors of a position: WIDE vectors of 256 values (R201). -/
def State.writeWide (s : State) (p off per tag stream token origin : Nat) (taint late : Bool) : Nat → List (BitVec 16) → State
  | 0, _ => s
  | fuel + 1, xs =>
    if xs.isEmpty then s
    else
      let v := xs.take per
      let h := mkHdr 2 0 (per / 32 - 1) v.length 0 0 false taint late false false origin one32 tag stream 0 token 0 0
      State.writeWide (s.writeVec p off h (packNat 16 (v.map BitVec.toNat)) (2 * per)) p (off + 64 * ceilDiv (32 + 2 * per) 64) per
        tag stream token origin taint late fuel (xs.drop per)

end Sys2Proof.Machine
end

