-- ==== Sys2Proof/Machine/DescCheck.lean ====
section
/-! DEFINITION. Descriptors: fields, loop levels and iteration points (R153-R161), the row function program table (R177),
and the issue checks of Table 06.11 (R181, R182, R199). -/

namespace Sys2Proof.Machine

/-! ### Fields (Tables 06.1, 06.4, 07.9) -/

def dVer (d : Nat) : Nat := wf d 0 28 4
def dOpc (d : Nat) : Nat := wf d 0 24 4
def dAfmt (d : Nat) : Nat := wf d 0 22 2
def dWfmt (d : Nat) : Nat := wf d 0 19 3
def dTmode (d : Nat) : Nat := wf d 0 17 2
def dMrgout (d : Nat) : Bool := bit d 16
def dTag (d : Nat) : Nat := wf d 0 0 16
def dLayer (d : Nat) : Nat := wf d 1 24 8
def dWait (d : Nat) : Nat := wf d 1 14 10
def dSig (d : Nat) : Nat := wf d 1 4 10
def dSset (d : Nat) : Nat := wf d 1 0 4
def dSlack (d : Nat) : Nat := wf d 2 24 8
def dBank (d : Nat) : Nat := wf d 2 16 8
def dIslot (d : Nat) : Nat := wf d 2 10 6
def dKrem (d : Nat) : Nat := wf d 2 0 10
def dCrem (d : Nat) : Nat := wf d 3 24 8
def dOpenEnd (d : Nat) : Bool := bit (wf d 3 0 32) 23
def dComb (d : Nat) : Nat := wf d 3 0 19
def dProg (d : Nat) : Nat := wf d 4 26 6
def dInOff (d : Nat) : Nat := wf d 4 0 26
def dHalf (d : Nat) : Nat := wf d 5 31 1
def dOutOff (d : Nat) : Nat := wf d 5 0 26
def dSlotBase (d : Nat) : Nat := wf d 6 16 16
def dBudget (d : Nat) : Nat := wf d 6 0 16
def lvRem (d l : Nat) : Bool := bit (wf d (7 + l) 0 32) 30
def lvOrder (d l : Nat) : Nat := wf d (7 + l) 27 3
def lvTgt (d l : Nat) : Nat := wf d (7 + l) 24 3
def lvStride (d l : Nat) : Int := signed 24 (wf d (7 + l) 0 24)
def lvBound (d l : Nat) : Nat := bits d (32 * (13 + l / 2) + 16 * (l % 2)) 16
/-- Mover addresses (Table 06.4). -/
def dSrc (d : Nat) : Nat := 64 * wf d 2 0 32 + 2 ^ 38 * wf d 3 22 10
def dDst (d : Nat) : Nat := 64 * wf d 4 0 32 + 2 ^ 38 * wf d 5 22 10
def dIdx (d : Nat) : Nat := wf d 3 0 20
def dRec (d : Nat) : Nat := wf d 5 0 20
/-- KV words (Table 07.9). -/
def dLsel (d : Nat) : Nat := wf d 2 28 4
def dApp (d : Nat) : Bool := bit (wf d 2 0 32) 27
def dKvIn (d : Nat) : Nat := wf d 2 0 26
def dKvOut (d : Nat) : Nat := wf d 3 0 26
def dKvAux (d : Nat) : Nat := wf d 4 0 26
def dKvParam (d : Nat) : Nat := wf d 5 0 32

def isQuadOp (o : Nat) : Bool := o == 1 || o == 2 || o == 3
def isMover (o : Nat) : Bool := o == 4 || o == 5 || o == 6
def isKv (o : Nat) : Bool := o == 8 || o == 9 || o == 10
/-- Target codes by kind of opcode. -/
def tgtSlot (d : Nat) : Nat := if isMover (dOpc d) then 4 else 3

/-! ### Iteration points (R155, R157, R160) -/

/-- Levels 1-5, outermost first. -/
def outerLevels (d : Nat) : List Nat := [5, 4, 3, 2, 1].filterMap (fun o => [1, 2, 3, 4, 5].find? (fun l => lvOrder d l == o))
/-- The points of a nest of levels, in visiting order. -/
def points (d : Nat) : List Nat → List (List (Nat × Nat))
  | [] => [[]]
  | l :: t => (List.range (lvBound d l + 1)).flatMap (fun i => (points d t).map (fun r => (l, i) :: r))
/-- Index of a level at a point. -/
def ptIdx (pt : List (Nat × Nat)) (l : Nat) : Nat := ((pt.find? (fun e => e.1 == l)).map (·.2)).getD 0
/-- What the levels with a target of `tg` add at a point. -/
def ptAdd (d : Nat) (tg : List Nat) (pt : List (Nat × Nat)) : Int :=
  pt.foldl (fun a e => if tg.contains (lvTgt d e.1) then a + (e.2 : Int) * lvStride d e.1 else a) 0
def combLevels (d : Nat) : List Nat := (outerLevels d).filter (fun l => lvTgt d l == 2)
def walkLevels (d : Nat) : List Nat := (outerLevels d).filter (fun l => lvTgt d l != 2)
/-- Global comb IDs of the comb set, in visiting order of the COMB levels. -/
def combPoints (d : Nat) : List (List (Nat × Nat)) := points d (combLevels d)
def combId (d : Nat) (pt : List (Nat × Nat)) : Int := (dComb d : Int) + ptAdd d [2] pt
/-- Position of a tile in the visiting order of the outer levels (R160). -/
def tilePos (d : Nat) (pt : List (Nat × Nat)) : Nat :=
  (outerLevels d).foldl (fun k l => k * (lvBound d l + 1) + ptIdx pt l) 0
/-- Number of tiles. -/
def tileCount (d : Nat) : Nat := (outerLevels d).foldl (fun k l => k * (lvBound d l + 1)) 1
/-- The SLOT level, if there is one. -/
def slotLevel (d : Nat) : Option Nat := [1, 2, 3, 4, 5].find? (fun l => lvTgt d l == tgtSlot d)
/-- Product of the iteration counts of the levels that satisfy `f`. -/
def iterations (d : Nat) (f : Nat → Bool) : Nat := (List.range 6).foldl (fun k l => if f l then k * (lvBound d l + 1) else k) 1
/-- Bytes of an input vector slot (R163). -/
def inBytes (d : Nat) : Nat := if dWfmt d = 3 then 1088 else 576
/-- Output pitch of Table 06.5. -/
def outPitch (mode ofmt wfmt : Nat) : Nat :=
  let n := fmtChans wfmt
  let b := if mode = 0 then (if ofmt = 0 then n / 2 else if ofmt = 2 then 2 * n else n) else if mode = 1 then 2 * n else 4 * n
  64 * ceilDiv (32 + b) 64

/-! ### Row function programs (R177) -/

def State.rfuEntry (s : State) (p prog i : Nat) : Nat := (mget 0 s.desc.rfu ((p * 64 + prog) * 4 + i)).toNat
def rfFn (e : Nat) : Nat := wf e 0 0 6
def rfSrcA (e : Nat) : Nat := wf e 0 6 2
def rfSrcB (e : Nat) : Nat := wf e 0 8 3
def rfTbl (e : Nat) : Nat := wf e 0 11 5
def rfLen (e : Nat) : Nat := wf e 0 16 16
def rfParam (e : Nat) : BitVec 32 := BitVec.ofNat 32 (wf e 1 0 32)
def rfParam2 (e : Nat) : BitVec 32 := BitVec.ofNat 32 (wf e 2 0 32)
def rfOffA (e : Nat) : Nat := wf e 3 0 26
def rfOffB (e : Nat) : Nat := wf e 4 0 26
def rfOffG (e : Nat) : Nat := wf e 5 0 26
/-- The entries of a program: FN 0 ends it. -/
def State.program (s : State) (p prog : Nat) : List Nat :=
  ((List.range 4).map (fun i => s.rfuEntry p prog i)).takeWhile (fun e => rfFn e != 0)
/-- Cycles of one entry (Table 06.10). -/
def rfCycles (e : Nat) : Nat :=
  let n := rfLen e / 64
  match rfFn e with
  | 5 => 2 * n + 24
  | 6 => 2 * n + 24
  | 7 => 3 * n + 36
  | 9 => n + 14
  | 10 => n + 8
  | 11 => n + 8
  | _ => n + 12
/-- Bytes a program writes: WIDE vectors of 512 values. -/
def State.programOut (s : State) (p prog : Nat) : Nat :=
  match (s.program p prog).getLast? with
  | some e => 1088 * ceilDiv (rfLen e) 512
  | none => 0

/-! ### The issue checks (Table 06.11) -/

/-- A failed check: code, field row, extra detail bits and detail word 1 (none: the descriptor's offset). -/
structure DescFail where
  code : Nat
  row  : Nat
  ext  : Nat
  d1   : Option Nat
  deriving DecidableEq, Repr

/-- The first failure of a list of checks. -/
def firstFail {α : Type} (l : List (Option α)) : Option α := l.findSome? id
/-- A check that fails with a code and row when `b` holds. -/
def failIf (b : Bool) (code row : Nat) : Option DescFail := if b then some ⟨code, row, 0, none⟩ else none

/-- Row, word, lowest bit and width of the fields of Table 06.1 that some opcode leaves unused. -/
def descFields : List (Nat × Nat × Nat × Nat) :=
  [(2, 0, 22, 2), (3, 0, 19, 3), (4, 0, 17, 2), (5, 0, 16, 1), (10, 1, 0, 4), (11, 2, 24, 8), (12, 2, 16, 8), (13, 2, 10, 6),
    (14, 2, 0, 10), (15, 3, 24, 8), (16, 3, 23, 1), (17, 3, 19, 4), (18, 3, 0, 19), (19, 4, 26, 6), (20, 4, 0, 26), (21, 5, 31, 1),
    (22, 5, 26, 5), (23, 5, 0, 26), (24, 6, 16, 16)]
/-- Rows that an opcode must leave 0 (R153, R165, R169; log entry 37). -/
def unusedRows (d : Nat) : List Nat :=
  match dOpc d with
  | 0 => [2, 3, 4, 5, 10, 11, 12, 13, 14, 15, 16, 17, 18, 19, 20, 21, 22, 23, 24]
  | 1 => [17, 19, 21, 22] ++ (if dMrgout d then [23] else [])
  | 2 => [17, 22] ++ (if dMrgout d then [23] else [])
  | 3 => [5, 11, 17, 19, 21, 22]
  | 7 => [2, 3, 4, 5, 10, 11, 12, 13, 14, 15, 16, 17, 21, 22]
  | _ => [2, 3, 4, 5, 10]

def levelRsv (d : Nat) : Bool := (List.range 6).any (fun l => bit (wf d (7 + l) 0 32) 31)
/-- Threshold block (Table 06.6). -/
def State.thrBlock (s : State) (p d : Nat) : Nat := s.spadBytes p (dOutOff d) 64

def State.check3 (s : State) (p d : Nat) : Option DescFail :=
  let o := dOpc d
  let f (r : Nat) : Option DescFail := some ⟨0x3143, r, 0, none⟩
  if isKv o then none
  else
    match descFields.find? (fun e => (unusedRows d).contains e.1 && wf d e.2.1 e.2.2.1 e.2.2.2 != 0) with
    | some e => f e.1
    | none =>
      if isMover o && wf d 3 20 2 != 0 then f 2
      else if isMover o && o != 4 && dIdx d != 0 then f 3
      else if o == 5 && wf d 4 0 32 != 0 then f 4
      else if o == 5 && wf d 5 22 10 != 0 then f 5
      else if isMover o && wf d 5 20 2 != 0 then f 6
      else if isMover o && o != 5 && dRec d != 0 then f 7
      else if levelRsv d then f 26
      else if o == 3 && (wf (s.thrBlock p d) 1 26 4 != 0 || bits (s.thrBlock p d) 64 448 != 0) then f 23
      else none

def State.check4 (s : State) (p part d : Nat) : Option DescFail :=
  let o := dOpc d
  let f (b : Bool) (r : Nat) := failIf b 0x3144 r
  if isKv o then
    firstFail
      [f ((unusedRows d).any (fun r => (descFields.find? (fun e => e.1 == r)).any (fun e => wf d e.2.1 e.2.2.1 e.2.2.2 != 0))) 2,
       f (decide ((s.part part).g.nlayer ≤ dLayer d)) 7,
       f (if o = 10 then dLsel d != 0 else !(lyLoaded (s.kvLayout p (dLsel d)))) 0,
       f (dApp d && o != 9) 1, f (wf d 2 26 1 != 0) 2, f (wf d 3 26 6 != 0) 4, f (o == 8 && dKvOut d != 0) 5,
       f (wf d 4 26 6 != 0) 6,
       f (if o = 10 then dKvAux d < 256 || 4096 < dKvAux d else (o == 8 || !(dApp d)) && dKvAux d != 0) 7,
       f (if o = 8 then dKvParam d != 0 else o == 9 && (dKvParam d == 0 || decide (2 ^ 24 < dKvParam d))) 8,
       f (levelRsv d) 26]
  else if isQuadOp o then
    firstFail
      [f (dAfmt d == 3) 2, f (decide (3 < dWfmt d)) 3, f (dTmode d == 3) 4,
       f (o == 3 && decide (1 < wf (s.thrBlock p d) 1 30 2)) 23]
  else none

/-- Comb IDs within the site of the descriptor's comb set. -/
def combSet (d : Nat) : List Nat := (combPoints d).map (fun pt => (combId d pt).toNat % 4096)

def State.check5 (s : State) (p st d : Nat) : Option DescFail :=
  let base := (s.lsite p).getD 0 * 4096 + st * 1024
  let inQ (c : Int) : Bool := decide ((base : Int) ≤ c) && decide (c < (base : Int) + 1024)
  let bad : Bool :=
    if isQuadOp (dOpc d) then
      decide (1024 < iterations d (fun l => l != 0 && lvTgt d l == 2)) ||
        (let cs := (combPoints d).map (combId d)
         cs.any (fun c => !(inQ c)) || decide (cs.dedup.length ≠ cs.length))
    else dOpc d == 7 && !(inQ (dComb d))
  failIf bad 0x3145 18

/-- The bank of each level-0 iteration on a comb: one further, or two after the first of a dense pair (R156; log entry 38). -/
def State.bankWalk (s : State) (pc wfmt : Nat) : Nat → Nat → List Nat
  | 0, _ => []
  | n + 1, b => b :: State.bankWalk s pc wfmt n (if wfmt = 3 && (s.slotHdr (slotKey pc (s.liveSlot pc b))).dense then b + 2 else b + 1)

def State.bankOk (s : State) (pc wfmt b : Nat) : Bool :=
  let h (x : Nat) := s.slotHdr (slotKey pc (s.liveSlot pc x))
  decide (b < 64) && (h b).valid &&
    (if wfmt = 3 then
       (h b).format == 3 || ((h b).dense && decide (b < 63) && (h (b + 1)).valid && (h (b + 1)).dense)
     else (h b).format == wfmt)

def State.check6 (s : State) (p d : Nat) : Option DescFail :=
  if isQuadOp (dOpc d) then
    ((combSet d).flatMap (fun k => (s.bankWalk (s.pcomb p k) (dWfmt d) (lvBound d 0 + 1) (dBank d)).map (fun b => (k, b)))).findSome?
      (fun e => if s.bankOk (s.pcomb p e.1) (dWfmt d) e.2 then none else some ⟨0x3146, 12, e.2 % 128, none⟩)
  else none

/-- Mark of a comb whose last tile is left FILLING: weight format and first comb of the descriptor. -/
def openMark (d : Nat) : Nat := 1 + dWfmt d + 8 * dComb d

def State.setModes (s : State) (p d : Nat) : List Nat :=
  (combSet d).map (fun k => (s.scaleSet (scaleKey (s.pcomb p k) (dSset d))).mode)

/-- The tiles left FILLING when the predecessor of a descriptor on stream `st` has issued its last plane (R151, R167): those left
now, or, while it has not run yet, those that it will leave. -/
def State.openAfter (s : State) (p st : Nat) : SMap Nat :=
  let x := mget DStream.init s.desc.streams (p * 8 + st)
  match x.running with
  | some r =>
    if x.issued || !(isQuadOp (dOpc r.toNat)) then s.comb.openTile
    else
      let d := r.toNat % 2 ^ 512
      (combSet d).foldl (fun m k => mset 0 m (s.pcomb p k) (if dOpenEnd d then openMark d else 0)) s.comb.openTile
  | none => s.comb.openTile

def State.check7 (s : State) (p st d : Nat) : Option DescFail :=
  let o := dOpc d
  let f (b : Bool) (r : Nat) := failIf b 0x3147 r
  if isQuadOp o then
    let left := s.openAfter p st
    let marks := (combSet d).map (fun k => mget 0 left (s.pcomb p k))
    let m := marks.headD 0
    let same := marks.all (fun x => x == m) && m != 0 && m % 8 == 1 + dWfmt d &&
      (left.filter (fun e => e.2 == m)).length == marks.length
    firstFail
      [f (dOpenEnd d && o != 1) 16,
       f (if marks.any (fun x => x != 0) then dTmode d != 1 || !same else dTmode d == 1) 4,
       f ((dTmode d == 2 || dMrgout d) && (s.setModes p d).any (fun x => x != 2)) 10,
       f (o == 3 && dSset d != 0) 10]
  else none

def State.check8 (s : State) (p d : Nat) : Option DescFail :=
  failIf (dOpc d == 2 && dHalf d == 0 && (s.setModes p d).any (fun x => decide (1 < x))) 0x3148 10

def check9 (d : Nat) : Option DescFail :=
  let o := dOpc d
  let ls := List.range 6
  let at' (f : Nat → Bool) (r : Nat) : Option DescFail := (ls.find? f).map (fun l => ⟨0x3149, r, l, none⟩)
  let slots := ls.filter (fun l => lvTgt d l == tgtSlot d)
  firstFail
    [at' (fun l => decide (5 < lvOrder d l) || (ls.filter (fun m => decide (m < l))).any (fun m => lvOrder d m == lvOrder d l)) 28,
     at' (fun l => l == 0 && lvOrder d 0 != 0) 28,
     at' (fun l => if isMover o then
        lvTgt d l == 7 || (l == 0) != (lvTgt d l == 3) || (lvTgt d l == 5 && o != 4) || (lvTgt d l == 6 && o != 5)
       else if isKv o then (if l = 0 then lvTgt d l != 1 else lvTgt d l != 0 && lvTgt d l != 3)
       else decide (3 < lvTgt d l) || (l == 0 && lvTgt d l != 1)) 29,
     (if 1 < slots.length then some ⟨0x3149, 29, slots.getD 1 0, none⟩ else none),
     at' (fun l => lvRem d l && !(isQuadOp o && (l == 0 || lvTgt d l == 2))) 27,
     at' (fun l => (isMover o || lvTgt d l == 1 || lvTgt d l == 3) && lvStride d l % 64 != 0) 30,
     at' (fun l => if isMover o then l == 0 && lvStride d 0 != 64 else isKv o && l == 0 && lvStride d 0 != 0) 30,
     ((ls.find? (fun l => isKv o && lvTgt d l != 3 && lvBound d l != 0)).map (fun l => ⟨0x3149, 31 + l / 2, l, none⟩)),
     (if isKv o && slots.isEmpty then some ⟨0x3149, 29, 0, none⟩ else none),
     (if isQuadOp o && (decide (fmtInputs (dWfmt d) < dKrem d) || (dWfmt d == 3 && dKrem d % 4 != 0)) then some ⟨0x3149, 14, 0, none⟩ else none),
     (if isQuadOp o && decide (fmtChans (dWfmt d) < dCrem d) then some ⟨0x3149, 15, 0, none⟩ else none),
     (if 2 ^ 32 ≤ iterations d (fun _ => true) then some ⟨0x3149, 31, 0, none⟩ else none)]

/-- Worst-case issue cycles (R182, Table 07.10). -/
def State.worst (s : State) (p d : Nat) : Nat :=
  let o := dOpc d
  let pos := match slotLevel d with
    | some l => lvBound d l + 1
    | none => 1
  if o = 0 then dBudget d * 128
  else if isQuadOp o then
    let pair := (combSet d).any (fun k => (s.bankWalk (s.pcomb p k) (dWfmt d) (lvBound d 0 + 1) (dBank d)).any (fun b =>
      dWfmt d == 3 && (s.slotHdr (slotKey (s.pcomb p k) (s.liveSlot (s.pcomb p k) b))).dense))
    iterations d (fun l => lvTgt d l != 2) * planesOf (dAfmt d) * (if pair then 2 else 1)
  else if o = 7 then ((s.program p (dProg d)).map rfCycles).foldl (· + ·) 0 * iterations d (fun l => l != 0)
  else if isMover o then iterations d (fun _ => true)
  else if o = 8 then 8 + 2 * pos * lyGroups (s.kvLayout p (dLsel d))
  else if o = 9 then 24 + dKvParam d
  else pos * (ceilDiv (dKvAux d) 16 + 560)

def State.check10 (s : State) (p d : Nat) : Option DescFail :=
  let w := s.worst p d
  if dBudget d * 128 < w then some ⟨0x314A, 25, 0, some (min (2 ^ 32 - 1) w)⟩ else none

/-- One area of an issue check: byte offset (may be negative), granules, read, write, field row. -/
structure Area where
  off : Int
  n   : Nat
  rd  : Bool
  wr  : Bool
  row : Nat
  deriving DecidableEq, Repr

/-- Areas in scratchpad that the entries of a program read: gains and biases. -/
def State.programAreas (s : State) (p d : Nat) : List Area :=
  (s.program p (dProg d)).flatMap (fun e =>
    (if rfSrcB e = 2 then [(⟨(rfOffB e : Int), ceilDiv (2 * rfLen e) 64, true, false, 19⟩ : Area)] else []) ++
    (if rfFn e = 6 ∨ rfFn e = 7 then [⟨(rfOffG e : Int), ceilDiv (2 * rfLen e) 64, true, false, 19⟩] else []))
/-- Staged values that an entry reads: the first value past them. -/
def rfReach (e : Nat) : Nat :=
  max (if rfSrcA e = 0 then rfOffA e / 2 + rfLen e else 0) (if rfSrcB e = 1 then rfOffB e / 2 + rfLen e else 0)
/-- Rows of the source table that a GATHER's index list can select: the first and the last below LIMIT. -/
def State.indexEnds (s : State) (p d : Nat) : List Int :=
  match if dOpc d = 4 then [1, 2, 3, 4, 5].find? (fun l => lvTgt d l == 5) else none with
  | some l => [0, ((s.spadBytes p (64 * dIdx d) 4 : Nat) - 1 : Nat) * lvStride d l]
  | none => [0]
/-- Every row of the source table of a GATHER. -/
def State.indexRows (s : State) (p d : Nat) : List Int :=
  match if dOpc d = 4 then [1, 2, 3, 4, 5].find? (fun l => lvTgt d l == 5) else none with
  | some l => (List.range (s.spadBytes p (64 * dIdx d) 4)).map (fun (i : Nat) => (i : Int) * lvStride d l)
  | none => [0]

/-- Scatter record fields (Table 06.7). -/
def srMopen (r : Nat) : Bool := bit r 31
def srNval (r : Nat) : Nat := wf r 0 27 4
def srMctx (r : Nat) : Nat := wf r 0 16 11
def srNctx (r : Nat) : Nat := wf r 0 8 8
def srLayer (r : Nat) : Nat := wf r 0 0 8
def srNdest (r : Nat) : Nat := wf r 1 26 4 + 1
def srDest (r : Nat) : Nat := wf r 1 0 26
def srStage (r : Nat) : Nat := wf r 2 0 26
def srToken (r : Nat) : Nat := wf r 3 16 16
def srStream (r : Nat) : Nat := wf r 3 0 14
def srExpect (r : Nat) : Nat := bits r 128 256
def srMwgt (e : Nat) : Nat := bits e 16 16
def srRank (e : Nat) : Nat := bits e 8 8
def srLsite (e : Nat) : Nat := bits e 0 7
def srRgran (e : Nat) : Nat := bits e 32 20
/-- Destination entries of the record at byte offset `off`. -/
def State.srEntries (s : State) (p off : Nat) : List Nat :=
  let n := srNdest (s.spadBytes p off 64)
  unpackNat 64 n (s.spadBytes p (off + 64) (8 * n))

/-- The areas of the scratchpad of site `p` that a descriptor names (Table 06.11 row 11). `mate` is the other half of a fused
pair. -/
def State.areas (s : State) (p d mate : Nat) : List Area :=
  let o := dOpc d
  let walk := points d (walkLevels d)
  let g (b : Nat) : Nat := ceilDiv b 64
  let key := scaleKey (s.pcomb p ((combSet d).headD 0)) (dSset d)
  let x := s.scaleSet key
  let pitch := outPitch x.mode x.ofmt (dWfmt d)
  let out : Int := dOutOff d
  let ins : List Area := walk.flatMap (fun pt => (List.range (lvBound d 0 + 1)).map (fun (i : Nat) =>
    (⟨(dInOff d : Int) + ptAdd d [1, 3] pt + (i : Int) * lvStride d 0, g (inBytes d), true, false, 20⟩ : Area)))
  let grans : List Area := if dMrgout d || (o == 2 && dMrgout mate) then
      walk.map (fun pt => ⟨(dInOff d : Int) + ptAdd d [1, 3] pt - 64, 1, true, true, 20⟩) else []
  let tiles := tileCount d
  let perPoint := (combPoints d).length
  if o = 1 then grans ++ ins ++ (if dMrgout d then [] else [⟨out, tiles * (pitch / 64), dTmode d == 2, true, 23⟩])
  else if o = 2 then
    if dHalf d = 0 then
      grans ++ ins ++ [⟨out, 2 * perPoint * (pitch / 64), true, true, 23⟩] ++ s.programAreas p d
    else
      let buf := g (s.programOut p (dProg mate))
      [⟨(dInOff d : Int), 2 * buf, true, true, 20⟩] ++
        (List.range 2).flatMap (fun (b : Nat) => (List.range (lvBound d 0 + 1)).map (fun (i : Nat) =>
          (⟨(dInOff d : Int) + 64 * b * buf + (i : Int) * lvStride d 0, g (inBytes d), true, false, 20⟩ : Area))) ++
        (if dMrgout d then [] else [⟨out, tiles * (pitch / 64), dTmode d == 2, true, 23⟩])
  else if o = 3 then
    let ex := (bits (s.thrBlock p d) 32 26 : Int)
    ins ++ [⟨out, 1, true, false, 23⟩, ⟨out + 64, tiles, false, true, 23⟩] ++
      (if wf (s.thrBlock p d) 1 30 2 = 0 then [⟨ex, tiles * (if dWfmt d = 0 then 17 else 9), false, true, 23⟩] else [])
  else if o = 7 then
    let reach := (s.program p (dProg d)).foldl (fun n e => max n (rfReach e)) 0
    walk.map (fun pt => (⟨(dInOff d : Int) + ptAdd d [1, 3] pt, 17 * ceilDiv reach 512, true, false, 20⟩ : Area)) ++
      s.programAreas p d ++ [⟨out, tiles * (s.programOut p (dProg d) / 64), false, true, 23⟩]
  else if isMover o then
    let n := lvBound d 0 + 1
    let lists : List Area :=
      if o = 4 then [⟨64 * (dIdx d : Int), 1 + g (8 * iterations d (fun l => lvTgt d l == 5)), true, false, 3⟩] else []
    let rec0 (pt : List (Nat × Nat)) : Int := 64 * (dRec d : Int) + ptAdd d [6] pt
    let recs : List Area :=
      if o = 5 then walk.flatMap (fun pt => ⟨rec0 pt, 3, true, false, 7⟩ ::
        ((s.srEntries p (rec0 pt).toNat).filter (fun e => s.phys (srLsite e) == p)).map (fun e =>
          (⟨64 * (srRgran e : Int), n + 1, false, true, 7⟩ : Area))) else []
    let src (pt : List (Nat × Nat)) : Int := (addrOfs (dSrc d) : Int) + ptAdd d [1, 3, 4] pt
    let dst (pt : List (Nat × Nat)) : Int := (addrOfs (dDst d) : Int) + ptAdd d [2] pt
    let pts := points d (outerLevels d)
    (if addrSpace (dSrc d) = 0 ∧ addrSite (dSrc d) = p then
        pts.flatMap (fun pt => (s.indexRows p d).map (fun r => (⟨src pt + r, n, true, false, 0⟩ : Area))) else []) ++ lists ++
      (if o ≠ 5 ∧ addrSite (dDst d) = p then pts.map (fun pt => ⟨dst pt, n, false, true, 4⟩) else []) ++ recs
  else if isKv o then
    let ly := s.kvLayout p (dLsel d)
    let l := (slotLevel d).getD 1
    let ps := List.range (lvBound d l + 1)
    let st := lvStride d l
    let rec' := 17 * lyGroups ly
    let q := 2 * ceilDiv (lyHeads ly * (lyDk ly + lyDr ly)) 64
    let ov := 9 * ceilDiv (lyHeads ly * lyDv ly) 256
    ps.map (fun (i : Nat) => (⟨(dKvIn d : Int) + (i : Int) * st, if o = 8 then rec' else if o = 9 then q else ceilDiv (64 + 8 * dKvAux d) 64,
        true, false, 3⟩ : Area)) ++
      (if o = 8 then [] else [⟨(dKvOut d : Int), ps.length * (if o = 9 then ov else 1), false, true, 5⟩]) ++
      (if dApp d then ps.map (fun (i : Nat) => (⟨(dKvAux d : Int) + (i : Int) * st, rec', true, false, 7⟩ : Area)) else [])
  else []

/-- Master type of a descriptor stream (Table 08.10). -/
def streamMaster (st : Nat) : Nat := if st < 4 then st else if st = 4 then 0x14 else 0x10

def State.check11 (s : State) (p st d mate : Nat) : Option DescFail :=
  (s.areas p d mate).findSome? (fun (a : Area) =>
    if a.off < 0 ∨ a.off % 64 ≠ 0 then some ⟨0x314B, a.row, 0, some (unsigned 26 a.off)⟩
    else (s.areaFail p (streamMaster st) a.off.toNat a.rd a.wr a.n).map (fun o => ⟨0x314B, a.row, 0, some (o % 2 ^ 26)⟩))

def State.check12 (s : State) (part d : Nat) : Option DescFail :=
  let b := dSlotBase d
  if 0xC000 ≤ b then some ⟨0x314C, 24, 0, some b⟩
  else
    match slotLevel d with
    | none => none
    | some l =>
      ((List.range (lvBound d l + 1)).find? (fun i => !(s.posLegal part (b + i)))).map (fun i => ⟨0x314C, 24, 0, some ((b + i) % 65536)⟩)

/-- Seal operation list of a site in the entry in use (Table 09.3). -/
def State.sealList (s : State) (part p : Nat) : List (BitVec 64) :=
  match s.bucketOf part with
  | some b => (bucketSect b (s.rankOf part p)).seals
  | none => []

def State.check13 (s : State) (part p d : Nat) : Option DescFail :=
  let n := (s.sealList part p).length
  firstFail [failIf (dWait d != 0x3FF && decide (n ≤ dWait d)) 0x314D 8, failIf (dSig d != 0x3FF && decide (n ≤ dSig d)) 0x314D 9]

/-- The staging buffer of a ROWFN is taken to run from IN_OFF to the end of the scratchpad; an odd offset names no value, and an
entry that reads the previous result needs one at least as long (log entry 134). -/
def State.check14 (s : State) (p d : Nat) : Option DescFail :=
  if dOpc d = 7 ∨ (dOpc d = 2 ∧ dHalf d = 0) then
    let es := s.program p (dProg d)
    let vals := if dOpc d = 2 then (combPoints d).length * fmtChans (dWfmt d) else (2 ^ 26 - dInOff d) / 2
    let prev (i : Nat) : Nat := if i = 0 then 0 else rfLen (es.getD (i - 1) 0)
    if es.isEmpty then some ⟨0x314E, 19, 0, none⟩
    else
      (es.zipIdx.find? (fun e =>
        decide (11 < rfFn e.1) || (rfFn e.1 == 9 && !(mget false s.desc.pwcLoaded (p * 32 + rfTbl e.1))) ||
        decide (rfLen e.1 < 64) || decide (16384 < rfLen e.1) || rfLen e.1 % 64 != 0 ||
        (rfSrcA e.1 == 0 && rfOffA e.1 % 2 != 0) || (rfSrcB e.1 == 1 && rfOffB e.1 % 2 != 0) || decide (vals < rfReach e.1) ||
        (rfSrcA e.1 == 1 && decide (prev e.2 < rfLen e.1)))).map (fun e => ⟨0x314E, 19, e.2, none⟩)
  else none

/-- The pair rules of R175; `d2` is the descriptor after `d1` in the stream. -/
def check15 (d1 d2 : Nat) : Option DescFail :=
  if dOpc d1 ≠ 2 then none
  else
    let f (b : Bool) (r : Nat) := failIf b 0x314F r
    let ls := [1, 2, 3, 4, 5].filter (fun l => lvTgt d1 l != 2 || lvTgt d2 l != 2)
    let differ (g : Nat → Nat → Nat) : Option Nat := ls.find? (fun l => g d1 l != g d2 l)
    firstFail
      [f (dOpc d2 != 2) 1, f (dHalf d1 != 0 || dHalf d2 != 1) 21,
       f (decide ((dComb d1 / 1024) ≠ dComb d2 / 1024) || (combSet d1).any (fun c => (combSet d2).contains c)) 18,
       (differ lvBound).map (fun l => ⟨0x314F, 31 + l / 2, 0, none⟩), f (differ lvOrder).isSome 28, f (differ lvTgt).isSome 29,
       f ([1, 2, 3, 4, 5].any (fun l => lvTgt d2 l != 2 && lvStride d2 l != 0)) 30,
       f (dProg d2 != 0) 19, f (dOpenEnd d1 || dOpenEnd d2) 16, f (dMrgout d1) 5]

/-- May a mover not name this address (R170)? Reserved spaces and sites are left to R21 when the row is moved. -/
def State.moverBad (s : State) (part a : Nat) (dst : Bool) : Bool :=
  let sp := addrSpace a
  sp == 1 || sp == 3 || sp == 4 || (dst && sp == 2) ||
    (decide (addrSite a < 72) && decide (sp < 3) && !((s.partSites part).contains (addrSite a)))
/-- Mover address spaces (R170), over the whole iteration space: first and last granule of every row. -/
def State.check16 (s : State) (part p d : Nat) : Option DescFail :=
  if isMover (dOpc d) then
    let pts := points d (outerLevels d)
    let row (a : Int) : List Nat := [a.toNat, (a + 64 * (lvBound d 0 : Int)).toNat]
    let srcs := pts.flatMap (fun pt => (s.indexEnds p d).flatMap (fun r => row ((dSrc d : Int) + ptAdd d [1, 3, 4] pt + r)))
    let dsts := if dOpc d = 5 then [] else pts.flatMap (fun pt => row ((dDst d : Int) + ptAdd d [2] pt))
    ((srcs.find? (fun a => s.moverBad part a false)).map (fun a => ⟨0x3150, 1, 0, some (addrSpace a)⟩)) <|>
      ((dsts.find? (fun a => s.moverBad part a true)).map (fun a => ⟨0x3150, 5, 0, some (addrSpace a)⟩))
  else none

/-- The first failing field of a record and its entries (R173), as a row of Table 06.7. -/
def State.recordFail (s : State) (part p off : Nat) : Option Nat :=
  let r := s.spadBytes p off 64
  let n := popCount 256 (srExpect r)
  let rp := 64 * (srNval r + 2)
  let m := srNctx r + 1
  let es := s.srEntries p off
  if 8 ≤ srNval r then some 1
  else if decide (2047 < srMctx r + srNctx r) then some 2
  else if wf r 1 30 2 != 0 then some 5
  else if srDest r % 64 ≠ 0 ∨ 2 ^ 26 < srDest r + m * rp then some 7
  else if srStage r % 64 ≠ 0 ∨ wf r 2 26 6 ≠ 0 ∨ 2 ^ 26 < srStage r + m * n * rp then some 8
  else if wf r 3 14 2 != 0 then some 9
  else if srMopen r && n == 0 then some 11
  else if bits r 384 128 != 0 then some 12
  else
    es.findSome? (fun e =>
      if bit e 7 then some 15
      else if 64 ≤ srLsite e || !(bit (s.part part).g.sites (srLsite e)) then some 16
      else if bits e 52 12 != 0 then some 17
      else none)

def State.check17 (s : State) (part p d : Nat) : Option DescFail :=
  if dOpc d = 5 then
    (points d (walkLevels d)).findSome? (fun pt =>
      let off := (64 * (dRec d : Int) + ptAdd d [6] pt).toNat
      (s.recordFail part p off).map (fun r => ⟨0x3151, 7, r % 128, some (off % 2 ^ 26)⟩))
  else none

/-- Opcodes legal on a stream (R154, R199). -/
def opcLegal (st o : Nat) : Bool :=
  o == 0 || (if st < 4 then isQuadOp o || o == 7 else if st = 4 then isKv o else isMover o)

/-- All issue checks in order (R181); `d2` is looked at for a fused pair only. -/
def State.issueCheck (s : State) (part p st d1 d2 : Nat) : Option DescFail :=
  let ds := if dOpc d1 = 2 then [d1, d2] else [d1]
  let all (f : Nat → Option DescFail) : Option DescFail := ds.findSome? f
  let mate (d : Nat) : Nat := if d = d1 then d2 else d1
  firstFail
    [all (fun d => failIf (dVer d != 1) 0x3141 0), all (fun d => failIf (!(opcLegal st (dOpc d))) 0x3142 1),
     all (s.check3 p), all (s.check4 p part), all (s.check5 p st), all (s.check6 p), all (s.check7 p st), all (s.check8 p),
     all check9, all (s.check10 p), all (fun d => s.check11 p st d (mate d)), all (s.check12 part), all (s.check13 part p), all (s.check14 p),
     check15 d1 d2, all (s.check16 part p), all (s.check17 part p)]

/-- Detail words of an issue fault (R184): code, word 0, word 1. -/
def issueDetail (st off d : Nat) (f : DescFail) : Nat × Nat × Nat :=
  (f.code, dTag d + f.row * 2 ^ 16 + st * 2 ^ 22 + f.ext * 2 ^ 25,
    f.d1.getD off)

end Sys2Proof.Machine
end

