-- ==== Sys2Proof/Machine/Desc.lean ====
section
/-! DEFINITION. What descriptors do: fetch, issue and signal, matrix products, row functions, movers and the KV engine's
descriptors (chapters 06, 07). -/

namespace Sys2Proof.Machine

/-! ### Tiles of a descriptor (R158-R161, R174) -/

/-- What a tile takes from its slot position, its routing granule or its first input. -/
structure Ident where
  masked : Bool
  slot   : Nat
  token  : Nat
  mrg    : Option MrgArgs
  deriving DecidableEq, Repr

/-- Read a routing granule and clear its VALID bit in one access (R174, R235). -/
def State.takeGranule (s : State) (part p m off : Nat) : Ident × State :=
  let g := s.spadBytes p off 64
  let r := s.spadRead part p (wf g 2 0 14) m off 64
  let s := r.2.setSpadBytes p off 64 (g - wf g 3 0 1 * 2 ^ 96)
  let slot := wf g 2 0 14
  let token := wf g 2 16 16
  (⟨!(bit g 96), slot, token, some ⟨wf g 0 0 11, wf g 0 16 8, wf g 1 16 16, wf g 1 0 7, slot, token⟩⟩, s)

/-- Identity of the tiles at a point (R161): the slot position, the routing granule, or the first input's header. -/
def State.identAt (s : State) (part p m d : Nat) (pt : List (Nat × Nat)) (inAddr : Nat) : Ident × State :=
  let g : Option (Ident × State) := if dMrgout d then some (s.takeGranule part p m (inAddr - 64)) else none
  let s := (g.map (·.2)).getD s
  let gm : Option MrgArgs := g.bind (fun x => x.1.mrg)
  match slotLevel d with
  | some l =>
    let lv := s.live p part (dSlotBase d + ptIdx pt l)
    (⟨lv.sslot == 0x3FFF || g.any (fun x => x.1.masked), lv.sslot, lv.index, gm⟩, s)
  | none =>
    match g with
    | some x => x
    | none =>
      let h := s.spadBytes p inAddr 32
      (⟨vhStream h == 0x3FFF, vhStream h, vhToken h, none⟩, s)

/-- The tile arguments of comb `k` (comb-set point `cp`) at a walk point. -/
def State.tileArgs (s : State) (part p d : Nat) (id : Ident) (k c pos out : Nat) (first rem : Bool) (thr : Option Nat) : TileArgs :=
  let chans := fmtChans (dWfmt d)
  let tb := thr.getD 0
  { site := p, comb := k, bank := dBank d, wfmt := dWfmt d, afmt := dAfmt d, tmode := if first then dTmode d else 0, first := false,
    kvalid := fmtInputs (dWfmt d), cvalid := if rem && dCrem d != 0 then dCrem d else chans, layer := dLayer d, tag := dTag d,
    stream := id.slot, token := id.token, sset := dSset d, slack := dSlack d, recomp := s.recomputes part id.slot,
    thr := thr.map (fun t => BitVec.ofNat 32 (wf t 0 0 32)), maskOnly := wf tb 1 30 2 == 1, load := out, out := out,
    exact := bits tb 32 26 + pos * (if dWfmt d = 0 then 1088 else 576),
    mrg := if dMrgout d then id.mrg.map (fun x => { x with ctx := x.ctx + c }) else none }

/-- The input vectors of a walk point, converted by the ingress slot (R162, R65). An invalid one is discarded. -/
def State.inputs (s : State) (part p m d inAddr gc : Nat) (id : Ident) : List (Option (ZrVec × Bool)) × State :=
  (List.range (lvBound d 0 + 1)).foldl (fun (y : List (Option (ZrVec × Bool)) × State) (i : Nat) =>
    let a := ((inAddr : Int) + (i : Int) * lvStride d 0).toNat
    let r := y.2.readVec part p m a
    let v := r.1
    let lenBad := vhKind v.hdr == 2 && vhLen v.hdr != fmtInputs (dWfmt d) / 32 - 1
    match if lenBad then some 6 else ingressFail v.hdr (paddedBytes v.hdr) with
    | some f => (y.1 ++ [none], r.2.badVector part p v.hdr 5 f)
    | none =>
      let n := vhElems v.hdr
      let z := r.2.ingress p (dIslot d) (i * fmtInputs (dWfmt d)) v.hdr gc (dLayer d) (dTag d) id.slot v.late
        ((unpackNat 16 n v.payload).map (BitVec.ofNat 16))
      (y.1 ++ [some (z.1, v.late)], z.2)) ([], s)

/-- The vectors of one tile enter its comb, bank by bank (R156); a dense vector right behind a W4S vector is delayed (R92). -/
def State.feed (s : State) (a : TileArgs) (d : Nat) : List Nat → List (Option (ZrVec × Bool)) → Nat → State
  | b :: bs, v :: vs, i =>
    let last := i == lvBound d 0
    let kv := if last && lvRem d 0 && dKrem d != 0 then dKrem d else fmtInputs (dWfmt d)
    let s1 := match v with
      | some z => s.vectorConsume { a with bank := b, first := i == 0, kvalid := kv } z.1.hdr z.1.planes z.2
          (mget false s.comb.tailW4S (s.pcomb a.site a.comb))
      | none => s
    State.feed s1 a d bs vs (i + 1)
  | _, _, _ => s

/-- The last plane has passed: fill end, drain, fallback and exact drain follow (R38, R39, R54, R80). -/
def State.finishTile (s : State) (a : TileArgs) : State :=
  let pc := s.pcomb a.site a.comb
  let i := s.curSet pc a.wfmt
  if (s.accSet pc i).st = .filling then
    let s := s.fillEnd a i
    let s := if (s.accSet pc i).st = .draining then s.drainTile a i else s
    let s := match (s.accSet pc i).st, (s.accSet pc i).fbGain with
      | .draining, some g => s.fallbackTile a i g
      | _, _ => s
    if (s.accSet pc i).st = .held then s.exactDrain a i else s
  else s

/-- What OPEN_END left on a comb for the next descriptor's KEEP (R136, R164). -/
def State.setOpenTile (s : State) (pc v : Nat) : State :=
  { s with comb := { s.comb with openTile := mset 0 s.comb.openTile pc v } }

/-- A masked tile of comb `k` (R136, R161): hold cycles for every plane of its vectors. It sends and writes nothing, so an open
tile that it continues is released, unless OPEN_END leaves it to the next descriptor (log entry 122). -/
def State.maskedTile (s : State) (p d k : Nat) (firstPt isLast : Bool) : State :=
  let pc := s.pcomb p k
  let passes := (s.bankWalk pc (dWfmt d) (lvBound d 0 + 1) (dBank d)).foldl
    (fun n b => n + (if dWfmt d = 3 ∧ (s.slotHdr (slotKey pc (s.liveSlot pc b))).dense then 2 else 1)) 0
  let s := s.bumpBy (siteReg p rCOMB_CNT_HOLD) (passes * planesOf (dAfmt d))
  let s := { s with comb := { s.comb with tailW4S := mset false s.comb.tailW4S pc false } }
  if dOpenEnd d && isLast then s.setOpenTile pc (openMark d)
  else
    let i := s.curSet pc (dWfmt d)
    let s := if firstPt && dTmode d == 1 && decide ((s.accSet pc i).st = .filling) then s.freeSets pc i (dWfmt d) else s
    s.setOpenTile pc 0

/-- One tile of a walk point: its vectors, then its end unless OPEN_END leaves it open. -/
def State.liveTile (s : State) (a : TileArgs) (d : Nat) (vs : List (Option (ZrVec × Bool))) (isLast : Bool) : State :=
  let pc := s.pcomb a.site a.comb
  let s := s.feed a d (s.bankWalk pc (dWfmt d) (lvBound d 0 + 1) (dBank d)) vs 0
  if dOpenEnd d && isLast then s.setOpenTile pc (openMark d) else (s.finishTile a).setOpenTile pc 0

/-- All tiles of one walk point (R157, R158). `out pos c` is the output offset of the tile at visiting position `pos`, the `c`-th
of its point; `isLast`: no further point follows. -/
def State.runPoint (s : State) (part p st d : Nat) (pt : List (Nat × Nat)) (inAddr : Nat) (id : Ident) (out : Nat → Nat → Nat)
    (firstPt isLast : Bool) (thr : Option Nat) : State :=
  let cps := combPoints d
  let wt := cps.map (fun cp => (combId d cp).toNat % 4096)
  if id.masked then
    wt.foldl (fun (s : State) k => s.maskedTile p d k firstPt isLast) s
  else
    let y := s.inputs part p (streamMaster st) d inAddr (s.gcomb p (wt.headD 0)) id
    (cps.zip wt).zipIdx.foldl (fun (s : State) e =>
      let pos := tilePos d (pt ++ e.1.1)
      let rem := e.1.1.any (fun x => lvRem d x.1 && x.2 == lvBound d x.1)
      s.liveTile (s.tileArgs part p d id e.1.2 e.2 pos (out pos e.2) firstPt rem thr) d y.1 isLast) y.2

/-- Input address of a walk point. -/
def ptIn (d : Nat) (pt : List (Nat × Nat)) : Nat := ((dInOff d : Int) + ptAdd d [1, 3] pt).toNat

/-- Output pitch of a descriptor on a site (R160). -/
def State.pitchOf (s : State) (p d : Nat) : Nat :=
  let x := s.scaleSet (scaleKey (s.pcomb p ((combSet d).headD 0)) (dSset d))
  outPitch x.mode x.ofmt (dWfmt d)

/-- Mark the first and last elements of a list. -/
def ends {α : Type} (l : List α) : List (α × Bool × Bool) :=
  l.zipIdx.map (fun e => (e.1, e.2 == 0, e.2 + 1 == l.length))

/-- Combs on which a tile of the descriptor would find its set taken (R38, R55): its tiles claim the two sets in turn, and a KEEP
descriptor's first tile continues the one it inherits. -/
def State.blockedCombs (s : State) (p d : Nat) : List Nat :=
  let claims := (points d (walkLevels d)).length - (if dTmode d = 1 then 1 else 0)
  let free (pc i : Nat) : Bool := decide ((s.accSet pc i).st = .free)
  ((combSet d).map (fun k => s.pcomb p k)).filter (fun pc =>
    let i := s.nextSet pc (dWfmt d)
    if dWfmt d = 0 then dTmode d != 1 && !(free pc 0 && free pc 1)
    else (decide (1 ≤ claims) && !(free pc i)) || (decide (2 ≤ claims) && dTmode d != 1 && !(free pc (1 - i))))

/-- MATMUL (R164-R168) or THRESHOLD (R166): every point of the walk; the runs of its tiles end with it (R79). -/
def State.runProduct (s : State) (part p st d : Nat) (thr : Option Nat) : State :=
  let pitch := s.pitchOf p d
  let out (k _ : Nat) : Nat := if thr.isSome then dOutOff d + 64 + 64 * k else dOutOff d + k * pitch
  (ends (points d (walkLevels d))).foldl (fun (s : State) e =>
    let a := ptIn d e.1
    let r := s.identAt part p (streamMaster st) d e.1 a
    r.2.runPoint part p st d e.1 a r.1 out e.2.1 e.2.2 thr) s |>.endRuns p

/-! ### Row function units (R176-R180) -/

/-- Staged values: the payloads of the vectors from `off`, headers skipped, up to `n` values, with the header flags met.
A CODE value is an uninterpreted function of its code and gain (log entry 39). -/
structure Staged where
  vals   : List (BitVec 16)
  taint  : Bool
  late   : Bool
  origin : Nat
  hdr    : Nat
  deriving DecidableEq, Repr

def Staged.init : Staged := ⟨[], false, false, 0, 0⟩

/-- Values of a vector as BF16. -/
def rowValues (v : VecIn) : List (BitVec 16) :=
  let n := vhElems v.hdr
  if vhKind v.hdr = 2 then (unpackNat 16 n v.payload).map (BitVec.ofNat 16)
  else
    let w := if vhEfmt v.hdr = 0 then 4 else if vhEfmt v.hdr = 2 then 16 else 8
    (unpackNat w n v.payload).map (fun c => BitVec.ofNat 16 (Config.rowFn 0x40 c (vhGain v.hdr).toNat (vhEfmt v.hdr)))

def State.stagedVals (s : State) (part p m : Nat) : Nat → Nat → Nat → Staged → Staged × State
  | 0, _, _, y => (y, s)
  | fuel + 1, off, n, y =>
    if n ≤ y.vals.length then (y, s)
    else
      let r := s.readVec part p m off
      let v := r.1
      match hdrFail v.hdr [] (paddedBytes v.hdr) with
      | some f => (y, r.2.badVector part p v.hdr 2 f)
      | none =>
        let h := v.hdr
        State.stagedVals r.2 part p m fuel (off + 64 * ceilDiv (32 + paddedBytes h) 64) n
          ⟨y.vals ++ rowValues v, y.taint || vhTaint h, y.late || v.late, if vhTaint h then minOrigin y.origin (vhOrigin h) else y.origin,
            if y.vals.isEmpty then h else y.hdr⟩

/-- A BF16 result: saturated when it is not finite; the kind of the saturation (R180). -/
def satBf (x : BitVec 16) : BitVec 16 × Nat :=
  if nonFiniteBf x then (if bit x.toNat 15 then (0xFF7F#16, 2) else (0x7F7F#16, 1)) else (x, 0)
/-- Round an exact binary32-rounded result to BF16, saturating. -/
def bfOf (x : Q) : BitVec 16 × Nat :=
  let ovf := over32 x || (x.n ≠ 0 && decide (127 < (roundSig 8 false (val32 (rnd32 x)).n.natAbs (val32 (rnd32 x)).d).2 + 7))
  if ovf then (if 0 < x.n then (0x7F7F#16, 1) else (0xFF7F#16, 2)) else (bf (rnd32 x), 0)

/-- The exact results of a row function on a row (Table 06.10), as enclosures; `pr` is its parameter. -/
def rowExact (f : Nat) (pr : Q) (a b g : List Q) : List Iv :=
  let iv := a.map Iv.ofQ
  let eps := Iv.ofQ pr
  match f with
  | 1 => a.map (fun x => (Iv.ofQ (pr.mul x)).exp)
  | 2 => a.map (fun x => (Iv.ofQ x).mul (sigmoidIv x))
  | 3 => a.map (fun x => (Iv.ofQ x).mul (normCdf x))
  | 4 => (a.zip b).map (fun x => ((Iv.ofQ x.1).mul (sigmoidIv x.1)).mul (Iv.ofQ x.2))
  | 5 =>
    let m := a.foldl (fun m x => if m.lt x then x else m) (a.headD ⟨0, 1⟩)
    let es := a.map (fun x => (Iv.ofQ (x.sub m)).exp)
    es.map (fun e => e.div (Iv.sum es))
  | 6 =>
    let r := ((Iv.mean (iv.map (fun x => x.mul x))).add eps).sqrt
    (iv.zip g).map (fun x => (x.1.mul (Iv.ofQ x.2)).div r)
  | 7 =>
    let m := Iv.mean iv
    let ds := iv.map (fun x => x.sub m)
    let r := ((Iv.mean (ds.map (fun x => x.mul x))).add eps).sqrt
    (ds.zip (g.zip b)).map (fun x => ((x.1.mul (Iv.ofQ x.2.1)).div r).add (Iv.ofQ x.2.2))
  | _ => a.map (fun x => Iv.one.div (Iv.ofQ x).sqrt)
/-- Error bound of a row function in units in the last place (Table 06.10). -/
def rowBound (f : Nat) : Nat :=
  match f with
  | 1 => 1 | 2 => 2 | 3 => 2 | 4 => 2 | 5 => 3 | 6 => 3 | 7 => 4 | _ => 1
/-- The reductions of a row in the order of R179, from its values in binary32: the sum of exponentials, or the sums of which the
norms take mean and variance. The exponential is an uninterpreted function of its operand (log entry 7). -/
def rowSums (f : Nat) (a : List (BitVec 32)) : List (BitVec 32) :=
  let total (l : List (BitVec 32)) : BitVec 32 := (sum179 (l.map Fv.of)).v
  let len := rnd32 (Q.ofInt (a.length : Int))
  match f with
  | 5 =>
    let m := a.foldl max32 (a.headD 0)
    [m, total (a.map (fun x => BitVec.ofNat 32 (Config.rowFn 0x42 (sub32 x m).toNat 0 0)))]
  | 6 => [total (a.map (fun x => mul32 x x))]
  | 7 =>
    let m := div32 (total a) len
    [m, total (a.map (fun x => mul32 (sub32 x m) (sub32 x m)))]
  | _ => []

/-- One entry of a program on its rows (Table 06.10). Where the manual gives only an error bound, the result is an
uninterpreted function of the element's operands and the row's reductions, held to the bound against the exact function (R178,
R179; log entry 7); operands that are not finite leave it open. -/
def State.rowFn (s : State) (p e : Nat) (a b g : List (BitVec 16)) : List (BitVec 16 × Nat) :=
  let pr := rfParam e
  let open32 := nonFinite32 pr || (a ++ b ++ g).any nonFiniteBf
  let sums := packNat 32 ((rowSums (rfFn e) (a.map bf32)).map BitVec.toNat)
  let free (f i : Nat) : BitVec 16 :=
    let at' (l : List (BitVec 16)) : Nat := (l.getD i 0).toNat
    BitVec.ofNat 16 (Config.rowFn f (packNat 16 [at' a, at' b, at' g]) sums pr.toNat)
  match rfFn e with
  | 10 => (a.zip b).map (fun x => bfOf ((valBf x.1).add (valBf x.2)))
  | 11 => (a.zip b).map (fun x => bfOf ((valBf x.1).mul (valBf x.2)))
  | 9 =>
    a.map (fun x =>
      let w := rfParam2 e
      let u := val32 (if (val32 w).n = 0 then BitVec.ofNat 32 (Config.rowFn 0x41 x.toNat 0 0) else div32 (sub32 (bf32 x) pr) w)
      let i := clampI 0 255 u.floor
      bfOf (val32 (s.pwcAt p (rfTbl e) i.toNat (u.sub (Q.ofInt i)))))
  | f =>
    let exact := rowExact f (val32 pr) (a.map valBf) (b.map valBf) (g.map valBf)
    a.zipIdx.map (fun x =>
      if f = 8 ∧ !(nonFiniteBf x.1) ∧ (valBf x.1).n ≤ 0 then (0x7F7F#16, 1)
      else if open32 then satBf (free f x.2)
      else boundedBf (rowBound f) (exact.getD x.2 ⟨0, 0⟩) (free f x.2))

/-- Values `n` from byte offset `off` of plain BF16 data of the scratchpad. -/
def State.bfRow (s : State) (p off n : Nat) : List (BitVec 16) := (unpackNat 16 n (s.spadBytes p off (2 * n))).map (BitVec.ofNat 16)
/-- Those values as a master reads them: with the late-error mark of the read (R232). -/
def State.readRow (s : State) (part p slot m off n : Nat) : (List (BitVec 16) × Bool) × State :=
  let r := s.spadRead part p slot m off (2 * n)
  ((s.bfRow p off n, r.1), r.2)

/-- What the entries of a program have given so far: the last result, the first saturation with its entry, and whether an operand row
carried the late-error mark. -/
structure RowAcc where
  vals : List (BitVec 16)
  sat  : Option (Nat × Nat)
  late : Bool
  deriving DecidableEq, Repr

/-- Entry `i` of a program acts on the staged values and the rows it names (R177, R178). -/
def State.programStep (s : State) (part p slot m : Nat) (staged : List (BitVec 16)) (acc : RowAcc) (e i : Nat) : RowAcc × State :=
  let n := rfLen e
  let a := if rfSrcA e = 1 then acc.vals else (staged.drop (rfOffA e / 2)).take n
  let b := if rfSrcB e = 1 then (((staged.drop (rfOffB e / 2)).take n, false), s)
    else if rfSrcB e = 2 then s.readRow part p slot m (rfOffB e) n else (([], false), s)
  let g := if rfFn e = 6 ∨ rfFn e = 7 then b.2.readRow part p slot m (rfOffG e) n else (([], false), b.2)
  let o := s.rowFn p e a b.1.1 g.1.1
  (⟨o.map (·.1), acc.sat <|> (o.find? (fun x => x.2 != 0)).map (fun x => (x.2, i)), acc.late || b.1.2 || g.1.2⟩, g.2)

/-- Run a program on a staging area at `stage` and write the result at `out` (R176-R180). -/
def State.runProgram (s : State) (part p st d stage out : Nat) (id : Ident) : State :=
  let es := s.program p (dProg d)
  let need := es.foldl (fun n e => max n (rfReach e)) 0
  let r := s.stagedVals part p (streamMaster st) (need / 32 + 1) stage need Staged.init
  let y := r.1
  let z := es.zipIdx.foldl (fun (x : RowAcc × State) e => x.2.programStep part p id.slot (streamMaster st) y.vals x.1 e.1 e.2)
    (⟨[], none, false⟩, r.2)
  let s := z.2
  let late := y.late || z.1.late
  let org := match z.1.sat with
    | some (k, _) => if y.taint then minOrigin y.origin (originWord (dComb d) (dLayer d) k) else originWord (dComb d) (dLayer d) k
    | none => y.origin
  let taint := y.taint || z.1.sat.isSome
  let s := match z.1.sat with
    | some (_, i) =>
      let s := { s with desc := { s.desc with satRows := mupd 0 s.desc.satRows p (· + 1) } }
      s.raiseOnce p 0x0153 part id.slot p (dProg d + i * 2 ^ 6 + dLayer d * 2 ^ 8) (dTag d)
    | none => s
  let s := if late then s.withhold part id.slot else s
  s.writeWide p out 512 (dTag d) id.slot id.token (if taint then org else 0) taint late (z.1.vals.length / 512 + 1) z.1.vals

/-- ROWFN: the program at every point of the outer levels (R178, log entry 40). -/
def State.runRowfn (s : State) (part p st d : Nat) : State :=
  let size := s.programOut p (dProg d)
  (points d (outerLevels d)).foldl (fun (s : State) pt =>
    let a := ptIn d pt
    let r := s.identAt part p (streamMaster st) d pt a
    if r.1.masked then r.2 else r.2.runProgram part p st d a (dOutOff d + tilePos d pt * size) r.1) s

/-- MATMUL_FUSED (R175, R176): for each point of the shared outer loops, product, row function, product. -/
def State.runFused (s : State) (part p st d1 d2 : Nat) : State :=
  let pitch1 := s.pitchOf p d1
  let pitch2 := s.pitchOf p d2
  let per := (combPoints d1).length * pitch1
  let obuf := 64 * ceilDiv (s.programOut p (dProg d1)) 64
  (ends (points d1 (walkLevels d1))).zipIdx.foldl (fun (s : State) e =>
    let pt := e.1.1
    let n := e.2 % 2
    let a := ptIn d1 pt
    -- routing identity belongs to the first half's tile of the point, by the second half's MRGOUT
    let dId := if dMrgout d2 then setBits d1 16 1 1 else d1
    let r := s.identAt part p (streamMaster st) dId pt a
    let stage := dOutOff d1 + n * per
    let ob := dInOff d2 + n * obuf
    let s := r.2.runPoint part p st d1 pt a r.1 (fun _ c => stage + c * pitch1) e.1.2.1 false none
    let s := if r.1.masked then s else s.runProgram part p st d1 stage ob r.1
    s.runPoint part p st d2 pt ob r.1 (fun k _ => dOutOff d2 + k * pitch2) e.1.2.1 e.1.2.2 none) s

/-! ### Movers (R169-R173) -/

/-- Fault a mover's access (R21, R188). -/
def State.moverFault (s : State) (code part p a : Nat) : State := s.accessFault code part p a 0x10

/-- A mover takes `n` granules from panel address `src` to each of `dsts`: the address of the row, and a granule that goes before
it (value 0: none) (R169, R170, R172, R232). `mark`: the list or record that leads to the row carried the late-error mark. Of the
stack only data frames are read (R188); uncorrectable granules of it are counted, give the row the mark
and deliver free values (log entry 145). -/
def State.moveRow (s : State) (part p src n slot tag : Nat) (mark : Bool) (dsts : List (Nat × Nat × Nat)) : State :=
  match (src :: dsts.map (·.1)).findSome? (fun a => ((List.range n).map (fun i => a + 64 * i)).find? (fun b => s.addrBad b false)) with
  | some a => s.moverFault 0x31C1 part p a
  | none =>
    let so := addrOfs src
    let late (s : State) (b : Bool) : State :=
      if b then dsts.foldl (fun (s : State) e => s.lateEntry part p 0 slot 0 (addrSite e.1) e.1 tag 0) s else s
    let place (s : State) (x : Nat) : State := dsts.foldl (fun (s : State) e => s.placeRow part p 5 tag slot x n e) s
    if addrSpace src = 2 ∧ bits so 16 20 < s.rsvOf (addrSite src) then s.moverFault 0x318B part p src
    else if addrSpace src = 0 ∧ addrSite src = p then
      let r := s.spadReadG part p slot 0x10 (so / 64) n
      place (late r.2 (r.1 || mark)) (s.readGran p (so / 64) n)
    else if addrSpace src = 2 ∧ addrSite src = p then
      let f := bits so 16 20
      let g := bits so 6 10
      let bad := s.stackBad p f g n
      let s := bad.foldl (fun (s : State) b => s.stackUe p b) s
      let r := s.stackUnits p f (2 * g) (2 * n)
      place (late r.2 (mark || !bad.isEmpty)) r.1
    else
      -- a remote source is read in requests of up to 64 granules
      let s := late s mark
      let k := ceilDiv n 64
      (List.range k).foldl (fun (s : State) j =>
        s.sendPkt 1 part 1 p (addrSite src) (min 64 (n - 64 * j) - 1) (so / 64 + 64 * j) (addrSpace src) 0 tag slot 5
          (dsts.map (fun e => (e.1 + 4096 * j, e.2.1, if j + 1 = k then e.2.2 else 0))) []) s

/-- Stream slot of a mover's row, or none when its position is masked. -/
def State.moverSlot (s : State) (part p d : Nat) (pt : List (Nat × Nat)) : Option Nat :=
  match slotLevel d with
  | some l => let lv := s.live p part (dSlotBase d + ptIdx pt l); if lv.sslot = 0x3FFF then none else some lv.sslot
  | none => some 0x3FFF

/-- COPY (R169). -/
def State.runCopy (s : State) (part p d : Nat) : State :=
  (points d (outerLevels d)).foldl (fun (s : State) pt =>
    match s.moverSlot part p d pt with
    | none => s
    | some slot =>
      s.moveRow part p ((dSrc d : Int) + ptAdd d [1, 3, 4] pt).toNat (lvBound d 0 + 1) slot (dTag d) false
        [(((dDst d : Int) + ptAdd d [2] pt).toNat, 0, 0)]) s

/-- GATHER (R171): the rows that the index list selects. -/
def State.runGather (s : State) (part p d : Nat) : State :=
  let list := 64 * dIdx d
  let limit := s.spadBytes p list 4
  let hd := s.spadRead part p 0x3FFF 0x10 list 4
  let il := [1, 2, 3, 4, 5].find? (fun l => lvTgt d l == 5)
  (points d (outerLevels d)).foldl (fun (s : State) pt =>
    match s.moverSlot part p d pt with
    | none => s
    | some slot0 =>
      let i := match il with
        | some l => ptIdx pt l
        | none => 0
      let e := s.spadBytes p (list + 64 + 8 * i) 8
      let idx := bits e 0 32
      let slot := if slot0 = 0x3FFF then bits e 32 14 else slot0
      let r := s.spadRead part p slot 0x10 (list + 64 + 8 * i) 8
      let s := r.2
      let st : Int := match il with
        | some l => lvStride d l
        | none => 0
      if limit ≤ idx then s.raise 0x2152 part (bits e 32 14) p (dTag d + i % 2 ^ 16 * 2 ^ 16) idx
      else
        s.moveRow part p ((dSrc d : Int) + ptAdd d [1, 3, 4] pt + (idx : Int) * st).toNat (lvBound d 0 + 1) slot (dTag d)
          (hd.1 || r.1) [(((dDst d : Int) + ptAdd d [2] pt).toNat, 0, 0)]) hd.2

/-- Routing granule of a record and an entry (Table 06.7). -/
def routeGranule (r e home : Nat) : Nat :=
  packNat 32 [srMctx r + srRank e * 2 ^ 16, home + srMwgt e * 2 ^ 16, srStream r + srToken r * 2 ^ 16, 1]

/-- One scatter record (R172). -/
def State.scatterRec (s : State) (part p d off src : Nat) : State :=
  let r := s.spadBytes p off 64
  let es := s.srEntries p off
  let n := popCount 256 (srExpect r)
  let rp := 64 * (srNval r + 2)
  let rd := s.spadRead part p (srStream r) 0x10 off (64 + 8 * es.length)
  let s := rd.2
  let s := if srMopen r then
      (List.range (srNctx r + 1)).foldl (fun (s : State) j =>
        s.mergeOpen p (srMctx r + j)
          ⟨true, srLayer r, srNval r, false, srToken r, srStream r, srDest r + j * rp, srStage r + j * n * rp,
            BitVec.ofNat 256 (srExpect r), 0, 0, part⟩) s
    else s
  let home := (s.lsite p).getD 0
  s.moveRow part p src (lvBound d 0 + 1) (srStream r) (dTag d) rd.1 (es.map (fun e =>
    let a := mkAddr 0 (s.phys (srLsite e)) (64 * srRgran e)
    (a + 64, a, routeGranule r e home)))

/-- SCATTER: every record that the RECORD level reaches. -/
def State.runScatter (s : State) (part p d : Nat) : State :=
  (points d (outerLevels d)).foldl (fun (s : State) pt =>
    match s.moverSlot part p d pt with
    | none => s
    | some _ =>
      s.scatterRec part p d (64 * (dRec d : Int) + ptAdd d [6] pt).toNat ((dSrc d : Int) + ptAdd d [1, 3, 4] pt).toNat) s

/-! ### KV descriptors (R199-R204, R211) -/

/-- The live positions of a KV descriptor: index i, slot position and live entry. -/
def State.kvPositions (s : State) (part p d : Nat) : List (Nat × Nat × Live) :=
  let l := slotLevel d
  let n := match l with
    | some l => lvBound d l + 1
    | none => 1
  ((List.range n).map (fun i => (i, dSlotBase d + i, s.live p part (dSlotBase d + i)))).filter (fun e => e.2.2.sslot != 0x3FFF)
def kvStep (d i : Nat) (o : Nat) : Nat :=
  match slotLevel d with
  | some l => ((o : Int) + (i : Int) * lvStride d l).toNat
  | none => o

/-- The input vectors of the groups at `off`; none when one is invalid. -/
def State.kvInputs (s : State) (part p off n : Nat) : Option (List VecIn) × State :=
  (List.range n).foldl (fun (y : Option (List VecIn) × State) i =>
    let r := y.2.readVec part p 0x14 (off + 1088 * i)
    match hdrFail r.1.hdr [] (paddedBytes r.1.hdr) with
    | some f => (none, r.2.badVector part p r.1.hdr 3 f)
    | none => (y.1.map (fun l => l ++ [r.1]), r.2)) (some [], s)

def State.runKvAppend (s : State) (part p d : Nat) : State :=
  let ly := s.kvLayout p (dLsel d)
  (s.kvPositions part p d).foldl (fun (s : State) e =>
    let v := s.kvInputs part p (kvStep d e.1 (dKvIn d)) (lyGroups ly)
    match v.1 with
    | some vs => v.2.kvAppendPos p part (dLayer d) ly e.2.2 vs
    | none => v.2) s

/-- Pages and cost of attending `t` tokens (R204). -/
def kvPages (ly t : Nat) : Nat := ceilDiv (t * lyRb ly) 65536
def kvQ (ly t : Nat) : Nat :=
  ceilDiv (lyHeads ly * t * (lyDk ly + lyDr ly)) 131072 + ceilDiv (lyHeads ly * t) 1024 + ceilDiv (lyHeads ly * t * lyDv ly) 131072

/-- Group live positions into blocks of at most 64, in visiting order (R204). -/
def kvBlocks (app : Bool) (l : List (Nat × Nat × Live)) : List (List (Nat × Nat × Live)) :=
  l.foldl (fun bs e =>
    match bs.getLast? with
    | some b =>
      if !app && decide (b.length < 64) && b.any (fun f => f.2.2.stream == e.2.2.stream) then bs.dropLast ++ [b ++ [e]] else bs ++ [[e]]
    | none => [[e]]) []

/-- Output of one position: all values, their kinds, and the header flags. -/
def State.kvWrite (s : State) (part p d : Nat) (e : Nat × Nat × Live) (xs : List (BitVec 16)) (taint late : Bool) (origin : Nat) : State :=
  let ly := s.kvLayout p (dLsel d)
  let per := 576 * ceilDiv (lyHeads ly * lyDv ly) 256
  let s := if late then s.withhold part e.2.2.sslot else s
  s.writeWide p (dKvOut d + e.1 * per) 256 (dTag d) e.2.2.sslot e.2.2.index (if taint then origin else 0) taint late
    (xs.length / 256 + 1) xs

/-- With APP the position's record is appended first (R200): the input vectors, none without APP or when one is invalid. -/
def State.kvAppended (s : State) (part p d : Nat) (e : Nat × Nat × Live) : List VecIn × State :=
  if dApp d then
    let ly := s.kvLayout p (dLsel d)
    let av := s.kvInputs part p (kvStep d e.1 (dKvAux d)) (lyGroups ly)
    match av.1 with
    | some ins => (ins, av.2.kvAppendPos p part (dLayer d) ly e.2.2 ins)
    | none => ([], av.2)
  else ([], s)

/-- One position of a KV_ATTEND within its budget (R201, R203). The origin of a stored record that carries TAINT is the one the
stream-table entry holds (Table 07.5), or that of the records written in this stroke. -/
def State.kvAttendPos (s : State) (part p d : Nat) (e : Nat × Nat × Live) : State :=
  let ly := s.kvLayout p (dLsel d)
  let lv := e.2.2
  let i := s.dirIdx part lv.stream (dLayer d)
  let org (k : Nat) : Nat := originWord ((s.lsite p).getD 0 * 4096) (dLayer d) k
  let av := s.kvAppended part p d e
  let ins := av.1
  let s := av.2
  -- the query tiles
  let nt := ceilDiv (lyHeads ly * (lyDk ly + lyDr ly)) 64
  let init : List VecIn × State := ([], s)
  let q := (List.range nt).foldl (fun (y : List VecIn × State) j =>
    let r := y.2.readVec part p 0x14 (kvStep d e.1 (dKvIn d) + 128 * j)
    match hdrFail r.1.hdr [] (paddedBytes r.1.hdr) with
    | some f => (y.1 ++ [⟨0, 0, false⟩], r.2.badVector part p r.1.hdr 3 f)
    | none => (y.1 ++ [r.1], r.2)) init
  let s := q.2
  let n := lv.pos + 1
  let vals := lyHeads ly * lyDv ly
  let zero := List.replicate vals (0#16)
  let ntok := (s.stream lv.stream).ntok + b2n (dApp d)
  let lastOk (g : Nat) : Bool :=
    let r := s.kvRec p i ly g (ntok - 1)
    bit r.flags 0 && r.pos == (ntok - 1) % 2 ^ 16
  let last := s.kvRec p i ly 0 (ntok - 1)
  let hs := ins ++ q.1
  let inOrg := hs.foldl (fun o v => if vhTaint v.hdr then minOrigin o (vhOrigin v.hdr) else o) 0
  let inTaint := hs.any (fun v => vhTaint v.hdr)
  let inLate := hs.any (fun v => v.late)
  let bad := s.logBad p i 0 (n * lyRb ly)
  let mism := ntok != 0 && !((List.range (lyGroups ly)).all lastOk)
  let s := if mism then
      s.raise 0x2184 part lv.sslot p (ntok - 1 + dLayer d * 2 ^ 18) (last.pos + last.flags % 2 * 2 ^ 16) else s
  let s := bad.foldl (fun (s : State) g => s.kvUe part p lv.sslot (dLayer d) (dTag d) g) s
  if mism || !bad.isEmpty then s.kvWrite part p d e zero true inLate (minOrigin inOrg (org 3))
  else
    let ts := q.1.map (fun v => (⟨vhGain v.hdr, (unpackNat 8 64 v.payload).map (signed 8)⟩ : QTile))
    let out := s.attend p i ly n ts
    let sat := out.find? (fun x => x.k != 0)
    let o1 := match sat with
      | some x => minOrigin inOrg (org x.k)
      | none => inOrg
    let placed := ((s.placedAt part lv.sslot).map (fun x => x.origin)).getD 0
    let fl (b : Nat) : Bool := (List.range n).any (fun t => (List.range (lyGroups ly)).any (fun g => bit (s.kvRec p i ly g t).flags b))
    let o2 := if fl 1 then minOrigin o1 (minOrigin (s.stream lv.stream).origin placed) else o1
    let taint := inTaint || sat.isSome || fl 1
    s.kvWrite part p d e (out.map (fun x => bf x.v)) taint (inLate || fl 2) o2

/-- KV_ATTEND (R201-R204): blocks are charged against EBUDGET in visiting order. A position of a block that does not fit still has its
record appended (R200). -/
def State.runKvAttend (s : State) (part p d : Nat) : State :=
  let ly := s.kvLayout p (dLsel d)
  let init : Nat × State := (0, s)
  ((kvBlocks (dApp d) (s.kvPositions part p d)).foldl (fun (y : Nat × State) b =>
    let top := b.foldl (fun m e => max m (e.2.2.pos + 1)) 0
    let pages := kvPages ly top
    let cost := max (ceilDiv (pages * 4096) 100) (b.foldl (fun a e => a + kvQ ly (e.2.2.pos + 1)) 0) + b.length
    let used := y.1 + cost
    if used ≤ dKvParam d then
      (used, b.foldl (fun s e => s.kvAttendPos part p d e) (y.2.bumpBy (siteReg p rKV_CNT_PAGE) pages))
    else
      let e0 := (b.head?).getD (0, 0, ⟨0x3FFF, 0, 0, 0, 0⟩)
      let s := (y.2.bumpBy (siteReg p rKV_CNT_BUDGET) b.length).journal 0x0183 part e0.2.2.sslot p (dTag d + e0.2.1 * 2 ^ 16) (cost % 2 ^ 24)
      let s := (s.withhold part e0.2.2.sslot).mark 0x0183 part e0.2.2.sslot
      (y.1, b.foldl (fun s e => (s.kvAppended part p d e).2.kvWrite part p d e (List.replicate (lyHeads ly * lyDv ly) 0) false true 0) s)) init).2

def State.runKvSample (s : State) (part p d : Nat) : State :=
  (s.kvPositions part p d).foldl (fun (s : State) e =>
    s.kvSamplePos p part (dTag d) (dKvAux d) (BitVec.ofNat 32 (dKvParam d)) e.2.2 (kvStep d e.1 (dKvIn d)) (dKvOut d + 64 * e.1)) s

/-! ### Streams of descriptors (R150-R152, R183) -/

/-- The running descriptor of a stream has issued its last plane or transfer, and its signal is due. -/
def State.issuedNow (s : State) (p st d : Nat) : State :=
  let x := s.dstream p st
  s.setDstream p st { x with issued := true, signal := x.signal ++ [BitVec.ofNat 1024 d] }

/-- Run the running descriptor of a stream when it has opcode `o` and has not run yet. -/
def State.runDesc (s : State) (p st o : Nat) (f : State → Nat → Nat → State) : State :=
  match (s.dstream p st).running with
  | some d =>
    if (s.dstream p st).issued || dOpc d.toNat != o then s
    else (f s (s.owner p) d.toNat).issuedNow p st d.toNat
  | none => s
/-- Run a matrix product: while a set that one of its tiles must claim is taken, the combs concerned stall (R38). -/
def State.runTiles (s : State) (p st o : Nat) (f : State → Nat → Nat → State) : State :=
  match (s.dstream p st).running with
  | some d =>
    let held := s.blockedCombs p (d.toNat % 2 ^ 512) ++ (if o = 2 then s.blockedCombs p (d.toNat / 2 ^ 512) else [])
    if (s.dstream p st).issued || dOpc d.toNat != o then s
    else if held.isEmpty then s.runDesc p st o f
    else held.foldl (fun (s : State) pc => s.stallSet p pc) s
  | none => s

/-- A site field as the ductus loader translates it: compiled code names logical sites, and the map in force gives their positions
(R20). The map changes only between strokes, so a descriptor translated when it is fetched is what the loader has stored. -/
def State.loadSite (s : State) (w : Nat) : Nat := if w < 64 then s.phys w else 127
/-- A descriptor of the library as it is loaded: the SITE fields of a mover's addresses (Table 06.4) translated. -/
def State.loadDesc (s : State) (d : Nat) : Nat :=
  if isMover (dOpc d) then
    let d := setBits d (32 * 3 + 22) 7 (s.loadSite (wf d 3 22 7))
    if dOpc d = 5 then d else setBits d (32 * 5 + 22) 7 (s.loadSite (wf d 5 22 7))
  else d
/-- The descriptors of stream `stream` of a site in the entry in use (R133), and the byte offset of the first in the library. -/
def State.streamOf (s : State) (part site stream : Nat) : Nat × List (BitVec 512) :=
  match s.bucketOf part with
  | some b =>
    let x := bucketSect b (s.rankOf part site)
    ((x.plan.streams.getD stream (0, 0)).1, x.streams.getD stream [])
  | none => (0, [])

/-- DESCRIPTOR_FETCH (R151): the next descriptor of the section's stream, or pair, is fetched and checked while the one before it
runs. -/
def execDescriptorFetch (site stream : Nat) (s : State) : Res :=
  let x := s.dstream site stream
  let part := s.owner site
  let l := s.streamOf part site stream
  let at' (i : Nat) : Nat := ((l.2[i]?).map (fun d => s.loadDesc d.toNat)).getD 0
  let d1 := at' x.next
  let pair : Bool := dOpc d1 == 2
  let d2 := if pair then at' (x.next + 1) else 0
  let off := l.1 + 64 * x.next
  .next (
    if x.fetched.isSome || !(s.part part).inStroke || (s.part part).phase == 0 || (s.part part).issueFault || decide (l.2.length ≤ x.next) then s
    else
      let bad := (s.issueCheck part site stream d1 d2).map (fun f => issueDetail stream off d1 f)
      s.setDstream site stream { x with next := x.next + (if pair then 2 else 1),
                                        fetched := some (BitVec.ofNat 1024 (d1 + d2 * 2 ^ 512), off), failed := bad,
                                        thrNext := if dOpc d1 = 3 then BitVec.ofNat 512 (s.thrBlock site d1) else 0 })

/-- A failed issue check (R183). -/
def State.issueFault (s : State) (part p : Nat) (f : Nat × Nat × Nat) : State :=
  (s.updPart part (fun q => { q with issueFault := true })).raise f.1 part 0x3FFF p f.2.1 f.2.2

/-- Has RUN opened for a stream: quadrant q of a site h hops from site 31 opens 2 ns × h + 16 ns × q after RUN open; the KV engine and
the DMA engines start with quadrant 0 (R143, log entry 26). -/
def State.streamOpen (s : State) (part site stream : Nat) : Bool :=
  let p := s.part part
  p.inStroke && p.phase != 0 && decide (p.runAt + 2 * hops31 site + (if stream < 4 then 16 * stream else 0) ≤ s.time)
/-- The fetched descriptor of a stream waits on entry `w` of the site's seal operation list, when that names one. -/
def State.waitOn (s : State) (site stream w tag : Nat) (half2 : Bool) : State :=
  let x := s.dstream site stream
  if w = 0x3FF then s.setDstream site stream { x with wait := 2, half2 := half2 }
  else
    (s.setDstream site stream { x with wait := 1, half2 := half2 }).sealIssue (s.owner site) site (streamMaster stream)
      ((s.sealList (s.owner site) site).getD w 0).toNat stream tag
/-- The waits of a fetched descriptor: its own, then that of a pair's second half (log entry 135). -/
def State.sealWaits (s : State) (site stream d : Nat) : State :=
  let s := if (s.dstream site stream).wait = 0 then s.waitOn site stream (dWait d) (dTag d) false else s
  let x := s.dstream site stream
  if x.wait = 2 ∧ !x.half2 ∧ dOpc d = 2 then s.waitOn site stream (dWait (d / 2 ^ 512)) (dTag (d / 2 ^ 512)) true else s

/-- DESCRIPTOR_ISSUE (R150): once its predecessor has finished issuing, the checks have passed and the seal wait is satisfied. A
halted site core holds the descriptor work of its site (R459). RUN must be open for the stream (R143); a site that has passed its end
marker has no descriptor left, so none starts there in GUARD (R128). -/
def execDescriptorIssue (site stream t : Nat) (s : State) : Res :=
  let s := s.at t
  let x := s.dstream site stream
  let part := s.owner site
  .next (match x.fetched with
  | none => s
  | some (d, _) =>
    if (s.part part).issueFault || !(s.streamOpen part site stream) || (x.running.isSome && !x.issued) || s.rcd.halted.any (fun k => k / 8 == site) then s
    else
      match x.failed with
      | some f => s.issueFault part site f
      | none =>
        let s := (s.sealWaits site stream d.toNat).sealNext
        let y := s.dstream site stream
        if y.wait = 2 then
          s.setDstream site stream { y with fetched := none, running := some d, issued := false, wait := 0, half2 := false,
                                            thr := y.thrNext }
        else s)

/-- The signal of entry `i` of the site's seal operation list. -/
def State.signalOn (s : State) (site stream i tag : Nat) : State :=
  if i = 0x3FF then s
  else s.sealIssue (s.owner site) site (streamMaster stream) ((s.sealList (s.owner site) site).getD i 0).toNat stream tag
/-- DESCRIPTOR_SIGNAL (R152): the seal signal of the oldest descriptor that has issued, once every output is out: while a row that
it reads at another site has not come back, one is still due. A pair signals for its first half and then for its second (log
entry 135). -/
def execDescriptorSignal (site stream : Nat) (s : State) : Res :=
  let x := s.dstream site stream
  .next (match x.signal with
  | [] => s
  | d :: t =>
    if s.fab.flight.any (fun o => o.src == site && o.dstream == stream && o.kind == 1 && decide (o.ord ≤ x.count)) then s
    else
      let s := (s.setDstream site stream { x with signal := t, count := x.count + 1 }).signalOn site stream (dSig d.toNat)
        (dTag d.toNat)
      (if dOpc d.toNat = 2 then s.signalOn site stream (dSig (d.toNat / 2 ^ 512)) (dTag (d.toNat / 2 ^ 512)) else s).sealNext)

/-- NOP (R154): it waits, holds and signals; it issues nothing. -/
def execNop (site stream : Nat) (s : State) : Res := .next (s.runDesc site stream 0 (fun s _ _ => s))
/-- The stream slot for which a descriptor first reads memory: that of its first live position, or of its first input. Failures met in
its step are journalled for it (R242). -/
def State.descSlot (s : State) (p part d : Nat) : Nat :=
  match slotLevel d with
  | some l =>
    (((List.range (lvBound d l + 1)).map (fun i => (s.live p part (dSlotBase d + i)).sslot)).find? (fun x => x != 0x3FFF)).getD 0x3FFF
  | none => if isQuadOp (dOpc d) || dOpc d == 7 then vhStream (s.spadBytes p (dInOff d) 32) else 0x3FFF
/-- What the step of a descriptor does to the memories of its site. -/
def State.descErrs (s : State) (part p d : Nat) (e : MemErr) : State := s.memErrs part p (s.descSlot p part d) e

/-- MATMUL. -/
def execMatmul (site stream : Nat) (e : MemErr) (s : State) : Res :=
  .next (s.runTiles site stream 1 (fun s part d =>
    (s.descErrs part site (d % 2 ^ 512) e).runProduct part site stream (d % 2 ^ 512) none))
/-- MATMUL_FUSED. -/
def execMatmulFused (site stream : Nat) (e : MemErr) (s : State) : Res :=
  .next (s.runTiles site stream 2 (fun s part d =>
    (s.descErrs part site (d % 2 ^ 512) e).runFused part site stream (d % 2 ^ 512) (d / 2 ^ 512)))
/-- THRESHOLD. -/
def execThreshold (site stream : Nat) (e : MemErr) (s : State) : Res :=
  .next (s.runTiles site stream 3 (fun s part d =>
    (s.descErrs part site (d % 2 ^ 512) e).runProduct part site stream (d % 2 ^ 512) (some (s.dstream site stream).thr.toNat)))
/-- ROWFN. -/
def execRowfn (site stream : Nat) (e : MemErr) (s : State) : Res :=
  .next (s.runDesc site stream 7 (fun s part d =>
    (s.descErrs part site (d % 2 ^ 512) e).runRowfn part site stream (d % 2 ^ 512)))
/-- GATHER. -/
def execGather (site : Nat) (e : MemErr) (s : State) : Res :=
  .next (s.runDesc site 5 4 (fun s part d => (s.descErrs part site (d % 2 ^ 512) e).runGather part site (d % 2 ^ 512)))
/-- SCATTER. -/
def execScatter (site : Nat) (e : MemErr) (s : State) : Res :=
  .next (s.runDesc site 5 5 (fun s part d => (s.descErrs part site (d % 2 ^ 512) e).runScatter part site (d % 2 ^ 512)))
/-- COPY. -/
def execCopy (site : Nat) (e : MemErr) (s : State) : Res :=
  .next (s.runDesc site 5 6 (fun s part d => (s.descErrs part site (d % 2 ^ 512) e).runCopy part site (d % 2 ^ 512)))
/-- KV_APPEND. -/
def execKvAppend (site : Nat) (e : MemErr) (s : State) : Res :=
  .next (s.runDesc site 4 8 (fun s part d => (s.descErrs part site (d % 2 ^ 512) e).runKvAppend part site (d % 2 ^ 512)))
/-- KV_ATTEND. -/
def execKvAttend (site : Nat) (e : MemErr) (s : State) : Res :=
  .next (s.runDesc site 4 9 (fun s part d => (s.descErrs part site (d % 2 ^ 512) e).runKvAttend part site (d % 2 ^ 512)))
/-- KV_SAMPLE. -/
def execKvSample (site : Nat) (e : MemErr) (s : State) : Res :=
  .next (s.runDesc site 4 10 (fun s part d => (s.descErrs part site (d % 2 ^ 512) e).runKvSample part site (d % 2 ^ 512)))

end Sys2Proof.Machine
end

