-- ==== Sys2Proof/Machine/Domains.lean ====
section
/-! DEFINITION. The switched domains (R332-R340): soft starts, inrush groups, shorts and the domain commands. -/

namespace Sys2Proof.Machine

/-! ### Numbering (Table 12.4) -/

/-- The `k`-th compute or spare site in ascending physical index. -/
def siteOfOrd (k : Nat) : Nat := ((List.range 72).filter (fun p => !(isHub p))).getD k 0
/-- Ordinal of a compute or spare site. -/
def ordOfSite (p : Nat) : Nat := ((List.range p).filter (fun x => !(isHub x))).length
/-- Regulator group of a domain: a physical site. -/
def domGroup (d : Nat) : Nat :=
  if d < 408 then siteOfOrd (d / 6) else if d < 420 then hubSite ((d - 408) / 3) else hubSite ((d - 420) % 4)
/-- 0 quadrant, 1 KV engine, 2 HBM supply, 3 hub logic, 4 PCIe port, 5 fabric and optical port, 6 pair optics. -/
def domKind (d : Nat) : Nat :=
  if d < 408 then (if d % 6 < 4 then 0 else d % 6 - 3) else if d < 420 then 3 + (d - 408) % 3 else 6
/-- Soft-start length, µs. -/
def softUs (d : Nat) : Nat :=
  match domKind d with
  | 0 => 80 | 1 => 50 | 2 => 200 | 3 => 120 | 4 => 40 | 5 => 60 | _ => 100
/-- Domain `d` of physical site `p`: quadrants 0-3, 4 KV engine, 5 HBM supply. -/
def siteDom (p d : Nat) : Nat := 6 * ordOfSite p + d
/-- Domains of a group. -/
def groupDoms (p : Nat) : List Nat := (List.range 424).filter (fun d => domGroup d == p)

/-! ### Switching (R333-R337) -/

def State.domAt (s : State) (d : Nat) : Dom := mget Dom.init s.dom.doms d
def State.setDom (s : State) (d : Nat) (x : Dom) : State :=
  { s with dom := { s.dom with doms := mset Dom.init s.dom.doms d x } }
def State.updDom (s : State) (d : Nat) (f : Dom → Dom) : State := s.setDom d (f (s.domAt d))
def State.domOn (s : State) (d : Nat) : Bool := (s.domAt d).st == 4
/-- Is quadrant `q` of site `p` powered? -/
def State.quadOn (s : State) (p q : Nat) : Bool := s.domOn (siteDom p q)
/-- A thermal trip holds (R312). -/
def State.trip (s : State) : Bool := s.flag rPWR_STATUS 15

/-- The stack of a site enters or leaves self-refresh with its KV engine domain (R333). -/
def State.selfRefresh (s : State) (p : Nat) (b : Bool) : State :=
  (s.setSvc p { s.svc p with selfRef := b }).setFld (siteReg p rKV_HBM_STAT) 3 1 (b2n b)
/-- The contents of a stack are lost (R333; what it reads as then, log entry 8). -/
def State.loseStack (s : State) (p : Nat) : State :=
  { s with kv := { s.kv with
      hbm := s.kv.hbm.filter (fun e => e.1 / 1024 / 589824 != p),
      bad := s.kv.bad.filter (fun e => e.1 / 2048 / 589824 != p) } }
/-- The accumulator sets of a quadrant's combs are cleared when it is gated (R41). -/
def State.loseSets (s : State) (p q : Nat) : State :=
  let mine (pc : Nat) : Bool := pc / 1040 == 4 * p + q
  { s with comb := { s.comb with
      sets := s.comb.sets.filter (fun e => !mine (e.1 / 2)), openTile := s.comb.openTile.filter (fun e => !mine e.1) } }
/-- What a change of the domain's power does to its site. -/
def State.powered (s : State) (d : Nat) (b : Bool) : State :=
  if domKind d = 1 then s.selfRefresh (domGroup d) (!b)
  else if domKind d = 2 ∧ !b then s.loseStack (domGroup d)
  else if domKind d = 0 ∧ !b then s.loseSets (domGroup d) (d % 6)
  else s

/-- Is a domain of the group in INRUSH or HELD? -/
def State.groupBusy (s : State) (p : Nat) : Bool := (groupDoms p).any (fun d => (s.domAt d).st == 2 || (s.domAt d).st == 3)
/-- The group's next request starts at `t` when nothing is in inrush (R335). -/
def State.serveGroupAt (s : State) (p t : Nat) : State :=
  if s.groupBusy p then s
  else
    match (groupDoms p).find? (fun d => (s.domAt d).st == 1) with
    | some d => s.updDom d (fun x => { x with st := 2, start := t, ext := false })
    | none => s
def State.serveGroup (s : State) (p : Nat) : State := s.serveGroupAt p s.time
/-- A power-up request at `t` (R334, R335); of a quadrant or KV engine it is refused while a thermal trip or a
power-fail sequence holds it gated (R312, R467). -/
def State.domRequestAt (s : State) (d t : Nat) : State :=
  if (s.domAt d).st != 0 || ((s.trip || s.inp.failing) && decide (domKind d < 2)) then s
  else (s.updDom d (fun x => { x with st := 1, again := false })).serveGroupAt (domGroup d) t
def State.domRequest (s : State) (d : Nat) : State := s.domRequestAt d s.time
/-- A power-down: from every state but FAULT, without a fault (R334). -/
def State.domDown (s : State) (d : Nat) : State :=
  let x := s.domAt d
  if x.st = 0 ∨ x.st = 5 then s.setDom d { x with again := false }
  else
    let s := s.setDom d { x with st := 0, ext := false, again := false }
    let s := if x.st = 4 then s.powered d false else s
    s.serveGroup (domGroup d)

/-- The KV engine domain of a site is ON while the site is bound, in service and of a configured partition (R334). -/
def State.syncKv (s : State) (p : Nat) : State :=
  if isHub p then s
  else if s.owner p < 16 ∧ mget false s.fab.siteOut p = false then s.domRequest (siteDom p 4)
  else s.domDown (siteDom p 4)
/-- Raise a domain or coolant fault: its entry carries the tick number and the owning partition (R339). -/
def State.tickFault (s : State) (code part site d0 d1 : Nat) : State :=
  (s.queueEvent { s.event code part 0x3FFF site d0 d1 with num := s.tick.number.toNat, tnum := true }).respond code part 0x3FFF
/-- Site field of a domain fault (R489) and its owning partition. -/
def State.domFault (s : State) (code d d0 d1 : Nat) : State :=
  s.tickFault code (if d < 408 then s.owner (domGroup d) else 16) (domGroup d) d0 d1
def domWord (d : Nat) : Nat := d + domGroup d * 2 ^ 9

/-- The switch opens and the domain enters FAULT (R336, R338); a site domain takes its site out of service. -/
def State.domBreak (s : State) (d code d0 d1 : Nat) : State :=
  let x := s.domAt d
  let s := s.setDom d { x with st := 5, fault := code, ext := false, again := false }
  let s := if x.st = 4 then s.powered d false else s
  let s := if d < 408 then { s with dom := { s.dom with outNext := s.dom.outNext ++ [domGroup d] } } else s
  let s := s.setFld (rDOM_FAULT + 4 * (d / 32)) (d % 32) 1 1
  let s := ((s.sticky rDOM_STATUS 0).domFault code d d0 d1)
  s.serveGroup (domGroup d)

/-! ### Commands (R334, R340) -/

def State.domStat (s : State) (d res : Nat) : State :=
  let r := rDOM_CMD_STAT
  let s := (s.setFld r 24 3 res).setFld r 0 9 d
  if res = 0 then s else s.sticky r 31

/-- A quadrant or KV engine domain of a configured partition. -/
def State.domOwned (s : State) (d : Nat) : Bool := decide (domKind d < 2) && decide (s.owner (domGroup d) < 16)

def execDomOn (d : Nat) (s : State) : Res :=
  .next (if (s.domAt d).st = 5 then s.domStat d 2
    else if s.domOwned d then s.domStat d 5
    else if s.trip && decide (domKind d < 2) then s.domStat d 3
    else (s.domRequest d).domStat d 0)

def execDomOff (d : Nat) (s : State) : Res :=
  .next (if (s.domAt d).st = 5 then s.domStat d 2
    else if s.domOwned d then s.domStat d 5
    else (s.domDown d).domStat d 0)

def execDomClear (d : Nat) (s : State) : Res :=
  .next (if (s.domAt d).st = 5 then
      ((s.updDom d (fun x => { x with st := 0 })).setFld (rDOM_FAULT + 4 * (d / 32)) (d % 32) 1 0).domStat d 0
    else s.domStat d 4)

/-- The word `w` is refused when a reserved field, its CMD or its domain is illegal. -/
def execDomCmdInvalid (w : BitVec 32) (s : State) : Res :=
  let c := bits w.toNat 24 4
  let d := bits w.toNat 0 9
  .next (if bits w.toNat 28 4 != 0 || bits w.toNat 9 15 != 0 || c == 0 || decide (3 < c) || decide (423 < d) then s.domStat d 1
    else s)

/-- DOM_DATA0 and DOM_DATA1 of the selected domain. The current of a switch that is closed is a value of the plant, of one that is open
that of its last overcurrent (DESIGN CHOICE, log entry 157). -/
def State.domWords (s : State) (d : Nat) : Nat × Nat :=
  if 423 < d then (0, 0)
  else
    let x := s.domAt d
    let el := if x.st = 2 ∨ x.st = 3 then (s.time - x.start) / 1000 else 0
    (el % 512 + b2n x.ext * 2 ^ 10 + softUs d * 2 ^ 11 + domGroup d * 2 ^ 19 + domKind d * 2 ^ 26 + x.st * 2 ^ 29,
      (if x.st = 2 ∨ x.st = 3 ∨ x.st = 4 then Config.rowFn 0x47 d s.time 0 else x.cur) % 2 ^ 16 + x.fault * 2 ^ 16)
def execDomDataRead (s : State) : Res :=
  let w := s.domWords (s.fld rDOM_SEL 0 9)
  .next (if !s.ready then s.emit (.value rDOM_DATA0 0) else ({ s with dom := { s.dom with latch := w.2 } }).emit (.value rDOM_DATA0 w.1))

/-! ### Events (R335-R338) -/

/-- The rail of domain `d` has held 97 % for 2 µs (R335). -/
def execSoftstartComplete (d t : Nat) (s : State) : Res :=
  let s := s.at t
  .next (if (s.domAt d).st = 2 then
      (((s.updDom d (fun x => { x with st := 4, ext := false })).powered d true).bump rDOM_CNT_SS).serveGroup (domGroup d)
    else s)

/-- A soft start ends without a clear being needed (R337). -/
def State.inrushAbort (s : State) (d by' : Nat) : State :=
  let s := s.updDom d (fun x => { x with st := 0, ext := false, again := true, fault := 0x1343 })
  (((s.sticky rDOM_STATUS 2).bump rDOM_CNT_ABORT).domFault 0x1343 d (domWord d) by').serveGroup (domGroup d)

/-- The window of a domain in INRUSH or HELD ends before it is ON (R337, R338). -/
def execSoftstartWindowExpiry (d t : Nat) (s : State) : Res :=
  let s := s.at t
  let x := s.domAt d
  .next (if (x.st = 2 ∨ x.st = 3) ∧ x.start + 1000 * softUs d * (if x.ext then 2 else 1) ≤ s.time then
      if x.ext then s.inrushAbort d 0x1FF
      else s.domBreak d 0x3342 (domWord d + 2 ^ 16) ((s.time - x.start) / 1000 % 512)
    else s)

/-- A switch overcurrent of `cur` tenths of an ampere (R336, R338). -/
def execDomShort (d cur t : Nat) (s : State) : Res :=
  let s := s.at t
  let x := s.domAt d
  .next (if x.st = 4 then
      ((s.setDom d { x with cur := cur }).bump rDOM_CNT_SHORT).domBreak d 0x3341 (domWord d) (cur % 2 ^ 16)
    else if x.st = 2 ∨ x.st = 3 then
      ((s.setDom d { x with cur := cur }).bump rDOM_CNT_SHORT).domBreak d 0x3342 (domWord d) ((s.time - x.start) / 1000 % 512)
    else s)

/-- The output of the group of site `p` sags while one of its domains is in INRUSH (R337); `by'` is the domain that shorted. -/
def execDomInrushHold (p by' t : Nat) (s : State) : Res :=
  let s := s.at t
  .next (match (groupDoms p).find? (fun d => (s.domAt d).st == 2) with
    | none => s
    | some d =>
      if (s.domAt d).ext then s.inrushAbort d by'
      else
        (((s.updDom d (fun x => { x with st := 3, ext := true })).sticky rDOM_STATUS 1).bump rDOM_CNT_HOLD).domFault 0x0344 d
          (domWord d) by')

/-- The output has held 97 % for 5 µs (R337). -/
def execSagRecovery (p t : Nat) (s : State) : Res :=
  let s := s.at t
  .next (match (groupDoms p).find? (fun d => (s.domAt d).st == 3) with
    | none => s
    | some d => s.updDom d (fun x => { x with st := 2 }))

/-- Requests of soft starts that a sag ended are made again at the edge (R337). -/
def State.retryDoms (s : State) : State :=
  ((s.dom.doms.filter (fun e => e.2.again)).map Prod.fst).foldl (fun (s : State) d => s.domRequest d) s

end Sys2Proof.Machine
end

