-- ==== Sys2Proof/Machine/Host.lean ====
section
/-! DEFINITION. Partitions, queues, streams and their operations (chapter 10), with the page service's FORK, PARK, RESUME,
draining and compaction (R196, R197, R205-R208). -/

namespace Sys2Proof.Machine

/-! ### The partition configuration structure (R273, R274) -/

/-- The grants of partition `n` that are in force or pending. -/
def State.heldGrants (s : State) (n : Nat) : Grants :=
  match (s.part n).pend with
  | some (.configure g) => g
  | _ => (s.part n).g
/-- Partitions that are configured or being configured, `n` among them. -/
def State.confParts (s : State) (n : Nat) : List Nat :=
  (List.range 16).filter (fun m => m == n || (s.part m).st != .unconfigured ||
    (match (s.part m).pend with
     | some (.configure _) => true
     | _ => false))

/-- Lengths of the runs of free blocks that begin at each block, lowest block first. -/
def freeRuns (occ : List Bool) : List Nat := occ.foldr (fun o acc => (if o then 0 else acc.headD 0 + 1) :: acc) []
/-- The stream blocks granted for a request: base and count (STR_BLK row of Table 10.4). -/
def State.grantBlocks (s : State) (n want : Nat) : Nat × Nat :=
  let gs := ((List.range 16).filter (fun m => m != n)).map s.heldGrants
  let runs := freeRuns ((List.range 1024).map (fun b => gs.any (fun g => decide (g.baseBlk ≤ b) && decide (b < g.baseBlk + g.nblk))))
  let k := min want (runs.foldl max 0)
  if k = 0 then (0, 0) else ((runs.findIdx? (fun r => decide (k ≤ r))).getD 0, k)

/-- Owner of a hub wheel slot once every pending CONFIGURE has taken effect (R225). -/
def State.wheelNextOwner (s : State) (h slot : Nat) : Nat :=
  match s.host.wheelNext.find? (fun x => x.1 == h && x.2.1 == slot) with
  | some x => x.2.2
  | none => s.fld (wheelReg h slot) (8 * (slot % 4)) 5
/-- Slots taken from others, highest-numbered first from the partition that holds most (R225). -/
def takeSlots (n min0 : Nat) (ps : List Nat) : Nat → List Nat → List (Nat × Nat) → List Nat × List (Nat × Nat)
  | 0, own, got => (own, got)
  | k + 1, own, got =>
    let cnt (m : Nat) : Nat := (own.filter (fun o => o == m)).length
    let c := (ps.filter (fun m => m != n && decide (min0 < cnt m))).foldl
      (fun (b : Option Nat) m => match b with
        | none => some m
        | some x => if cnt x ≤ cnt m then some m else some x) none
    match c with
    | none => (own, got)
    | some m =>
      let slot := ((List.range 64).filter (fun i => own.getD i 0x1F == m)).getLastD 0
      takeSlots n min0 ps k (own.set slot n) (got ++ [(slot, m)])
/-- The wheel of one hub after `n` is granted up to `want` slots: slots granted, slots taken with their owners, the wheel. -/
def State.wheelGrant (s : State) (n h want : Nat) : Nat × List (Nat × Nat) × List Nat :=
  let own := (List.range 64).map (s.wheelNextOwner h)
  let free := ((List.range 64).filter (fun i => own.getD i 0 == 0x1F)).take want
  let own1 := free.foldl (fun (w : List Nat) i => w.set i n) own
  let ps := s.confParts n
  let r := takeSlots n (if 16 ≤ ps.length then 3 else 4) ps (want - free.length) own1 []
  (free.length + r.2.length, r.2, r.1)

/-- An entry of the configuration structure in the clamp report; rows of Table 10.4 are numbered from 0. -/
def cfgEntry (row req app reason : Nat) : List ClampEntry := if req = app then [] else [⟨structId 1 row, req, app, reason⟩]
def cfgRange (row lo hi x : Nat) : Nat × List ClampEntry :=
  let y := clampN lo hi x
  (y, cfgEntry row x y (if x < lo then 1 else 2))
/-- Reserved bits that are set (R274). Bits that no row names are reported at the row of their word (log entry 41). -/
def cfgRsv (row v : Nat) : List ClampEntry := cfgEntry row v 0 4

/-- Frames of the fixed items of the reserve and the least parking buffer (R189). -/
def minReserve (nsite heap nlayer : Nat) : Nat :=
  36 + 2 * ceilDiv (8 * 262144 * ceilDiv nlayer (max 1 nsite)) 65536 + 2 * ceilDiv (256 * heap) 65536 + 1 + 256

/-- What a CONFIGURE comes to: clamp entries, the result when it is refused, the grants, and the hub wheel changes. -/
structure ConfRes where
  es    : List ClampEntry
  fail  : Option Nat
  g     : Grants
  wheel : List (Nat × Nat × Nat)
  deriving DecidableEq, Repr

/-- Clamp the structure `c` for partition `n` in row order (Table 10.4). -/
def State.clampConfig (s : State) (n c : Nat) : ConfRes :=
  let w (i lo k : Nat) : Nat := wf c i lo k
  let dflt (x d : Nat) : Nat := if x = 0 then d else x
  let e0 := cfgRsv 0 (w 0 8 24) ++ cfgEntry 1 (w 0 0 8) 1 5
  let held := ((List.range 16).filter (fun m => m != n)).foldl (fun a m => a ||| (s.heldGrants m).sites) 0
  let req := bits c 32 64
  let free := andNot 64 (2 ^ 64 - 1) held
  let sites0 := andNot 64 req held
  let sites := if sites0 = 0 then ((setBitsOf 64 free).head?.map (fun i => 2 ^ i)).getD 0 else sites0
  if sites = 0 then ⟨e0, some 3, Grants.none, []⟩
  else
    let e2 := e0 ++ cfgEntry 2 req sites 9 ++ cfgRsv 3 (w 3 20 12) ++ cfgRsv 5 (w 3 4 12)
    let ports0 := dflt (w 3 0 4) 1
    let ports := (List.range 4).foldl (fun a p => if bit ports0 p && bit s.host.vfEn (17 * p + n + 1) then orBit a p else a) 0
    let e3 := e2 ++ cfgEntry 6 ports0 ports 9
    if ports = 0 then ⟨e3, some 4, Grants.none, []⟩
    else
      let nsite := popCount 64 sites
      let quota := cfgRange 7 0 (min 4096 (256 * nsite)) (w 4 0 13)
      let heap := cfgRange 9 4096 262143 (dflt (w 6 0 18) 131072)
      let nlayer := cfgRange 18 1 256 (w 14 0 9)
      let rsv := cfgRange 8 (minReserve nsite heap.1 nlayer.1) 524288 (dflt (w 5 0 20) 14336)
      let blkReq := dflt (w 7 0 11) 64
      let blk := clampN 1 1024 blkReq
      let gb := s.grantBlocks n blk
      let e4 := e3 ++ cfgRsv 7 (w 4 13 19) ++ quota.2 ++ cfgRsv 8 (w 5 20 12) ++ rsv.2 ++ cfgRsv 9 (w 6 18 14) ++ heap.2 ++
        cfgRsv 10 (w 7 11 21)
      if gb.2 = 0 then ⟨e4, some 5, Grants.none, []⟩
      else
        let e5 := e4 ++ cfgEntry 10 blkReq gb.2 (if gb.2 = blk then (if blkReq < blk then 1 else 2) else 9) ++ cfgRsv 11 (w 8 6 26)
        let asked := dflt (w 8 0 6) 4
        let want := clampN 4 60 asked
        let hubs := (List.range 4).map (fun h => (h, s.wheelGrant n h want))
        let e6 := e5 ++ hubs.flatMap (fun x =>
          (x.2.2.1.map (fun t => (⟨wheelReg x.1 t.1 + 2 ^ 31, t.1 * 256 + t.2, t.1 * 256 + n, 9⟩ : ClampEntry))) ++
            (if x.2.2.1.isEmpty && x.2.1 == asked then []
             else [⟨structId 1 11, asked, x.2.1, if x.2.2.1.isEmpty && x.2.1 == want then (if asked < want then 1 else 2) else 9⟩]))
        let srow0 := cfgRange 12 64 65536 (dflt (w 9 0 17) 14400)
        let srow := 64 * ceilDiv srow0.1 64
        let stage := cfgRange 13 (ceilDiv srow 1024) 32768 (dflt (w 10 0 16) 32768)
        let pf := cfgRange 14 0 32768 (w 11 0 16)
        let mx := cfgRange 15 1 131072 (dflt (w 12 0 18) 131072)
        let live0 := w 13 0 26
        let live := min (live0 / 64 * 64) 0x3F40000
        let es := e6 ++ cfgRsv 12 (w 9 17 15) ++
          (if srow0.2.isEmpty then cfgEntry 12 srow0.1 srow 7 else srow0.2) ++ cfgRsv 13 (w 10 16 16) ++ stage.2 ++
          cfgRsv 14 (w 11 16 16) ++ pf.2 ++ cfgRsv 15 (w 12 18 14) ++ mx.2 ++ cfgRsv 16 (w 13 26 6) ++
          cfgEntry 16 live0 live (if live0 / 64 * 64 = live then 7 else 2) ++ cfgRsv 17 (w 14 9 23) ++ nlayer.2 ++
          (List.range 17).flatMap (fun i => cfgRsv 19 (w (15 + i) 0 32))
        ⟨es, none,
          { sites := sites, ports := ports, nsq := w 3 16 4 + 1, quota := quota.1, rsvFr := rsv.1, heapCh := heap.1,
            baseBlk := gb.1, nblk := gb.2, wheel := (hubs.map (fun x => x.2.1)).foldl min want, srow := srow, stageKib := stage.1,
            pfCap := pf.1, maxctx := mx.1, liveOff := live, nlayer := nlayer.1 },
          hubs.flatMap (fun x => ((List.range 64).filter (fun i => x.2.2.2.getD i 0x1F == n)).map (fun i => (x.1, i, n)))⟩

/-! ### Partition commands (R273) -/

/-- PART_CMD_STAT after a command; results from 2 on are refusals. -/
def State.partResult (s : State) (cmd n res : Nat) : State :=
  let r := rPART_CMD_STAT
  let s := ((s.setFld r 24 3 res).setFld r 20 4 cmd).setFld r 0 4 n
  if 2 ≤ res then s.sticky r 31
  else { s.setFld r 30 1 1 with host := { s.host with lastCmd := some n } }

/-- A CONFIGURE of a structure already read (R274, R379). -/
def State.configure (s : State) (n source c : Nat) : Nat × State :=
  let r := s.clampConfig n c
  let s := s.clamped source r.es
  match r.fail with
  | some f => (f, s)
  | none =>
    let s := s.updPart n (fun p => { p with pend := some (.configure r.g) })
    (if r.es.isEmpty then 0 else 1,
      { s with host := { s.host with wheelNext := r.wheel ++ s.host.wheelNext.filter (fun x =>
          !(r.wheel.any (fun y => y.1 == x.1 && y.2.1 == x.2.1))) } })

def execPartConfigure (n : Nat) (cfg : Option (BitVec 1024)) (s : State) : Res :=
  .next (if !s.ready then s else if (s.part n).st != .unconfigured || (s.part n).pend.isSome || s.boot.hubLost != 0 then s.partResult 1 n 2
    else
      match cfg with
      | none => s.partResult 1 n 6
      | some c => let r := s.configure n 5 c.toNat; r.2.partResult 1 n r.1)

def execPartRelease (n : Nat) (s : State) : Res :=
  .next (if !s.ready then s else if (s.part n).st != .configured || (s.part n).pend.isSome then s.partResult 2 n 2
    else (s.updPart n (fun p => { p with pend := some .release })).partResult 2 n 0)

def execPartReset (n : Nat) (s : State) : Res :=
  .next (if !s.ready then s else if ((s.part n).st != .running && (s.part n).st != .loading) || (s.part n).pend.isSome then s.partResult 3 n 2
    else ((s.updPart n (fun p => { p with pend := some .reset })).resetPart n 0).partResult 3 n 0)

/-- The word `w` is refused when a reserved field or its CMD is illegal. -/
def execPartCmdInvalid (w : BitVec 32) (s : State) : Res :=
  let c := bits w.toNat 20 4
  .next (if !s.ready then s else if bits w.toNat 24 8 != 0 || bits w.toNat 4 16 != 0 || c == 0 || decide (3 < c) then s.partResult c (bits w.toNat 0 4) 7
    else s)

/-! ### Queue pairs (R275-R277) -/

def qpKey (n q : Nat) : Nat := n * 16 + q
def State.qp (s : State) (n q : Nat) : QPair := mget QPair.init s.host.qps (qpKey n q)
def State.setQp (s : State) (n q : Nat) (x : QPair) : State :=
  { s with host := { s.host with qps := mset QPair.init s.host.qps (qpKey n q) x } }
def State.updQp (s : State) (n q : Nat) (f : QPair → QPair) : State := s.setQp n q (f (s.qp n q))
/-- All queue pairs of a partition at their reset values. -/
def State.resetQps (s : State) (n : Nat) : State :=
  { s with host := { s.host with qps := s.host.qps.filter (fun e => e.1 / 16 != n) } }

/-- Is BAR2 of VF `vf` at `port` served, and is pair `q` one of its pairs (R270, R275)? -/
def State.served (s : State) (port vf q : Nat) : Bool :=
  let p := s.part (vf - 1)
  decide (1 ≤ vf) && decide (vf ≤ 16) && (p.st != .unconfigured) && bit p.g.ports port && decide (q < p.g.nsq)
def QPair.err (x : QPair) (b : Nat) : QPair := { x with stat := orBit x.stat b }
/-- The key of QUE_STAT of a pair among the W1C registers that hardware set at this instant (R8), past BAR0. -/
def queStat (n q : Nat) : Nat := 2 ^ 26 + 16 * n + q
/-- Hardware sets bit `b` of QUE_STAT of a pair. -/
def State.qpErr (s : State) (n q b : Nat) : State := (s.setQp n q ((s.qp n q).err b)).heat (queStat n q) b
/-- Free unreserved completion entries. -/
def QPair.room (x : QPair) : Nat :=
  if x.cqEn then 2 ^ x.cqSize - 1 - (x.cqTail + 2 ^ x.cqSize - x.cqDb) % 2 ^ x.cqSize - x.reserved else 0
/-- Clamp ID of a VF queue register (Table 13.10). -/
def vfId (port vf off : Nat) : Nat := 0x20000000 + port * 0x100000 + vf * 0x10000 + off

/-- A SIZE write: value in force, error, clamp entries. -/
def sizeWrite (en : Bool) (old req id : Nat) : Nat × Bool × List ClampEntry :=
  if en then (old, req != old, [])
  else let c := clampE id 6 16 req; (c.1, false, c.2)

/-- A write of SQ_CFG or CQ_CFG of pair `q`. -/
def execQueCfgWrite (port vf q : Nat) (sq : Bool) (w : BitVec 32) (s : State) : Res :=
  let n := vf - 1
  let x := s.qp n q
  let v := w.toNat
  .next (if !(s.served port vf q) then s
    else if sq then
      let z := sizeWrite x.sqEn x.sqSize (bits v 0 5) (vfId port vf (0x40 * q + 0x10))
      let y := { x with sqSize := z.1, sqEn := bit v 31 }
      let y := if bit v 31 && !x.sqEn then { y with sqHead := 0, sqDb := 0, sqPort := port } else y
      let s := s.setQp n q y
      (if z.2.1 then s.qpErr n q 0 else s).clamped 8 z.2.2
    else
      let z := sizeWrite x.cqEn x.cqSize (bits v 0 5) (vfId port vf (0x40 * q + 0x14))
      let keep := x.cqEn && !(bit v 31) && (x.sqEn || decide (0 < x.reserved) || (s.part n).compl.any (fun c => c.qp == q))
      let y := { x with cqSize := z.1, cqEn := bit v 31 || keep, irqEn := bit v 30, vec := bits v 16 11 }
      let y := if bit v 31 && !x.cqEn then { y with cqTail := 0, cqDb := 0, phase := true, cqPort := port } else y
      let s := s.setQp n q y
      (if z.2.1 || keep then s.qpErr n q 0 else s).clamped 8 z.2.2)

/-- A write of SQ_BASE or CQ_BASE of pair `q`. -/
def execQueBaseWrite (port vf q : Nat) (sq : Bool) (half : Nat) (v : BitVec 64) (s : State) : Res :=
  let n := vf - 1
  let x := s.qp n q
  let old := if sq then x.sqBase.toNat else x.cqBase.toNat
  let req := mergeHalf half old v.toNat
  let new := req / 4096 * 4096
  .next (if !(s.served port vf q) then s
    else if (if sq then x.sqEn else x.cqEn) then (if new = old then s else s.qpErr n q 0)
    else
      let y := if sq then { x with sqBase := BitVec.ofNat 64 new } else { x with cqBase := BitVec.ofNat 64 new }
      (s.setQp n q y).clamped 8 (if req = new then [] else [⟨vfId port vf (0x40 * q + (if sq then 0 else 8)), req, new, 7⟩]))

/-- A doorbell out of range (R276). -/
def State.badDoorbell (s : State) (port n q kind v : Nat) : State :=
  (s.qpErr n q 1).raiseOnce 0 0x0286 n 0x3FFF (hubSite port) (q + 16 * kind) v

def execSqTailDoorbell (port vf q : Nat) (w : BitVec 32) (t : Nat) (s : State) : Res :=
  let n := vf - 1
  let v := bits w.toNat 0 16
  let s := s.at t
  .next (if !(s.served port vf q) then s
    else if 2 ^ (s.qp n q).sqSize ≤ v then s.badDoorbell port n q 0 w.toNat
    else s.updQp n q (fun x => { x with sqDb := v }))

def execCqHeadDoorbell (port vf q : Nat) (w : BitVec 32) (t : Nat) (s : State) : Res :=
  let n := vf - 1
  let v := bits w.toNat 0 16
  let s := s.at t
  .next (if !(s.served port vf q) then s
    else if 2 ^ (s.qp n q).cqSize ≤ v then s.badDoorbell port n q 1 w.toNat
    else s.updQp n q (fun x => { x with cqDb := v }))

/-- Send the message of a vector that is pending and now unmasked. -/
def State.unmaskVec (s : State) (port fn vec : Nat) : State :=
  let k := fnKey port fn vec
  if mget false s.host.pendBit k && s.msixOpen port fn vec then (s.sendMsix port fn vec).setPendBit k false else s

/-- A vector of a function is unmasked, or (none) the function's MSI-X Enable and Function Mask are written; messages that this lets
through are sent (R268). -/
def execMsixUnmask (port fn : Nat) (vec : Option Nat) (enable mask : Bool) (s : State) : Res :=
  .next (match vec with
    | some v => (s.setMsixWord port fn v 3 (BitVec.ofNat 32 (clrBit (s.msixWord port fn v 3).toNat 0))).unmaskVec port fn v
    | none =>
      let s := { s with host := { s.host with msixOn := mset false s.host.msixOn (port * 17 + fn) enable,
                                              fmask := mset false s.host.fmask (port * 17 + fn) mask } }
      ((s.host.pendBit.map Prod.fst).filter (fun k => k / 2048 == port * 17 + fn)).foldl
        (fun (s : State) k => s.unmaskVec port fn (k % 2048)) s)

/-! ### Completions (R277, R293, R294) -/

/-- The status that Table 10.11 lists first. -/
def statusOf (l : List Nat) : Nat := ([6, 5, 4, 2, 3, 1, 7, 8, 9, 10, 11].find? (fun x => l.contains x)).getD 0

/-- Put a completion on its way to EMIT. -/
def State.complete (s : State) (n : Nat) (c : Completion) : State := s.updPart n (fun p => { p with compl := p.compl ++ [c] })

/-- The final completion of an operation of stream `i`. -/
def State.finalOp (s : State) (n i : Nat) (o : AdmOp) (status : List Nat) (fault pos : Nat) (tnt : Option Nat) (recomp : Bool) : State :=
  s.complete n
    { qp := o.qp, cid := o.cid, stream := i, last := true, tok := false, tnt := tnt.isSome, recomp := recomp,
      short := false, sfd := false, token := 0, pos := pos, fault := fault, status := statusOf status, origin := tnt.getD 0,
      adm := o.stroke, strokeL := (s.part n).stroke.toNat % 2 ^ 32 }

/-- Give back one reserved completion entry. -/
def State.unreserve (s : State) (n q : Nat) : State := s.updQp n q (fun x => { x with reserved := x.reserved - 1 })

/-- Words of a completion entry (Table 10.10) written in stroke `stroke`. -/
def complWord (c : Completion) (phase : Bool) (stroke : Nat) : Nat :=
  packNat 32 [c.cid % 2 ^ 16 + c.qp % 16 * 2 ^ 16 + b2n c.tok * 2 ^ 20 + b2n c.last * 2 ^ 21 + b2n c.sfd * 2 ^ 22 +
      b2n c.short * 2 ^ 23 + b2n c.recomp * 2 ^ 24 + b2n c.tnt * 2 ^ 25 + b2n phase * 2 ^ 31,
    c.stream, c.token % 2 ^ 18, c.pos % 2 ^ 18, c.status + c.fault % 2 ^ 16 * 2 ^ 16, c.origin, stroke - c.adm + 1, c.strokeL]

/-- Write one completion entry to its queue. -/
def State.writeCompl (s : State) (n : Nat) (c : Completion) : State :=
  let x := s.qp n c.qp
  let s := s.emit (.hostWrite x.cqPort (x.cqBase.toNat + 32 * x.cqTail) 32 (complWord c x.phase (s.part n).stroke.toNat))
  let t := (x.cqTail + 1) % 2 ^ x.cqSize
  s.setQp n c.qp { x with cqTail := t, phase := if t = 0 then !x.phase else x.phase, reserved := x.reserved - 1 }

/-- Write up to `cap` completions of partition `n` and raise the vectors of their queues (R129, R277); none in a power-fail
sequence, and none by a quarantined panel (R426, R467). -/
def State.writeCompls (s : State) (n cap : Nat) : State :=
  let cs := if s.inp.failing || s.fld rPAIR_STATUS 0 2 == 3 then [] else (s.part n).compl.take cap
  let s := s.updPart n (fun p => { p with compl := p.compl.drop cs.length })
  let s := cs.foldl (fun (s : State) c => s.writeCompl n c) s
  ((List.range 16).filter (fun q => cs.any (fun c => c.qp == q))).foldl (fun (s : State) q =>
    let x := s.qp n q
    if x.irqEn then s.raiseVec x.cqPort (n + 1) x.vec else s) s

/-! ### Stream states (R283-R286) -/

/-- The site rank that is the home base of the fewest live streams (R283). The stream `k` that gets it is not counted (DEDUCED,
safe, log entry 116: it takes a new home base, and the one it had before it was parked is none of its own any more). -/
def State.homeBase (s : State) (n k : Nat) : Nat :=
  let live := (s.partStreams n).filter (fun i => i != k && [StreamState.opened, .resident, .active, .draining].contains (s.stream i).st)
  let load (r : Nat) : Nat := (live.filter (fun i => (s.stream i).hb == r)).length
  (List.range (s.nsite n)).foldl (fun b r => if load r < load b then r else b) 0

/-- The state after the last admitted operation (R285). -/
def Stream.settle (x : Stream) : Stream :=
  if x.st = .active ∧ x.ops.isEmpty ∧ !x.waitFork then
    { x with st := if x.parked then .parked else if x.len = 0 then .opened else .resident }
  else x

/-- The first operation of a stream is over. -/
def State.popOp (s : State) (i : Nat) : State :=
  s.updStream i (fun x => { x with ops := x.ops.drop 1, started := false, opTaint := false, opOrigin := 0, remain := 0 }.settle)

/-- Chunks and pages of a stream of partition `n` with `k` records: pages per layer (R192). -/
def State.rbOf (s : State) (n : Nat) : Nat := s.rb0 (s.rankSite n 0)
def State.npgOf (s : State) (n k : Nat) : Nat := ceilDiv (k * s.rbOf n) 65536
/-- Bytes of a park image (R207). -/
def State.imageBytes (s : State) (n k : Nat) : Nat :=
  let pages := (s.part n).g.nlayer * s.npgOf n k
  4096 * ceilDiv (64 + 4 * pages) 4096 + 65536 * pages

/-- The home of layer `l` of a stream (R190). -/
def State.homeOf (s : State) (n i l : Nat) : Nat := s.rankSite n (((s.stream i).hb + l) % max 1 (s.nsite n))

/-- The page service copies the pages of a stream that is being parked into the parking buffers of its homes while they have room, and
frees the logs copied whole (R206, log entry 43). -/
def State.parkFill (s : State) (n i : Nat) : State :=
  let m := s.npgOf n (s.stream i).ntok
  (List.range (s.part n).g.nlayer).foldl (fun (s : State) l => s.parkLayer (s.homeOf n i l) i l (s.dirIdx n i l) m) s
/-- Parking buffers have room again: the PARKs under way in the partition go on (R206). -/
def State.parkRetry (s : State) (n : Nat) : State :=
  ((s.partStreams n).filter (fun i => (s.stream i).started && ((s.stream i).ops.head?.map (fun o => o.opc == 5)).getD false)).foldl
    (fun (s : State) i => s.parkFill n i) s

/-- A child whose FORK cannot run becomes FREE, and its operations fail with STATE (log entry 42). -/
def State.dropChild (s : State) (n i : Nat) : State :=
  let s := (s.stream i).ops.foldl (fun (s : State) o => s.finalOp n i o [8] 0 0 none false) s
  s.setStream i Stream.init

/-- Start the operations at the head of a stream, failing those whose conditions do not hold when they start (R280). -/
def State.startOps (s : State) (n i : Nat) : Nat → State
  | 0 => s
  | fuel + 1 =>
    let x := s.stream i
    match x.ops with
    | [] => s
    | o :: _ =>
      if x.started || x.waitFork || x.st != .active then s
      else
        let fail (st : Nat) (pos : Nat) : State := State.startOps ((s.finalOp n i o [st] 0 pos none false).popOp i) n i fuel
        match o.opc with
        | 2 =>
          if x.maxctx < x.len + o.count then fail 3 x.len
          else s.setStream i { x with started := true, remain := o.count, haddr := o.addr }
        | 3 =>
          if x.len = 0 then fail 8 0
          else s.setStream i { x with started := true, remain := o.count, temp := o.temp, topw := o.topw, seed := o.seed }
        | 4 =>
          if o.count = 0 ∨ x.len < o.count then
            State.startOps (((s.dropChild n o.child).finalOp n i o [8] 0 0 none false).popOp i) n i fuel
          else s.setStream i { x with started := true }
        | 5 =>
          if x.parked then fail 8 0
          else if 4096 * o.count < s.imageBytes n x.ntok then fail 10 x.len
          else (s.setStream i { x with started := true }).parkFill n i
        | 6 =>
          if x.parked then s.setStream i { x with started := true, hb := s.homeBase n i } else fail 8 0
        | _ => s

/-! ### Admission (R278-R281) -/

def sbOpc (e : Nat) : Nat := bits e 0 8
def sbCid (e : Nat) : Nat := bits e 16 16
def sbStream (e : Nat) : Nat := wf e 1 0 20
def sbAddr (e : Nat) : Nat := bits e 64 64
def sbCount (e : Nat) : Nat := wf e 4 0 32
def sbChild (e : Nat) : Nat := wf e 5 0 20
def sbTemp (e : Nat) : Nat := wf e 6 0 32
def sbTopp (e : Nat) : Nat := wf e 7 16 16
def sbTopk (e : Nat) : Nat := wf e 7 0 9
def sbSeed (e : Nat) : Nat := bits e 256 64

/-- Stream IDs of partition `n` (R282). -/
def State.ownsStream (s : State) (n i : Nat) : Bool :=
  let g := (s.part n).g
  decide (256 * g.baseBlk ≤ i) && decide (i < 256 * (g.baseBlk + g.nblk))

/-- The first failing row of Table 10.5, counted from 0: reserved fields, OPC, STREAM, then the ranges (R280). -/
def State.entryRow (s : State) (n e : Nat) : Option Nat :=
  let o := sbOpc e
  let gen := o == 3
  let temp := BitVec.ofNat 32 (sbTemp e)
  let rsv := [(1, bits e 8 8), (3, wf e 1 20 12), (7, wf e 5 20 12), (11, wf e 7 9 7), (14, bits e 320 192)]
  match rsv.find? (fun r => r.2 != 0) with
  | some r => some r.1
  | none =>
    if o = 0 ∨ 7 < o then some 2
    else if !(s.ownsStream n (sbStream e)) then some 4
    else if (if o == 2 then sbAddr e % 4 != 0 else if o == 5 || o == 6 then sbAddr e % 4096 != 0 else sbAddr e != 0) then some 5
    else if (if o == 2 || gen then sbCount e == 0 else if o == 1 || o == 4 || o == 5 then false else sbCount e != 0) then some 6
    else if o ≠ 4 ∧ sbChild e ≠ 0 then some 8
    else if (if gen then nonFinite32 temp || (val32 temp).lt ⟨0, 1⟩ || Q.lt ⟨16, 1⟩ (val32 temp) else sbTemp e != 0) then some 9
    else if (if gen then sbTopp e == 0 || decide (0x8000 < sbTopp e) else sbTopp e != 0) then some 10
    else if (if gen then sbTopk e == 0 || decide (256 < sbTopk e) else sbTopk e != 0) then some 12
    else if !gen && sbSeed e != 0 then some 13
    else none

/-- A hub that is lost has taken its quarter of the stream table with it (R16). -/
def State.entryLost (s : State) (i : Nat) : Bool := bit s.boot.hubLost (i % 4)
/-- The state condition of Table 10.6, apart from what is judged when the operation starts. An entry that was lost with its hub is in
none of the states that an operation asks for (DESIGN CHOICE, log entry 154). -/
def State.opLegal (s : State) (n e : Nat) : Bool :=
  let st := (s.stream (sbStream e)).st
  !(s.entryLost (sbStream e)) && match sbOpc e with
  | 1 => st == .free
  | 2 => st == .opened || st == .resident || st == .active
  | 3 => st == .opened || st == .resident || st == .active
  | 4 => (st == .resident || st == .active) && (s.stream (sbChild e)).st == .free && s.ownsStream n (sbChild e) &&
      !(s.entryLost (sbChild e))
  | 5 => st == .resident || st == .active
  | 6 => st == .parked
  | _ => st != .free

/-- Length of a stream after every APPEND admitted (R280). -/
def Stream.lenAfter (x : Stream) : Nat :=
  let rest := (if x.started then x.ops.drop 1 else x.ops).filter (fun o => o.opc == 2)
  x.len + (if x.started && (x.ops.head?.map (fun o => o.opc == 2)).getD false then x.remain else 0) +
    (rest.map (fun o => o.count)).foldl (· + ·) 0

/-- The status of an entry that fails admission, with its failing row; none when it passes (R280). -/
def State.entryFail (s : State) (n q e : Nat) : Option (Nat × Nat) :=
  match s.entryRow n e with
  | some r => some (7, r)
  | none =>
    let x := s.stream (sbStream e)
    if !(s.opLegal n e) then some (8, 0)
    else if 4 ≤ x.ops.length + x.closeOps.length then some (9, 0)
    else if sbOpc e != 7 && (!x.ops.isEmpty || x.waitFork) && x.qp != q then some (11, 0)
    else if sbOpc e = 2 ∧ x.maxctx < x.lenAfter + sbCount e then some (3, 0)
    else none

/-- A rejected entry (R280). -/
def State.rejectEntry (s : State) (n q e status row : Nat) : State :=
  let o : AdmOp := ⟨sbOpc e, sbCid e, q, 0, 0, 0, 0, 0, 0, 0, (s.part n).stroke.toNat⟩
  let s := (s.finalOp n (sbStream e) o [status] 0 row none false).bump rSTRM_CNT_REJECT
  (s.sticky rSTRM_STAT 0).raiseOnce 0 0x0281 n (s.stream (sbStream e)).sslot (partHub n)
    (status + sbOpc e * 2 ^ 8 + sbCid e * 2 ^ 16) (sbStream e + row * 2 ^ 20)

def opOfEntry (q port stroke e : Nat) : AdmOp :=
  ⟨sbOpc e, sbCid e, q, port, sbAddr e, sbCount e, sbChild e, sbTemp e, wf e 7 0 32, sbSeed e, stroke⟩

/-- Queue an operation behind the others of its stream. -/
def State.queueOp (s : State) (n q e : Nat) : State :=
  let i := sbStream e
  let x := s.stream i
  let o := opOfEntry q (s.qp n q).sqPort (s.part n).stroke.toNat e
  (s.setStream i { x with st := .active, qp := if x.ops.isEmpty && !x.waitFork then q else x.qp, ops := x.ops ++ [o] }).startOps n i 5

/-- OPEN (R279, R283). -/
def State.opOpen (s : State) (n q e : Nat) : State :=
  let i := sbStream e
  let o := opOfEntry q (s.qp n q).sqPort (s.part n).stroke.toNat e
  let m := if sbCount e = 0 then (s.part n).g.maxctx else clampN 1 131072 (sbCount e)
  (s.setStream i { Stream.init with st := .opened, part := n, qp := q, hb := s.homeBase n i, maxctx := m }).finalOp n i o [0] 0 0 none
    false
/-- FORK admission: the child becomes ACTIVE, bound to the same pair (R281). -/
def State.opFork (s : State) (n q e : Nat) : State :=
  let x := s.stream (sbStream e)
  (s.setStream (sbChild e) { Stream.init with st := .active, part := n, qp := q, hb := x.hb, maxctx := x.maxctx, waitFork := true }).queueOp
    n q e
/-- CLOSE (R286). -/
def State.opClose (s : State) (n q e : Nat) : State :=
  let i := sbStream e
  let x := s.stream i
  let o := opOfEntry q (s.qp n q).sqPort (s.part n).stroke.toNat e
  if x.st = .closed then (s.finalOp n i o [0] 0 0 none false).setStream i Stream.init
  else if x.st = .draining then s.setStream i { x with toFree := true, closeOps := x.closeOps ++ [o] }
  else s.setStream i { x with st := .active, qp := if x.ops.isEmpty && !x.waitFork then q else x.qp, ops := x.ops ++ [o] }

/-- The primary of a MIRROR pair keeps the entries it admits for INGEST (R429). -/
def State.noteSub (s : State) (n q e : Nat) : State :=
  if s.fld rPAIR_CTL 0 2 = 1 ∧ s.fld rPAIR_STATUS 0 2 = 1 then
    { s with pair := { s.pair with parts := mupd PairPart.init s.pair.parts n (fun x => { x with
      ingest := some (match x.ingest with
        | some i => (i.1, { i.2 with subs := i.2.subs ++ [(q, BitVec.ofNat 512 e)] })
        | none => ((s.part n).stroke.toNat, ⟨none, 0, 0, false, [], [(q, BitVec.ofNat 512 e)]⟩)) }) } }
  else s

/-- Admission of one entry of queue pair `q` with a room reserved for its final completion (R277): it is checked, and its
operation admitted or rejected. -/
def State.admitOp (s : State) (n q e : Nat) : State :=
  let s := s.updQp n q (fun x => { x with sqHead := (x.sqHead + 1) % 2 ^ x.sqSize, reserved := x.reserved + 1 })
  match s.entryFail n q e with
  | some f => s.rejectEntry n q e f.1 f.2
  | none =>
    let s := ((s.bump rSTRM_CNT_ADMIT).record n 3 (unpackNat 32 16 e ++ [q, 0, 0, 0, 0, 0, 0, 0])).noteSub n q e
    match sbOpc e with
    | 1 => s.opOpen n q e
    | 4 => s.opFork n q e
    | 7 => s.opClose n q e
    | _ => s.queueOp n q e

/-- Is there an entry at the head of queue `q` within the snapshot, and room for its completion (R127, R277)? Admission ends 8 µs
before INGEST closes; an EN that is cleared counts from the next snapshot on (R275). -/
def State.admissible (s : State) (n q : Nat) : Bool :=
  let x := s.qp n q
  (s.part n).inStroke && (s.part n).phase == 0 && !(s.part n).formed && !s.admitOver && decide (0 < x.room) &&
    ((s.part n).snap.any (fun e => e.1 == q && e.2 != x.sqHead))
/-- An admission of an entry with operation code `opc`, if the queue may take it. -/
def State.admitAs (s : State) (opc n q e : Nat) : State :=
  if s.admissible n q && sbOpc e == opc then s.admitOp n q e else s

def execOpen (n q : Nat) (e : BitVec 512) (s : State) : Res := .next (s.admitAs 1 n q e.toNat)
def execAppend (n q : Nat) (e : BitVec 512) (s : State) : Res := .next (s.admitAs 2 n q e.toNat)
def execGenerate (n q : Nat) (e : BitVec 512) (s : State) : Res := .next (s.admitAs 3 n q e.toNat)
def execFork (n q : Nat) (e : BitVec 512) (s : State) : Res := .next (s.admitAs 4 n q e.toNat)
def execPark (n q : Nat) (e : BitVec 512) (s : State) : Res := .next (s.admitAs 5 n q e.toNat)
def execResume (n q : Nat) (e : BitVec 512) (s : State) : Res := .next (s.admitAs 6 n q e.toNat)
def execClose (n q : Nat) (e : BitVec 512) (s : State) : Res := .next (s.admitAs 7 n q e.toNat)

/-- A failed fetch of a submission entry (Table 10.13). -/
def State.queueDmaError (s : State) (n q kind : Nat) : State :=
  let x := s.qp n q
  let port := if kind = 0 then x.sqPort else x.cqPort
  let a := if kind = 0 then x.sqBase.toNat + 64 * x.sqHead else x.cqBase.toNat + 32 * x.cqTail
  ((s.qpErr n q (if kind = 0 then 2 else 3)).sticky rSTRM_STAT 2).raise 0x3283 n 0x3FFF (hubSite port)
    (q + 16 * kind + port * 32) a

/-- Entries left in queue `q` by the snapshot. -/
def State.leftIn (s : State) (n q : Nat) : Nat :=
  let x := s.qp n q
  match (s.part n).snap.find? (fun e => e.1 == q) with
  | some e => (e.2 + 2 ^ x.sqSize - x.sqHead) % 2 ^ x.sqSize
  | none => 0
/-- Admission of the snapshot (R127): the entries fetched, in the order of the hub cores; none for a failed fetch. -/
def State.admitAll (s : State) (n : Nat) : List (Nat × Option (BitVec 512)) → State
  | [] => s
  | (q, e) :: t =>
    if s.admissible n q then
      match e with
      | some e => State.admitAll (s.admitOp n q e.toNat) n t
      | none => State.admitAll (s.queueDmaError n q 0) n t
    else State.admitAll s n t

/-- INGEST_ADMISSION: the hub cores admit from the snapshot (R127, R277). -/
def execIngestAdmission (n : Nat) (es : List (Nat × Option (BitVec 512))) (t : Nat) (s : State) : Res :=
  let s := s.at t
  .next (if s.inp.failing then s else s.admitAll n es)
/-- Admission is over: entries left in the snapshot wait for the next one and are counted (R127). -/
def State.closeIngest (s : State) (n : Nat) : State :=
  s.bumpBy rSTRK_CNT_DEFER (((List.range 16).map (s.leftIn n)).foldl (· + ·) 0)

/-! ### FORK, PARK, RESUME and draining (R205-R208, R286) -/

/-- The operation that a stream is running, if it has the code. -/
def State.runningOp (s : State) (i opc : Nat) : Option AdmOp :=
  let x := s.stream i
  match x.ops with
  | o :: _ => if x.started && o.opc == opc then some o else none
  | [] => none

/-- The background operation is over (BGDONE, Table 17.3). -/
def State.bgDone (s : State) (n i opc status : Nat) : State :=
  (s.record n 9 [i + opc * 2 ^ 24, status, 0, 0, 0, 0, 0, 0]).updRec n (fun r => { r with rBg := r.rBg.filter (fun j => j != i) })
/-- In replay a background completion is released at the stroke of its BGDONE entry, not earlier (R454, log entry 82); a panel
ends no work that it holds for its partner (R437, R440). -/
def State.bgHeld (s : State) (n i : Nat) : Bool :=
  let r := s.recOf n
  (r.mode == 2 && !r.diverged && !(r.rBg.contains i)) || s.heldForPartner n

/-- Page `k` of the parent's log enters the child's leaf: shared, or copied (R205). A frame that cannot be had ends the child
with KV_NOSPACE (log entry 42). -/
def State.forkPage (s : State) (n p i j l k : Nat) (whole : Bool) : State :=
  let e := s.dirAt p i
  let pe := s.leafAt p e k
  let fr := s.frame p pe.frame
  if whole && decide (fr.refcnt < 65535) then
    let s := (s.setLeaf p e k { pe with shr := true }).kvChange p ⟨i, e, false⟩
    let s := s.setFrame p pe.frame { fr with refcnt := fr.refcnt + 1 }
    s.addPage p (s.dirIdx n j l) pe.frame true
  else
    match s.takeFrame p 1 with
    | some (f, s') => (s'.copyFrame p pe.frame f).addPage p (s'.dirIdx n j l) f false
    | none => (s.journal 0x2185 n 0x3FFF p ((s.lsite p).getD 0 + l % 256 * 2 ^ 7) (s.freeFrames p)).endStream j 0x2185

/-- A log that a FORK or RESUME has built carries TAINT when one of its `k` records does (R193). -/
def State.noteTaint (s : State) (n p d k : Nat) : State :=
  if (s.dirAt p d).v && s.logTaint p d (s.kvLayout (s.rankSite n 0) 0) k then s.setDir p d { s.dirAt p d with taint := true } false else s

/-- One layer of a FORK of stream `i` at `k` records into stream `j`. -/
def State.forkLayer (s : State) (n i j k l : Nat) : State :=
  let p := s.homeOf n i l
  let b := k * s.rbOf n
  let full := b / 65536
  let pages := ceilDiv b 65536
  match s.ensureLeaf p (s.dirIdx n j l) pages with
  | none => (s.journal 0x2186 n 0x3FFF p ((s.lsite p).getD 0) (s.svc p).top).endStream j 0x2186
  | some s =>
    ((List.range pages).foldl (fun (s : State) m => s.forkPage n p (s.dirIdx n i l) j l m (decide (m < full))) s).noteTaint n p
      (s.dirIdx n j l) k

/-- The FORK that stream `i` runs completes. The child holds COUNT tokens; when they are not all of the parent's, its last
token is a value the manual does not state (log entry 42). -/
def execForkComplete (i : Nat) (s : State) : Res :=
  let x := s.stream i
  .next (if s.bgHeld x.part i then s else match s.runningOp i 4 with
    | none => s
    | some o =>
      let n := x.part
      let s := (List.range (s.part n).g.nlayer).foldl (fun (s : State) l => s.forkLayer n i o.child (o.count - 1) l) s
      let f := s.takeFree
      let s := f.2.updStream o.child (fun c => { c with
        len := o.count, waitFork := false, lasttok := if o.count = x.len then x.lasttok else f.1.toNat % 2 ^ 18,
        taint := x.taint, origin := x.origin }.settle)
      let s := ((s.finalOp n i o [0] 0 x.len none false).popOp i).bgDone n i 4 0
      (s.startOps n i 5).startOps n o.child 5)

/-- CRC-32 of IEEE 802.3, reflected. -/
def crc32Shift : Nat → Nat → Nat
  | 0, c => c
  | k + 1, c => crc32Shift k (if c % 2 = 1 then (c / 2) ^^^ 0xEDB88320 else c / 2)
def crc32 (l : List Nat) : Nat := (l.foldl (fun c b => crc32Shift 8 (c ^^^ (b % 256))) 0xFFFFFFFF) ^^^ 0xFFFFFFFF
/-- Bytes of a list of granules. -/
def granBytes (gs : List (BitVec 512)) : List Nat := gs.flatMap (fun g => unpackNat 8 64 g.toNat)
/-- SHAPE word of a park image (Table 07.11). -/
def State.shapeWord (s : State) (n : Nat) : Nat :=
  let ly := s.kvLayout (s.rankSite n 0) 0
  ((s.part n).g.nlayer - 1) + (lyGroups ly - 1) * 2 ^ 8 + s.rbOf n * 2 ^ 16

/-- A failed transfer of a stream's data (Table 10.13): kind 0 token fetch, 1 park write, 2 resume read. -/
def State.hostDmaError (s : State) (n i port kind addr : Nat) : State :=
  ((s.sticky rSTRM_STAT 2).journal 0x2282 n (s.stream i).sslot (hubSite port) (port + kind * 2 ^ 4) addr).endStream i 0x2282

/-- Page `k` of layer `l` of a stream as the parking buffer holds it, as granules; none while it is not there. -/
def State.parkedPage (s : State) (n i l k : Nat) : Option (List (BitVec 512)) :=
  let p := s.homeOf n i l
  (s.parkedAt p i l k).map (fun f => (List.range 1024).map (s.hbmGran p f))
/-- The image's pages, layer-major; none while a page is still outside the parking buffers. -/
def State.parkImage (s : State) (n i : Nat) : Option (List (List (BitVec 512))) :=
  let ps := (List.range (s.part n).g.nlayer).flatMap (fun l =>
    (List.range (s.npgOf n (s.stream i).ntok)).map (fun k => s.parkedPage n i l k))
  if ps.all (fun x => x.isSome) then some (ps.filterMap id) else none
/-- Ports of the partition, in order. -/
def State.portsOf (s : State) (n : Nat) : List Nat := setBitsOf 4 (s.part n).g.ports
/-- Send a park image to host memory: the transfer uses every port of the partition, its pages taking them in turn (R270; DESIGN CHOICE,
log entry 43). -/
def State.sendImage (s : State) (n a : Nat) (hdr : List Nat) (pages : List (List (BitVec 512))) : State :=
  let ports := s.portsOf n
  let port (j : Nat) : Nat := ports.getD (j % max 1 ports.length) 0
  let h := 4096 * ceilDiv (4 * hdr.length) 4096
  pages.zipIdx.foldl (fun (s : State) g => s.emit (.hostWrite (port g.2) (a + h + 65536 * g.2) 65536 (packNat 512 (g.1.map BitVec.toNat))))
    (s.emit (.hostWrite (port 0) a h (packNat 32 hdr)))

/-- The host holds the whole image of a parked stream, or a write of it has failed on a port (R206, R207). -/
def execParkComplete (i : Nat) (failed : Option Nat) (s : State) : Res :=
  let x := s.stream i
  .next (if s.bgHeld x.part i then s else match s.runningOp i 5 with
    | none => s
    | some o =>
      let n := x.part
      match failed, s.parkImage n i with
      | some port, _ => s.hostDmaError n i port 1 o.addr
      | none, none => s
      | none, some pages =>
        let hdr := [1, x.ntok, s.shapeWord n, s.npgOf n x.ntok] ++ List.replicate 12 0 ++ pages.map (fun g => crc32 (granBytes g))
        let s := (List.range (s.part n).g.nlayer).foldl (fun (t : State) l =>
          t.bumpBy (siteReg (s.homeOf n i l) rKV_CNT_PARK) (s.npgOf n x.ntok)) (s.sendImage n o.addr hdr pages)
        let s := ((s.freeStream n i).updStream i (fun y => { y with parked := true })).parkRetry n
        (((s.finalOp n i o [0] 0 x.len none false).popOp i).bgDone n i 5 0).startOps n i 5)

/-- Build one page of a resumed log, or of one whose PARK is aborted. -/
def State.resumePage (s : State) (n i l : Nat) (g : List (BitVec 512)) : State :=
  let p := s.homeOf n i l
  let d := s.dirIdx n i l
  (s.takeFrame p 1).elim
    ((s.journal 0x2185 n 0x3FFF p ((s.lsite p).getD 0 + l % 256 * 2 ^ 7) (s.freeFrames p)).endStream i 0x2185)
    (fun z => (z.2.ensureLeaf p d ((z.2.dirAt p d).npg + 1)).elim
      ((z.2.journal 0x2186 n 0x3FFF p ((z.2.lsite p).getD 0) (z.2.svc p).top).endStream i 0x2186)
      (fun s =>
        let r := g.foldl (fun (y : State × Nat) v => (y.1.setHbmGran p z.1 y.2 v, y.2 + 1)) (s, 0)
        r.1.addPage p d z.1 false))
/-- A PARK is aborted before its image has left: layers whose logs have been freed come back from the parking buffers, which are given
up (log entry 47). -/
def State.unpark (s : State) (n i : Nat) : State :=
  let m := s.npgOf n (s.stream i).ntok
  let s := (List.range (s.part n).g.nlayer).foldl (fun (s : State) l =>
    if (s.dirAt (s.homeOf n i l) (s.dirIdx n i l)).v then s
    else
      (((List.range m).filterMap (fun k => s.parkedPage n i l k)).foldl (fun (s : State) g => s.resumePage n i l g) s).noteTaint n
        (s.homeOf n i l) (s.dirIdx n i l) (s.stream i).ntok) s
  { s with kv := { s.kv with park := s.kv.park.filter (fun x => x.stream != i) } }.parkRetry n

/-- Every home has rebuilt the stream from its image, words `hdr` and pages layer-major; or a read of it through `port` failed (R208). -/
def execResumeComplete (i port : Nat) (image : Option (List (BitVec 32) × List (List (BitVec 512)))) (s : State) : Res :=
  let x := s.stream i
  .next (if s.bgHeld x.part i then s else match s.runningOp i 6 with
    | none => s
    | some o =>
      let n := x.part
      match image with
      | none => s.hostDmaError n i port 2 o.addr
      | some (hdr, pages) =>
        let w (k : Nat) : Nat := (hdr.getD k 0).toNat
        let npg := w 3
        let bad := ((List.range pages.length).zip pages).find? (fun e => crc32 (granBytes e.2) != w (16 + e.1))
        if bits (w 0) 0 16 != 1 || w 2 != s.shapeWord n then
          (s.journal 0x2187 n 0x3FFF (s.homeOf n i 0) 0 0).endStream i 0x2187
        else
          match bad with
          | some e => (s.journal 0x2187 n 0x3FFF (s.homeOf n i (e.1 / max 1 npg)) e.1 (crc32 (granBytes e.2))).endStream i 0x2187
          | none =>
            let s := ((List.range pages.length).zip pages).foldl (fun (s : State) e =>
              let l := e.1 / max 1 npg
              (s.resumePage n i l e.2).bump (siteReg (s.homeOf n i l) rKV_CNT_RESUME)) s
            let s := (List.range (s.part n).g.nlayer).foldl (fun (s : State) l =>
              s.noteTaint n (s.homeOf n i l) (s.dirIdx n i l) x.ntok) s
            let s := s.updStream i (fun y => { y with parked := false })
            (((s.finalOp n i o [0] 0 x.len none false).popOp i).bgDone n i 6 0).startOps n i 5)

/-- The page service has freed every page of a draining stream (R286). -/
def execStreamDrainComplete (i : Nat) (s : State) : Res :=
  let x := s.stream i
  let n := x.part
  .next (if x.st != .draining || s.bgHeld n i then s
    else
      let s := s.freeStream n i
      if x.toFree then
        ((x.closeOps.foldl (fun (s : State) o => s.finalOp n i o [0] 0 0 none false) s).setStream i Stream.init).bgDone n i 7 0
      else (s.setStream i { x with st := .closed }).bgDone n i 7 5)

/-! ### Inspection and compaction (R196, R197, R296) -/

/-- Words of a stream-table entry (Table 10.7). -/
def State.streamWords (s : State) (i : Nat) : List Nat :=
  let x := s.stream i
  let code := match x.st with
    | .free => 0 | .opened => 1 | .resident => 2 | .active => 3 | .parked => 4 | .draining => 5 | .closed => 6
  let run := if x.started || (x.ops.head?.map (fun o => o.opc == 7)).getD false then x.ops.head? else none
  let strokes := match run with
    | some o => (s.part x.part).stroke.toNat - o.stroke + 1
    | none => 0
  [code + b2n x.taint * 2 ^ 3 + x.part * 2 ^ 4 + x.hb * 2 ^ 8 + x.qp * 2 ^ 16 + min 15 x.wheld * 2 ^ 20 +
     ((run.map (fun o => o.opc)).getD 0) * 2 ^ 24,
   x.ntok, x.maxctx, (run.map (fun o => o.cid)).getD 0 + x.fault * 2 ^ 16, x.origin, x.remain % 2 ^ 18, x.haddr % 2 ^ 32,
   x.haddr / 2 ^ 32 % 2 ^ 32, x.temp, x.topw, x.seed % 2 ^ 32, x.seed / 2 ^ 32 % 2 ^ 32, x.sslot + x.lasttok % 2 ^ 18 * 2 ^ 14,
   strokes, x.lstroke % 2 ^ 32, x.lstroke / 2 ^ 32 % 2 ^ 16]

/-- The words of the selected entry. -/
def State.inspWords (s : State) : List Nat :=
  if 262143 < s.fld rSTRM_INSP_SEL 0 20 ∨ s.entryLost (s.fld rSTRM_INSP_SEL 0 20) then List.replicate 16 0 else s.streamWords (s.fld rSTRM_INSP_SEL 0 20)
def execStrmInspRead (s : State) : Res :=
  let w := s.inspWords
  .next (if !s.ready then s.emit (.value rSTRM_INSP_DATA 0) else ({ s with host := { s.host with inspLatch := w.drop 1 } }).emit (.value rSTRM_INSP_DATA (w.headD 0)))

/-- Compaction starts when it is enabled and the holes exceed the threshold: the idle generation receives a copy of the current one
(R196, log entry 94). -/
def execCompactionStart (site : Nat) (s : State) : Res :=
  let v := s.svc site
  let n := s.owner site
  .next (if s.flag (siteReg site rKV_CFG) 8 && decide (s.fld (siteReg site rKV_CFG) 16 8 * v.top < 100 * v.holes) &&
      !v.compacting && !v.flipReady && decide (n < 16) && decide (v.notBefore ≤ (s.part n).stroke.toNat) then
    let s := s.copyGen site
    s.setSvc site { s.svc site with compacting := true, log := [] }
  else s)

/-- The copy and the replay of the change log are done (R196, R197). -/
def execCompactionComplete (site : Nat) (s : State) : Res :=
  let v := s.svc site
  .next (if v.compacting then
      let s := v.log.foldl (fun (s : State) c => s.replayChange site c) s
      s.setSvc site { s.svc site with compacting := false, flipReady := true, log := [] }
    else s)

/-! ### Function resets and link loss (R271) -/

/-- The operations admitted through pair `q` are aborted without completions (Table 10.2). -/
def State.abortPair (s : State) (n q : Nat) : State :=
  let s := s.updPart n (fun p => { p with compl := p.compl.filter (fun c => c.qp != q) })
  if s.heldForPartner n then s
  else (s.partStreams n).foldl (fun (s : State) i =>
    let x := s.stream i
    if x.ops.any (fun o => o.qp == q) || x.closeOps.any (fun o => o.qp == q) || (x.waitFork && x.qp == q) then
      let headGone := (x.ops.head?.map (fun o => o.qp == q)).getD false
      if x.waitFork && x.qp == q then s.setStream i Stream.init
      else
        let y : Stream :=
          { x with ops := x.ops.filter (fun o => o.qp != q), closeOps := x.closeOps.filter (fun o => o.qp != q),
                   started := x.started && !headGone, remain := if headGone then 0 else x.remain, rsv := x.rsv && !headGone }
        let s := s.setStream i y.settle
        (if headGone && (x.ops.head?.map (fun o => o.opc == 5)).getD false && x.started then s.unpark n i else s).startOps n i 5
    else s) s

/-- The queue pairs of partition `n` that `port` serves return to reset (Table 10.2). -/
def State.resetPortQps (s : State) (n port : Nat) : State :=
  ((List.range 16).filter (fun q =>
    let x := s.qp n q
    (x.sqEn && x.sqPort == port) || (x.cqEn && x.cqPort == port))).foldl (fun (s : State) q => (s.abortPair n q).setQp n q QPair.init) s

def execFlr (port vf : Nat) (s : State) : Res :=
  let n := vf - 1
  .next (if 1 ≤ vf ∧ vf ≤ 16 then
      let s := s.resetPortQps n port
      let s := { s with host := { s.host with
        msixOn := mset false s.host.msixOn (port * 17 + vf) false, fmask := mset false s.host.fmask (port * 17 + vf) false,
        msixTab := s.host.msixTab.filter (fun e => e.1 / 8192 != port * 17 + vf),
        pendBit := s.host.pendBit.filter (fun e => e.1 / 2048 != port * 17 + vf) } }
      s.journal 0x0285 n 0x3FFF (hubSite port) (port + 3 * 2 ^ 4) (2 ^ n)
    else s)

/-- The port leaves every partition (Table 10.2): cause 0 link down (PERST# too, R471), 1 hot reset, 2 PF FLR. -/
def State.portDown (s : State) (port cause : Nat) : State :=
  let ns := (List.range 16).filter (fun n => bit (s.part n).g.ports port)
  let s := { s with host := { s.host with
    portsUp := if cause = 0 then clrBit s.host.portsUp port else s.host.portsUp,
    vfEn := setBits s.host.vfEn (17 * port) 17 0,
    msixOn := s.host.msixOn.filter (fun e => e.1 / 17 != port), fmask := s.host.fmask.filter (fun e => e.1 / 17 != port),
    msixTab := s.host.msixTab.filter (fun e => e.1 / 8192 / 17 != port),
    pendBit := s.host.pendBit.filter (fun e => e.1 / 2048 / 17 != port) } }
  let s := s.journal 0x0285 16 0x3FFF (hubSite port) (port + cause * 2 ^ 4) (ns.foldl orBit 0)
  ns.foldl (fun (s : State) n =>
    let s := (s.resetPortQps n port).updPart n (fun p => { p with g := { p.g with ports := clrBit p.g.ports port } })
    if (s.part n).g.ports = 0 then s.raise 0x3284 n 0x3FFF (hubSite port) port cause else s) s

end Sys2Proof.Machine
end

