-- ==== Sys2Proof/Machine/Power.lean ====
section
/-! DEFINITION. Operating points, power estimates, the budget, the plan, throttling and metering (chapter 11). -/

namespace Sys2Proof.Machine

/-! ### Settings and fused values -/

/-- Comb clock of an entry, MHz (Table 11.1). -/
def freqOf (e : Nat) : Nat :=
  [600, 640, 680, 720, 760, 800, 840, 880, 920, 960, 1000, 1050, 1100, 1150, 1200, 1250].getD e 600
/-- Fused items of a site (log entry 5): voltages in mV, weights in fJ. -/
def vFused (p e : Nat) : Nat := Config.fused 2 (p * 16 + e)
def vMax (p : Nat) : Nat := Config.fused 3 p
def weightOf (p c : Nat) : Nat := Config.fused 4 (p * 16 + c)

def State.pwr1 (s : State) (p : Nat) : SitePwr := mget SitePwr.init s.pwr.sites p
def State.setPwr1 (s : State) (p : Nat) (x : SitePwr) : State :=
  { s with pwr := { s.pwr with sites := mset SitePwr.init s.pwr.sites p x } }
def State.ppwr (s : State) (n : Nat) : PartPwr := mget PartPwr.init s.pwr.parts n
def State.setPpwr (s : State) (n : Nat) (x : PartPwr) : State :=
  { s with pwr := { s.pwr with parts := mset PartPwr.init s.pwr.parts n x } }

/-- Applied voltage of entry `e` (R298), mV; of a hub, its fused supply. -/
def State.vApplied (s : State) (p e : Nat) : Nat :=
  if isHub p then vFused p 0 else min (vMax p) (vFused p e + 5 * (s.pwr1 p).age)
/-- Highest usable entry (R298). -/
def State.ageMax (s : State) (p : Nat) : Nat :=
  if isHub p then 15 else (List.range 16).foldl (fun b e => if vFused p e + 5 * (s.pwr1 p).age ≤ vMax p then e else b) 0
/-- Voltage in force at a site: a raise ramps before RUN opens, a lowering after it (R299). -/
def State.vNow (s : State) (p : Nat) : Nat := max (s.vApplied p (s.pwr1 p).entry) (s.vApplied p (s.pwr1 p).prev)

/-- Tick periods in a second. -/
def State.ticksPerSec (s : State) : Nat := ceilDiv 1000000 (max 1 s.periodUs)

def State.plStroke (s : State) : Nat := s.fld rPWR_LIMIT_A 0 16
def State.plSust (s : State) : Nat := s.fld rPWR_LIMIT_A 16 16
def State.floorBudget (s : State) : Nat := s.fld rPWR_LIMIT_B 0 16
def State.plFast (s : State) : Nat := s.fld rPWR_LIMIT_B 16 9
def State.tThrottle (s : State) : Nat := s.fld rPWR_THERM 0 8
def State.grantMiss (s : State) : Nat := s.fld rPWR_THERM 16 4
/-- K, 22 fractional bits. -/
def State.kCal (s : State) : Nat := s.fld rPWR_CAL 0 24
def State.budget (s : State) : Nat := s.fld rPWR_BUDGET_NOW 0 16

/-- Units in one fJ of calibrated energy: 2^22 of K times 750 squared. -/
def unitFj : Nat := 2 ^ 22 * 562500

/-- A fault of the power block that belongs to no partition. -/
def State.pwrFault (s : State) (code site d0 d1 : Nat) : State := s.raise code 16 0x3FFF site d0 d1

/-! ### Windows (R300, R308-R311, R314) -/

/-- Powered quadrants of a site. -/
def State.quadsOn (s : State) (p : Nat) : Nat := ((List.range 4).filter (fun q => s.quadOn p q)).length
/-- w_s of a site with `n` powered quadrants, fJ per µs (R300). -/
def wStatic (p n : Nat) : Nat := if isHub p then weightOf p 10 else weightOf p 10 + n * weightOf p 11 + (4 - n) * weightOf p 12

/-- The planned k lowered by the budget guard (R309). -/
def State.kGuard (s : State) : Nat := max 1 (s.pwr.k - s.pwr.guard)
/-- Effective stretch at a site (R308). -/
def State.kEff (s : State) (p : Nat) : Nat :=
  let x := s.pwr1 p
  min (min s.kGuard x.kFast) (min x.kDroop x.kTherm)

/-- The running time of a droop stretch in the present tick period is taken to `s.time`. -/
def State.droopClose (s : State) (p : Nat) : State :=
  let x := s.pwr1 p
  match x.droopAt with
  | none => s
  | some t => s.setPwr1 p { x with droopNs := x.droopNs + (s.time - t), droopAt := some s.time }
/-- DROOP_PERSIST: more than 100 µs below 16 in one tick period (R310). -/
def State.droopPersist (s : State) (p : Nat) : State :=
  let x := s.pwr1 p
  if 100000 < x.droopNs ∧ !(s.marked 0x12C5 16 p) then
    let c := x.prev - 1
    ((s.setPwr1 p { x with droopCap := c }).mark 0x12C5 16 p).pwrFault 0x12C5 p (p + c * 2 ^ 7) (x.droopNs / 1000 % 2 ^ 16)
  else s

/-- The reasons of what the budget lowers: BUDGET, and COOLANT where the coolant cap set the budget (R313, R314). -/
def State.budgetWhy (s : State) : Nat := if s.fld rPWR_BUDGET_NOW 16 3 = 4 then 9 else 1
/-- Reasons active at a site (R314). -/
def State.reasonsAt (s : State) (p : Nat) : Nat :=
  let x := s.pwr1 p
  let k := s.kEff p
  let n := s.owner p
  let r := if x.entry < x.tgt then x.capWhy else 0
  let r := if k < 16 ∧ s.kGuard = k then r ||| s.budgetWhy else r
  let r := if k < 16 ∧ x.kFast = k then orBit r 1 else r
  let r := if k < 16 ∧ x.kTherm = k then orBit r 2 else r
  let r := if k < 16 ∧ x.kDroop = k then orBit r 4 else r
  if n < 16 ∧ s.flag (rPWR_PREF + 4 * n) 31 then r ||| s.budgetWhy else r

/-- The window of one site: activity counts of Table 11.2 and, at a compute or spare site, its hottest sensor. Estimates in
whole watts and amperes are rounded down (log entry 48). -/
def State.siteWindow (s : State) (p : Nat) (counts : List Nat) (tj : Nat) : State :=
  let x := s.pwr1 p
  let v := s.vNow p
  let k := s.kEff p
  let dyn := ((List.range 10).map (fun c => weightOf p c * counts.getD c 0)).foldl (· + ·) 0 * v * v
  let stat := wStatic p (s.quadsOn p) * 2 * v * v
  let ke := s.kCal * (dyn + stat)
  let over1 := decide (s.plFast * (unitFj * (2 * 10 ^ 9) * v) < ke * 1000)
  let calm1 := decide (ke * 10000 < 9 * s.plFast * (unitFj * (2 * 10 ^ 9) * v))
  let kf := if isHub p then (16, 0) else if over1 then (max 1 (x.kFast - 1), 0)
    else if calm1 then (if 7 ≤ x.calm then (min 16 (x.kFast + 1), 0) else (x.kFast, x.calm + 1)) else (x.kFast, 0)
  let planes := counts.getD 0 0
  let y := { x with unc := x.unc + dyn + stat, dyn := x.dyn + dyn * (720720 / max 1 k), stat := x.stat + stat,
                    pEst := ke / (unitFj * (2 * 10 ^ 9)), iEst := ke * 1000 / (unitFj * (2 * 10 ^ 9) * max 1 v),
                    kFast := kf.1, calm := kf.2, temp := if isHub p then 0 else tj,
                    kTherm := if !(isHub p) && decide (s.tThrottle + 5 ≤ tj) then 8 else 16,
                    planes := x.planes + planes, planesV := x.planesV + planes * v * v * weightOf p 13 }
  let s := ((s.setPwr1 p y).droopClose p).droopPersist p
  { s with clt := { s.clt with hotJ := max s.clt.hotJ (if isHub p || mget false s.fab.siteOut p then 0 else tj) } }

/-- The budget guard (R309). -/
def State.budgetGuard (s : State) : State :=
  let e := (s.pwr.sites.map (fun x => x.2.unc)).foldl (· + ·) 0
  if s.budget * (s.time - s.tick.last + 10000) * 10 ^ 6 * unitFj < s.kCal * e ∧ 1 < s.kGuard then
    let s := { s with pwr := { s.pwr with guard := s.pwr.guard + 1 } }
    (s.setFld rPWR_BUDGET_NOW 19 5 s.kGuard).bump rPWR_CNT_GUARD
  else s

/-- The reasons of the window are published and counted (R314). -/
def State.countReasons (s : State) : State :=
  let s := (s.pwr.sites.map Prod.fst).foldl (fun (s : State) p => s.setPwr1 p { s.pwr1 p with reasons := s.reasonsAt p }) s
  let now := (s.pwr.sites.map (fun x => x.2.reasons)).foldl (· ||| ·) 0
  let s := (List.range 8).foldl (fun (s : State) r =>
    if bit now r then
      let s := s.bumpBy (rPWR_THR_US + 16 * r) 2
      if bit s.pwr.reasons r then s else s.bump (rPWR_THR_EV + 16 * r)
    else s) s
  ({ s with pwr := { s.pwr with reasons := now } }).setFld rPWR_STATUS 16 8 now

/-- The end of a 2 µs window: for each site its counts and hottest junction sensor (R300, R309, R311). -/
def execPowerWindow (ws : List (Nat × List Nat × Nat)) (t : Nat) (s : State) : Res :=
  let s := s.at t
  .next ((ws.foldl (fun (s : State) w => s.siteWindow w.1 w.2.1 w.2.2) s).budgetGuard.countReasons)

/-! ### Droop (R310) -/

/-- A quadrant supply drop beyond DROOP_MV; `quads` are the quadrants concerned. -/
def execDroopEvent (p quads t : Nat) (s : State) : Res :=
  let s := s.at t
  let n := s.owner p
  let x := s.pwr1 p
  let ev := if s.marked 0x02C4 n p then x.droopEv + 1 else 1
  let s := s.setPwr1 p { x with kDroop := 8, droopEv := ev, droopAt := some (x.droopAt.getD s.time) }
  let s := ((s.bump rPWR_CNT_DROOP).sticky rPWR_STATUS 2).mark 0x02C4 16 (p + 2 ^ 32)
  .next (if s.marked 0x02C4 n p then s
    else (s.mark 0x02C4 n p).pwrFault 0x02C4 p (p + quads % 16 * 2 ^ 7) (ev % 2 ^ 16))

/-- The supply has held for 64 cycles. -/
def execDroopRestore (p t : Nat) (s : State) : Res :=
  let s := (s.at t).droopClose p
  .next ((s.setPwr1 p { s.pwr1 p with kDroop := 16, droopAt := none }).droopPersist p)

/-! ### Thermal trip (R312) -/

/-- Partitions that a panel-wide stop resets. -/
def State.livePartitions (s : State) : List Nat :=
  (List.range 16).filter (fun n => (s.part n).st == .running || (s.part n).st == .loading)

/-- A junction comparator trips; `tj` is its reading. -/
def execThermalTrip (p sensor tj t : Nat) (s : State) : Res :=
  let s := s.at t
  let s := (s.sticky rPWR_STATUS 15).sticky rPWR_STATUS 0
  let s := ((List.range 408).filter (fun d => decide (domKind d < 2))).foldl (fun (s : State) d => s.domDown d) s
  let s := s.setFld rCLT_VALVE 0 10 1000
  let s := s.pwrFault 0x42C7 p (p + sensor % 8 * 2 ^ 7) (tj % 256)
  .next (s.livePartitions.foldl (fun (s : State) n => s.resetPart n 0x42C7) s)

/-- A write of TRIP_CLR when the hottest of all sensors reads `hot` °C (R312); the KV engine domains that are to be ON are requested again
(R334). -/
def execTripClr (hot : Nat) (s : State) : Res :=
  .next (if !s.ready || !s.trip || decide (95 ≤ hot) then s
    else (List.range 72).foldl (fun (s : State) p => s.syncKv p) (s.setFld rPWR_STATUS 15 1 0))

/-! ### Grants and the budget (R303, R304) -/

/-- FLOOR_BUDGET takes the place of a grant that has been missing for GRANT_MISS tick periods. -/
def State.floorIfLost (s : State) : State :=
  let r := rPWR_GRANT_NOW
  if s.grantMiss ≤ s.fld r 24 7 ∧ !(s.flag r 31) then
    let last := s.fld r 0 16
    let s := ((s.setFld r 31 1 1).setFld r 0 16 s.floorBudget).setFld rPWR_STATUS 14 1 1
    (s.sticky rPWR_STATUS 1).pwrFault 0x02C1 (hubSite 0) last s.floorBudget
  else if s.flag r 31 then s.setFld r 0 16 s.floorBudget
  else s
/-- Step 3 of Table 05.4. The first tick edge ends no tick period, so none is missed at it. -/
def State.latchGrant (s : State) : State :=
  let r := rPWR_GRANT_NOW
  match s.pwr.grant with
  | some g =>
    let s := ((s.setReg r (BitVec.ofNat 64 (g % 2 ^ 16))).setFld rPWR_STATUS 14 1 0).bump rPWR_CNT_GRANT
    { s with pwr := { s.pwr with grant := none } }
  | none =>
    if s.tick.number = 0 then s.floorIfLost else ((s.satFld r 24 7 1).bump rPWR_CNT_MISS).floorIfLost

def execPwrGrantLost (s : State) : Res := .next s.floorIfLost

/-- The budget of the tick period and what set it (R304). -/
def State.formBudget (s : State) : State :=
  let ePrev := (s.pwr.hist.take (s.ticksPerSec - 1)).foldl (· + ·) 0
  let sust := clampN 1200 s.plStroke ((s.plSust * 10 ^ 6 - ePrev) / max 1 s.periodUs)
  let g := s.fld rPWR_GRANT_NOW 0 16
  let c := [(if s.flag rPWR_GRANT_NOW 31 then 1 else 0, g), (2, s.plStroke), (3, sust), (4, s.fld rCLT_CAP 0 16), (5, 18000)]
  let m := c.foldl (fun (b : Nat × Nat) x => if x.2 < b.2 then x else b) (c.headD (0, 0))
  ((s.setFld rPWR_BUDGET_NOW 0 16 m.2).setFld rPWR_BUDGET_NOW 16 3 m.1).setFld rPWR_STATUS 10 3 m.1

/-! ### Metering and attribution (R316-R319) -/

/-- Calibrated energy in whole µJ. -/
def State.calUj (s : State) (unc : Nat) : Nat := s.kCal * unc / (unitFj * 10 ^ 9)

/-- Raise PWR_LIMIT_EXCEEDED and the forecasts that follow (R319). -/
def State.limitExceeded (s : State) (kind excess : Nat) : State :=
  let s := (s.sticky rPWR_STATUS 4).pwrFault 0x12C8 (hubSite 0) kind excess
  { s with pwr := { s.pwr with excess := excess, excessLeft := s.ticksPerSec } }

/-- Floor ratio in thousandths; none without plane cycles (R318). -/
def State.floorRatio (s : State) (planesV planes : Nat) : Option Nat :=
  if planes = 0 then none else some (s.kCal * planesV * 10000 / (unitFj * planes * 2048 * 76))

/-- The tick period ends with `em` µJ metered (R316, R317): the energy is attributed and the period's sums begin anew. -/
def State.attribute (s : State) (em : Nat) : State :=
  let sum (f : SitePwr → Nat) (q : Nat × SitePwr → Bool) : Nat := ((s.pwr.sites.filter q).map (fun x => f x.2)).foldl (· + ·) 0
  let unc (q : Nat × SitePwr → Bool) : Nat := s.calUj (sum SitePwr.unc q)
  let shared := unc (fun x => isHub x.1)
  let unas := unc (fun x => !(isHub x.1) && decide (16 ≤ x.2.owner0))
  let parts := (List.range 16).map (fun n => unc (fun x => !(isHub x.1) && x.2.owner0 == n))
  let all := parts.foldl (· + ·) (shared + unas)
  let em := if s.pwr.est && s.flag rPWR_STATUS 13 then all else em
  let s0 := s
  let s := ((s.setReg rPWR_E_TICK (BitVec.ofNat 64 em)).setReg rPWR_E_SHARED (BitVec.ofNat 64 shared)).setReg rPWR_E_UNASSIGNED
    (BitVec.ofNat 64 unas)
  let s := (s.setReg rPWR_E_RESID (BitVec.ofNat 64 (unsigned 64 ((em : Int) - all)))).bumpBy rPWR_E_TOTAL em
  let s := ((List.range 16).zip parts).foldl (fun (s : State) e =>
    let s := s.bumpBy (rPWR_E_PART + 8 * e.1) e.2
    let x := s.ppwr e.1
    s.setPpwr e.1 { x with eTick := e.2, eSec := x.eSec + e.2 }) s
  let s := match s.floorRatio (sum SitePwr.planesV (fun _ => true)) (sum SitePwr.planes (fun _ => true)) with
    | some r => s.setFld rPWR_FLOOR_RATIO 0 16 r
    | none => s
  let b := s.budget
  let s := { s with pwr := { s.pwr with hist := (em :: s.pwr.hist).take s.ticksPerSec, secE := s.pwr.secE + em,
                                        secUnc := s.pwr.secUnc + sum SitePwr.unc (fun _ => true),
                                        secTicks := s.pwr.secTicks + 1 } }
  let s := if b * (s.periodUs + 10) * 102 < em * 100 then s.limitExceeded 1 (em / max 1 s.periodUs - b) else s
  (s0.pwr.sites.map Prod.fst).foldl (fun (s : State) p =>
    let s := s.droopClose p
    let x := s.pwr1 p
    let calm := x.droopAt.isNone && !(s.marked 0x02C4 16 (p + 2 ^ 32))
    s.setPwr1 p { x with
      uncLast := x.unc, unc := 0, dynLast := x.dyn, dyn := 0, statLast := x.stat, stat := 0, eTick := s.calUj x.unc,
      secPlanes := x.secPlanes + x.planes, secPlanesV := x.secPlanesV + x.planesV, planes := 0, planesV := 0, droopNs := 0,
      droopOk := if calm then x.droopOk + 1 else 0, droopCap := if calm && decide (1999 ≤ x.droopOk) then 15 else x.droopCap,
      wsLast := wStatic p (s.quadsOn p), quadsLast := s.quadsOn p }) s

/-- A tick period opens: the steps of the budget guard end (R309), a meter that is marked bad is not used in it (R316) and
its plan takes COOL_CAP as it stands (R326); what was counted before the first tick edge belongs to no tick period. -/
def State.openPeriod (s : State) (first : Bool) : State :=
  let s := if s.pwr.est = s.flag rPWR_STATUS 13 then s else { s with pwr := { s.pwr with est := s.flag rPWR_STATUS 13 } }
  let s := if s.pwr.cool = s.fld rCLT_CAP 16 4 then s else { s with pwr := { s.pwr with cool := s.fld rCLT_CAP 16 4 } }
  let s := if s.pwr.guard = 0 then s
    else (({ s with pwr := { s.pwr with guard := 0 } } : State).setFld rPWR_BUDGET_NOW 19 5 s.pwr.k)
  if first then
    (s.pwr.sites.map Prod.fst).foldl (fun (s : State) p =>
      s.setPwr1 p { s.pwr1 p with unc := 0, dyn := 0, stat := 0, planes := 0, planesV := 0, droopNs := 0 }) s
  else s

/-- The owners at the opening edge of a tick period (R317). -/
def State.openOwners (s : State) : State :=
  (List.range 72).foldl (fun (s : State) p => if isHub p then s else s.setPwr1 p { s.pwr1 p with owner0 := s.owner p }) s

def perMwh (tokens uj : Nat) : Nat := if uj = 0 then 0 else tokens * 3600000000000000 / uj

/-- A counter summed over the sites of a partition. -/
def State.sumSites (s : State) (n r : Nat) : Nat := ((s.partSites n).map (fun p => (s.reg (siteReg p r)).toNat)).foldl (· + ·) 0
/-- The mean squared error of the second that ends (Table 13.21, R84), rounded to binary32. -/
def State.secondStats (s : State) : State :=
  (List.range 16).foldl (fun (s : State) n =>
    if (s.part n).g.sites = 0 then s
    else
      let e := s.sumSites n rRQ_SSE
      let k := s.sumSites n rRQ_SAMP
      s.updStat n (fun x => { x with
        sse := e, samp := k,
        mse := if k - x.samp = 0 then 0 else (rnd32 ⟨((e - x.sse : Nat) : Int), (k - x.samp) * 65536⟩).toNat })) s

/-- The calibration that is due once a second has passed (R301, R316, R319); `check` names the failing reference check, none when all pass. A field of
K is rounded down (log entry 48). -/
def execCalibration (check : Option Nat) (t : Nat) (s : State) : Res :=
  let s := s.at t
  if s.pwr.secTicks < s.ticksPerSec then .next s else
  let s : State := match check with
    | some c =>
      if s.flag rPWR_STATUS 13 then s else (s.setFld rPWR_STATUS 13 1 1).pwrFault 0x12C3 (hubSite 0) (c % 16) 0
    | none => s.setFld rPWR_STATUS 13 1 0
  let w := s.pwr
  let s : State :=
    if s.flag rPWR_STATUS 13 || w.secUnc == 0 then s
    else
      let num : Nat := w.secE * 10 ^ 9 * 562500
      let k : Nat := num * 2 ^ 22 / w.secUnc
      let lo := w.secUnc * 90 > num * 100
      let hi := w.secUnc * 110 < num * 100
      let k' := if lo then 3774873 else if hi then 4613734 else k
      let s := (s.setFld rPWR_CAL 0 24 k').bump rPWR_CNT_CAL
      if lo ∨ hi then (s.sticky rPWR_STATUS 3).pwrFault 0x12C2 (hubSite 0) k' (rnd32 ⟨(num : Int), w.secUnc⟩).toNat else s
  let us : Nat := w.secTicks * s.periodUs
  let s := if us ≠ 0 ∧ s.plSust * us * 102 < w.secE * 100 then s.limitExceeded 0 (w.secE / us - s.plSust) else s
  let sum (f : SitePwr → Nat) : Nat := (s.pwr.sites.map (fun x => f x.2)).foldl (· + ·) 0
  let s := match s.floorRatio (sum SitePwr.secPlanesV) (sum SitePwr.secPlanes) with
    | some r => s.setFld rPWR_FLOOR_RATIO 16 16 r
    | none => s
  let s := (s.pwr.sites.map Prod.fst).foldl (fun (s : State) p =>
    s.setPwr1 p { s.pwr1 p with secPlanes := 0, secPlanesV := 0 }) s
  let toks := (s.pwr.parts.map (fun x => x.2.tokSec)).foldl (· + ·) 0
  let s := (s.pwr.parts.map Prod.fst).foldl (fun (s : State) n =>
    let x := s.ppwr n
    s.setPpwr n { x with perMwh := perMwh x.tokSec x.eSec, tokSec := 0, eSec := 0 }) s
  let s := s.secondStats
  .next { s with pwr := { s.pwr with perMwh := perMwh toks w.secE, lastSecE := w.secE, secE := 0, secUnc := 0, secTicks := 0 } }

/-! ### The operating-point plan (R305-R307) -/

/-- Highest entry a site may run, with ageing, heat, droop, coolant and host (R305). -/
def State.capOf (s : State) (p : Nat) : Nat :=
  let x := s.pwr1 p
  min (min (s.ageMax p) x.thermCap) (min (min x.droopCap s.pwr.cool) (s.fld rPWR_CTL 0 4))

/-- THERM_CAP of a site at a plan (R311, R186). -/
def State.thermStep (s : State) (p : Nat) : State :=
  let x := s.pwr1 p
  let hot := decide (s.tThrottle ≤ x.temp) || decide (95 ≤ (s.svc p).temp)
  if hot then
    let c := x.prev - 1
    let s := s.setPwr1 p { x with thermCap := c }
    if x.thermCap = 15 ∧ c < 15 then s.pwrFault 0x02C6 p (p + c * 2 ^ 7) (x.temp % 256) else s
  else if x.temp + 5 < s.tThrottle then s.setPwr1 p { x with thermCap := min 15 (x.thermCap + 1) }
  else s

/-- Largest opening delay among the sites of a partition, ns (R139). -/
def State.openDelay (s : State) (n : Nat) : Nat :=
  let use := match s.bucketOf n with
    | some b => bits b.raw.toNat 12 4
    | none => 0
  let q := (setBitsOf 4 use).getLastD 0
  ((s.partSites n).map (fun p => 2 * hops31 p + 16 * q)).foldl max 0
def State.runCyc (s : State) (n : Nat) : Nat :=
  match s.bucketOf n with
  | some b => wf b.raw.toNat 1 0 32
  | none => 0
/-- The lowest entry that meets the stroke (R305). -/
def State.needOf (s : State) (n : Nat) : Nat :=
  ((List.range 16).find? (fun e =>
    decide (s.openDelay n * freqOf e + 1000 * s.runCyc n ≤ (s.periodNs - s.ingestNs - s.guardNs) * freqOf e))).getD 15

/-- What the plan of one partition starts from: entry target and the entry after the caps. -/
structure Plan where
  part : Nat
  tgt  : Nat
  /-- after the caps of its sites, after the partner's pace, and after the budget -/
  cap  : Nat
  pre  : Nat
  e    : Nat
  deriving DecidableEq, Repr

def State.pref (s : State) (n m : Nat) : Nat := s.fld (rPWR_PREF + 4 * n) (4 * m) 4
/-- The partition's plan before the budget; `began` says that it begins a stroke at this edge. -/
def State.planOf (s : State) (n : Nat) (began mirror : Bool) : Plan :=
  let tgt := if began then
      (match s.bucketOf n with
       | some _ => max (s.pref n (s.part n).opmark) (s.needOf n)
       | none => s.pref n 3)
    else (s.ppwr n).entry
  let cap := ((s.partSites n).map s.capOf).foldl min 15
  let e := min tgt cap
  let pre := match (if mirror then (s.ppwr n).pace else none) with
    | some x => min e x
    | none => e
  ⟨n, tgt, cap, pre, pre⟩

/-- Forecast of one site in W (R306) at entry `e`, stretch `k` and `quads` powered quadrants. A quadrant's dynamic part is an
equal share of its site's; a site none of whose quadrants was powered is forecast at full activity (log entry 49). -/
def State.forecastSite (s : State) (p e k quads : Nat) : Q :=
  let x := s.pwr1 p
  let us := max 1 s.periodUs
  let vl := max 1 (s.vApplied p x.prev)
  let v := s.vApplied p e
  let full := (x.fresh && (s.part (s.owner p)).st != .loading) || x.quadsLast == 0
  let d : Q := if full then ⟨weightOf p 14, 1⟩ else ⟨s.kCal * x.dynLast, 45045 * unitFj * (us * 10 ^ 9)⟩
  let st : Q := ⟨s.kCal * x.statLast, unitFj * (us * 10 ^ 9)⟩
  let vr : Q := ⟨v * v, vl * vl⟩
  let dq : Q := if full then ⟨quads, 4⟩ else ⟨quads, x.quadsLast⟩
  let sq : Q := if x.wsLast = 0 then ⟨1, 1⟩ else ⟨wStatic p quads, x.wsLast⟩
  (((Q.mk k 16).mul (d.mul ((Q.mk (freqOf e) (freqOf x.prev)).mul (vr.mul dq)))).add (st.mul (vr.mul sq)))

/-- Entry of a site under the plans. -/
def State.planEntry (s : State) (ps : List Plan) (p : Nat) : Nat :=
  match ps.find? (fun x => x.part == s.owner p) with
  | some x => x.e
  | none => 0
/-- Powered quadrants in the new period; those of a partition in `gated` count as gated, those of `woken` as powered. -/
def State.planQuads (s : State) (gated : List Nat) (woken : Option Nat) (p : Nat) : Nat :=
  if gated.contains (s.owner p) then 0 else if woken = some (s.owner p) then 4 else s.quadsOn p
/-- Does the forecast of the panel exceed the budget? -/
def State.overBudget (s : State) (ps : List Plan) (k : Nat) (gated : List Nat) (woken : Option Nat := none) : Bool :=
  let us := max 1 s.periodUs
  let comp := (List.range 72).filter (fun p => !(isHub p))
  let f := comp.foldl (fun (a : Q) p => a.add (s.forecastSite p (s.planEntry ps p) k (s.planQuads gated woken p))) ⟨0, 1⟩
  let hubs : Nat := s.kCal * ((s.pwr.sites.filter (fun x => isHub x.1)).map (fun x => x.2.uncLast)).foldl (· + ·) 0
  let hub : Q := ⟨(hubs : Int), unitFj * (us * 10 ^ 9)⟩
  let ex : Q := ⟨if s.pwr.excessLeft = 0 then 0 else s.pwr.excess, 1⟩
  Q.lt ⟨s.budget, 1⟩ ((f.add hub).add ex)

/-- Lower entries, highest first and lowest partition on a tie, until the forecast fits (R305). -/
def State.lowerEntries (s : State) (gated : List Nat) : Nat → List Plan → List Plan
  | 0, ps => ps
  | fuel + 1, ps =>
    let hi := (ps.map Plan.e).foldl max 0
    if hi = 0 || !(s.overBudget ps 16 gated) then ps
    else
      match ps.find? (fun x => x.e == hi) with
      | some y => State.lowerEntries s gated fuel (ps.map (fun x => if x.part = y.part then { x with e := x.e - 1 } else x))
      | none => ps
/-- Lower the stretch to `lo` while the forecast exceeds the budget. -/
def State.lowerK (s : State) (ps : List Plan) (gated : List Nat) (lo : Nat) : Nat → Nat → Nat
  | 0, k => k
  | fuel + 1, k => if lo < k ∧ s.overBudget ps k gated then State.lowerK s ps gated lo fuel (k - 1) else k

/-- K_RUN (R305): the smallest stretch at which every stroke begun with an entry still ends within its slip limit. -/
def State.kRun (s : State) (ps : List Plan) (began : List Nat) : Nat :=
  let lim := s.fld rSTRK_CTL 16 4 * s.periodNs + s.periodNs - s.guardNs - s.ingestNs
  let ok (k : Nat) : Bool := ps.all (fun x =>
    !(began.contains x.part) || (s.part x.part).entry.isNone ||
      decide (1000 * s.runCyc x.part * 16 ≤ lim * freqOf x.e * k))
  (((List.range 16).map (· + 1)).find? ok).getD 16

/-- Choose holds until the forecast of the next period fits (R307). -/
def State.chooseHolds (s : State) (ps : List Plan) (k : Nat) (began : List Nat) : Nat → List Nat → List Nat
  | 0, held => held
  | fuel + 1, held =>
    if s.overBudget ps k held then
      let c := began.filter (fun n => !(held.contains n) && (s.part n).entry.isSome && (s.part n).st == .running)
      match c.foldl (fun (b : Option Nat) n => match b with
          | none => some n
          | some m => if (s.ppwr n).heldCnt < (s.ppwr m).heldCnt then some n else some m) none with
      | some n => State.chooseHolds s ps k began fuel (held ++ [n])
      | none => held
    else held

/-- Is the partition held (R307)? -/
def State.held (s : State) (n : Nat) : Bool := s.flag (rPWR_PREF + 4 * n) 31
def State.hold (s : State) (n : Nat) : State :=
  let s := (s.setPpwr n { s.ppwr n with heldAt := some s.tick.number.toNat }).setFld (rPWR_PREF + 4 * n) 31 1 1
  (s.updPart n (fun p => { p with gateSet := 15 })).pwrFault 0x02C9 (hubSite 0) n s.budget
def State.unhold (s : State) (n : Nat) : State :=
  (s.setPpwr n { s.ppwr n with heldAt := none }).setFld (rPWR_PREF + 4 * n) 31 1 0
/-- Release the partition of `old` held longest when the forecast with it at its need fits (R307). -/
def State.releaseHold (s : State) (ps : List Plan) (k : Nat) (old held : List Nat) : State :=
  let old := (old.filter (fun n => (s.ppwr n).heldAt.isSome)).foldl (fun (b : Option Nat) n => match b with
    | none => some n
    | some m => if (s.ppwr n).heldAt.getD 0 < (s.ppwr m).heldAt.getD 0 then some n else some m) none
  match old with
  | none => s
  | some n =>
    let ps' := ps.map (fun x => if x.part = n then { x with e := min (s.ppwr n).need x.cap } else x)
    if s.overBudget ps' k (held.filter (fun m => m != n)) (some n) then s else s.unhold n

/-- May a plan move site `p` to entry `e`: by at most 150 mV (R299)? -/
def State.mayMove (s : State) (p e : Nat) : Bool :=
  let a := s.vApplied p (s.pwr1 p).prev
  let b := s.vApplied p e
  decide (a ≤ b + 150) && decide (b ≤ a + 150)
/-- The entry nearest to `e` to which every site of `ps` may move: the highest not above it, else the lowest above it
(log entry 50). -/
def State.stepEntry (s : State) (ps : List Nat) (e : Nat) : Nat :=
  let ok := (List.range 16).filter (fun x => ps.all (fun p => s.mayMove p x))
  match (ok.filter (fun x => decide (x ≤ e))).getLast? with
  | some x => x
  | none => ok.headD e

/-- Reasons that hold a site's entry below its target (R314). -/
def State.whyOf (s : State) (x : Plan) (p : Nat) (mirror : Bool) : Nat :=
  let w := s.pwr1 p
  let e := x.e
  if x.tgt ≤ e then 0
  else
    let r := if x.e < x.pre then s.budgetWhy else 0
    let r := if w.thermCap = e then orBit r 2 else r
    let r := if s.pwr.cool = e then orBit r 3 else r
    let r := if w.droopCap = e then orBit r 4 else r
    let r := if x.cap = e ∧ e < s.capOf p then orBit r 5 else r
    let r := if mirror ∧ (s.ppwr x.part).pace = some e then orBit r 6 else r
    if s.fld rPWR_CTL 0 4 = e then orBit r 7 else r

/-- The ageing levels that firmware has set take effect at the plan; a site whose entry 0 becomes unusable faults and goes out of
service (R298). -/
def State.applyAge (s : State) : State :=
  (s.pwr.sites.map Prod.fst).foldl (fun (s : State) p =>
    let x := s.pwr1 p
    if x.ageReq ≤ x.age then s
    else
      let s := s.setPwr1 p { x with age := x.ageReq }
      if vFused p 0 + 5 * x.ageReq ≤ vMax p then s
      else
        let out := if s.dom.outNext.contains p then s.dom.outNext else s.dom.outNext ++ [p]
        ({ s with dom := { s.dom with outNext := out } }).raise 0x32CA (s.owner p) 0x3FFF p (p + x.ageReq * 2 ^ 7) (vMax p % 2 ^ 10)) s

/-- The plan of a tick period (R305); `began` are the partitions that begin a stroke, `mirror` those of a MIRROR pair. -/
def State.plan (s : State) (began : List Nat) (mirror : Bool) : State :=
  let comp := (List.range 72).filter (fun p => !(isHub p))
  let s := comp.foldl (fun (s : State) p => s.thermStep p) s.applyAge
  let run := (List.range 16).filter (fun n => (s.part n).st == .running)
  let held0 := run.filter s.held
  let ps0 := run.map (fun n => s.planOf n (began.contains n) mirror)
  let ps1 := s.lowerEntries [] 256 ps0
  let ps := ps1.map (fun x => { x with e := s.stepEntry (s.partSites x.part) x.e })
  let k1 := s.lowerK ps [] (s.kRun ps began) 16 16
  let held := if s.overBudget ps k1 [] && s.flag rPWR_CTL 8 then s.chooseHolds ps k1 began 16 held0 else held0
  let s := (held.filter (fun n => !(held0.contains n))).foldl (fun (s : State) n => s.hold n) s
  let k := s.lowerK ps [] 1 16 k1
  let s := s.releaseHold ps k held0 held
  let s := ps.foldl (fun (s : State) x =>
    let y := s.ppwr x.part
    s.setPpwr x.part { y with entry := x.e, need := if (s.part x.part).entry.isSome then s.needOf x.part else y.need }) s
  let s := comp.foldl (fun (s : State) p =>
    let w := s.pwr1 p
    match ps.find? (fun x => x.part == s.owner p) with
    | some x => s.setPwr1 p { w with entry := x.e, tgt := x.tgt, capWhy := s.whyOf x p mirror, fresh := w.fresh && !(began.contains x.part) }
    | none => s.setPwr1 p { w with entry := s.stepEntry [p] 0, tgt := 0, capWhy := 0, fresh := false }) s
  ({ s with pwr := { s.pwr with kNext := k, excessLeft := s.pwr.excessLeft - 1 } }).setFld rPWR_BUDGET_NOW 19 5 (max 1 (k - s.pwr.guard))

/-! ### Inspection (R321) -/

/-- PWR_SITE_DATA0 to 3 of a site. -/
def State.siteWords (s : State) (p : Nat) : List Nat :=
  if 71 < p then [0, 0, 0, 0]
  else
    let x := s.pwr1 p
    [x.prev + x.tgt * 2 ^ 4 + s.kEff p * 2 ^ 8 + x.reasons * 2 ^ 16 + x.temp % 256 * 2 ^ 24,
      x.pEst % 2 ^ 16 + x.iEst % 2 ^ 9 * 2 ^ 16,
      s.vNow p % 2 ^ 10 + x.age * 2 ^ 10 + s.ageMax p * 2 ^ 14 + x.thermCap * 2 ^ 18 + x.droopCap * 2 ^ 22,
      x.eTick % 2 ^ 32]
def execPwrSiteDataRead (s : State) : Res :=
  let w := s.siteWords (s.fld rPWR_SITE_SEL 0 7)
  .next (if !s.ready then s.emit (.value rPWR_SITE_DATA 0) else ({ s with pwr := { s.pwr with latch := w.drop 1 } }).emit (.value rPWR_SITE_DATA (w.headD 0)))

end Sys2Proof.Machine
end

