-- ==== Sys2Proof/Machine/Coolant.lean ====
section
/-! DEFINITION. The coolant sensors, the valve and its bridge, and the loop (R322-R331). -/

namespace Sys2Proof.Machine

def State.sensor (s : State) (i : Nat) : Sensor := mget Sensor.init s.clt.sensors i
def State.setSensor (s : State) (i : Nat) (x : Sensor) : State :=
  { s with clt := { s.clt with sensors := mset Sensor.init s.clt.sensors i x } }
def State.cltMark (s : State) (b : Nat) : Bool := bit s.clt.marks b
def State.setCltMark (s : State) (b : Nat) (v : Bool) : State :=
  { s with clt := { s.clt with marks := setBits s.clt.marks b 1 (b2n v) } }
def State.setI (s : State) (q : Q) : State := { s with clt := { s.clt with iNum := q.n, iDen := q.d } }
/-- Bridge state (Table 12.2). -/
def State.bridge (s : State) : Nat := s.fld rCLT_VALVE 30 2
def State.setBridge (s : State) (b : Nat) : State := s.setFld rCLT_VALVE 30 2 b
def State.setEnc (s : State) (enc : Nat) : State :=
  { s.setFld rCLT_VALVE 16 10 enc with clt := { s.clt with enc := enc } }

/-- Is a reading within the sensor's valid range (Table 12.1)? Temperatures in 0.1 °C, pressures in kPa. -/
def sensorOk (i : Nat) (v : Int) : Bool :=
  if i < 4 then decide (-200 ≤ v) && decide (v ≤ 1200) else decide (0 ≤ v) && decide (v ≤ 1000)

/-- One millisecond's samples of TI0, TI1, TO0, TO1, PI and PO; none where the reference check failed (R322). -/
def execCoolantSensorSample (vs : List (Option Int)) (t : Nat) (s : State) : Res :=
  .next (((List.range 6).zip vs).foldl (fun (s : State) e =>
    let x := s.sensor e.1
    match e.2 with
    | none => s
    | some v =>
      if sensorOk e.1 v then s.setSensor e.1 { x with sum := x.sum + v, n := x.n + 1, last := v }
      else s.setSensor e.1 { x with last := v }) (s.at t))

/-- A fault of the coolant loop, with its sticky bit. -/
def State.cltFault (s : State) (code d0 d1 : Nat) (bitNo : Option Nat) : State :=
  let s := match bitNo with
    | some b => s.sticky rCLT_STATUS b
    | none => s
  s.tickFault code 16 (hubSite 0) d0 d1

/-- Sensor `i` is invalid over the interval, or valid again (R323). -/
def State.sensorState (s : State) (i : Nat) (bad : Bool) : State :=
  let x := s.sensor i
  let s := s.setSensor i { x with bad := bad }
  if bad && !x.bad then s.cltFault 0x1304 i (unsigned 16 x.last) (some 2) else s

/-- Mean of a sensor over the interval, 0.1 units. -/
def Sensor.mean (x : Sensor) : Option Q := if x.n = 0 then none else some ⟨x.sum, x.n⟩
/-- The value of a pair: the higher of the valid means, and whether both are valid and differ by more than 2 °C. -/
def pairMean (a b : Option Q) : Option Q × Bool :=
  match a, b with
  | some x, some y => (some (if x.lt y then y else x), Q.lt ⟨20, 1⟩ (x.sub y).abs)
  | some x, none => (some x, false)
  | none, y => (y, false)
def meanField (m : Option Q) : Nat := unsigned 16 ((m.map roundQ).getD 0)

/-- A condition that is journalled once per event: mark `b` follows it. -/
def State.onceEvent (s : State) (b : Nat) (cond : Bool) (f : State → State) : State :=
  if cond && !(s.cltMark b) then f (s.setCltMark b true) else if cond then s else s.setCltMark b false

/-- Largest integer not above a fraction that is not negative. -/
def floorNat (x : Q) : Nat := x.n.toNat / x.d

/-- The coolant settings written before the run take effect (R331). -/
def State.cltApply (s : State) : State :=
  let l := s.clt.staged
  l.foldl (fun (s : State) e => s.setReg e.1 e.2) { s with clt := { s.clt with staged := [] } }

/-- What one run works with. -/
structure LoopIn where
  tin  : Option Q
  tout : Option Q
  /-- flow, 0.1 L/min -/
  flow : Q
  low  : Bool
  dt   : Nat
  deriving DecidableEq, Repr

/-- The PI step (R327), with the flow override of R328. -/
def State.piStep (s : State) (x : LoopIn) : State :=
  let r := rCLT_VALVE
  let i : Q := ⟨s.clt.iNum, s.clt.iDen⟩
  let posMin := s.fld rCLT_LIMIT 16 10
  if x.low then (s.setFld r 0 10 1000).setI ⟨1000, 1⟩
  else
    let junction := s.flag rCLT_CTL 1 || x.tout.isNone
    let y : Q := if junction then ⟨s.clt.hotJ, 1⟩ else (x.tout.getD ⟨0, 1⟩).mul ⟨1, 10⟩
    let sp : Q := if junction then ⟨s.fld rCLT_SET 8 8, 1⟩ else ⟨s.fld rCLT_SET 0 8, 1⟩
    let e := y.sub sp
    let kp : Q := ⟨s.fld rCLT_GAIN 0 16, 16⟩
    let ki : Q := ⟨s.fld rCLT_GAIN 16 16, 16⟩
    let di := (ki.mul e).mul ⟨x.dt, 10 ^ 9⟩
    let u := ((kp.mul e).add i).add di
    let hold := (Q.lt ⟨1000, 1⟩ u && decide (0 < e.n)) || (u.lt ⟨posMin, 1⟩ && decide (e.n < 0))
    let b := s.bridge
    let s := if b = 0 ∨ b = 3 then s.setI ⟨1000, 1⟩ else if hold then s else s.setI (i.add di)
    if b = 3 || s.trip then s.setFld r 0 10 1000 else s.setFld r 0 10 (clampI posMin 1000 (roundQ u)).toNat

/-- The caps of R329 and R330. -/
def State.coolCaps (s : State) (x : LoopIn) : State :=
  let tmax := s.fld rCLT_LIMIT 0 7
  let tin := x.tin.getD ⟨450, 1⟩
  let q := ((x.flow.mul ⟨1, 600⟩).mul ⟨s.fld rCLT_FLUID 16 11 * s.fld rCLT_FLUID 0 13, 1000⟩).mul
    ((Q.ofInt tmax).sub (tin.mul ⟨1, 10⟩))
  let tout := x.tout.getD (Q.ofInt (10 * (s.clt.hotJ : Int) - 150))
  let c := s.fld rCLT_CAP 16 4
  let c' := if (Q.ofInt (10 * ((tmax : Int) - 3))).le tout then c - 1
    else if tout.le (Q.ofInt (10 * ((tmax : Int) - 8))) then min 15 (c + 1) else c
  let s := (s.setFld rCLT_CAP 0 16 (clampN 1200 18000 (floorNat q))).setFld rCLT_CAP 16 4 c'
  let s := if c' < 15 then s.bump rCLT_CNT_CAP else s
  if c = 15 ∧ c' < 15 then s.cltFault 0x0303 c' (unsigned 16 (roundQ tout)) none else s

/-- A run of the loop (R326) at tick time `t`: pulses of the interval and the encoder position. Means are shown rounded to the
nearest, ties to even (log entry 51). -/
def State.loopRun (s : State) (pulses enc : Nat) : State :=
  let steps := if s.bridge = 2 then 2 * ((enc : Int) - s.clt.enc).natAbs else 0
  let s := (s.bumpBy rCLT_CNT_STEPS steps).setEnc enc
  let s := s.cltApply.bump rCLT_CNT_LOOP
  let s := if s.flag rCLT_CTL 0 && s.bridge == 0 then s.setBridge 1 else s
  let dt := match s.clt.lastRun with
    | some t => s.time - t
    | none => 0
  let ival := if dt = 0 then 40 * (s.fld rCLT_CTL 5 4 + 1) * s.periodNs else dt
  let s := (List.range 6).foldl (fun (s : State) i => s.sensorState i ((s.sensor i).n == 0)) s
  let m (i : Nat) : Option Q := (s.sensor i).mean
  let a := pairMean (m 0) (m 1)
  let b := pairMean (m 2) (m 3)
  let s := s.onceEvent 0 a.2 (fun (s : State) => s.cltFault 0x1304 (2 ^ 3) (meanField a.1) (some 2))
  let s := s.onceEvent 1 b.2 (fun (s : State) => s.cltFault 0x1304 (2 + 2 ^ 3) (meanField b.1) (some 2))
  let noFlow := pulses == 0 && decide (100 < s.clt.enc)
  let s := s.onceEvent 7 noFlow (fun (s : State) => s.cltFault 0x1304 6 0 (some 2))
  let fmin := s.fld rCLT_LIMIT 7 9
  let flow : Q := if noFlow then Q.ofInt fmin else ⟨pulses * 600 * 10 ^ 9, max 1 (Config.fused 5 0 * ival)⟩
  let s := ((s.setReg rCLT_TEMP_IN (BitVec.ofNat 64 (meanField (m 0) + meanField (m 1) * 2 ^ 16))).setReg rCLT_TEMP_OUT
    (BitVec.ofNat 64 (meanField (m 2) + meanField (m 3) * 2 ^ 16))).setReg rCLT_PRESS
    (BitVec.ofNat 64 (meanField (m 4) + meanField (m 5) * 2 ^ 16))
  let s := s.setReg rCLT_FLOW (BitVec.ofNat 64 (unsigned 16 (roundQ flow) + pulses % 2 ^ 16 * 2 ^ 16))
  let tin := a.1.getD ⟨450, 1⟩
  let s := s.onceEvent 2 (a.1.isSome && tin.lt ⟨200, 1⟩) (fun (s : State) => s.cltFault 0x0302 0 (meanField a.1) (some 3))
  let s := s.onceEvent 3 (a.1.isSome && Q.lt ⟨450, 1⟩ tin) (fun (s : State) => s.cltFault 0x0302 1 (meanField a.1) (some 3))
  let s := s.onceEvent 4 (!noFlow && Q.lt ⟨300, 1⟩ flow) (fun (s : State) =>
    s.cltFault 0x0302 2 (unsigned 16 (roundQ flow)) (some 3))
  let was := s.flag rCLT_STATUS 9
  let low := flow.lt (Q.ofInt fmin) || (was && flow.lt (Q.ofInt (fmin + 10)))
  let s := if low then s.bump rCLT_CNT_FLOWLOW else s
  let s := if low && !was then s.cltFault 0x0301 (unsigned 16 (roundQ flow)) fmin none else s
  let s := (s.setFld rCLT_STATUS 9 1 (b2n low)).setFld rCLT_STATUS 8 1 (b2n b.1.isNone)
  let s := if was && !low then s.setI ⟨enc, 1⟩ else s
  let x : LoopIn := ⟨a.1, b.1, flow, low, dt⟩
  let s := (s.piStep x).coolCaps x
  let s := (List.range 6).foldl (fun (s : State) i => s.setSensor i { s.sensor i with sum := 0, n := 0 }) s
  { s with clt := { s.clt with lastRun := some s.time, hotJ := 0 } }

def execCoolantLoopRun (pulses enc t : Nat) (s : State) : Res :=
  let s := s.at t
  .next (if s.tick.started && s.tick.number.toNat % (40 * (s.fld rCLT_CTL 5 4 + 1)) == 0 then s.loopRun pulses enc else s)

/-! ### The bridge (R324, R325) -/

def execValveSoftstartDone (enc : Nat) (s : State) : Res :=
  .next (if s.bridge = 1 then ((s.setEnc enc).setBridge 2).setI ⟨enc, 1⟩ else s)

/-- The bridge opens on a fault. -/
def State.valveFault (s : State) (code d0 bitNo enc : Nat) : State :=
  ((((s.setEnc enc).setBridge 3).setFld rCLT_VALVE 0 10 1000).setI ⟨1000, 1⟩).cltFault code d0 enc (some bitNo)

def execValveShort (enc : Nat) (s : State) : Res :=
  .next (if s.bridge = 1 ∨ s.bridge = 2 then s.valveFault 0x1305 s.bridge 0 enc else s)

def execValveStall (enc : Nat) (s : State) : Res :=
  .next (if s.bridge = 2 then s.valveFault 0x1306 (s.fld rCLT_VALVE 0 10) 1 enc else s)

def execValveClr (s : State) : Res := .next (if !s.ready then s else if s.bridge = 3 then s.setBridge 0 else s)

/-- LOOP_EN is cleared (R324): the bridge is OFF at once. -/
def State.loopOff (s : State) : State :=
  let s := s.setFld rCLT_CTL 0 1 0
  let s := { s with clt := { s.clt with
    staged := s.clt.staged.map (fun x => if x.1 = rCLT_CTL then (x.1, BitVec.ofNat 64 (clrBit x.2.toNat 0)) else x) } }
  if s.bridge = 1 ∨ s.bridge = 2 then (s.setBridge 0).setI ⟨1000, 1⟩ else s
/-- A write that clears LOOP_EN. -/
def execLoopDisable (s : State) : Res :=
  .next (if !s.ready then s else if s.locked then s.lockViol else s.loopOff)

end Sys2Proof.Machine
end

