-- ==== Sys2Proof/Machine/Journal.lean ====
section
/-! DEFINITION. The fault journal: numbering, both copies, their loss, the last-ditch file and reading (R410-R414, R416). -/

namespace Sys2Proof.Machine

/-- Words W0-W7 of an entry (Table 15.8). -/
def JEntry.words (e : JEntry) : List Nat :=
  let v := e.ev
  let part := if v.part < 16 then v.part else 15
  [bits v.time 0 32, bits v.time 32 32, bits v.num 0 32, v.code % 2 ^ 16 * 2 ^ 16 + bits v.num 32 16,
   v.sslot % 2 ^ 14 * 2 ^ 14 + part * 2 ^ 8 + b2n v.tnum * 2 ^ 7 + v.site % 2 ^ 7, v.d0 % 2 ^ 32, v.d1 % 2 ^ 32, e.seq % 2 ^ 32]
/-- The entry as 32 bytes of a NOTIFY, words big-endian, as one number. -/
def JEntry.big (e : JEntry) : Nat := e.words.foldl (fun x w => x * 2 ^ 32 + w) 0

/-- Value of a stored object with default `d`. -/
def State.odVal (s : State) (d i sub : Nat) : Nat := mget d s.wgl.od (i * 256 + sub)
def State.setOd (s : State) (d i sub v : Nat) : State :=
  { s with wgl := { s.wgl with od := mset d s.wgl.od (i * 256 + sub) v } }
/-- NOTIFY_CLASS (0x4100:04). -/
def State.notifyClass (s : State) : Nat := s.odVal 3 0x4100 4

/-- The copy that reads are served from: copy A while it is in service. -/
def JrnlSt.held (j : JrnlSt) : List JEntry := if j.okA then j.copyA else j.copyB
/-- Append to a ring of 4,096 entries. -/
def ringAdd (l : List JEntry) (e : JEntry) : List JEntry := let r := l ++ [e]; r.drop (r.length - 4096)
def State.setJ (s : State) (j : JrnlSt) : State := { s with jrnl := j }
/-- FLT_JRNL_STAT and FLT_STBY_STAT show the journal (Table 15.14). -/
def State.jrnlStat (s : State) : State :=
  let j := s.jrnl
  let n := j.ditch.length + b2n j.ditch15.isSome
  let r := rFLT_JRNL_STAT
  ((((s.setFld r 31 1 (b2n j.lost)).setFld r 27 2 (b2n j.okA + 2 * b2n j.okB)).setFld r 16 5 n).setFld r 0 13 j.held.length)

/-- Copy B takes the oldest entry that it does not hold. -/
def State.copyOne (s : State) : State :=
  match s.jrnl.toCopy with
  | [] => s
  | e :: t => s.setJ { s.jrnl with toCopy := t, copyB := ringAdd s.jrnl.copyB e }

/-- Write an entry into the journal: copy A, or copy B when copy A has failed. Copy B trails by at most 64 entries. -/
def State.jrnlPut (s : State) (e : JEntry) : State :=
  let j := s.jrnl
  let s := if j.okA then
      let s := s.setJ { j with copyA := ringAdd j.copyA e, toCopy := if j.okB then j.toCopy ++ [e] else [] }
      if 64 < s.jrnl.toCopy.length then s.copyOne else s
    else s.setJ { j with copyB := ringAdd j.copyB e }
  let s := (s.bump rFLT_CNT_ENTRY).jrnlStat
  if s.notifyClass ≤ faultClass e.ev.code ∨ faultClass e.ev.code = 4 then s.notify 2 0x4100 1 e.big else s

/-- Write an entry into the last-ditch file (R413). -/
def State.ditchPut (s : State) (e : JEntry) : State :=
  let j := s.jrnl
  let s := if j.ditch.length < 15 then s.setJ { j with ditch := j.ditch ++ [e] }
    else
      let s := s.setJ { j with ditch15 := some e }
      if j.ditch15.isSome then s.satFld rFLT_STBY_STAT 24 8 1 else s
  s.jrnlStat

/-- Number an event and write it. -/
def State.jrnlWrite (s : State) (e : Event) : State :=
  let x : JEntry := ⟨e, s.jrnl.seq.toNat⟩
  let s := s.setJ { s.jrnl with seq := s.jrnl.seq + 1 }
  if s.jrnl.lost then s.ditchPut x else s.jrnlPut x

/-- A copy fails (0 A, 1 B) with a cause: 0 write verify, 1 repeated read, 2 hub lost (R412, R413). -/
def State.copyFail (s : State) (c cause : Nat) : State :=
  let j := s.jrnl
  if !(if c = 0 then j.okA else j.okB) then s
  else
    let only := if c = 0 then j.toCopy.length else 0
    let j' := if c = 0 then { j with okA := false, toCopy := [] } else { j with okB := false, toCopy := [] }
    let s := s.setJ j'
    if j'.okA || j'.okB then
      ((s.sticky rFLT_JRNL_STAT 29).jrnlStat).journal 0x1481 16 0x3FFF (if j'.okA then 27 else 44) (c + cause * 2) (min 64 only)
    else
      let s := s.setJ { s.jrnl with lost := true, ditch := [], ditch15 := none }
      let s := (s.setFld rFLT_STBY_STAT 24 8 0).jrnlWrite (s.event 0x1482 16 0x3FFF 44 (j.seq - 1).toNat cause)
      let s := s.raisePf 1
      s.notify 3 0x4100 3 ((s.jrnl.ditch.head?.map JEntry.big).getD 0)

/-- Of the events that arrived in the same instant as the oldest, the one of the lowest site, then of the lowest code (R411). -/
def firstEvent (e : Event) : List Event → Event
  | [] => e
  | x :: t => firstEvent (if x.time = e.time ∧ (x.site < e.site ∨ x.site = e.site ∧ x.code < e.code) then x else e) t

/-- JOURNAL_WRITE: the hub takes one event from its queue. `bad`: its write verify fails. -/
def execJournalWrite (bad : Bool) (s : State) : Res :=
  .next (match s.jrnl.queue with
    | [] => s
    | e :: t =>
      let x := firstEvent e t
      let s := (s.setJ { s.jrnl with queue := (e :: t).erase x }).jrnlWrite x
      if bad && !s.jrnl.lost then s.copyFail (if s.jrnl.okA then 0 else 1) 0 else s)

/-- JOURNAL_COPY: copy B takes the next entry in SEQ order. -/
def execJournalCopy (bad : Bool) (s : State) : Res :=
  .next (if s.jrnl.toCopy.isEmpty then s else let s := s.copyOne; if bad then s.copyFail 1 0 else s)

/-- A write of FLT_JRNL_CMD. -/
def execClearLost (w : BitVec 32) (s : State) : Res :=
  .next (if !s.ready then s else if bits w.toNat 1 31 ≠ 0 then s.sticky rFLT_JRNL_STAT 30
    else if bit w.toNat 0 then s.setJ { s.jrnl with testing := true } else s)

/-- Sequence number of the last entry of a copy, plus one. -/
def lastSeq (l : List JEntry) : Nat := (l.getLast?.map (fun e => e.seq + 1)).getD 0

/-- The test of both regions ends, with the copies that passed (R413). -/
def execJournalRecoveryComplete (passA passB : Bool) (s : State) : Res :=
  .next (if !s.jrnl.testing then s
    else
      let s := s.setJ { s.jrnl with testing := false }
      if !passA && !passB then s.sticky rFLT_JRNL_STAT 30
      else if !s.jrnl.lost then s
      else
        let j := s.jrnl
        let best := if lastSeq j.copyA ≤ lastSeq j.copyB then j.copyB else j.copyA
        let s := s.setJ { j with
          lost := false, okA := passA, okB := passB, toCopy := [], badA := [], badB := [],
          copyA := if passA then (if passB then best else j.copyA) else [],
          copyB := if passB then (if passA then best else j.copyB) else [] }
        let s := (j.ditch ++ j.ditch15.toList).foldl (fun (s : State) e => s.jrnlPut e) s
        s.jrnlStat)

/-- The words of a data register block are shown and latched. -/
def State.showWords (s : State) (r : Nat) (ws : List Nat) : State :=
  let s := (List.range ws.length).foldl (fun (s : State) i => s.setReg (r + 4 * i) (BitVec.ofNat 64 (ws.getD i 0))) s
  s.emit (.value r (ws.headD 0))

/-- Words that the manual leaves open: eight fresh free values. -/
def State.freeWords (s : State) : Nat → List Nat × State
  | 0 => ([], s)
  | n + 1 => let r := s.takeFree; let q := State.freeWords r.2 n; (r.1.toNat % 2 ^ 32 :: q.1, q.2)

/-- A read of FLT_JRNL_DATA_0, or of FLT_STBY_DATA_0 with `stby`. `ueA`, `ueB`: the entry is uncorrectable in that copy. -/
def execFltJrnlDataRead (stby ueA ueB : Bool) (s : State) : Res :=
  let z := List.replicate 8 0
  .next (if !s.ready then s.emit (.value (if stby then rFLT_STBY_DATA else rFLT_JRNL_DATA) 0) else if stby then
      let i := s.fld rFLT_STBY_SEL 0 6
      let e := if i < 15 then s.jrnl.ditch[i]? else if i = 15 then s.jrnl.ditch15 else s.jrnl.standby[i - 16]?
      s.showWords rFLT_STBY_DATA ((e.map JEntry.words).getD z)
    else
      let q := s.fld rFLT_JRNL_SEL 0 32
      let j := s.jrnl
      let a := if j.okA then j.copyA.find? (fun e => e.seq == q) else none
      let b := if j.okB then j.copyB.find? (fun e => e.seq == q) else none
      -- an uncorrectable read is marked; the second one of an entry fails the copy
      let s := if ueA && a.isSome then
          (if j.badA.contains q then s.copyFail 0 1 else s.setJ { j with badA := q :: j.badA }) else s
      let fromB := (a.isNone || ueA) && b.isSome
      let s := if fromB && ueB then
          (if s.jrnl.badB.contains q then s.copyFail 1 1 else s.setJ { s.jrnl with badB := q :: s.jrnl.badB }) else s
      match (if ueA then none else a), (if ueB then none else b) with
      | some e, _ => s.showWords rFLT_JRNL_DATA e.words
      | none, some e => (if a.isSome then s.bump rFLT_CNT_ECC else s).showWords rFLT_JRNL_DATA e.words
      | none, none =>
        if a.isSome || b.isSome then let r := s.freeWords 8; r.2.showWords rFLT_JRNL_DATA r.1
        else s.showWords rFLT_JRNL_DATA z)

end Sys2Proof.Machine
end

