-- ==== Sys2Proof/Machine/Settings.lean ====
section
/-! DEFINITION. The settings that registers and objects share: where each lies, and the range checks of Tables 05.2, 11.3,
12.3, 13.23 and of PAIR_CTL, made in row order (R12, R124, R302, R331, R352, R360). -/

namespace Sys2Proof.Machine

/-- A setting: the object that mirrors it (INDEX × 256 + SUB, 0 none), its type code, its register and field (register 0:
held as an object only, with this default), and what is added to the stored field. -/
structure SetRow where
  key : Nat
  ty  : Nat
  reg : Nat
  lo  : Nat
  n   : Nat
  add : Nat
  dflt : Nat
  deriving DecidableEq, Repr

/-- Tables of settings: 1 stroke, 2 power, 3 coolant, 4 self-test, 5 pair. -/
def setRows : Nat → List SetRow
  | 1 => [⟨0x180001, 3, rSTRK_PERIOD, 0, 12, 0, 0⟩, ⟨0x180002, 2, rSTRK_PHASE, 0, 8, 0, 0⟩, ⟨0x180003, 2, rSTRK_PHASE, 8, 8, 0, 0⟩,
      ⟨0x180004, 3, rSTRK_PHASE, 16, 12, 0, 0⟩, ⟨0x180005, 3, rSTRK_TICK_CFG, 0, 13, 0, 0⟩, ⟨0x180006, 2, rSTRK_TICK_CFG, 16, 4, 0, 0⟩,
      ⟨0x180007, 2, rSTRK_TICK_CFG, 20, 4, 0, 0⟩, ⟨0x180008, 2, rSTRK_TICK_CFG, 24, 8, 0, 0⟩, ⟨0x180009, 4, rSTRK_PHASE_OFS, 0, 32, 0, 0⟩,
      ⟨0x18000A, 2, rSTRK_CTL, 16, 4, 0, 0⟩, ⟨0x18000B, 2, rSTRK_CTL, 0, 3, 0, 0⟩, ⟨0x18000C, 1, rSTRK_CTL, 8, 1, 0, 0⟩]
  | 2 => [⟨0x200001, 3, rPWR_LIMIT_A, 0, 16, 0, 0⟩, ⟨0x200002, 3, rPWR_LIMIT_A, 16, 16, 0, 0⟩, ⟨0x200003, 3, rPWR_LIMIT_B, 0, 16, 0, 0⟩,
      ⟨0x200004, 2, rPWR_THERM, 16, 4, 0, 0⟩, ⟨0x200005, 3, rPWR_LIMIT_B, 16, 9, 0, 0⟩, ⟨0x200006, 2, rPWR_THERM, 0, 8, 0, 0⟩,
      ⟨0x200007, 2, rPWR_THERM, 8, 8, 0, 0⟩, ⟨0x200008, 1, rPWR_CTL, 8, 1, 0, 0⟩, ⟨0x220002, 2, rPWR_CTL, 0, 4, 0, 0⟩] ++
      (List.range 16).map (fun n => ⟨0x220301 + n, 3, rPWR_PREF + 4 * n, 0, 16, 0, 0⟩)
  | 3 => [⟨0x300002, 2, rCLT_CTL, 1, 1, 0, 0⟩, ⟨0x300003, 2, rCLT_CTL, 5, 4, 1, 0⟩, ⟨0x300004, 2, rCLT_LIMIT, 0, 7, 0, 0⟩,
      ⟨0x300005, 2, rCLT_SET, 0, 8, 0, 0⟩, ⟨0x300006, 2, rCLT_SET, 8, 8, 0, 0⟩, ⟨0x300007, 3, rCLT_GAIN, 0, 16, 0, 0⟩,
      ⟨0x300008, 3, rCLT_GAIN, 16, 16, 0, 0⟩, ⟨0x300009, 3, rCLT_LIMIT, 16, 10, 0, 0⟩, ⟨0x30000A, 3, rCLT_LIMIT, 7, 9, 0, 0⟩,
      ⟨0x30000B, 3, rCLT_FLUID, 0, 13, 0, 0⟩, ⟨0x30000C, 3, rCLT_FLUID, 16, 11, 0, 0⟩, ⟨0x300001, 1, rCLT_CTL, 0, 1, 0, 0⟩]
  | 4 => [⟨0x700001, 2, rBIST_CTL, 1, 1, 0, 0⟩, ⟨0x700002, 3, rBIST_WINDOW, 0, 10, 0, 0⟩, ⟨0x700003, 3, rBIST_WINDOW, 16, 10, 0, 0⟩,
      ⟨0x700004, 3, 0, 0, 16, 0, 500⟩, ⟨0x700005, 3, 0, 0, 16, 0, 1100⟩, ⟨0x700006, 2, rBIST_CTL, 16, 7, 0, 0⟩,
      ⟨0x700007, 1, rBIST_CTL, 0, 1, 0, 0⟩, ⟨0, 1, rBIST_CTL, 2, 1, 0, 0⟩]
  | 5 => [⟨0x600001, 2, rPAIR_CTL, 0, 2, 0, 0⟩, ⟨0, 3, rPAIR_CTL, 16, 16, 0, 0⟩, ⟨0, 1, rPAIR_CTL, 2, 1, 0, 0⟩]
  | _ => []

/-- The table that a register's settings belong to, 0 none. -/
def tableOfReg (a : Nat) : Nat :=
  ((List.range 6).find? (fun t => (setRows t).any (fun r => r.reg == a && r.reg != 0))).getD 0
/-- A value written to a register whose other fields the panel sets: the setting fields of `v` in the place of those of `x`. -/
def overlay (a : Nat) (x v : DWord) : DWord :=
  let t := tableOfReg a
  if t = 0 then v
  else BitVec.ofNat 64 (((setRows t).filter (fun r => r.reg == a)).foldl (fun y r => setBits y r.lo r.n (bits v.toNat r.lo r.n)) x.toNat)
/-- A register as last written: a setting that waits for its edge or loop run reads as written (R7, R360). -/
def State.wreg (s : State) (a : Nat) : DWord :=
  match (s.staged ++ s.clt.staged).reverse.find? (fun x => x.1 == a) with
  | some x => overlay a (s.reg a) x.2
  | none => s.reg a
/-- Does a staged value wait for an edge that begins a stroke of partition `n`? COMB_CFG and RQ_CTL of its sites do
(Tables 02.19, 03.10). -/
def State.strokeStaged (s : State) (n a : Nat) : Bool :=
  inSiteWindow a && ((a - siteWindow0) % siteStride == rCOMB_CFG || (a - siteWindow0) % siteStride == rRQ_CTL) &&
    s.owner ((a - siteWindow0) / siteStride) == n && (s.part n).st == .running
/-- The staged values that satisfy `f` take effect. -/
def State.applyStagedIf (s : State) (f : Nat → Bool) : State :=
  let s' := (s.staged.filter (fun x => f x.1)).foldl (fun (s : State) x => s.setReg x.1 (overlay x.1 (s.reg x.1) x.2)) s
  { s' with staged := s.staged.filter (fun x => !(f x.1)) }
/-- The settings written before the edge take effect (R126). -/
def State.applyStaged (s : State) : State :=
  s.applyStagedIf (fun a => !((List.range 16).any (fun n => s.strokeStaged n a)))
/-- A setting as last written. -/
def State.setting (s : State) (r : SetRow) : Nat :=
  if r.reg = 0 then mget r.dflt s.wgl.od r.key else bits (s.wreg r.reg).toNat r.lo r.n + r.add
/-- A value for a register waits for the next tick edge, or for the next loop run in the CLT block. -/
def State.stageReg (s : State) (a : Nat) (v : DWord) : State :=
  if rCLT_CTL ≤ a ∧ a < rCLT_CTL + 0x10000 then
    { s with clt := { s.clt with staged := s.clt.staged.filter (fun x => x.1 != a) ++ [(a, v)] } }
  else { s with staged := s.staged.filter (fun x => x.1 != a) ++ [(a, v)] }
def State.putSetting (s : State) (r : SetRow) (v : Nat) : State :=
  if s.setting r = v then s
  else if r.reg = 0 then { s with wgl := { s.wgl with od := mset r.dflt s.wgl.od r.key v } }
  else s.stageReg r.reg (BitVec.ofNat 64 (setBits (s.wreg r.reg).toNat r.lo r.n (v - r.add)))

/-! ### Checks in row order -/

/-- Values of a table's rows under check, and the reason of the last clamp of each, 0 none. -/
structure Chk where
  vals : List Nat
  why  : List Nat
  deriving DecidableEq, Repr

def Chk.v (c : Chk) (i : Nat) : Nat := c.vals.getD i 0
def Chk.put (c : Chk) (i x r : Nat) : Chk := ⟨c.vals.set i x, c.why.set i r⟩
/-- Nearest end of a range. -/
def Chk.rng (c : Chk) (i lo hi : Nat) : Chk :=
  if c.v i < lo then c.put i lo 1 else if hi < c.v i then c.put i hi 2 else c
/-- A BOOL: a value above 1 becomes 1. -/
def Chk.bool (c : Chk) (i : Nat) : Chk := if 1 < c.v i then c.put i 1 5 else c
/-- Lowered because of another field. -/
def Chk.lower (c : Chk) (i hi : Nat) : Chk := if hi < c.v i then c.put i hi 6 else c
/-- Lower row `i` toward `floor` by up to `excess` units of a quarter microsecond, `u` units per step; what is left. -/
def Chk.cut (c : Chk) (i floor u excess : Nat) : Chk × Nat :=
  let d := min (c.v i - floor) (ceilDiv excess u)
  if d = 0 then (c, excess) else (c.put i (c.v i - d) 6, excess - d * u)

/-- RUN of a stroke in ns at these settings. -/
def runNs (per ing em gq : Nat) : Nat := per * 1000 - gq * 250 - em * 1000 - ing * 1000
/-- End of a slot grant in ns after RUN open (R221, R223): slot 0 begins when quadrant 0 of the source opens. -/
def State.grantEnd (s : State) (g : BitVec 64) : Nat :=
  2 * hops31 (s.phys (bits g.toNat 0 7)) + 32 * (wf g.toNat 1 0 17 + wf g.toNat 1 17 12 + 1)
/-- Is a library feasible at these settings under its load check (R134, R223, R390)? -/
def State.libFeasible (s : State) (l : Library) (per ing em gq : Nat) : Bool :=
  let f := wf l.hdr.toNat 1 16 12
  let run := runNs per ing em gq
  decide (wf l.hdr.toNat 1 0 12 ≤ per) && l.entries.all (fun e =>
    decide (wf e.raw.toNat 1 0 32 * 1000 + 64 * f ≤ run * f) &&
    e.slices.all (fun x => decide ((wf x.toNat 1 0 32 + wf x.toNat 2 0 20) * 1000 ≤ run * f)) &&
    e.grants.all (fun x => decide (s.grantEnd x ≤ run)))
/-- Every loaded library is feasible. -/
def State.feasible (s : State) (per ing em gq : Nat) : Bool :=
  s.parts.all (fun x => match x.2.st, x.2.lib with
    | .running, some l => s.libFeasible l per ing em gq
    | .loading, some l => s.libFeasible l per ing em gq
    | _, _ => true)

/-- The Loaded libraries row of Table 05.2; `old` holds the values in force before the write. -/
def State.checkLibs (s : State) (old : List Nat) (c : Chk) : Chk :=
  let per := c.v 0
  if s.feasible per (c.v 1) (c.v 2) (c.v 3) then c
  else
    let gq (p : Nat) := max (c.v 3) (ceilDiv p 5)
    match (List.range (4000 - per)).find? (fun i => s.feasible (per + 1 + i) (c.v 1) (c.v 2) (gq (per + 1 + i))) with
    | some i =>
      let p := per + 1 + i
      let c1 := c.put 0 p 6
      if gq p = c.v 3 then c1 else c1.put 3 (gq p) 6
    | none =>
      let ing := old.getD 1 0; let em := old.getD 2 0; let g := old.getD 3 0
      let c1 := ((c.put 1 ing 6).put 2 em 6).put 3 g 6
      match (List.range (4001 - per)).find? (fun i =>
          decide (4 * (ing + em) + g ≤ 2 * (per + i)) && s.feasible (per + i) ing em g) with
      | some i => c1.put 0 (per + i) 6
      | none => c1

/-- Table 05.2; `mirror`: the pair MODE is MIRROR (R429). -/
def State.checkStroke (s : State) (mirror : Bool) (old : List Nat) (c : Chk) : Chk :=
  let imin := if mirror then 20 else 10
  let c := ((c.rng 0 125 4000).rng 1 imin 50).rng 2 10 50
  let gmin := ceilDiv (c.v 0) 5
  let c := c.rng 3 gmin (c.v 0)
  let ex := 4 * (c.v 1 + c.v 2) + c.v 3 - 2 * c.v 0
  let a := c.cut 3 gmin 1 ex
  let b := a.1.cut 2 10 4 a.2
  let d := b.1.cut 1 imin 4 b.2
  let c := s.checkLibs old d.1
  let c := ((((c.rng 4 50 5000).rng 5 2 15).rng 6 1 15).rng 7 10 250).rng 8 0 (c.v 0 * 1000 - 1)
  let c := c.rng 9 1 8
  let src := (c.v 10) % 8 ||| 4
  let c := if c.v 10 = src then c else c.put 10 src 4
  c.bool 11

/-- Table 11.3, and the caps and preferred entries of Table 13.17. -/
def checkPower (c : Chk) : Chk :=
  let c := ((c.rng 0 1200 18000).rng 1 1200 17000).lower 1 (max 1200 (min 18000 (c.v 0)))
  let c := c.rng 2 1200 (c.v 1)
  (((((c.rng 3 1 8).rng 4 60 300).rng 5 85 110).rng 6 20 80).bool 7).rng 8 0 15

/-- Table 12.3; `thr` is T_THROTTLE. -/
def checkCool (thr : Nat) (c : Chk) : Chk :=
  let c := if 1 < c.v 0 then c.put 0 1 5 else c
  let c := (c.rng 1 1 16).rng 2 50 75
  let c := (c.rng 3 30 (c.v 2 - 5)).rng 4 60 (thr - 5)
  ((((((c.rng 5 0 4095).rng 6 0 4095).rng 7 0 500).rng 8 120 300).rng 9 3000 4200).rng 10 950 1150).bool 11

/-- Table 13.23. -/
def checkBist (c : Chk) : Chk :=
  let c := if 1 < c.v 0 then c.put 0 0 5 else c
  let c := c.rng 1 600 880
  let c := c.rng 2 (min 880 (c.v 1 + 20)) 880
  let c := c.rng 3 500 1250
  ((c.rng 4 (c.v 3) 1250).rng 5 4 64).bool 6

/-- PAIR_CTL (Table 16.9). -/
def checkPair (c : Chk) : Chk :=
  let c := if 2 < c.v 0 then c.put 0 0 5 else c
  if c.v 0 ≠ 2 ∧ c.v 1 ≠ 0 then c.put 1 0 6 else c

/-- MODE of the pair as last written. -/
def State.pairMode (s : State) : Nat := bits (s.wreg rPAIR_CTL).toNat 0 2
/-- T_THROTTLE as last written. -/
def State.throttleSet (s : State) : Nat := bits (s.wreg rPWR_THERM).toNat 0 8

def State.checkTable (s : State) (t : Nat) (old : List Nat) (c : Chk) : Chk :=
  if t = 1 then s.checkStroke (s.pairMode = 1) old c
  else if t = 2 then checkPower c
  else if t = 3 then checkCool s.throttleSet c
  else if t = 4 then checkBist c
  else checkPair c

/-- What a write of rows of one table gives: values after the check, and its clamps in row order. -/
structure SetOut where
  st   : State
  vals : List Nat
  es   : List ClampEntry

/-- Write rows (row, value) of table `t`; `id` gives the ID of a row in the clamp report. -/
def State.writeRows (s : State) (t : Nat) (req : List (Nat × Nat)) (id : Nat → Nat) : SetOut :=
  let rows := setRows t
  let old := rows.map s.setting
  let want := req.foldl (fun (l : List Nat) x => l.set x.1 x.2) old
  let c := s.checkTable t old ⟨want, want.map (fun _ => 0)⟩
  let idx := List.range rows.length
  let es := idx.filterMap (fun i => if want.getD i 0 = c.v i then none else some ⟨id i, want.getD i 0, c.v i, c.why.getD i 0⟩)
  ⟨idx.foldl (fun (s : State) i => match rows[i]? with | some r => s.putSetting r (c.v i) | none => s) s, c.vals, es⟩

/-- ID of a register in the clamp report (Table 13.10). -/
def regId (a : Nat) : Nat := 2 ^ 31 + a
/-- The object that mirrors a row, or its register. -/
def objId (t i : Nat) : Nat :=
  match (setRows t)[i]? with | some r => if r.key = 0 then regId r.reg else r.key | none => 0
/-- The register that holds a row. -/
def rowRegId (t i : Nat) : Nat :=
  match (setRows t)[i]? with | some r => if r.reg = 0 then r.key else regId r.reg | none => 0

/-- MODE written to MIRROR raises an INGEST_US below 20 at the same edge (R429). -/
def State.mirrorIngest (s : State) (id : Nat → Nat) : SetOut :=
  if s.pairMode = 1 ∧ bits (s.wreg rSTRK_PHASE).toNat 0 8 < 20 then s.writeRows 1 [] id else ⟨s, [], []⟩

/-- Is partition `n` idle for an RWI object (R361)? -/
def State.idlePart (s : State) (n : Nat) : Bool :=
  let p := s.part n
  p.st != .running || (p.idle && (s.partStreams n).all (fun i => (s.stream i).st != .active))
def State.allIdle (s : State) : Bool := (List.range 16).all s.idlePart

/-- Write the setting fields of a register (one 32-bit write from BAR0). -/
def State.writeSettings (s : State) (a w : Nat) : State :=
  let t := tableOfReg a
  let rows := setRows t
  let req := (List.range rows.length).filterMap (fun i =>
    match rows[i]? with
    | some r =>
      if r.reg = a then
        some (i, (if t = 1 ∧ i = 10 then bits w 0 2 ||| 4 else bits w r.lo r.n) + r.add)
      else none
    | none => none)
  let o := s.writeRows t req (rowRegId t)
  let m := if t = 5 then o.st.mirrorIngest (rowRegId 1) else ⟨o.st, [], []⟩
  m.st.clamped 4 (o.es ++ m.es)

end Sys2Proof.Machine
end

