-- ==== Sys2Proof/Machine/Selftest.lean ====
section
/-! DEFINITION. Self-test slices, their results, repair and promotion, analogue checks, the loss of a hub, ageing and the
prediction of end of life (R390-R409, R416). -/

namespace Sys2Proof.Machine

def State.bsite (s : State) (p : Nat) : BistSite := mget BistSite.init s.bist.sites p
def State.setBsite (s : State) (p : Nat) (x : BistSite) : State :=
  { s with bist := { s.bist with sites := mset BistSite.init s.bist.sites p x } }
def State.fix (s : State) (sk : Nat) : SlotFix := mget SlotFix.init s.bist.fixes sk
def State.setFix (s : State) (sk : Nat) (x : SlotFix) : State :=
  { s with bist := { s.bist with fixes := mset SlotFix.init s.bist.fixes sk x } }

/-- Record a result (Table 15.5). -/
def State.result (s : State) (p unit res : Nat) (soft : Bool) (loc w2 w3 : Nat) : State :=
  let ws := [p % 128 + unit % 16 * 2 ^ 7 + res % 16 * 2 ^ 11 + b2n soft * 2 ^ 15, loc % 2 ^ 32, w2 % 2 ^ 32, w3 % 2 ^ 9,
    bits s.time 0 32, bits s.time 32 32, bits s.tick.number.toNat 0 32, 0]
  (List.range 8).foldl (fun (s : State) i => s.setReg (rBIST_RESULT + 4 * i) (BitVec.ofNat 64 (ws.getD i 0))) s
/-- A fault of the self-test: its entry carries the tick number. -/
def State.bistFault (s : State) (code part p d0 d1 : Nat) : State := s.tickFault code part p d0 d1
/-- The site goes out of service at the next edge (R404). -/
def State.siteFail (s : State) (p : Nat) : State :=
  if s.dom.outNext.contains p then s else { s with dom := { s.dom with outNext := s.dom.outNext ++ [p] } }
/-- A needed repair has no resource left (R404): 0 slot, 1 spare comb, 2 scratchpad row. -/
def State.exhausted (s : State) (p loc kind : Nat) : State :=
  ((s.siteFail p).sticky rBIST_STAT 1).bistFault 0x3405 (s.owner p) p loc kind
/-- A confirmed failure is counted, recorded and faulted (R395, R400). -/
def State.confirm (s : State) (p unit loc : Nat) (x : TestStep) : State :=
  let s := (s.result p unit 2 false loc x.bit x.w3).bump rBIST_CNT_FAIL
  (s.sticky rBIST_STAT 0).bistFault 0x1401 16 p loc (bits x.bit 0 20 + unit * 2 ^ 20 + 2 * 2 ^ 24)

/-! ### Repair of comb slots (R401-R403) -/

/-- Physical comb `i` of quadrant `q` of site `p`. -/
def physComb (p q i : Nat) : Nat := p * 4160 + q * 1040 + i
/-- The shadow slot index that holds a physical slot, if one does. -/
def State.slotShadow (s : State) (pc slot : Nat) : Option Nat := (List.range 2).find? (fun i => (s.shadow pc i).slot == slot)
/-- Usable shadow slots: FREE or bound, and not retired. -/
def State.usableShadows (s : State) (pc : Nat) : Nat :=
  ((List.range 2).filter (fun i => !(s.slotHdr (slotKey pc (s.shadow pc i).slot)).retired)).length
/-- Is the comb one that a comb ID names? -/
def State.combId (s : State) (pc : Nat) : Option Nat :=
  let p := pc / 4160
  let q := pc % 4160 / 1040
  ((List.range 1024).map (fun i => q * 1024 + i)).find? (fun k => s.pcomb p k == pc)
/-- The comb must be replaced: the lowest spare of its quadrant that passed its last test is taken (R403). -/
def State.needSpare (s : State) (pc loc : Nat) : State :=
  let p := pc / 4160
  let q := pc % 4160 / 1040
  match s.combId pc with
  | none => { s with bist := { s.bist with badComb := pc :: s.bist.badComb } }
  | some k =>
    if s.bist.replace.any (fun x => x.1 == p && x.2.1 == k) then s
    else
      let taken := s.bist.replace.map (fun x => x.2.2)
      match ((List.range 1040).map (physComb p q)).find? (fun c =>
          (s.combId c).isNone && !s.bist.badComb.contains c && !taken.contains c) with
      | some c => { s with bist := { s.bist with replace := s.bist.replace ++ [(p, k, c)] } }
      | none => s.exhausted p loc 1
/-- A slot leaves use; its comb is replaced when no usable shadow slot is left. -/
def State.retireSlot (s : State) (pc slot : Nat) : State :=
  let p := pc / 4160
  let sk := slotKey pc slot
  let f := s.fix sk
  let b := s.bsite p
  let s := (s.setSlotHdr sk { s.slotHdr sk with retired := true }).setBsite p { b with retired := min 255 (b.retired + 1) }
  let s := (s.bump rBIST_CNT_REPAIR).bistFault 0x0402 16 p f.loc 2
  if s.usableShadows pc = 0 then s.needSpare pc f.loc else s
/-- Firmware maps spares over the failures of a FREE shadow slot, or retires it (R402 steps 3 and 4). -/
def State.mapSpares (s : State) (pc slot : Nat) : State :=
  let sk := slotKey pc slot
  let f := s.fix sk
  if f.rows.isEmpty ∧ f.groups.isEmpty ∧ !f.hard then s
  else if f.hard ∨ f.mapped ∨ 4 < f.usedR + f.rows.length ∨ 2 < f.usedC + f.groups.length then s.retireSlot pc slot
  else
    let p := pc / 4160
    let b := s.bsite p
    ((s.setBsite p { b with rows := b.rows + f.rows.length, cols := b.cols + f.groups.length }).setFix sk
      { f with rows := [], groups := [], usedR := f.usedR + f.rows.length, usedC := f.usedC + f.groups.length, mapped := true,
               passed := 0 })
/-- Add a confirmed failure of a slot: a spare row repairs it while one is left, else a spare column group; the ones column and
the side array cannot be repaired. -/
def SlotFix.add (f : SlotFix) (row bitNo loc : Nat) : SlotFix :=
  let f := if f.loc = 0 then { f with loc := loc } else f
  let cannot := bitNo == 256 || decide (768 ≤ bitNo)
  if cannot then { f with hard := true }
  else if f.rows.contains row then f
  else if f.usedR + f.rows.length < 4 then { f with rows := f.rows ++ [row] }
  else if bitNo < 256 ∧ !f.groups.contains (bitNo / 8) then { f with groups := f.groups ++ [bitNo / 8] }
  else if bitNo < 256 then f
  else { f with rows := f.rows ++ [row] }

/-! ### Slices (R391-R398) -/

def State.testPos (s : State) (p unit : Nat) : Nat := mget 0 s.bist.pos (p * 8 + unit)
def State.setTestPos (s : State) (p unit x : Nat) : State :=
  { s with bist := { s.bist with pos := mset 0 s.bist.pos (p * 8 + unit) x } }

/-- The next slot that may be tested, from slot number `i` (comb × 66 + slot) on: a shadow slot that is not FREE and a retired
slot are passed over (R393). -/
def State.nextSlot (s : State) (p q : Nat) : Nat → Nat → Nat
  | 0, i => i % (1040 * 66)
  | n + 1, i =>
    let i := i % (1040 * 66)
    let pc := physComb p q (i / 66)
    let skip := (s.slotHdr (slotKey pc (i % 66))).retired ||
      (match s.slotShadow pc (i % 66) with | some k => (s.shadow pc k).st != .free | none => false)
    if skip then State.nextSlot s p q n (i + 1) else i

/-- One row group of a comb slot. `left` cycles remain; what is left after it, none when it does not fit. -/
def State.combStep (s : State) (p q : Nat) (x : TestStep) (left : Nat) : Option Nat × State :=
  let pos := s.testPos p q
  let sl := s.nextSlot p q (66 * 4) (pos / 64)
  let grp := if sl = pos / 64 then pos % 64 else 0
  let pc := physComb p q (sl / 66)
  let slot := sl % 66
  let sk := slotKey pc slot
  let free := (s.slotShadow pc slot).isSome
  let cost := if free then 80 else 104
  if left < cost then (none, s)
  else
    let s := if free ∧ grp = 0 then s.mapSpares pc slot else s
    let loc := sl / 66 + slot * 2 ^ 11 + x.loc % 256 * 2 ^ 18
    let f := s.fix sk
    let s : State :=
      if x.bad then
        let s := s.confirm p q loc x
        let s := s.setFix sk ({ f with passed := 0 }.add (x.loc % 256) (x.bit % 1024) loc)
        if free then (if (s.combId pc).isNone then { s with bist := { s.bist with badComb := pc :: s.bist.badComb } } else s)
        else
          let s := s.setSlotHdr sk { s.slotHdr sk with testBad := true }
          if (List.range 2).any (fun i => (s.shadow pc i).st == .free) then s else s.needSpare pc loc
      else if x.soft then (s.result p q 0 true loc x.bit x.w3).bump rBIST_CNT_SOFT
      else
        let s := s.result p q 0 false (sl / 66 + slot * 2 ^ 11) 0 0
        if f.mapped then
          let s := s.setFix sk { f with passed := f.passed + 1 }
          if f.passed + 1 = 64 then
            let s := ((s.setFix sk { f with mapped := false, passed := 0, loc := 0 }).setSlotHdr sk
              { s.slotHdr sk with testBad := false }).bump rBIST_CNT_REPAIR
            let col := decide (0 < f.usedC)
            s.bistFault 0x0402 16 p f.loc (b2n col + (if col then 2 - f.usedC else 4 - f.usedR) * 2 ^ 4)
          else s
        else s
    let next := if grp = 63 then (sl + 1) * 64 else sl * 64 + grp + 1
    (some (left - cost), (s.setTestPos p q (next % (1040 * 66 * 64))).bump rBIST_CNT_GROUP)

/-- Granules of region `r` that no save has reached are read into the save buffer (R240). -/
def State.spadSave (s : State) (p r : Nat) (z : SpadTest) (m : BitVec 64) : State :=
  { s with spad := { s.spad with
      save := (granList (m &&& ~~~z.copied)).foldl (fun a i => mset 0 a (p * 64 + i) (mget 0 s.spad.mem (spadKey p (r * 64 + i)))) s.spad.save } }.setTest
    p { z with region := 1 + r, copied := z.copied ||| m }
/-- A verify mismatch: the data stays in the save buffer, what was written to the bank since the restore with it (DESIGN CHOICE,
log entry 151), and the region stays redirected (R241, R396). -/
def State.verifyFails (s : State) (p : Nat) (z : SpadTest) : State :=
  { s with spad := { s.spad with
      save := (List.range 64).foldl (fun a i => mset 0 a (p * 64 + i) (mget 0 s.spad.mem (spadKey p ((z.region - 1) * 64 + i)))) s.spad.save } }.setTest
    p { z with restored := 0, failed := true }

/-- A step of the test of a scratchpad region (Table 08.12, R396). A region starts when its whole test fits what is left of the
slice; its restore is never held up (R241). -/
def State.spadStep (s : State) (p : Nat) (x : TestStep) (left : Nat) : Option Nat × State :=
  let z := mget SpadTest.init s.spad.test p
  let all := BitVec.allOnes 64
  let r := s.testPos p 4
  let rows := ceilDiv (granList x.gran).length 32
  if z.failed then (none, s)
  else match x.stage with
    | .restore => (some (left - rows), s.spadRestore p x.gran)
    | .save =>
      if left < (if z.region = 0 then 26 else rows) then (none, s)
      else if z.restored ≠ 0 then (some left, s)
      else (some (left - rows), s.spadSave p r z x.gran)
    | .march => if left < 20 then (none, s) else (some (left - 20), s)
    | .verify =>
      if left < rows then (none, s)
      else if z.region = 0 ∨ z.restored ≠ all then (some left, s)
      else
        let g := r * 64 + x.loc % 64
        let s : State :=
          if x.bad then (s.verifyFails p z).confirm p 4 g x
          else
            let s := s.spadDone p
            if x.soft then (s.result p 4 0 true g x.bit x.w3).bump rBIST_CNT_SOFT else s.result p 4 0 false (r * 64) 0 0
        (some (left - rows), ((s.setTestPos p 4 ((r + 1) % 16384)).bump rBIST_CNT_GROUP).bump (siteReg p rSPAD_CNT_TREG))
/-- Firmware repairs the rows of the region left redirected with spare rows of the failing granule's bank, writes the region
back from the save buffer and ends the redirection, or finds no spare row (R396, R404). -/
def State.spadRepair (s : State) (p g : Nat) : State :=
  let z := mget SpadTest.init s.spad.test p
  if !z.failed then s
  else
    let k := p * 32 + g % 32
    let used := mget 0 s.bist.spadRows k
    if 8 ≤ used then s.exhausted p g 2
    else
      let s := ((s.setTest p { z with failed := false }).spadRestore p (BitVec.allOnes 64)).spadDone p
      let s := { s with bist := { s.bist with spadRows := mset 0 s.bist.spadRows k (used + 1) } }
      (s.bump rBIST_CNT_REPAIR).bistFault 0x0402 16 p g (3 + (7 - used) % 16 * 2 ^ 4)

/-- The lowest FREE frame from `f` on. -/
def State.freeFrom (s : State) (p : Nat) : Nat → Nat → Option Nat
  | 0, _ => none
  | n + 1, f => if (s.frame p (f % 589824)).st = 0 then some (f % 589824) else State.freeFrom s p n (f + 1)
/-- One FREE frame of the stack (R397); it is HELD only during its test. -/
def State.hbmStep (s : State) (p : Nat) (x : TestStep) : Option Nat × State :=
  match s.freeFrom p 589824 (s.testPos p 5) with
  | none => (none, s)
  | some f =>
    let s : State :=
      if x.bad then (s.confirm p 5 f x).setFrame p f { s.frame p f with st := 3 }
      else if x.soft then (s.result p 5 0 true f x.bit x.w3).bump rBIST_CNT_SOFT
      else s.result p 5 0 false f 0 0
    (some 0, (s.setTestPos p 5 ((f + 1) % 589824)).bump rBIST_CNT_GROUP)
/-- One known-answer test (R398). -/
def State.logicStep (s : State) (p : Nat) (x : TestStep) : Option Nat × State :=
  if x.bad then
    let s := ((s.result p 6 2 false x.loc x.bit x.w3).bump rBIST_CNT_FAIL).sticky rBIST_STAT 2
    let s := (s.siteFail p).setBsite p { s.bsite p with bad := true }
    (none, s.bistFault 0x3406 (s.owner p) p x.loc (x.bit % 2 ^ 16))
  else (some 0, (s.result p 6 0 false x.loc 0 0).setBsite p { s.bsite p with bad := false })

/-- The steps of a slice, while its cycles last. -/
def State.testSteps (s : State) (p unit : Nat) : List TestStep → Nat → State
  | [], _ => s
  | x :: t, left =>
    let r := if unit < 4 then s.combStep p unit x left else if unit = 4 then s.spadStep p x left
      else if unit = 5 then s.hbmStep p x else s.logicStep p x
    match r.1 with
    | some l => State.testSteps r.2 p unit t (if unit < 5 then l else left)
    | none => r.2

/-- The site's voltage and effective clock lie in the window of LIMIT_MODE 0. -/
def State.inWindow (s : State) (p : Nat) : Bool :=
  let v := s.vNow p
  let f := freqOf (s.pwr1 p).prev * s.kEff p
  decide (s.fld rBIST_WINDOW 0 10 ≤ v) && decide (v ≤ s.fld rBIST_WINDOW 16 10) &&
  decide (16 * s.odVal 500 0x7000 4 ≤ f) && decide (f ≤ 16 * s.odVal 1100 0x7000 5)

/-- A self-test slice of `len` cycles of a unit of a site (Table 15.1). `steps`: what its test steps find; `leaves`: the
effective clock leaves the window after these steps. -/
def execSelfTestSlice (p unit len : Nat) (steps : List TestStep) (leaves : Bool) (t : Nat) (s : State) : Res :=
  let s := s.at t
  let window := !(s.flag rBIST_CTL 1)
  -- a region that has been begun is restored in any case
  let rest (s : State) : State := if unit = 4 then s.testSteps p 4 (steps.filter (fun x => x.stage == .restore)) 0 else s
  .next (if !(s.flag rBIST_CTL 0) || isHub p || decide (6 < unit) || s.inGuard then rest s
    else if window && !(s.inWindow p) then rest (s.bump rBIST_CNT_SKIP)
    else
      let mhz := freqOf (s.pwr1 p).prev * s.kEff p / 16
      let budget := if window then len else min len (s.fld rBIST_CTL 16 7 * mhz)
      let s := s.bump rBIST_CNT_SLICE
      let s := if window && leaves then s.bump rBIST_CNT_CURTAIL else s
      -- a region left redirected is repaired before a further region starts
      let s := if unit = 4 then s.spadRepair p (s.fld (rBIST_RESULT + 4) 0 20) else s
      s.testSteps p unit steps budget)

/-- A yield (R394): the row group under test is tested again from its start at the next slice; nothing else is left of it. -/
def execSelfTestYield (p q : Nat) (s : State) : Res := .next (if isHub p || decide (3 < q) then s else s.bump rBIST_CNT_YIELD)

/-! ### Analogue checks and the loss of a hub (R399, R405) -/

/-- A check of Table 15.4. `site` and `inst` name what it checks: order 0 site and port, 1 lane-group, 2 and 3 sensor,
6 domain; `err` is the measured error, `aux` the far site of a port or the valve position. -/
def execAnalogCheck (order site inst : Nat) (pass : Bool) (err : BitVec 32) (aux : Nat) (s : State) : Res :=
  let loc := order % 16 + inst % 2 ^ 12 * 2 ^ 4
  let s := (s.bump rBIST_CNT_ANALOG).result site 8 (if pass then 0 else 3) false loc (if pass then 0 else err.toNat) 0
  let own := s.bistFault 0x1407 16 site loc err.toNat
  .next (if pass then s
    else if order = 0 then s.linkDown site inst aux
    else if order = 2 then s.sensorState inst true
    else if order = 3 then (if inst < 4 then s else own.setSensor inst { s.sensor inst with bad := true })
    else if order = 5 then
      (if s.flag rPWR_STATUS 13 then s else (s.setFld rPWR_STATUS 13 1 1).pwrFault 0x12C3 (hubSite 0) (inst % 16) err.toNat)
    else if order = 6 then s.domBreak inst 0x3341 (domWord inst) err.toNat
    else if order = 7 then s.valveFault 0x1306 (s.fld rCLT_VALVE 0 10) 1 aux
    else own)

/-- HUB_LOST: cause 0 domain fault (with the domain), 1 watchdog. -/
def State.hubLost (s : State) (h cause d : Nat) : State :=
  if bit s.boot.hubLost h then s
  else
    let s := { s with boot := { s.boot with hubLost := orBit s.boot.hubLost h } }
    let s := s.tickFault 0x440B 16 (hubSite h) (h + cause * 4) (if cause = 0 then d else 0x1FF)
    let s := s.livePartitions.foldl (fun (s : State) n => s.resetPart n 0x440B) s
    let s := s.portDown h 0
    -- the cores of the hub hold no lock and wait for none any more (R263)
    let core (w : Nat) : Bool := owSite w == hubSite h
    let s := (s.sealAbandonAll core 0).dropWaits core
    if h = 1 then s.copyFail 0 2 else if h = 2 then s.copyFail 1 2 else s

/-! ### Ageing (R406-R409) -/

/-- √t with 16 fractional bits, rounded down. -/
def sqrtFx (t : Nat) : Nat := Nat.sqrt (t * 2 ^ 32)
/-- Remaining life and half-width of a site in hours from its samples (R408): A = Σ d√t / Σ t with d in 0.001 %; the
standard error is that of a line through the origin. Both are rounded down. -/
def siteLife (now : Nat) (l : List (Nat × Nat)) : Nat × Nat :=
  let sdt := (l.map (fun x => x.2 * sqrtFx x.1)).foldl (· + ·) 0
  let st := (l.map Prod.fst).foldl (· + ·) 0
  if sdt = 0 then (0xFFFFFFFF, 0)
  else
    let tEnd := (7500 * st * 2 ^ 16) ^ 2 / sdt ^ 2
    let n := l.length
    -- sum of squared residuals times (Σt)², and (σ_A / A)² = residuals · Σt / ((n − 1) sdt²)
    let res := (l.map (fun x => ((x.2 * st * 2 ^ 16 : Nat) : Int) - (sdt * sqrtFx x.1 / 2 ^ 16 : Nat))).foldl (fun a r => a + r.natAbs ^ 2) 0
    let half := if n < 4 then tEnd else 4 * Nat.sqrt (res * tEnd ^ 2 / ((n - 1) * max 1 st * sdt ^ 2))
    (min 0xFFFFFFFF (tEnd - now), min 0xFFFFFFFF half)

/-- A module monitor extrapolated linearly (R408): value, its change over a span of hours, and its end. -/
def lineLife (x : Nat × Nat × Nat × Nat) : Nat :=
  let (v, d, span, e) := x
  if e ≤ v then 0 else if d = 0 then 0xFFFFFFFF else min 0xFFFFFFFF ((e - v) * span / d)

/-- The lowest pairs first by remaining life. -/
def lifeInsert (x : Nat × Nat) : List (Nat × Nat) → List (Nat × Nat)
  | [] => [x]
  | y :: t => if y.1 ≤ x.1 then y :: lifeInsert x t else x :: y :: t

/-- One site's update: d_max in 0.001 % and the read-margin supply in mV (R407). -/
def State.ageSite (s : State) (hours : Nat) (x : Nat × Nat × Nat) : State :=
  let (p, d, v) := x
  let b := s.bsite p
  let old := max (s.pwr1 p).age (s.pwr1 p).ageReq
  let lvl := min 15 (max old (max (ceilDiv d 500) (ceilDiv (v + 50 - vFused p 0) 5)))
  let samples := b.samples ++ [(hours, d)]
  let s := s.setBsite p { b with dmax := d % 2 ^ 16, vread := v % 2 ^ 10, samples := samples, eol := (siteLife hours samples).1 }
  if old < lvl then
    (s.setPwr1 p { s.pwr1 p with ageReq := lvl }).bistFault 0x0408 16 p (p + lvl * 2 ^ 7) (d % 2 ^ 16 + v % 2 ^ 10 * 2 ^ 16)
  else s

/-- Unbound spare sites that may still back a logical site. -/
def State.spareSites (s : State) : List Nat :=
  [0, 8, 63, 71].filter (fun p => (s.lsite p).isNone && !(mget false s.fab.siteOut p) && !(s.bsite p).bad &&
    !(s.dom.outNext.contains p))

/-- The hourly update: sites (site, d_max, V_read), module monitors (value, change, span, end), the lifetime counts. -/
def execAgeingUpdate (hours therm valve : Nat) (sites : List (Nat × Nat × Nat)) (mons : List (Nat × Nat × Nat × Nat)) (s : State) : Res :=
  let s := sites.foldl (fun (s : State) x => s.ageSite hours x) s
  let bound := ((List.range 64).map s.phys).map (fun p => (((s.bsite p).eol, (siteLife hours (s.bsite p).samples).2)))
  let order := bound.foldl (fun l x => lifeInsert x l) []
  let site := order.getD s.spareSites.length (0xFFFFFFFF, 0)
  -- the band of a module monitor is left open (log entry 57)
  let r := s.takeFree
  let mon := (mons.map lineLife).foldl min 0xFFFFFFFF
  let best := if mon < site.1 then (mon, r.1.toNat % 2 ^ 32) else site
  let s := if mon < site.1 then r.2 else s
  let net := best.1 - best.2
  let warn := decide (net ≤ s.odVal 8760 0x4000 4)
  let crit := decide (net ≤ s.odVal 720 0x4000 5)
  let b := s.bist
  let s := { s with bist := { b with hours := some hours, therm := some therm, valve := some valve, eolH := best.1, eolC := best.2,
                                     warn := warn, crit := crit } }
  let s := if warn then s.bistFault 0x0409 16 (hubSite 0) best.1 best.2 else s
  let s := if crit then s.bistFault 0x040A 16 (hubSite 0) best.1 best.2 else s
  .next (if warn != b.warn || crit != b.crit then s.notify 6 0x4000 2 ((best.1 * 2 ^ 32 + best.2) * 2 ^ 192) else s)

/-! ### Inspection (R416) -/

/-- Words of BIST_SITE_DATA0-2 of a site. -/
def State.bistWords (s : State) (p : Nat) : List Nat :=
  if 71 < p ∨ isHub p then [0, 0, 0]
  else
    let b := s.bsite p
    [b.retired * 2 ^ 24 + packNat 5 b.spares, b.cols % 2 ^ 16 * 2 ^ 16 + b.rows % 2 ^ 16, b.vread * 2 ^ 16 + b.dmax]
def execBistSiteDataRead (s : State) : Res :=
  let ws := s.bistWords (s.fld rBIST_SEL 0 7)
  .next (if !s.ready then s.emit (.value rBIST_SITE_DATA 0) else { s with bist := { s.bist with latch := ws.drop 1 } }.showWords rBIST_SITE_DATA ws)

/-! ### Replacement and promotion at a tick edge (R403, R404) -/

/-- The combs of partition `n` that are to be replaced are rebound at the edge that begins its stroke. A spare takes the banks,
the requantizer state and the sets of the old comb (the image holds what the banks hold, log entry 58). -/
def State.replaceComb (s : State) (n : Nat) (x : Nat × Nat × Nat) : State :=
  let (p, k, c) := x
  let old := s.pcomb p k
  if s.owner p ≠ n ∨ (List.range 2).any (fun i => (s.shadow old i).st != .free) then s
  else
    let mv {α : Type} (w : Nat) (m : SMap α) : SMap α :=
      -- entries of the old comb, at the spare's place
      m.filter (fun e => e.1 / w == old) |>.map (fun e => (c * w + e.1 % w, e.2))
    let merge {α : Type} [DecidableEq α] (d : α) (w : Nat) (m : SMap α) : SMap α :=
      (mv w m).foldl (fun a e => mset d a e.1 e.2) (m.filter (fun e => e.1 / w != c))
    let cb := s.comb
    let cb := { cb with
      repair := mset (p * 4160 + k / 1024 * 1040 + k % 1024) cb.repair (p * 4096 + k) c
      bmap := merge 0 64 cb.bmap, rows := merge 0 (66 * 256) cb.rows, metaR := merge 0 (66 * 256) cb.metaR
      wzp := merge 0 (66 * 128) cb.wzp, colsum := merge 0 (66 * 128) cb.colsum
      hdr := (merge SlotHdr.init 66 cb.hdr).map (fun e => if e.1 / 66 = c then (e.1, { e.2 with testBad := false, retired := false }) else e)
      -- the FREE slots of the old comb are FREE at the spare (R25)
      shadow := (mv 2 cb.shadow).foldl (fun a e => mset (Shadow.init (e.1 % 2)) a e.1 e.2) (cb.shadow.filter (fun e => e.1 / 2 != c))
      sets := merge AccSet.init 2 cb.sets }
    let rq := { s.rq with
      sets := merge ScaleSet.init 16 s.rq.sets, chan := merge 0 (16 * 128) s.rq.chan
      stage := merge 0 576 s.rq.stage, pend := merge 0 1 s.rq.pend }
    let b := s.bsite p
    let q := k / 1024
    let left := (b.spares.getD q 0) - 1
    let s := { s with comb := cb, rq := rq,
                      bist := { s.bist with replace := s.bist.replace.filter (fun y => y != x), badComb := old :: s.bist.badComb } }
    let s := (s.setBsite p { b with spares := b.spares.set q left }).bump rBIST_CNT_REPAIR
    s.bistFault 0x0403 n p (k + old % 1040 * 2 ^ 13) (c % 1040 + left * 2 ^ 11)
def State.replaceCombs (s : State) (n : Nat) : State := s.bist.replace.foldl (fun (s : State) x => s.replaceComb n x) s

/-- A logical site is bound to another physical site; its map entry records the change (R18). -/
def State.rebind (s : State) (l p stroke : Nat) : State :=
  let r := rGLB_SITEMAP + 4 * l
  let gen := min 255 (s.fld r 8 8 + 1)
  s.setReg r (BitVec.ofNat 64 (p + b2n (isSpare p) * 2 ^ 7 + gen * 2 ^ 8 + stroke % 256 * 2 ^ 16))

end Sys2Proof.Machine
end

