-- ==== Sys2Proof/Machine/Objects.lean ====
section
/-! DEFINITION. The object dictionary: types, access and values of Tables 13.11 to 13.23, and the writing of objects
(R349-R352, R359-R365). -/

namespace Sys2Proof.Machine

/-- Rows of the object dictionary: first index, number of indices, first and last sub-index, type code (Table 13.3) and access:
0 RO, 1 RW, 2 WO, 3 RWI. -/
def objRows1 : List (Nat × Nat × Nat × Nat × Nat × Nat) :=
  [(0x1000, 1, 1, 1, 9, 0), (0x1000, 1, 2, 2, 4, 0), (0x1000, 1, 3, 4, 5, 0), (0x1000, 1, 5, 7, 2, 0), (0x1000, 1, 8, 8, 4, 0),
   (0x1100, 1, 1, 1, 3, 1), (0x1100, 1, 2, 3, 2, 1), (0x1100, 1, 4, 5, 5, 1), (0x1100, 1, 6, 6, 3, 1), (0x1100, 1, 7, 8, 2, 1),
   (0x1100, 1, 9, 9, 6, 1), (0x1100, 1, 10, 10, 10, 1), (0x1100, 1, 11, 11, 2, 1), (0x1100, 1, 12, 12, 3, 1), (0x1100, 1, 13, 13, 2, 0),
   (0x1800, 1, 1, 1, 3, 1), (0x1800, 1, 2, 3, 2, 1), (0x1800, 1, 4, 5, 3, 1), (0x1800, 1, 6, 8, 2, 1), (0x1800, 1, 9, 9, 4, 1),
   (0x1800, 1, 10, 11, 2, 1), (0x1800, 1, 12, 12, 1, 1), (0x1800, 1, 16, 17, 5, 0), (0x1800, 1, 18, 19, 2, 0), (0x1800, 1, 20, 20, 7, 0),
   (0x1F80, 1, 1, 1, 2, 0), (0x1F80, 1, 2, 2, 4, 0), (0x1F80, 1, 3, 3, 2, 0), (0x1F80, 1, 4, 4, 5, 0), (0x1F80, 1, 5, 5, 4, 0),
   (0x1F80, 1, 6, 6, 3, 0), (0x1F80, 1, 16, 47, 10, 0)]
def objRows2 : List (Nat × Nat × Nat × Nat × Nat × Nat) :=
  [(0x2000, 1, 1, 3, 3, 1), (0x2000, 1, 4, 4, 2, 1), (0x2000, 1, 5, 5, 3, 1), (0x2000, 1, 6, 7, 2, 1), (0x2000, 1, 8, 8, 1, 1),
   (0x2000, 1, 16, 16, 3, 0), (0x2000, 1, 17, 17, 1, 0), (0x2000, 1, 18, 18, 2, 0), (0x2000, 1, 19, 19, 3, 0), (0x2000, 1, 20, 20, 2, 0),
   (0x2000, 1, 21, 21, 4, 0), (0x2000, 1, 22, 22, 2, 0),
   (0x2100, 1, 1, 4, 5, 0), (0x2100, 1, 5, 5, 7, 0), (0x2100, 1, 6, 7, 3, 0), (0x2100, 1, 8, 9, 5, 0), (0x2100, 1, 10, 10, 4, 0),
   (0x2101, 1, 1, 16, 5, 0), (0x2102, 1, 1, 16, 4, 0), (0x2103, 2, 1, 16, 5, 0),
   (0x2200, 1, 1, 1, 2, 0), (0x2200, 1, 2, 2, 2, 1), (0x2201, 2, 1, 8, 5, 0), (0x2203, 1, 1, 16, 3, 1),
   (0x3000, 1, 1, 1, 1, 1), (0x3000, 1, 2, 6, 2, 1), (0x3000, 1, 7, 12, 3, 1), (0x3000, 1, 13, 13, 1, 2),
   (0x3001, 1, 1, 4, 6, 0), (0x3001, 1, 5, 7, 3, 0), (0x3001, 1, 8, 8, 2, 0), (0x3001, 1, 9, 10, 3, 0), (0x3001, 1, 11, 11, 2, 0),
   (0x3001, 1, 12, 12, 3, 0), (0x3001, 1, 13, 13, 1, 0), (0x3100, 424, 1, 3, 2, 0), (0x3100, 424, 4, 6, 3, 0)]
def objRows3 : List (Nat × Nat × Nat × Nat × Nat × Nat) :=
  [(0x4000, 1, 1, 3, 4, 0), (0x4000, 1, 4, 5, 4, 1), (0x4000, 1, 6, 8, 4, 0), (0x4001, 1, 1, 72, 4, 0), (0x4002, 1, 1, 72, 2, 0),
   (0x4100, 1, 1, 1, 4, 0), (0x4100, 1, 2, 2, 3, 0), (0x4100, 1, 3, 3, 1, 0), (0x4100, 1, 4, 4, 2, 1), (0x4101, 1, 0, 0, 4, 1),
   (0x4102, 1, 0, 0, 10, 0),
   (0x5000, 16, 1, 1, 2, 0), (0x5000, 16, 2, 2, 5, 0), (0x5000, 16, 3, 4, 2, 0), (0x5000, 16, 5, 5, 5, 0), (0x5000, 16, 6, 7, 4, 0),
   (0x5000, 16, 8, 8, 1, 0), (0x5000, 16, 9, 9, 4, 0), (0x5100, 16, 1, 3, 4, 0), (0x5100, 16, 4, 8, 5, 0), (0x5100, 16, 9, 9, 8, 0),
   (0x5100, 16, 10, 13, 5, 0),
   (0x6000, 1, 1, 1, 2, 3), (0x6000, 1, 2, 2, 2, 0), (0x6000, 1, 3, 3, 4, 0), (0x6000, 1, 4, 4, 5, 0), (0x6000, 1, 5, 6, 2, 0),
   (0x6000, 1, 7, 7, 5, 0), (0x6000, 1, 8, 8, 4, 0),
   (0x7000, 1, 1, 1, 2, 3), (0x7000, 1, 2, 5, 3, 1), (0x7000, 1, 6, 6, 2, 1), (0x7000, 1, 7, 7, 1, 1), (0x7000, 1, 8, 8, 5, 0),
   (0x7000, 1, 9, 9, 4, 0), (0x7001, 1, 0, 0, 10, 0)]
def objRows : List (Nat × Nat × Nat × Nat × Nat × Nat) := objRows1 ++ objRows2 ++ objRows3

/-- Highest sub-index of an index, none when the index is not in the dictionary. -/
def objHigh (i : Nat) : Option Nat :=
  let l := objRows.filter (fun r => decide (r.1 ≤ i) && decide (i < r.1 + r.2.1))
  if l.isEmpty then none else some ((l.map (fun r => r.2.2.2.1)).foldl max 0)
/-- Type code and access of an object; sub-index 0 of a RECORD or ARRAY is a U8 (R349). -/
def objInfo (i sub : Nat) : Option (Nat × Nat) :=
  match objRows.find? (fun r => decide (r.1 ≤ i) && decide (i < r.1 + r.2.1) && decide (r.2.2.1 ≤ sub) && decide (sub ≤ r.2.2.2.1)) with
  | some r => some (r.2.2.2.2.1, r.2.2.2.2.2)
  | none => if sub = 0 ∧ (objHigh i).isSome then some (2, 0) else none
/-- Bytes of a value of a type of fixed length; 0 for STR and DOMAIN. -/
def tySize (ty : Nat) : Nat :=
  if ty = 1 ∨ ty = 2 then 1 else if ty = 3 ∨ ty = 6 then 2 else if ty = 4 ∨ ty = 7 ∨ ty = 8 then 4 else if ty = 5 then 8 else 0

/-- `n` bytes of `x`, most significant first. -/
def bigBytes (n x : Nat) : List Nat := (List.range n).map (fun i => x / 2 ^ (8 * (n - 1 - i)) % 256)
def bigNat (l : List Nat) : Nat := l.foldl (fun a b => a * 256 + b) 0

/-! ### Values -/

/-- A sticky health word (0x4000:01). -/
def State.health (s : State) : Nat :=
  let mode := s.fld rPAIR_CTL 0 2
  let role := s.fld rPAIR_STATUS 0 2
  s.fld rPWR_STATUS 15 1 + s.fld rPWR_STATUS 14 1 * 2 + b2n s.jrnl.lost * 4 + s.fld rPWR_STATUS 13 1 * 8 + b2n (s.bridge == 3) * 16 +
  b2n (s.dom.doms.any (fun x => x.2.st == 5)) * 32 +
  b2n (mode != 0 && (role == 0 || role == 3 || s.fld rPAIR_STATUS 4 4 != 15)) * 64 + b2n s.bist.warn * 128
/-- Panel power estimate of the last window, W. -/
def State.pEst (s : State) : Nat := (s.pwr.sites.map (fun x => x.2.pEst)).foldl (· + ·) 0
/-- Health summary of a panel (Table 13.6): 24 bytes. -/
def State.summary (s : State) : List Nat :=
  bigBytes 4 s.health ++ bigBytes 2 (min 65535 s.pEst) ++ bigBytes 2 s.budget ++
  [s.fld rPWR_STATUS 16 8, (s.pwr.sites.map (fun x => x.2.temp)).foldl max 0 % 256, 0, 0] ++
  bigBytes 8 (s.reg rPWR_E_TOTAL).toNat ++ bigBytes 4 s.wgl.clamps.gen

/-- STRK_PBUCKET_n (Table 05.19). -/
def State.pbucket (s : State) (n : Nat) : Nat :=
  let p := s.part n
  let e := match p.entry, p.lib with | some i, some l => ((l.entries[i]?.map (fun b => b.raw.toNat)).getD 0) | _, _ => 0
  p.decLive % 2 ^ 15 * 2 ^ 16 + b2n p.idle * 2 ^ 15 + b2n p.short * 2 ^ 14 + p.entry.getD 0 % 64 * 2 ^ 8 +
  (if p.entry.isSome then bits e 6 2 * 2 ^ 6 + bits e 3 3 * 2 ^ 3 + bits e 0 3 else 3 * 2 ^ 6)
/-- Streams of a partition in one of some states. -/
def State.countStreams (s : State) (n : Nat) (l : List StreamState) : Nat :=
  ((s.partStreams n).filter (fun i => l.contains (s.stream i).st)).length
/-- Number of entries of a merged counter of the panel's efficiency (Table 13.16). -/
def State.tokAll (s : State) : Nat := (s.pwr.parts.map (fun x => x.2.tok)).foldl (· + ·) 0

/-- LIFECYCLE, the state in force since the last panel reset (R384). -/
def State.lifeCycle (s : State) : Nat := s.boot.lcNow.getD (Config.fused 5 0 % 5)
/-- The module's serial. -/
def serial : Nat := Config.fused 0 0 % 2 ^ 64
def moduleMac : Nat := Config.fused 1 0 % 2 ^ 48

/-- Link parameters (Table 13.12): defaults of the RW objects. -/
def linkDflt (sub : Nat) : Nat :=
  [0, 0x88B5, 1, 0, 0x03A500000001, 0, 0, 7, 5, 0xFFFD, 0, 1, 2000].getD sub 0
def State.link (s : State) (sub : Nat) : Nat := s.odVal (linkDflt sub) 0x1100 sub

/-- Entries of the journal window: from WINDOW_START, at most 32 (0x4102). -/
def State.winStart (s : State) : Nat :=
  let w := s.odVal 0 0x4101 0
  let l := s.jrnl.held
  let old := (s.jrnl.seq.toNat + 2 ^ 32 - l.length) % 2 ^ 32
  if l.length < (w + 2 ^ 32 - old) % 2 ^ 32 then old else w
def State.window (s : State) : List JEntry :=
  let w := s.winStart
  let l := s.jrnl.held
  (l.drop ((w + 2 ^ 32 - (s.jrnl.seq.toNat + 2 ^ 32 - l.length) % 2 ^ 32) % 2 ^ 32)).take 32

/-- Value of the objects of 0x1000 to 0x1FFF. -/
def State.objNum1 (s : State) (i sub : Nat) : Nat :=
  if i = 0x1000 then
    (if sub = 2 then 0x4B322010 else if sub = 3 then serial else if sub = 4 then moduleMac else if sub = 5 then 1
     else if sub = 6 then s.fld rSEC_IFLEVEL 8 4 else if sub = 7 then s.lifeCycle else s.boot.version)
  else if i = 0x1100 then (if sub = 13 then s.fld rGLB_WGL_STAT 0 4 else s.link sub)
  else if i = 0x1800 then
    (if sub = 16 then s.tick.number.toNat else if sub = 17 then s.time else if sub = 18 then s.tick.active
     else if sub = 19 then s.fld rGLB_WGL_STAT 4 1 else unsigned 32 s.wgl.gpOfs)
  else
    let c := s.wgl.clamps
    if sub = 1 then c.entries.length else if sub = 2 then c.gen else if sub = 3 then c.source else if sub = 4 then c.tick
    else if sub = 5 then c.rep else c.total % 2 ^ 16
/-- Value of the objects of 0x2000 to 0x3FFF. -/
def State.objNum2 (s : State) (i sub : Nat) : Nat :=
  let k := sub - 1
  if i = 0x2000 then
    (if sub = 16 then s.fld rPWR_GRANT_NOW 0 16 else if sub = 17 then s.fld rPWR_GRANT_NOW 31 1 else if sub = 18 then s.fld rPWR_GRANT_NOW 24 7
     else if sub = 19 then s.budget else if sub = 20 then s.fld rPWR_STATUS 10 3 else if sub = 21 then s.pEst else s.fld rPWR_BUDGET_NOW 19 5)
  else if i = 0x2100 then
    (if sub = 1 then (s.reg rPWR_E_TICK).toNat else if sub = 2 then (s.reg rPWR_E_TOTAL).toNat else if sub = 3 then (s.reg rPWR_E_SHARED).toNat
     else if sub = 4 then (s.reg rPWR_E_UNASSIGNED).toNat else if sub = 5 then s.fld rPWR_E_RESID 0 32 else if sub = 6 then s.fld rPWR_FLOOR_RATIO 0 16
     else if sub = 7 then s.fld rPWR_FLOOR_RATIO 16 16 else if sub = 8 then s.pwr.perMwh
     else if sub = 9 then perMwh s.tokAll (s.reg rPWR_E_TOTAL).toNat else s.kCal)
  else if i = 0x2101 then (s.reg (rPWR_E_PART + 8 * k)).toNat
  else if i = 0x2102 then (s.ppwr k).eTick
  else if i = 0x2103 then (s.ppwr k).perMwh
  else if i = 0x2104 then perMwh (s.ppwr k).tok (s.reg (rPWR_E_PART + 8 * k)).toNat
  else if i = 0x2200 then s.fld rPWR_STATUS 16 8
  else if i = 0x2201 then (s.reg (rPWR_THR_US + 16 * k)).toNat
  else if i = 0x2202 then (s.reg (rPWR_THR_EV + 16 * k)).toNat
  else if i = 0x3001 then
    (if sub = 1 then s.fld rCLT_TEMP_IN 0 16 else if sub = 2 then s.fld rCLT_TEMP_IN 16 16 else if sub = 3 then s.fld rCLT_TEMP_OUT 0 16
     else if sub = 4 then s.fld rCLT_TEMP_OUT 16 16 else if sub = 5 then s.fld rCLT_PRESS 0 16 else if sub = 6 then s.fld rCLT_PRESS 16 16
     else if sub = 7 then s.fld rCLT_FLOW 0 16 else if sub = 8 then s.bridge else if sub = 9 then s.fld rCLT_VALVE 0 10
     else if sub = 10 then s.fld rCLT_VALVE 16 10 else if sub = 11 then s.fld rCLT_CAP 16 4 else if sub = 12 then s.fld rCLT_CAP 0 16
     else s.fld rCLT_STATUS 9 1)
  else
    let d := i - 0x3100
    let x := s.domAt d
    if sub = 1 then x.st else if sub = 2 then domKind d else if sub = 3 then domGroup d else if sub = 4 then softUs d
    else if sub = 5 then x.cur else x.fault
/-- Value of the objects from 0x4000 on. -/
def State.objNum3 (s : State) (i sub : Nat) : Nat :=
  if i = 0x4000 then
    (if sub = 1 then s.health else if sub = 2 then s.bist.eolH else if sub = 3 then s.bist.eolC else if sub = 4 then s.odVal 8760 i 4
     else if sub = 5 then s.odVal 720 i 5 else if sub = 6 then s.bist.hours.getD (Config.fused 5 1 % 2 ^ 32)
     else if sub = 7 then s.bist.therm.getD (Config.fused 5 2 % 2 ^ 32) else s.bist.valve.getD (Config.fused 5 3 % 2 ^ 32))
  else if i = 0x4001 then (s.bsite (sub - 1)).eol
  else if i = 0x4002 then (s.pwr1 (sub - 1)).age
  else if i = 0x4100 then
    (if sub = 1 then s.jrnl.seq.toNat else if sub = 2 then s.jrnl.held.length else if sub = 3 then b2n s.jrnl.lost else s.notifyClass)
  else if i = 0x4101 then s.odVal 0 i 0
  else if 0x5000 ≤ i ∧ i < 0x5010 then
    let n := i - 0x5000
    let p := s.part n
    (if sub = 1 then pstateCode p.st else if sub = 2 then p.g.sites else if sub = 3 then p.g.ports else if sub = 4 then p.g.nsq
     else if sub = 5 then p.stroke.toNat else if sub = 6 then s.fld (rSTRK_PSLIP + 4 * n) 0 32 else if sub = 7 then s.pbucket n
     else if sub = 8 then b2n (s.held n) else p.lateStrokes % 2 ^ 32)
  else if 0x5100 ≤ i ∧ i < 0x5110 then
    let n := i - 0x5100
    let x := s.stat n
    (if sub = 1 then s.countStreams n [.active] else if sub = 2 then s.countStreams n [.parked]
     else if sub = 3 then s.countStreams n [.resident, .active] else if sub = 4 then (s.ppwr n).tok else if sub = 5 then x.prompt
     else if sub = 6 then x.wheld else if sub = 7 then x.ended else if sub = 8 then x.defer else if sub = 9 then x.mse
     else if sub = 10 then s.sumSites n rRQ_CNT_CLIPTRIG else if sub = 11 then s.sumSites n rRQ_CNT_UNDER
     else if sub = 12 then s.sumSites n rRQ_CNT_FB else s.sumSites n rRQ_CNT_FBDENY)
  else if i = 0x6000 then
    (if sub = 2 then s.fld rPAIR_STATUS 0 2 else if sub = 3 then s.fld rPAIR_EPOCH 0 32 else if sub = 4 then (s.reg rPAIR_PARTNER).toNat
     else if sub = 5 then 8 else if sub = 6 then s.fld rPAIR_STATUS 4 4 else if sub = 7 then (s.reg rPAIR_CNT_MISMATCH).toNat
     else s.fld rPAIR_CNT_TAKEOVER 0 32)
  else if sub = 8 then (s.reg rBIST_CNT_GROUP).toNat else s.fld rBIST_CNT_FAIL 0 32

/-- Table and row of the setting that an object mirrors. -/
def rowOfKey (k : Nat) : Option (Nat × Nat) :=
  ((List.range 6).flatMap (fun t => (List.range (setRows t).length).map (fun i => (t, i)))).find? (fun x =>
    match (setRows x.1)[x.2]? with | some r => r.key == k && r.key != 0 | none => false)

/-- The value of an object as bytes, most significant first. -/
def State.objBytes (s : State) (i sub ty : Nat) : List Nat :=
  if i = 0x1000 ∧ sub = 1 then [65, 77, 86, 45, 75, 89, 50, 45, 65]
  else if i = 0x1100 ∧ sub = 10 then s.wgl.gcl.flatMap (bigBytes 4)
  else if i = 0x1F80 ∧ 16 ≤ sub then bigBytes 24 (((s.wgl.clamps.entries[sub - 16]?).map clampBytes).getD 0)
  else if i = 0x4102 then s.window.flatMap (fun e => e.words.flatMap (bigBytes 4))
  else if i = 0x7001 then (List.range 8).flatMap (fun k => bigBytes 4 (s.fld (rBIST_RESULT + 4 * k) 0 32))
  else if sub = 0 ∧ i ≠ 0x4101 then [(objHigh i).getD 0]
  else
    match rowOfKey (i * 256 + sub) with
    | some (t, r) => bigBytes (tySize ty) ((((setRows t)[r]?).map s.setting).getD 0)
    | none => bigBytes (tySize ty) (if i < 0x2000 then s.objNum1 i sub else if i < 0x4000 then s.objNum2 i sub else s.objNum3 i sub)

/-- One answer item (Table 13.5): the value is padded to a multiple of four bytes. -/
def answerItem (i sub status ty : Nat) (v : List Nat) : List Nat :=
  bigBytes 2 i ++ [sub, status, ty, 0] ++ bigBytes 2 v.length ++ v ++ List.replicate ((4 - v.length % 4) % 4) 0

/-- Read one object: status, type code and value; a read of 0x4102 advances WINDOW_START. -/
def State.readObj (s : State) (i sub : Nat) : (Nat × Nat × List Nat) × State :=
  match objInfo i sub with
  | none => ((if (objHigh i).isSome then 3 else 2, 0, []), s)
  | some (ty, acc) =>
    if acc = 2 then ((5, 0, []), s)
    else ((0, ty, s.objBytes i sub ty),
      if i = 0x4102 then s.setOd 0 0x4101 0 ((s.winStart + s.window.length) % 2 ^ 32) else s)
/-- The answer to read items (R351); items that would exceed 1,488 bytes are answered with LENGTH. -/
def State.readItems (s : State) : List Nat → List Nat → List Nat × State
  | [], out => (out, s)
  | k :: t, out =>
    let r := s.readObj (k / 256) (k % 256)
    let a := answerItem (k / 256) (k % 256) r.1.1 r.1.2.1 r.1.2.2
    if 1488 < out.length + a.length + 8 * t.length then State.readItems s t (out ++ answerItem (k / 256) (k % 256) 8 0 [])
    else State.readItems r.2 t (out ++ a)

/-! ### Writing (R352) -/

/-- One item of a WRITE. -/
structure WItem where
  i   : Nat
  sub : Nat
  ty  : Nat
  v   : List Nat
  deriving DecidableEq, Repr

/-- Gate control entries of a DOMAIN value. -/
def gclEntries : List Nat → List Nat
  | a :: b :: c :: d :: t => bigNat [a, b, c, d] :: gclEntries t
  | _ => []
/-- The entries fitted to a cycle of `cyc` ns. -/
def gclCut (cyc : Nat) : Nat → List Nat → List Nat
  | _, [] => []
  | at', e :: t =>
    let iv := bits e 0 24
    if cyc ≤ at' then []
    else if cyc ≤ at' + iv then [e / 2 ^ 24 * 2 ^ 24 + (cyc - at')]
    else if t.isEmpty then [e / 2 ^ 24 * 2 ^ 24 + min (2 ^ 24 - 1) (cyc - at')]
    else e :: gclCut cyc (at' + iv) t
/-- A gate list clamped to a cycle of `cyc` ns (R346), with its clamps: reserved bits, an interval of 0, and the fit to the cycle
of each entry in turn (requested word, applied word, reason; an entry dropped reads 0). Log entry 138. -/
def gclClamp (cyc : Nat) (l : List Nat) : List Nat × List (Nat × Nat × Nat) :=
  let clean (e : Nat) : Nat := bits e 29 3 * 2 ^ 29 + bits e 0 24
  let long (e : Nat) : Nat := if bits e 0 24 = 0 then e + 1 else e
  let out := gclCut cyc 0 (l.map (fun e => long (clean e)))
  let one (a b why : Nat) : List (Nat × Nat × Nat) := if a = b then [] else [(a, b, why)]
  (out, (List.range l.length).flatMap (fun i =>
    let e := l.getD i 0
    one e (clean e) 4 ++ one (clean e) (long (clean e)) 1 ++ one (long (clean e)) (out.getD i 0) 6))

/-- Clamp of a link parameter (Table 13.12): applied value and reason. -/
def linkClamp (sub x : Nat) : Nat × Nat :=
  let near lo hi := if x < lo then (lo, 1) else if hi < x then (hi, 2) else (x, 0)
  if sub = 1 then (if x < 0x600 ∨ [0x800, 0x806, 0x86DD, 0x8100, 0x88A8, 0x88F7].contains x then (0x88B5, 5) else (x, 0))
  else if sub = 2 then near 1 254
  else if sub = 3 then (if 1 < x then (0, 5) else (x, 0))
  else if sub = 4 then
    (let y := (x % 2 ^ 48) ||| 3 * 2 ^ 40; (y, if y = x then 0 else if x / 2 ^ 48 ≠ 0 then 4 else 5))
  else if sub = 5 then
    (let y := clrBit (x % 2 ^ 48) 40; (y, if y = x then 0 else if x / 2 ^ 48 ≠ 0 then 4 else 5))
  else if sub = 6 then near 0 4094
  else if sub = 7 ∨ sub = 8 then near 0 7
  else if sub = 9 then
    (let y := clampI (-7) (-3) (signed 16 x); (unsigned 16 y, if y = signed 16 x then 0 else if signed 16 x < y then 1 else 2))
  else if sub = 11 then near 1 16
  else if 1 ≤ x ∧ x ≤ 99 then (100, 1) else (x, 0)

/-- What has become of a WRITE: answers by item number (status, type, value), clamps, and what waits for the answer. -/
structure WOut where
  st   : State
  ans  : List (Nat × Nat × Nat × List Nat)
  es   : List ClampEntry
  link : List (Nat × Nat)
  gcl  : Option (List Nat)
  lock : Bool

/-- Does an object mirror an RWL field (R364)? -/
def mirrorsRwl (i sub : Nat) : Bool :=
  match rowOfKey (i * 256 + sub) with
  | some (t, r) => (((setRows t)[r]?).map (fun x => x.reg != 0)).getD false
  | none => false
/-- Status of an item that is refused, 0 when it is taken. -/
def State.itemBad (s : State) (mailbox : Bool) (x : WItem) : Nat :=
  match objInfo x.i x.sub with
  | none => if (objHigh x.i).isSome then 3 else 2
  | some (ty, acc) =>
    if acc = 0 then 4
    else if x.ty ≠ ty then 7
    else if (if ty = 10 then x.v.length % 4 != 0 || decide (64 < x.v.length) else x.v.length != tySize ty) then 8
    else if mailbox && s.locked && mirrorsRwl x.i x.sub then 12
    else if acc = 3 ∧ !s.allIdle then 6
    else 0
/-- The table that an item belongs to: 1-5 the setting tables, 6 link, 7 health, 8 and 9 journal, 10 the valve command. -/
def itemTable (x : WItem) : Nat :=
  match rowOfKey (x.i * 256 + x.sub) with
  | some (t, _) => t
  | none => if x.i = 0x1100 then 6 else if x.i = 0x4000 then 7 else if x.i = 0x4100 then 8 else if x.i = 0x4101 then 9 else 10
/-- The value an item asks for. A BOOL above 1 is clamped to 1 with reason 5 (DEDUCED, log entry 159). -/
def itemVal (x : WItem) : Nat := bigNat x.v

/-- Items of one setting table, in its row order. -/
def State.writeTable (s : State) (t : Nat) (l : List (Nat × WItem)) : State × List (Nat × Nat × Nat × List Nat) × List ClampEntry :=
  let req := l.filterMap (fun x => (rowOfKey (x.2.i * 256 + x.2.sub)).map (fun r => (r.2, itemVal x.2)))
  let o := s.writeRows t req (objId t)
  let m := if t = 5 then o.st.mirrorIngest (objId 1) else ⟨o.st, [], []⟩
  (m.st, l.map (fun x =>
      let r := ((rowOfKey (x.2.i * 256 + x.2.sub)).map Prod.snd).getD 0
      (x.1, if o.es.any (fun e => e.id == x.2.i * 256 + x.2.sub) then 1 else 0, x.2.ty, bigBytes (tySize x.2.ty) (o.vals.getD r 0))),
    o.es ++ m.es)

/-- The nearest entry number to `v` among the `n` entries held before number `cnt`, and the clamp reason. -/
def journalFrom (n cnt v : Nat) : Nat × Nat :=
  let old := (cnt + 2 ^ 32 - n) % 2 ^ 32
  if (v + 2 ^ 32 - old) % 2 ^ 32 ≤ n then (v, 0)
  else if (old + 2 ^ 32 - v) % 2 ^ 32 ≤ (v + 2 ^ 32 - cnt) % 2 ^ 32 then (old, 1) else (cnt, 2)
/-- One item of a table that is checked by itself. -/
def State.writeOne (s : State) (o : WOut) (k : Nat) (x : WItem) : WOut :=
  let v := itemVal x
  let id := x.i * 256 + x.sub
  let fin (st : State) (y why : Nat) : WOut :=
    { o with st := st, ans := o.ans ++ [(k, b2n (why != 0), x.ty, bigBytes (tySize x.ty) y)],
             es := if why = 0 then o.es else o.es ++ [⟨id, v, y, why⟩] }
  if x.i = 0x1100 ∧ x.sub = 10 then
    let div := (o.link.reverse.find? (fun e => e.1 == 11)).map Prod.snd |>.getD (s.link 11)
    let g := gclClamp (bits (s.wreg rSTRK_PERIOD).toNat 0 12 * 1000 / max 1 div) (gclEntries x.v)
    { o with gcl := some g.1, ans := o.ans ++ [(k, b2n (!g.2.isEmpty), 10, g.1.flatMap (bigBytes 4))],
             es := o.es ++ g.2.map (fun c => ⟨id, c.1, c.2.1, c.2.2⟩) }
  else if x.i = 0x1100 then
    let c := linkClamp x.sub v
    { fin s c.1 c.2 with link := o.link ++ [(x.sub, c.1)] }
  else if x.i = 0x4000 then
    let hi := if x.sub = 4 then 100000 else s.odVal 8760 0x4000 4
    let y := min hi v
    let s1 := s.setOd (if x.sub = 4 then 8760 else 720) 0x4000 x.sub y
    let crit := s1.odVal 720 0x4000 5
    -- EOL_CRIT_H follows EOL_WARN_H down, which is a clamp of its own (DESIGN CHOICE, log entry 139)
    if x.sub = 4 ∧ y < crit then
      let o := fin (s1.setOd 720 0x4000 5 y) y (if y = v then 0 else 2)
      { o with es := o.es ++ [⟨0x400005, crit, y, 6⟩] }
    else fin s1 y (if y = v then 0 else 2)
  else if x.i = 0x4100 then fin (s.setOd 3 0x4100 4 (min 4 v)) (min 4 v) (if v ≤ 4 then 0 else 2)
  else if x.i = 0x4101 then
    let c := journalFrom s.jrnl.held.length s.jrnl.seq.toNat v
    fin (s.setOd 0 0x4101 0 c.1) c.1 c.2
  else fin (if v ≠ 0 ∧ s.bridge = 3 then s.setBridge 0 else s) (min 1 v) (if v ≤ 1 then 0 else 5)

/-- Row order of the link parameters and the health settings is their sub-index. -/
def itemInsert (x : Nat × WItem) : List (Nat × WItem) → List (Nat × WItem)
  | [] => [x]
  | y :: t => if y.2.sub ≤ x.2.sub then y :: itemInsert x t else x :: y :: t

/-- A write that leaves LOOP_EN clear turns the bridge off at once (R324). -/
def State.loopFollows (s : State) : State := if bit (s.wreg rCLT_CTL).toNat 0 then s else s.loopOff

/-- Apply the items of one WRITE (R352), tables in the order in which they first appear. -/
def State.writeItems (s : State) (mailbox : Bool) (items : List WItem) : WOut :=
  let all := (List.range items.length).zip items
  let bad := all.filterMap (fun x => let b := s.itemBad mailbox x.2; if b = 0 then none else some (x.1, b, 0, ([] : List Nat)))
  let good := all.filter (fun x => s.itemBad mailbox x.2 == 0)
  let tabs := (good.map (fun x => itemTable x.2)).eraseDups
  tabs.foldl (fun (o : WOut) t =>
    let l := good.filter (fun x => itemTable x.2 == t)
    if t ≤ 5 then
      let r := o.st.writeTable t l
      { o with st := if t = 3 then r.1.loopFollows else r.1, ans := o.ans ++ r.2.1, es := o.es ++ r.2.2 }
    else
      (l.foldl (fun a x => itemInsert x a) []).foldl (fun (o : WOut) x => o.st.writeOne o x.1 x.2) o)
    ⟨s, bad, [], [], none, bad.any (fun x => x.2.1 == 12)⟩

/-- The answer payload of a WRITE: the answer items in request order. -/
def writeAnswer (items : List WItem) (ans : List (Nat × Nat × Nat × List Nat)) : List Nat :=
  [items.length, 0, 0, 0] ++ ((List.range items.length).zip items).flatMap (fun x =>
    match ans.find? (fun a => a.1 == x.1) with
    | some a => answerItem x.2.i x.2.sub a.2.1 a.2.2.1 a.2.2.2
    | none => answerItem x.2.i x.2.sub 0 0 [])

/-- Link parameters come into force; a gate list waits for the next tick edge (R346, R352). -/
def State.applyLink (s : State) (l : List (Nat × Nat)) (g : Option (List Nat)) : State :=
  let s := l.foldl (fun (s : State) x => s.setOd (linkDflt x.1) 0x1100 x.1 x.2) s
  let s := (s.setFld rGLB_WGL_STAT 24 8 (s.link 2)).setFld rGLB_WGL_STAT 5 1 (s.link 3)
  match g with | some x => { s with wgl := { s.wgl with gclNext := some x } } | none => s

end Sys2Proof.Machine
end

