-- ==== Sys2Proof/Machine/Waggle.lean ====
section
/-! DEFINITION. The waggle link and the mailbox: frames, answers, grants, periodic frames, time synchronisation
(R341-R348, R351-R359, R364). -/

namespace Sys2Proof.Machine

/-! ### Frames -/

/-- State of a port: 0 down, 1 up, 2 held (R341). -/
def State.wglPort (s : State) (port : Nat) : Nat := s.fld rGLB_WGL_STAT (2 * port) 2
/-- Hub of a port (R341). -/
def wglHub (port : Nat) : Nat := if port = 0 then hubSite 0 else hubSite 3
/-- A WGL fault: it carries the tick number (R366). -/
def State.wglFault (s : State) (code site d0 d1 : Nat) : State := s.tickFault code 16 site d0 d1
/-- The same, journalled once per tick. -/
def State.wglOnce (s : State) (code site d0 d1 : Nat) : State :=
  if s.marked code 16 0 then s else (s.mark code 16 0).wglFault code site d0 d1

/-- Waggle header (Table 13.2). -/
def State.wglHeader (s : State) (msg resp clamped seq dst len : Nat) : List Nat :=
  [16 + msg % 16, resp * 128 + clamped * 64] ++ bigBytes 2 seq ++ [dst, s.link 2] ++ bigBytes 2 len ++
    bigBytes 4 (s.tick.number.toNat % 2 ^ 32)
/-- A frame of the panel's own from its tag on, padded to the Ethernet minimum, sent on a port that is up (R346, R347). -/
def State.wglSend (s : State) (port mac pcp msg resp clamped seq dst : Nat) (pay : List Nat) : State :=
  if s.wglPort port ≠ 1 then s
  else
    let b := bigBytes 2 0x8100 ++ bigBytes 2 (pcp % 8 * 2 ^ 13 + s.link 6) ++ bigBytes 2 (s.link 1) ++
      s.wglHeader msg resp clamped seq dst pay.length ++ pay
    (s.emit (.waggle port msg mac (b ++ List.replicate (48 - b.length) 0))).bump rGLB_WGL_CNT_TX
/-- A frame of the panel's own to the group MAC on both ports, with the module's own SEQ (R343). -/
def State.wglGroup (s : State) (msg : Nat) (pay : List Nat) : State :=
  let q := s.wgl.hseq
  let s := { s with wgl := { s.wgl with hseq := (q + 1) % 2 ^ 16 } }
  let s := s.wglSend 0 (s.link 4) (s.link 8) msg 0 0 q 0 pay
  s.wglSend 1 (s.link 4) (s.link 8) msg 0 0 q 0 pay

/-- Fields of the header of a received frame. -/
structure WglHdr where
  msg  : Nat
  seq  : Nat
  dst  : Nat
  node : Nat
  pay  : List Nat

def frameHdr (b : List Nat) : WglHdr :=
  ⟨b.getD 0 0 % 16, bigNat [b.getD 2 0, b.getD 3 0], b.getD 4 0, b.getD 5 0, b.drop 12⟩

/-- Read items: reason of R348 (9 none) and INDEX × 256 + SUB of each. -/
def readKeys : Nat → List Nat → Nat × List Nat
  | 0, [] => (9, [])
  | 0, _ => (4, [])
  | n + 1, a :: b :: c :: d :: t =>
    let r := readKeys n t
    if d ≠ 0 then (3, []) else (r.1, bigNat [a, b, c] :: r.2)
  | _ + 1, _ => (4, [])
/-- Write items. -/
def writeItemsOf : Nat → List Nat → Nat × List WItem
  | 0, [] => (9, [])
  | 0, _ => (4, [])
  | n + 1, a :: b :: c :: ty :: l :: m :: x :: y :: t =>
    let len := l * 256 + m
    let pad := (4 - len % 4) % 4
    let r := writeItemsOf n (t.drop (len + pad))
    if t.length < len + pad then (4, [])
    else if x ≠ 0 ∨ y ≠ 0 ∨ ((t.drop len).take pad).any (fun z => z != 0) then (3, [])
    else (r.1, ⟨a * 256 + b, c, ty, t.take len⟩ :: r.2)
  | _ + 1, _ => (4, [])
/-- GRANT entries: node and watts. -/
def grantEntries : Nat → List Nat → Nat × List (Nat × Nat)
  | 0, [] => (9, [])
  | 0, _ => (4, [])
  | n + 1, a :: b :: c :: d :: t =>
    let r := grantEntries n t
    if b ≠ 0 then (3, []) else (r.1, (a, c * 256 + d) :: r.2)
  | _ + 1, _ => (4, [])

/-- Largest count of items of a message (R351, R353). -/
def maxItems (msg : Nat) : Nat := if msg = 1 then 1 else if msg = 2 then 16 else 32
/-- Reason for which a payload is discarded, 9 none. -/
def payloadBad (h : WglHdr) : Nat :=
  if h.msg = 4 then (if h.pay.length = 52 then 9 else 4)
  else if h.msg = 6 then (if h.pay.isEmpty ∨ (h.pay.length = 24 ∧ h.dst = 0) then 9 else 4)
  else if h.pay.length < 4 then 4
  else if (h.pay.drop 1).take 3 ≠ [0, 0, 0] then 3
  else
    let n := h.pay.headD 0
    if n = 0 ∨ maxItems h.msg < n then 5
    else if h.msg = 2 then (writeItemsOf n (h.pay.drop 4)).1
    else if h.msg = 5 then (grantEntries n (h.pay.drop 4)).1
    else (readKeys n (h.pay.drop 4)).1
/-- Reason for which a frame is discarded (R348), 9 none. -/
def frameBad (b : List Nat) : Nat :=
  if b.length < 12 then 4
  else if b.getD 0 0 / 16 ≠ 1 then 0
  else if b.getD 0 0 % 16 = 0 ∨ 6 < b.getD 0 0 % 16 then 1
  else if 128 ≤ b.getD 1 0 then 2
  else if b.getD 1 0 % 64 ≠ 0 then 3
  else if bigNat [b.getD 6 0, b.getD 7 0] ≠ b.length - 12 ∨ 1488 < b.length - 12 then 4
  else payloadBad (frameHdr b)

/-- Is the frame a later copy of a request in a ring (R343)? -/
def State.ringCopy (s : State) (mac : Nat) (h : WglHdr) (t : Nat) : Bool :=
  s.link 3 == 1 && s.wgl.seen.any (fun r => r.mac == mac && r.msg == h.msg && r.seq == h.seq && decide (t ≤ r.time + 2000000))

/-- Class of a read item: 0 fast, 1 standard, 2 bulk (Table 13.8). -/
def keyClass (k : Nat) : Nat :=
  let i := k / 256
  let sub := k % 256
  if i = 0x4102 ∨ i = 0x7001 then 2
  else if i = 0x1000 ∨ i = 0x2100 ∨ i = 0x3001 ∨ (i = 0x1800 ∧ 0x10 ≤ sub ∧ sub ≤ 0x14) ∨ (i = 0x2000 ∧ 0x10 ≤ sub ∧ sub ≤ 0x16) ∨
    k = 0x220001 ∨ k = 0x400001 then 0
  else 1
/-- Class of the slowest item. -/
def keysClass (l : List Nat) : Nat := (l.map keyClass).foldl max 0

/-- A frame consumed by a port: discarded, ignored, or handed to `f` as a request of message `msg`. -/
def State.wglRx (s : State) (msg : Nat) (fr : WglFrame) (t : Nat) (f : State → WglHdr → State) : State :=
  let s : State := s.at t
  let b := fr.bytes.map BitVec.toNat
  let h := frameHdr b
  if s.wglPort fr.port ≠ 1 ∨ 1 < fr.port then s
  else
    let bad := frameBad b
    if bad ≠ 9 then
      ((((s.bump rGLB_WGL_CNT_RX).bump rGLB_WGL_CNT_INVALID).sticky rGLB_WGL_STAT 13).wglOnce 0x0382 (wglHub fr.port) (bad + fr.port * 16)
        (fr.mac % 2 ^ 32))
    else if h.msg ≠ msg then s
    else
      let s := s.bump rGLB_WGL_CNT_RX
      if (h.dst ≠ s.link 2 ∧ h.dst ≠ 255) ∨ s.ringCopy fr.mac h t then s
      else
        let r : WglReq := ⟨fr.mac, fr.port, msg, h.seq, h.node, t, none, false, [], [], none⟩
        let old := s.wgl.seen.filter (fun x => decide (t ≤ x.time + 2000000))
        f { s with wgl := { s.wgl with seen := r :: old } } h

/-! ### Answers (R356-R358) -/

/-- A fast answer, where it can leave by its deadline. -/
def State.fastAnswer (s : State) (fr : WglFrame) (h : WglHdr) (leaves : Bool) (pay : List Nat) : State :=
  if leaves then s.wglSend fr.port fr.mac (s.link 7) h.msg 1 0 h.seq h.node pay else s
/-- Hand a request to firmware; the thirty-third is answered BUSY (R357). -/
def State.toFirmware (s : State) (fr : WglFrame) (h : WglHdr) (leaves : Bool) (keys : List Nat) (r : WglReq) : State :=
  if 32 ≤ s.wgl.queue.length then
    s.fastAnswer fr h leaves ([keys.length, 0, 0, 0] ++ keys.flatMap (fun k => answerItem (k / 256) (k % 256) 10 0 []))
  else { s with wgl := { s.wgl with queue := s.wgl.queue ++ [r] } }

/-- A READ or READ_MULTI. -/
def State.readRequest (s : State) (fr : WglFrame) (leaves : Bool) (t : Nat) (h : WglHdr) : State :=
  let keys := (readKeys (h.pay.headD 0) (h.pay.drop 4)).2
  if keysClass keys = 0 then
    let r := s.readItems keys [keys.length, 0, 0, 0]
    r.2.fastAnswer fr h leaves r.1
  else s.toFirmware fr h leaves keys ⟨fr.mac, fr.port, h.msg, h.seq, h.node, t, some keys, false, [], [], none⟩

def execWglRead (fr : WglFrame) (leaves : Bool) (t : Nat) (s : State) : Res :=
  .next (s.wglRx 1 fr t (fun (s : State) h => s.readRequest fr leaves t h))
def execWglReadMulti (fr : WglFrame) (leaves : Bool) (t : Nat) (s : State) : Res :=
  .next (s.wglRx 3 fr t (fun (s : State) h => s.readRequest fr leaves t h))

/-- The answer to a HEARTBEAT request (R354). -/
def execWglHeartbeat (fr : WglFrame) (leaves : Bool) (t : Nat) (s : State) : Res :=
  .next (s.wglRx 6 fr t (fun (s : State) h => s.fastAnswer fr h leaves s.summary))

/-- A write or a grant from another station than the manager (R353, R359). -/
def State.denied (s : State) (fr : WglFrame) (h : WglHdr) : State :=
  (s.bump rGLB_WGL_CNT_DENIED).wglOnce 0x0383 (wglHub fr.port) (h.msg + fr.port * 16 + h.seq * 2 ^ 16) (fr.mac % 2 ^ 32)
/-- Keep the answer to a WRITE: the last 16 of its source. -/
def State.keepAnswer (s : State) (r : WglReq) : State :=
  let own := (s.wgl.kept.filter (fun x => x.mac == r.mac)).length
  let old := if own < 16 then s.wgl.kept
    else match s.wgl.kept.find? (fun x => x.mac == r.mac) with | some x => s.wgl.kept.erase x | none => s.wgl.kept
  { s with wgl := { s.wgl with kept := old ++ [r] } }

/-- A WRITE (R352, R358, R359): its effect happens when it arrives, its answer is firmware's. -/
def State.writeRequest (s : State) (fr : WglFrame) (leaves : Bool) (t : Nat) (h : WglHdr) : State :=
  let items := (writeItemsOf (h.pay.headD 0) (h.pay.drop 4)).2
  let keys := items.map (fun x => x.i * 256 + x.sub)
  match s.wgl.kept.find? (fun x => x.mac == fr.mac && x.seq == h.seq && decide (t ≤ x.time + 1000000000)) with
  | some k => s.toFirmware fr h leaves keys { k with port := fr.port, node := h.node, time := t, link := [], gcl := none }
  | none =>
    let req (o : WOut) (body : List Nat) : WglReq :=
      ⟨fr.mac, fr.port, h.msg, h.seq, h.node, t, none, !o.es.isEmpty, body, o.link, o.gcl⟩
    if 32 ≤ s.wgl.queue.length then s.toFirmware fr h leaves keys (req ⟨s, [], [], [], none, false⟩ [])
    else if s.link 5 ≠ 0 ∧ s.link 5 ≠ fr.mac then
      let r := req ⟨s, [], [], [], none, false⟩
        ([items.length, 0, 0, 0] ++ keys.flatMap (fun k => answerItem (k / 256) (k % 256) 9 0 []))
      ((s.denied fr h).keepAnswer r).toFirmware fr h leaves keys r
    else
      let o := s.writeItems false items
      let r := req o (writeAnswer items o.ans)
      ((o.st.clamped (fr.port + 1) o.es).keepAnswer r).toFirmware fr h leaves keys r

def execWglWrite (fr : WglFrame) (leaves : Bool) (t : Nat) (s : State) : Res :=
  .next (s.wglRx 2 fr t (fun (s : State) h => s.writeRequest fr leaves t h))

/-- The tick number at which a grant that arrives now is latched. -/
def State.latchTick (s : State) : Nat := if s.tick.started then s.tick.number.toNat + 1 else 0
/-- A GRANT (R303, R353, R359). -/
def State.grantRequest (s : State) (fr : WglFrame) (leaves : Bool) (h : WglHdr) : State :=
  let es := (grantEntries (h.pay.headD 0) (h.pay.drop 4)).2
  if s.link 5 ≠ 0 ∧ s.link 5 ≠ fr.mac then s.denied fr h
  else
    match es.find? (fun e => e.1 == s.link 2) with
    | none => s
    | some e =>
      let s := if s.link 5 = 0 then s.setOd 0 0x1100 5 fr.mac else s
      let c := clampE 0x00200010 1200 18000 e.2
      let s := (s.clamped 7 c.2).bump rGLB_WGL_CNT_GRANT
      let s := { s with pwr := { s.pwr with grant := some c.1 } }
      s.fastAnswer fr h leaves ([b2n (!c.2.isEmpty), 0] ++ bigBytes 2 c.1 ++ bigBytes 4 (s.latchTick % 2 ^ 32))

def execWglGrant (fr : WglFrame) (leaves : Bool) (t : Nat) (s : State) : Res :=
  .next (s.wglRx 5 fr t (fun (s : State) h => s.grantRequest fr leaves h))

/-- A fast answer or acknowledgement that could not leave by its deadline (R357); the entry is made at the tick edge, with
the number of such answers in the tick. -/
def execWglAnswerLate (msg port seq t : Nat) (s : State) : Res :=
  .next (let s : State := s.at t
    let w := s.wgl
    ((({ s with wgl := { w with lateCnt := w.lateCnt + 1,
                                lateD0 := if w.lateCnt = 0 then msg % 16 + port % 2 * 16 + seq % 2 ^ 16 * 2 ^ 16 else w.lateD0 } }
        : State).bump rGLB_WGL_CNT_LATE).sticky rGLB_WGL_STAT 14))

/-- Firmware completes the oldest request and its answer is sent; `late`: after its deadline. -/
def execStandardAnswer (late : Bool) (t : Nat) (s : State) : Res :=
  .next (match s.wgl.queue with
    | [] => s
    | r :: rest =>
      let s : State := { (s.at t) with wgl := { s.wgl with queue := rest } }
      let q := match r.keys with
        | some k => s.readItems k [k.length, 0, 0, 0]
        | none => (r.body, s)
      let s := q.2.wglSend r.port r.mac (q.2.link 8) r.msg 1 (b2n r.clamped) r.seq r.node q.1
      let s := if late then s.bump rGLB_WGL_CNT_SLOW else s
      s.applyLink r.link r.gcl)

/-! ### Forwarding and the panel's own frames -/

/-- Is a frame, from its tag or EtherType on, a waggle frame that is a later copy of a request already received (R343)? Such a
copy is forwarded also where it is sent to the module alone (DEDUCED, log entry 158). -/
def State.laterCopy (s : State) (src : Nat) (body : List Nat) (t : Nat) : Bool :=
  let b := if bigNat (body.take 2) = 0x8100 then body.drop 4 else body
  let h := frameHdr (b.drop 2)
  s.link 3 == 1 && bigNat (b.take 2) == s.link 1 &&
    s.wgl.seen.any (fun r => r.mac == src && r.msg == h.msg && r.seq == h.seq && decide (r.time < t) && decide (t ≤ r.time + 2000000))
/-- A frame received on `port` from `src` for `dst`: forwarded unless it is consumed alone, damaged or of the time-sync function
(R342, R343). -/
def execWglForward (port src dst : Nat) (body : List (BitVec 8)) (fcsOk gptp : Bool) (t : Nat) (s : State) : Res :=
  .next (if !fcsOk || gptp || (dst == moduleMac && !s.laterCopy src (body.map BitVec.toNat) t) || decide (1 < port) ||
      s.wglPort port != 1 || s.wglPort (1 - port) != 1 then s
    else ((s.at t).emit (.waggle (1 - port) 0 dst (body.map BitVec.toNat))).bump rGLB_WGL_CNT_FWD)

/-- The periodic HEARTBEAT: once for a tick number that is a multiple of HB_TICKS, within INGEST of its edge (R354). -/
def execHeartbeatSend (t : Nat) (s : State) : Res :=
  .next (let n := s.link 12
    if n = 0 ∨ !s.tick.started ∨ s.tick.number.toNat % n ≠ 0 ∨ s.tick.last + s.ingestNs < t ∨ s.marked 0 16 0 then s
    else ((s.at t).mark 0 16 0).wglGroup 6 s.summary)

/-- The oldest NOTIFY is sent (R355). -/
def execNotifySend (s : State) : Res :=
  .next (match s.wgl.notes with
    | [] => s
    | n :: rest =>
      if s.wglPort 0 ≠ 1 ∧ s.wglPort 1 ≠ 1 then s
      else
        let s : State := { s with wgl := { s.wgl with notes := rest } }
        (s.wglGroup 4 (bigBytes 4 (n.nseq % 2 ^ 32) ++ [n.kind, 0] ++ bigBytes 2 n.index ++ [n.sub, 0, 0, 0] ++ bigBytes 8 n.time ++
          bigBytes 32 n.data)).bump rGLB_WGL_CNT_NOTIFY)

/-- A port goes down (0), up (1) or held (2). -/
def execWglPortChange (port st : Nat) (s : State) : Res :=
  .next (if 1 < port ∨ 2 < st ∨ s.wglPort port = st ∨ bit s.boot.hubLost (3 * port) then s
    else (s.setFld rGLB_WGL_STAT (2 * port) 2 st).wglFault 0x0385 (wglHub port) (port + st * 2) 0)

/-! ### Time synchronisation (R344, R345) -/

/-- The synchronised state changes; the manager is notified. -/
def State.gptpState (s : State) (b : Bool) : State :=
  (s.setFld rGLB_WGL_STAT 4 1 (b2n b)).notify 5 0x1800 0x13 (b2n b * 2 ^ 248)
/-- Loss of synchronisation, with its reason: 0 no Sync, 1 offset, 2 port down. -/
def State.timeLost (s : State) (reason : Nat) : State :=
  if !s.flag rGLB_WGL_STAT 4 then s
  else
    let s : State := { s with wgl := { s.wgl with gpGood := 0 } }
    ((s.sticky rGLB_WGL_STAT 12).wglFault 0x1384 (hubSite 0) reason (unsigned 32 s.wgl.gpOfs)).gptpState false

/-- A Sync with the corrected offset in ns; `capable`: the slave port is asCapable. -/
def execGptpSync (ofs : Int) (capable : Bool) (t : Nat) (s : State) : Res :=
  .next (let s : State := s.at t
    let good := if capable ∧ -200 ≤ ofs ∧ ofs ≤ 200 then min 8 (s.wgl.gpGood + 1) else 0
    let s : State := { s with wgl := { s.wgl with gpOfs := ofs, gpGood := good, gpLast := t } }
    if s.flag rGLB_WGL_STAT 4 then (if ofs < -1000 ∨ 1000 < ofs then s.timeLost 1 else s)
    else if good = 8 then s.gptpState true
    else s)

/-- Three Sync intervals without a Sync (0), or the slave port down (2); an offset (1) is judged with its Sync. -/
def execWglTimeLost (reason t : Nat) (s : State) : Res :=
  .next (let s : State := s.at t
    let iv := 10 ^ 9 / 2 ^ (-(signed 16 (s.link 9))).toNat
    if reason = 0 then (if s.wgl.gpLast + 3 * iv ≤ t then s.timeLost 0 else s)
    else if reason = 2 then s.timeLost 2
    else s)

/-! ### The mailbox (R364) -/

/-- Bytes of the mailbox buffer. -/
def State.odBuf (s : State) (n : Nat) : List Nat := (List.range n).map (fun k => s.fld (rGLB_OD_BUF + 4 * (k / 4)) (8 * (k % 4)) 8)
/-- Put bytes into the mailbox buffer. -/
def State.setOdBuf (s : State) : Nat → List Nat → State
  | _, [] => s
  | k, b :: t => (s.setFld (rGLB_OD_BUF + 4 * (k / 4)) (8 * (k % 4)) 8 b).setOdBuf (k + 1) t

/-- A write of GLB_OD_CMD. A WRITE with items answered LOCKED counts once in GLB_LOCK_VIOL_COUNT (DESIGN CHOICE, log entry 140). -/
def execMailboxGo (w : BitVec 32) (t : Nat) (s : State) : Res :=
  .next (if !s.ready then s else let s : State := s.at t
    let x := w.toNat
    if bits x 1 31 ≠ 0 ∨ (bit x 0 ∧ s.flag rGLB_OD_STAT 31) then s.sticky rGLB_OD_STAT 29
    else if !bit x 0 then s
    else
      let s := s.sticky rGLB_OD_STAT 31
      let len := bigNat ((s.odBuf 8).drop 6)
      let b := s.odBuf (12 + min 1488 len)
      let h := frameHdr b
      let n := h.pay.headD 0
      let req (keys : Option (List Nat)) (cl : Bool) (body : List Nat) (link : List (Nat × Nat)) (g : Option (List Nat)) : WglReq :=
        ⟨0, 2, h.msg, h.seq, h.node, t, keys, cl, body, link, g⟩
      let put (s : State) (r : WglReq) : State := { s with wgl := { s.wgl with mbox := some r } }
      if frameBad b ≠ 9 ∨ (h.msg ≠ 1 ∧ h.msg ≠ 2 ∧ h.msg ≠ 3) then put s (req none false [] [] none)
      else if h.msg = 2 then
        let items := (writeItemsOf n (h.pay.drop 4)).2
        let o := s.writeItems true items
        let s := o.st.clamped 3 o.es
        put (if o.lock then s.lockViol else s) (req none (!o.es.isEmpty) (writeAnswer items o.ans) o.link o.gcl)
      else put s (req (some (readKeys n (h.pay.drop 4)).2) false [] [] none))

/-- The answer is written to GLB_OD_BUF; a request of another message is answered with the header alone. -/
def execMailboxDone (t : Nat) (s : State) : Res :=
  .next (match s.wgl.mbox with
    | none => s
    | some r =>
      let s : State := { (s.at t) with wgl := { s.wgl with mbox := none } }
      let q := match r.keys with
        | some k => s.readItems k [k.length, 0, 0, 0]
        | none => (r.body, s)
      let s := q.2
      let msg := s.wglHeader r.msg 1 (b2n r.clamped) r.seq r.node q.1.length ++ q.1
      let s := (((s.setOdBuf 0 msg).setFld rGLB_OD_STAT 0 11 msg.length).setFld rGLB_OD_STAT 31 1 0).sticky rGLB_OD_STAT 30
      let s := if q.1.isEmpty then s.sticky rGLB_OD_STAT 28 else s
      s.applyLink r.link r.gcl)

end Sys2Proof.Machine
end

