-- ==== Sys2Proof/Machine/Parts.lean ====
section
/-! DEFINITION. What a tick edge does to partitions: CONFIGURE and RELEASE take effect, and a partition is reset (R147, R225,
R265, R272, R273, R286, R334). -/

namespace Sys2Proof.Machine

/-- The quadrants of a site are switched off (R334). -/
def State.quadsDown (s : State) (p : Nat) : State := (List.range 4).foldl (fun (s : State) q => s.domDown (siteDom p q)) s
/-- The quadrants of a site are requested (R142, R381). -/
def State.quadsUp (s : State) (p : Nat) : State := (List.range 4).foldl (fun (s : State) q => s.domRequest (siteDom p q)) s

/-- The wheel slots of the pending CONFIGUREs change owner (R225). -/
def State.applyWheel (s : State) : State :=
  let s' := s.host.wheelNext.foldl (fun (s : State) x => s.setFld (wheelReg x.1 x.2.1) (8 * (x.2.1 % 4)) 5 x.2.2) s
  { s' with host := { s'.host with wheelNext := [] } }
/-- The wheel slots of a partition return to no owner. -/
def State.freeWheel (s : State) (n : Nat) : State :=
  (List.range 256).foldl (fun (s : State) i =>
    let r := wheelReg (i / 64) (i % 64)
    if s.fld r (8 * (i % 4)) 5 = n then s.setFld r (8 * (i % 4)) 5 0x1F else s) s

/-- What a partition holds of a stroke, gone; its number, grants, library and error totals stay (R116). -/
def Part.atRest (p : Part) : Part :=
  { Part.init with st := p.st, g := p.g, stroke := p.stroke, lib := p.lib, lateStrokes := p.lateStrokes }

/-- A CONFIGURE takes effect (R273, R275). -/
def State.applyConfigure (s : State) (n : Nat) (g : Grants) : State :=
  let s := s.updPart n (fun p => { p.atRest with g := g, lib := none })
  let s := (s.setPState n .configured).resetQps n
  (s.partSites n).foldl (fun (s : State) p => s.syncKv p) s

/-- Registers SEC_PMEAS of a partition read 0 (R389). -/
def State.clearPmeas (s : State) (n : Nat) : State :=
  (List.range 12).foldl (fun (s : State) i => s.setReg (rSEC_PMEAS + 0x30 * n + 4 * i) 0) s

/-- A RELEASE takes effect: grants, stream entries, queue pairs and wheel slots are freed (R225, R273, R275). -/
def State.freePartition (s : State) (n : Nat) : State :=
  let ps := s.partSites n
  let ids := s.partStreams n
  let s := ids.foldl (fun (s : State) i => s.freeStream n i) s
  let s := ids.foldl (fun (s : State) i => s.setStream i Stream.init) s
  let s := ((s.resetQps n).freeWheel n).clearPmeas n
  let s := ({ s with sls := { s.sls with xlat := s.sls.xlat.filter (fun e => e.1 / 4096 != n) } } : State).unbindRest n
  let s := s.updPart n (fun p => { p.atRest with g := Grants.none, lib := none })
  let s := s.setPState n .unconfigured
  ps.foldl (fun (s : State) p => (s.quadsDown p).syncKv p) s

/-- A shadow slot at a partition reset: OPEN and ARMED return to FREE, COMPLETE-ARMED is retained (R41, R58); its entry, none
when it is as at reset. -/
def Shadow.dropped (x : Shadow) (k : Nat) : Option (Nat × Shadow) :=
  let y := if x.st = .opened ∨ x.st = .armed then { Shadow.init (k % 2) with slot := x.slot } else x
  if y = Shadow.init (k % 2) then none else some (k, y)
/-- The merge contexts of a partition are freed (R113, R115). -/
def State.freeContexts (s : State) (n : Nat) : State :=
  (s.sparse.merge.filter (fun (e : Nat × MergeCtx) => e.2.part == n)).foldl
    (fun (s : State) e => s.mergeFree (e.1 / 2048) (e.1 % 2048)) s
/-- Accumulator sets, runs, pending updates and merge contexts of the partition's sites (R38, R41, R58, R73, R80, R113, R196,
R238), once the scratchpad region under test has been restored (R241). -/
def State.resetSite (s : State) (n p : Nat) : State :=
  let mine (k : Nat) : Bool := k / 4160 == p
  let s := s.finishRestore p
  let s := { s with
    comb := { s.comb with
      sets := s.comb.sets.filter (fun e => !mine (e.1 / 2)), openTile := s.comb.openTile.filter (fun e => !mine e.1),
      lastSet := s.comb.lastSet.filter (fun e => !mine e.1), tailW4S := s.comb.tailW4S.filter (fun e => !mine e.1),
      shadow := s.comb.shadow.filterMap (fun (e : Nat × Shadow) => if mine (e.1 / 2) then e.2.dropped e.1 else some e) },
    rq := { s.rq with pend := s.rq.pend.filter (fun e => !mine e.1), run := s.rq.run.filter (fun e => !mine e.1) },
    sparse := { s.sparse with packer := s.sparse.packer.filter (fun (e : Nat × Option (BitVec 256)) => e.1 != p) },
    desc := { s.desc with streams := s.desc.streams.filter (fun e => e.1 / 8 != p) },
    spad := { s.spad with region := s.spad.region.filter (fun e => e.1 / 1024 != p), marks := s.spad.marks.filter (fun e => e.1 != p),
                          markAll := s.spad.markAll.filter (fun e => e.1 != p) },
    fab := { s.fab with outst := s.fab.outst.filter (fun e => e.1 / 8 != p) },
    sls := { s.sls with ports := s.sls.ports.filter (fun e => e.1 / 8 != p) } }
  -- gains return to G_INIT, with the window and the fills cleared
  let keys := (s.rq.sets.map Prod.fst).filter (fun k => mine (k / 16))
  let s := keys.foldl (fun (s : State) k =>
    let x := s.scaleSet k
    let pc := k / 16
    let s := s.setScaleSet k { x with
      gCur := x.gInit, gPrev := x.gInit, fStroke := 0, fPend := 0, strokeValid := false,
      pendValid := false, inexact := false, headIdx := 0, nvalid := 0, ring := [], gNext := none }
    if x.gCur = x.gInit then s else s.deriveSet p (s.combIdOf p pc) pc (k % 16) x.gInit) (s.freeContexts n)
  let v := s.svc p
  let s := { s with kv := { s.kv with park := s.kv.park.filter (fun x => x.site != p) } }
  let s := if v.compacting || v.flipReady then
      let s := s.setSvc p v.stop
      if v.compacting then
        (s.bump (siteReg p rKV_CNT_CRESTART)).journal 0x0188 n 0x3FFF p ((s.lsite p).getD 0 + v.log.length * 2 ^ 7) 1
      else s
    else s
  s.releaseHeld p

/-- A partition's streams are ended by its reset (R286); of streams held for the partner there is nothing to complete. -/
def State.resetStream (s : State) (n i code : Nat) : State :=
  let x := s.stream i
  if !([StreamState.opened, .resident, .active, .draining].contains x.st) then s
  else
    let s := if s.heldForPartner n then s
      else (x.ops ++ x.closeOps).foldl (fun (s : State) o => s.finalOp n i o [6] code x.len none false) s
    let s := if x.rsv then s.unreserve n x.qp else s
    let s := ((s.freeStream n i).bump rSTRM_CNT_ENDED).sticky rSTRM_STAT 1
    let s := s.updStat n (fun z => { z with ended := z.ended + 1 })
    s.setStream i { x with
                           st := .closed, fault := code, ops := [], started := false, waitFork := false, rsv := false, endCode := 0,
                           toFree := false, closeOps := [], remain := 0, wheld := 0, sslot := 0x3FFF }

/-- The mode of a partition returns to off at a reset (R456). -/
def State.endReplay (s : State) (n : Nat) : State :=
  if (s.recOf n).mode = 2 then
    (s.setFld (rRPL_CTL + 0x40 * n) 0 2 0).updRec n (fun r => { RecPart.init with req := r.req, seq := r.seq })
  else s
/-- What a reset drops from the entries of the aborted stroke. -/
def State.dropAborted (s : State) (n : Nat) : State :=
  s.updRec n (fun r => { r with
    items := r.items.filter (fun x => !([2, 3, 4, 5, 9].contains x.kind)), waiting := false })

/-- A partition reset takes effect at a tick edge (R272): the stroke in progress is gone and none of its completions is written. -/
def State.resetPartition (s : State) (n code : Nat) : State :=
  let p := s.part n
  let now := p.stroke.toNat % 2 ^ 32
  let s := ((s.dropAborted n).record n 11 [code, 0, 0, 0, 0, 0, 0, 0]).endReplay n
  let drop := p.compl.filter (fun c => p.inStroke && !p.finished && c.strokeL == now)
  let s := drop.foldl (fun (s : State) c => s.unreserve n c.qp) s
  let s := s.updPart n (fun p => { p with compl := p.compl.filter (fun c => !(drop.contains c)) })
  let s := (s.partStreams n).foldl (fun (s : State) i => s.resetStream n i code) s
  let s := s.writeCompls n (s.part n).compl.length
  let s := s.sealReset n
  let s := (s.partSites n).foldl (fun (s : State) p => s.resetSite n p) s
  let s := { s with fab := { s.fab with flight := s.fab.flight.filter (fun o => o.part != n) } }
  let s := (s.updPart n Part.atRest).setPState n .configured
  let s := if s.held n then s.unhold n else s
  { s.clearMarks n with pair := { s.pair with parts := s.pair.parts.filter (fun e => e.1 != n) } }

end Sys2Proof.Machine
end

