-- ==== Sys2Proof/Machine/Ductus.lean ====
section
/-! DEFINITION. The load check of a ductus library (R131-R134, R223, R253, R290, R390). -/

namespace Sys2Proof.Machine

/-- The first failing field of a library: entry (0x3F the header), row of its table, and byte offset of the failing word where
the layout of the item is stated. -/
abbrev DuctusFail := Nat × Nat × Option Nat

/-- Lowest of the failing rows. -/
def lowRow (l : List (Bool × Nat)) : Option Nat :=
  (l.filter Prod.fst).foldl (fun (m : Option Nat) x => match m with
    | none => some x.2
    | some y => some (min y x.2)) none

/-- Word that holds a row of the header (Table 05.5); the last row is words 4 to 15. -/
def hdrWord (h r : Nat) : Nat :=
  if r < 3 then 0 else if r < 7 then 1 else if r < 10 then 2 else if r = 10 then 3
  else ((List.range 12).find? (fun i => wf h (4 + i) 0 32 != 0)).getD 0 + 4
/-- Word that holds a row of an entry (Table 05.6); the last row is words 8 to 15. -/
def entWord (e r : Nat) : Nat :=
  if r < 8 then 0 else if r = 8 then 1 else if r < 11 then 2 else if r < 15 then r - 8 else if r < 17 then 7
  else ((List.range 8).find? (fun i => wf e (8 + i) 0 32 != 0)).getD 0 + 8

/-- Stroke settings as last written, which are in force when the partition starts: period, INGEST, EMIT and GUARD. -/
def State.strokeSet (s : State) (i : Nat) : Nat := (((setRows 1)[i]?).map s.setting).getD 0
/-- Length of RUN at them, ns. -/
def State.runSet (s : State) : Nat := runNs (s.strokeSet 0) (s.strokeSet 1) (s.strokeSet 2) (s.strokeSet 3)

/-- Do two spans overlap? -/
def meets (a b : Nat × Nat) : Bool := decide (a.1 < b.2) && decide (b.1 < a.2)

/-- Failing word of a background slice given the slices before it (R390). -/
def State.sliceBad (s : State) (n lim : Nat) (before : List (BitVec 128)) (x : BitVec 128) : Option Nat :=
  let w := x.toNat
  let key (y : Nat) : Nat := wf y 0 0 7 * 16 + wf y 0 24 4
  let span (y : Nat) : Nat × Nat := (wf y 1 0 32, wf y 1 0 32 + wf y 2 0 20)
  let kind := wf w 0 28 2
  lowRow [(wf w 0 30 2 != 0 || wf w 0 7 17 != 0 || kind == 3 || decide ((if kind = 0 then 6 else 0) < wf w 0 24 4) ||
      decide (63 < wf w 0 0 7) || !bit (s.part n).g.sites (wf w 0 0 7), 0),
    (decide (lim < (span w).2 * 1000), 1),
    (kind == 0 && before.any (fun y => wf y.toNat 0 28 2 == 0 && key y.toNat == key w && meets (span y.toNat) (span w)), 1),
    (wf w 2 0 20 == 0 || wf w 2 20 12 != 0, 2), (wf w 3 0 32 != 0, 3)]

/-- Failing word of a slot grant given the grants before it (R217, R223). -/
def State.grantBad (s : State) (n : Nat) (before : List (BitVec 64)) (x : BitVec 64) : Option Nat :=
  let w := x.toNat
  let port := grPort w
  let span (y : Nat) : Nat × Nat := (wf y 1 0 17, wf y 1 0 17 + wf y 1 17 12 + 1)
  let d := grDest w
  let src := s.phys (grSrc w)
  lowRow [(wf w 0 19 13 != 0 || wf w 0 17 2 == 3 || decide (4 < port) || decide (67 < d) || decide (63 < grSrc w), 0),
    (decide (d < 64) && !bit (s.part n).g.sites d, 0),
    (decide (port < 4) && (decide (63 < d) || s.destSite d != neighbour src port), 0), (port == 4 && d == grSrc w, 0),
    (mget false s.fab.down (src * 5 + port) || (port == 4 && mget false s.fab.down (s.destSite d * 5 + 4)), 0), (wf w 1 29 3 != 0, 1), (decide (s.runSet < s.grantEnd x), 1),
    (before.any (fun y => grSrc y.toNat == grSrc w && grPort y.toNat == port && meets (span y.toNat) (span w)), 1),
    (port == 4 && decide (d < 64) &&
      before.any (fun y => grPort y.toNat == 4 && grDest y.toNat == d && meets (span y.toNat) (span w)), 1)]

/-- First failing item of a list, given those before it: its index and failing word. -/
def firstItem {α : Type} (f : List α → α → Option Nat) : List α → List α → Nat → Option (Nat × Nat)
  | _, [], _ => none
  | before, x :: t, i =>
    match f before x with
    | some w => some (i, w)
    | none => firstItem f (x :: before) t (i + 1)

/-- Failing word of an entry of a seal operation list (R253, R262). What an import's kind allows is judged at its seal. -/
def State.sealOpBad (s : State) (n : Nat) (o : BitVec 64) : Option Nat :=
  let w := o.toNat
  let op := opOp w
  let v := opValue w
  let e := s.xlat n (opVseal w)
  let kinds : Bool := if xlImp e then op != 5
    else if op = 1 ∨ op = 2 then xlKind e != 1 else if op = 5 then xlKind e == 2 else xlKind e == 1
  lowRow [(op == 0 || decide (5 < op) || bits w 24 4 != 0 || bits w 0 12 != 0 || !(xlV e) || !kinds, 0),
    (if xlImp e then (op == 3 && decide (65535 < v)) || (op == 4 && v != 0) else !(Sys2Proof.Machine.opLegal (xlKind e) (bit e 26) w), 1)]
/-- Does the WAIT_OP or SIG_OP of a descriptor name an entry of the wrong kind (R253)? One beyond the list is left to the issue
check (Table 06.11 row 13). -/
def refBad (ops : List (BitVec 64)) (d : BitVec 512) : Bool :=
  let other (i : Nat) (l : List Nat) : Bool := (ops[i]?).any (fun o => !(l.contains (opOp o.toNat)))
  other (wf d.toNat 1 14 10) [2, 3] || other (wf d.toNat 1 4 10) [1, 4, 5]
/-- Failing word of a position entry (R290). -/
def maskBad (ns : Nat) (e : BitVec 32) : Option Nat := if ns ≤ posBase e ∨ bit e.toNat 7 then some 0 else none

/-- First failing word of the section of site rank `r`, as a byte offset where the layout of the item is stated: its items inside
the library, then its slot mask, its seal operation list and the descriptors that name entries of it. -/
def State.sectBad (s : State) (n : Nat) (l : Library) (b : Bucket) (r : Nat) : Option (Option Nat) :=
  let x := bucketSect b r
  let pl := x.plan
  let at' (o w : Nat) (y : Nat × Nat) : Option (Option Nat) := some (some (o + w * y.1 + 4 * y.2))
  let outside : Bool := b.sects.length ≤ r || pl.streams.any (fun y => decide (l.length < y.1 + 64 * y.2)) ||
    decide (l.length < pl.rfu.1 + pl.rfu.2) || decide (l.length < pl.seals.1 + 8 * pl.seals.2) ||
    decide (l.length < pl.masks.1 + 4 * pl.masks.2)
  if outside || decide (1023 < pl.seals.2) || (r == 0 && pl.masks.2 != decSlots b + preTokens b) then some none
  else
    ((firstItem (fun _ e => maskBad (s.nsite n) e) [] x.masks 0).bind (at' pl.masks.1 4)) <|>
      ((firstItem (fun _ o => s.sealOpBad n o) [] x.seals 0).bind (at' pl.seals.1 8)) <|>
      ((pl.streams.zip x.streams).findSome? (fun y =>
        (firstItem (fun _ d => if refBad x.seals d then some 1 else none) [] y.2 0).bind (at' y.1.1 64)))

/-- The check of one bucket entry, given the entries before it. -/
def State.entryBad (s : State) (n : Nat) (l : Library) (before : List Bucket) (b : Bucket) : Option (Nat × Option Nat) :=
  let e := b.raw.toNat
  let f := wf l.hdr.toNat 1 16 12
  let ns := s.nsite n
  let lim := s.runSet * f
  let inside (off size : Nat) : Bool := decide (off + size ≤ l.length)
  let siteOff := wf e 4 0 32
  let slotOff := wf e 5 0 32
  let bgOff := wf e 6 0 32
  let hdr := b.slotHdr.toNat
  let slice := firstItem (s.sliceBad n lim) [] b.slices 0
  -- the words of the slot table's header, then its grants
  let slot : Option Nat := match (List.range 4).find? (fun i => wf hdr i 0 32 != (if i = 0 then wf hdr 0 0 16 else 0)) with
    | some i => some (4 * i)
    | none => (firstItem (s.grantBad n) [] b.grants 0).map (fun g => 16 + 8 * g.1 + 4 * g.2)
  let sect := (List.range ns).findSome? (s.sectBad n l b)
  let badSite := siteOff % 64 != 0 || !(inside siteOff (32 * ns))
  let badSlot := slotOff % 64 != 0 || !(inside slotOff 16) || !(inside slotOff (16 + 8 * wf hdr 0 0 16))
  let badBg := bgOff % 64 != 0 || !(inside bgOff (16 * wf e 7 0 16))
  let row := lowRow [(wf e 0 20 12 != 0, 0), (wf e 0 12 4 == 0, 2), (wf e 0 9 3 != 0, 3), (decide (5 < bits e 3 3), 6), (bits e 0 3 == 7, 7),
    (before.any (fun x => bits x.raw.toNat 0 6 == bits e 0 6), 6), (decide (lim < wf e 1 0 32 * 1000 + 64 * f), 8),
    (decide (wf e 1 0 32 < wf e 2 16 16 + wf e 2 0 16), 8), (badSite || sect.isSome, 12), (badSlot || slot.isSome, 13),
    (badBg || slice.isSome, 14), (wf e 7 16 16 != 0, 15), ((List.range 8).any (fun i => wf e (8 + i) 0 32 != 0), 17)]
  row.map (fun r => (r,
    if r = 12 ∧ !badSite then sect.getD none
    else if r = 13 ∧ !badSlot then slot.map (fun g => slotOff + g)
    else if r = 14 ∧ !badBg then slice.map (fun g => bgOff + 16 * g.1 + 4 * g.2)
    else some (wf l.hdr.toNat 3 0 32 + 64 * before.length + 4 * entWord e r)))

/-! ### Reading a library (R131-R133; log entry 64) -/

/-- `n` little-endian bytes at byte offset `off` (R5). -/
def bytesAt (bytes : List Nat) (off n : Nat) : Nat := packNat 8 ((bytes.drop off).take n)
/-- `n` items of `w` bytes from `off`; none when they do not all lie inside. -/
def itemsAt (bytes : List Nat) (w off n : Nat) : List Nat :=
  if off + w * n ≤ bytes.length then (List.range n).map (fun i => bytesAt bytes (off + w * i) w) else []
/-- A per-site section. -/
def readSect (bytes : List Nat) (p : SectPlan) : SiteSect :=
  ⟨p, p.streams.map (fun x => (itemsAt bytes 64 x.1 x.2).map (BitVec.ofNat 512)), (itemsAt bytes 8 p.seals.1 p.seals.2).map (BitVec.ofNat 64),
    (itemsAt bytes 4 p.masks.1 p.masks.2).map (BitVec.ofNat 32)⟩
/-- The bucket entry at `off`. -/
def readBucket (bytes : List Nat) (off : Nat) (plans : List SectPlan) : Bucket :=
  let e := bytesAt bytes off 64
  let slot := wf e 5 0 32
  let hdr := bytesAt bytes slot 16
  ⟨BitVec.ofNat 512 e, BitVec.ofNat 128 hdr, (itemsAt bytes 8 (slot + 16) (wf hdr 0 0 16)).map (BitVec.ofNat 64),
    (itemsAt bytes 16 (wf e 6 0 32) (wf e 7 0 16)).map (BitVec.ofNat 128), plans.map (readSect bytes)⟩
/-- The library that the bytes of a DUCTUS section hold. -/
def readLibrary (bytes : List Nat) (plans : List (List SectPlan)) : Library :=
  let h := bytesAt bytes 0 64
  let off := wf h 3 0 32
  let n := if off + 64 * wf h 0 0 6 ≤ bytes.length then wf h 0 0 6 else 0
  ⟨BitVec.ofNat 512 h, (List.range n).map (fun i => readBucket bytes (off + 64 * i) (plans.getD i [])), bytes.length⟩

/-- The load check of a library for partition `n`. -/
def State.ductusBad (s : State) (n : Nat) (l : Library) : Option DuctusFail :=
  let h := l.hdr.toNat
  let nent := wf h 0 0 6
  let off := wf h 3 0 32
  match lowRow [(wf h 0 16 16 != 1, 0), (wf h 0 6 10 != 0, 1), (nent == 0 || decide (42 < nent), 2), (wf h 1 28 4 != 0, 3),
      (decide (wf h 1 16 12 < 600) || decide (1250 < wf h 1 16 12), 4), (wf h 1 12 4 != 0, 5),
      (decide (s.strokeSet 0 < wf h 1 0 12), 6), (wf h 2 15 17 != 0, 7), (wf h 2 8 7 != s.nsite n, 8),
      (off % 64 != 0 || decide (l.length < off + 64 * nent) || nent != l.entries.length, 10),
      ((List.range 12).any (fun i => wf h (4 + i) 0 32 != 0), 11)] with
  | some r => some (0x3F, r, some (4 * hdrWord h r))
  | none =>
    ((List.range l.entries.length).findSome? (fun i =>
      match l.entries[i]? with
      | some b => (s.entryBad n l (l.entries.take i) b).map (fun x => (i, x.1, x.2))
      | none => none))

/-- A library is loaded for partition `n`: kept when the check passes, otherwise DUCTUS_INVALID. -/
def State.loadLibrary (s : State) (n : Nat) (l : Library) : State :=
  match s.ductusBad n l with
  | none => s.updPart n (fun p => { p with lib := some l })
  | some x =>
    -- where the layout of a per-site section is not stated, its failing offset is a free value
    let r := match x.2.2 with
      | some o => (o, s)
      | none => let f := s.takeFree; (f.1.toNat % 2 ^ 32, f.2)
    r.2.raise 0x3105 n 0x3FFF (hubSite 0) (x.1 + x.2.1 * 2 ^ 6) r.1

end Sys2Proof.Machine
end

