-- ==== Sys2Proof/Machine/PairOps.lean ====
section
/-! DEFINITION. The redundant pair: roles, epochs, the link layer and the frames that a panel sends (R418-R426, R431-R435). -/

namespace Sys2Proof

/-! ### The header of a received frame (Table 16.1) -/

def PairHdr.byte (h : PairHdr) (i : Nat) : Nat := (h.bytes.getD i 0).toNat
/-- The `n` bytes from `i` on, most significant first. -/
def PairHdr.num (h : PairHdr) (i n : Nat) : Nat := Machine.bigNat ((List.range n).map (fun k => h.byte (i + k)))
def PairHdr.type (h : PairHdr) : Nat := h.byte 1
def PairHdr.part (h : PairHdr) : Nat := h.byte 2 % 16
def PairHdr.last (h : PairHdr) : Bool := h.byte 3 / 2 % 2 == 1
def PairHdr.panel (h : PairHdr) : Bool := h.byte 3 % 2 == 1
def PairHdr.epoch (h : PairHdr) : Nat := h.num 4 4
def PairHdr.seq (h : PairHdr) : Nat := h.num 8 2
def PairHdr.ack (h : PairHdr) : Nat := h.num 10 2
def PairHdr.stroke (h : PairHdr) : Nat := h.num 12 6
def PairHdr.serial (h : PairHdr) : Nat := h.num 20 8
/-- Does the frame pass the checks that come before the retry protocol: VER, TYPE, reserved bits, LEN and CRC (R420)? -/
def PairHdr.good (h : PairHdr) : Bool :=
  h.bytes.length == 32 && h.byte 0 == 16 && decide (1 ≤ h.type) && decide (h.type ≤ 11) && h.byte 2 / 16 % 4 == 0 && h.byte 3 / 4 == 0 &&
    h.num 28 4 == 0 && decide (h.num 18 2 ≤ 64) && h.num 18 2 == h.payload && h.crcOk

end Sys2Proof

namespace Sys2Proof.Machine

/-! ### Roles -/

/-- The two panels run in step: roles taken, and the resynchronisation done. -/
def State.coupled (s : State) : Bool := (s.role == 1 || s.role == 2) && s.pair.inStep
def State.mirrored (s : State) : Bool := s.modeNow == 1 && s.coupled
def State.shared (s : State) : Bool := s.modeNow == 2 && s.coupled
/-- Does the panel take entries of partition `n` from its own queues (Table 16.3, R454)? -/
def State.admitsFor (s : State) (n : Nat) : Bool :=
  s.role != 3 && !(s.joining) && !(s.modeNow == 1 && s.role == 2) && !(s.standbyPart n) && (s.recOf n).mode != 2
/-- Partition `n` runs idle strokes whatever its streams ask for (R426, R437, R456). -/
def State.forcedIdle (s : State) (n : Nat) : Bool :=
  s.role == 3 || s.joining || s.standbyPart n || (s.recOf n).diverged

def State.pp (s : State) (n : Nat) : PairPart := mget PairPart.init s.pair.parts n
def State.updPp (s : State) (n : Nat) (f : PairPart → PairPart) : State :=
  { s with pair := { s.pair with parts := mupd PairPart.init s.pair.parts n f } }

/-- A PAIR fault that belongs to no partition (R441). -/
def State.pairFault (s : State) (code d0 d1 : Nat) : State := s.raise code 16 0x3FFF (hubSite 0) d0 d1

/-- A change of role (R423) and its PAIR record entry (Table 17.3). -/
def State.setRole (s : State) (r : Nat) : State :=
  if s.role = r then s
  else ((s.setFld rPAIR_STATUS 0 2 r).raisePf 2).recordAll 8 [0, s.role + 4 * r, s.epoch, 0, 0, 0, 0, 0]
/-- A change of EPOCH. -/
def State.setEpoch (s : State) (e : Nat) : State :=
  if s.epoch = e then s
  else (s.setReg rPAIR_EPOCH (BitVec.ofNat 64 (e % 2 ^ 32))).recordAll 8 [1, s.role + 4 * s.role, e % 2 ^ 32, 0, 0, 0, 0, 0]
/-- A resynchronisation is over or abandoned. -/
def State.endResync (s : State) : State :=
  let s := s.setFld rPAIR_STATUS 12 3 0
  { s with pair := { s.pair with joiner := false } }
/-- The panels are no longer in step: each runs its strokes alone. -/
def State.leaveStep (s : State) : State := { s with pair := { s.pair with inStep := false } }

/-- The panel takes QUARANTINED (R426); `fence` is the EPOCH that fenced it. -/
def State.quarantine (s : State) (fence : Nat) : State :=
  if s.role = 3 then s
  else
    let s := (s.endResync.leaveStep.setRole 3).pairFault 0x4445 s.epoch fence
    let s := (List.range 16).foldl (fun (s : State) n => s.updPart n (fun p => { p with snap := [], gateSet := 15 })) s
    { s with pair := { s.pair with hello := false, frames := [] } }

/-! ### Sending (R419-R422) -/

def State.lanesUp (s : State) : List Nat := setBitsOf 4 (s.fld rPAIR_STATUS 4 4)
/-- The lane-groups that carry a frame of partition `n`, counted among those up at the last tick edge, or (none) of the panel: every
one that is up and was up at that edge (R418, R421). -/
def State.lanesFor (s : State) (n : Option Nat) : List Nat :=
  match n with
  | none => s.lanesUp.filter (fun l => bit s.pair.edge l)
  | some n =>
    let ls := setBitsOf 4 s.pair.edge
    (ls[n % max 1 ls.length]?).toList
/-- Bytes of a frame (Table 16.1): its header, its payload granules, and the CRC-32 over both. -/
def pairBytes (type lane part : Nat) (last : Bool) (epoch seq ack stroke : Nat) (pay : List Nat) : List Nat :=
  let panel := part == 16
  let b := [16, type, lane % 4 * 64 + (if panel then 0 else part % 16), b2n last * 2 + b2n panel] ++ bigBytes 4 epoch ++ bigBytes 2 seq ++
    bigBytes 2 ack ++ bigBytes 6 stroke ++ bigBytes 2 (pay.length / 64) ++ bigBytes 8 serial ++ [0, 0, 0, 0] ++ pay
  b ++ bigBytes 4 (crc32 b)
/-- Queue one frame on a lane-group: it stays in the replay buffer until it is acknowledged (R421). A frame for a lane-group that has
gone down waits in the buffer for the next edge. -/
def State.pairFrame (s : State) (type lane part stroke : Nat) (last : Bool) (pay : List Nat) : State :=
  let q := mget 0 s.pair.txSeq lane
  let b := pairBytes type lane part last s.epoch q ((mget 0 s.pair.rxSeq lane + 65535) % 65536) stroke pay
  let s := { s with pair := { s.pair with
    txSeq := mset 0 s.pair.txSeq lane ((q + 1) % 65536),
    frames := s.pair.frames ++ [(⟨lane, q, type, part, stroke, last, pay, b⟩ : PairFrame)] } }
  if s.lanesUp.contains lane then s.emit (.pair lane type b) else s
/-- The payload of a message in whole granules, cut into frames of at most 64 granules (R419). -/
def pairCut : Nat → List Nat → List (List Nat)
  | 0, b => [b]
  | n + 1, b => if b.length ≤ 4096 then [b] else b.take 4096 :: pairCut n (b.drop 4096)
def pairPays (b : List Nat) : List (List Nat) :=
  let b := b ++ List.replicate ((64 - b.length % 64) % 64) 0
  pairCut b.length b
/-- The frames of a message, the last of which carries LAST. -/
def State.pairOnLane (s : State) (type lane part stroke : Nat) (body : List Nat) : State :=
  let ps := pairPays body
  ((List.range ps.length).zip ps).foldl (fun (s : State) x => s.pairFrame type lane part stroke (x.1 + 1 == ps.length) x.2) s
/-- Send a message, whose fields are big-endian in the order of Table 16.2 (their widths and places are the model's, log entry
78). A quarantined panel sends HELLO alone (R426). -/
def State.pairSend (s : State) (type : Nat) (part : Option Nat) (body : List Nat) : State :=
  if s.role = 3 ∧ type ≠ 1 then s
  else
    let stroke := match part with
      | some n => (s.part n).stroke.toNat
      | none => s.tick.number.toNat
    (s.lanesFor part).foldl (fun (s : State) l => s.pairOnLane type l (part.getD 16) stroke body) s

/-- CONTROL carries its KIND first. -/
def State.sendControl (s : State) (part : Option Nat) (kind : Nat) (args : List Nat) : State :=
  s.pairSend 8 part (kind :: args.flatMap (bigBytes 8))
/-- A NAK that names the SEQ to replay from; it travels on the lane-group concerned (log entry 79). -/
def State.sendNak (s : State) (lane seq : Nat) : State :=
  if s.role = 3 then s else s.pairOnLane 10 lane 16 s.tick.number.toNat (bigBytes 2 seq)

/-- Replay frames of a lane-group from `seq` on, in order. -/
def State.replayFrom (s : State) (lane seq : Nat) : State :=
  let fs := s.pair.frames.filter (fun f => f.lane == lane && decide ((f.seq + 65536 - seq % 65536) % 65536 < 32768))
  fs.foldl (fun (s : State) f => (s.emit (.pair lane f.type f.body)).bump rPAIR_CNT_REPLAY) s
/-- Frames up to `ack` have arrived at the partner. -/
def State.ackFrames (s : State) (lane ack : Nat) : State :=
  let keep := s.pair.frames.filter (fun f => f.lane != lane || decide (32768 ≤ (ack + 65536 - f.seq) % 65536))
  if keep.length = s.pair.frames.length then s
  else { s with pair := { s.pair with frames := keep, replays := mset 0 s.pair.replays lane 0 } }

/-! ### Receiving (R420-R422) -/

/-- Count and journal a frame discarded for its SERIAL or EPOCH, once per tick. -/
def State.staleFrame (s : State) (type : Nat) (h : PairHdr) : State :=
  let s := s.bump rPAIR_CNT_STALE
  if s.marked 0x0448 16 0 then s else (s.mark 0x0448 16 0).pairFault 0x0448 (type % 256 + h.lane % 4 * 2 ^ 8) h.epoch

/-- A frame of type `type` arrives; a header of another type is no such event. The answer says whether a message is to be processed,
which is on its last frame (R420-R422, log entry 78). While one panel resynchronises
the other their epochs differ, and neither fences the other (log entry 96). -/
def State.pairRx (s : State) (type : Nat) (h : PairHdr) (t : Nat) : Bool × State :=
  let s := s.at t
  if !h.good then (false, s.sendNak h.lane h.seq)
  else if h.type ≠ type then (false, s)
  else
    let want := mget 0 s.pair.rxSeq h.lane
    let s := s.ackFrames h.lane h.ack
    if h.seq ≠ want then
      (false, if (h.seq + 65536 - want) % 65536 < 32768 then s.sendNak h.lane want else s)
    else
      let s := { s with pair := { s.pair with rxSeq := mset 0 s.pair.rxSeq h.lane ((want + 1) % 65536) } }
      let partner := (s.reg rPAIR_PARTNER).toNat
      if partner ≠ 0 ∧ h.serial ≠ partner then (false, s.staleFrame type h)
      else if type ≠ 1 ∧ h.epoch < s.epoch ∧ !(s.role == 1 && s.resyncing != 0) then
        let s := s.staleFrame type h
        if s.pair.fenced then (false, s)
        else
          let s : State := { s with pair := { s.pair with fenced := true } }
          (false, s.sendControl none 2 [s.epoch])
      else if type ≠ 1 ∧ s.epoch < h.epoch ∧ !s.pair.joiner then (false, s.quarantine h.epoch)
      else if !h.last then (false, s)
      else if h.panel && type != 10 then
        if mget 0 s.pair.lastPanel type = h.stroke + 1 then (false, s)
        else (true, { s with pair := { s.pair with lastPanel := mset 0 s.pair.lastPanel type (h.stroke + 1) } })
      else (true, s)

/-! ### Coordinated updates (R435) -/

/-- UPD_CNT and UPD_READY of a partition (R435): armed shadow slots and pending commits, and whether each is complete. -/
def State.updState (s : State) (n : Nat) : Nat × Bool :=
  let sites := s.partSites n
  let arm := s.comb.shadow.filter (fun e => sites.contains (e.1 / 2 / 4160) && (e.2.st == .armed || e.2.st == .completeArmed))
  let pend := s.rq.pend.filter (fun e => sites.contains (e.1 / 4160))
  (arm.length + pend.length, arm.all (fun e => e.2.st == .completeArmed || s.shadowComplete (e.1 / 2) (e.1 % 2)))

/-- Armed slots of a partition's combs that are eligible at the start of stroke `m`: comb and shadow index (R57). -/
def State.armedAt (s : State) (n m : Nat) : List (Nat × Nat) :=
  let sites := s.partSites n
  ((s.comb.shadow.filter (fun e => sites.contains (e.1 / 2 / 4160) && (e.2.st == .armed || e.2.st == .completeArmed) &&
    decide (e.2.eligible ≤ m))).map (fun e => (e.1 / 2, e.1 % 2)))
/-- Those of them that can swap: complete, and a linked slot together with its other one only (R58, R99). -/
def State.readySwaps (s : State) (n m : Nat) : List (Nat × Nat) :=
  let armed := s.armedAt n m
  let full (x : Nat × Nat) : Bool := armed.contains x && s.shadowComplete x.1 x.2
  armed.filter (fun x => full x && (!(s.shadow x.1 x.2).linked || full (x.1, 1 - x.2)))
/-- Combs of a partition whose pending commit may take effect at the start of stroke `m` (R73). -/
def State.readyCommits (s : State) (n m : Nat) : List Nat :=
  let sites := s.partSites n
  (s.rq.pend.filter (fun e => sites.contains (e.1 / 4160) && decide (e.2 / 32 ≤ m))).map Prod.fst

end Sys2Proof.Machine
end

