-- ==== Sys2Proof/Machine/Record.lean ====
section
/-! DEFINITION. The record ring and replay mode (R443-R457, R460). -/

namespace Sys2Proof.Machine

/-- A register of partition `n` in the RPL block. -/
def rplReg (n r : Nat) : Nat := r + 0x40 * n

/-- Is the partition of class P (R443)? Some CODE scale set adapts at a site where adaptation is enabled. -/
def State.classP (s : State) (n : Nat) : Bool :=
  (s.partSites n).any (fun p => s.flag (siteReg p rRQ_CTL) 1 &&
    s.rq.sets.any (fun e => e.1 / 16 / 4160 == p && e.2.mode == 0 && e.2.adapt))

/-- The applied configuration structure (Table 10.4) of a partition, as 32 words. -/
def Grants.words (g : Grants) : List Nat :=
  [1, g.sites % 2 ^ 32, g.sites / 2 ^ 32, g.ports + (g.nsq - 1) * 2 ^ 16, g.quota, g.rsvFr, g.heapCh, g.nblk, g.wheel, g.srow,
    g.stageKib, g.pfCap, g.maxctx, g.liveOff, g.nlayer] ++ List.replicate 17 0
/-- SEC_PMEAS_n as twelve words. -/
def State.pmeasWords (s : State) (n : Nat) : List Nat := (List.range 12).map (fun i => s.fld (rSEC_PMEAS + 0x30 * n + 4 * i) 0 32)
/-- Payload of a LOAD entry; `mid` says that recording began while the partition was RUNNING (Table 17.3). -/
def State.loadWords (s : State) (n : Nat) (mid : Bool) : List Nat := s.pmeasWords n ++ (s.part n).g.words ++ [b2n mid]

/-! ### Writing the ring (R449-R452) -/

/-- Bytes of a list of words. -/
def wordBytes (ws : List Nat) : List Nat := ws.flatMap (fun w => unpackNat 8 4 w)
/-- Payload padded with zeros to whole units of eight words. -/
def padWords (ws : List Nat) : List Nat := ws ++ List.replicate (8 * ceilDiv ws.length 8 - ws.length) 0
/-- A record entry (Table 17.2) as words. -/
def recEntry (n : Nat) (x : RecItem) (seq : Nat) : List Nat :=
  let p := padWords x.words
  [x.kind + n * 2 ^ 8 + b2n x.tnum * 2 ^ 12 + p.length / 8 * 2 ^ 16, x.num % 2 ^ 32, x.num / 2 ^ 32 % 2 ^ 16, seq % 2 ^ 32,
    x.time % 2 ^ 32, x.time / 2 ^ 32 % 2 ^ 32, if p.isEmpty then 0 else crc32 (wordBytes p), 0] ++ p
/-- Place of a kind in the order of R451. -/
def recRank (k : Nat) : Nat :=
  if k = 10 then 0 else if k = 11 ∨ k = 1 then 1 else if k = 6 ∨ k = 7 ∨ k = 8 then 2 else if k = 3 then 3 else if k = 4 then 4
  else if k = 9 then 5 else if k = 12 then 6 else if k = 5 then 7 else 8
/-- The entries in the order in which they are written. -/
def recOrder (l : List RecItem) : List RecItem := (List.range 9).flatMap (fun r => l.filter (fun x => recRank x.kind == r))

/-- Units of the ring. -/
def State.ringUnits (s : State) (n : Nat) : Nat := 2 ^ (s.fld (rplReg n rRPL_SIZE) 0 5 + 5)
/-- Units that entries of these sizes take from offset `tail` on, fillers included (R452). -/
def ringNeed (u : Nat) : Nat → List Nat → Nat
  | _, [] => 0
  | tail, k :: t => (if u < tail + k then u - tail + k + ringNeed u (k % u) t else k + ringNeed u ((tail + k) % u) t)
/-- Write one entry at TAIL. -/
def State.ringPut (s : State) (n : Nat) (x : RecItem) : State :=
  let r := s.recOf n
  let ws := recEntry n x r.seq
  let tail := s.fld (rplReg n rRPL_TAIL) 0 25
  let k := ws.length / 8
  let s := s.emit (.hostWrite ((s.portsOf n).headD 0) ((s.reg (rplReg n rRPL_BASE)).toNat + 32 * tail) (32 * k) (packNat 32 ws))
  ((s.setFld (rplReg n rRPL_TAIL) 0 25 ((tail + k) % s.ringUnits n)).bump rRPL_CNT_ENTRY).updRec n (fun r => { r with seq := r.seq + 1 })
/-- Write one entry, after a filler when it would wrap. -/
def State.ringWrite (s : State) (n : Nat) (x : RecItem) : State :=
  let u := s.ringUnits n
  let tail := s.fld (rplReg n rRPL_TAIL) 0 25
  let k := 1 + ceilDiv x.words.length 8
  let s := if u < tail + k then
      s.ringPut n { x with kind := 10, tnum := false, words := List.replicate (8 * (u - tail - 1)) 0 }
    else s
  s.ringPut n x
/-- The entries waiting for partition `n`, a MARK first when some were dropped. -/
def State.ringItems (s : State) (n : Nat) : List RecItem :=
  let r := s.recOf n
  let l := recOrder r.items
  if r.dropped = 0 then l
  else (⟨10, false, (s.part n).stroke.toNat, s.time, [r.dropped, r.dropStroke % 2 ^ 32, 0, 0, 0, 0, 0, 0]⟩ : RecItem) :: l
/-- Do they fit? One unit always stays empty (R452). -/
def State.ringFits (s : State) (n : Nat) : Bool :=
  let u := s.ringUnits n
  let tail := s.fld (rplReg n rRPL_TAIL) 0 25
  let free := (s.fld (rplReg n rRPL_HEAD) 0 25 + 2 * u - tail % u - 1) % u
  decide (ringNeed u tail ((s.ringItems n).map (fun x => 1 + ceilDiv x.words.length 8)) ≤ free)
/-- The entries waiting are written, or wait (STRICT), or are dropped (R452). The answer says that none waits. -/
def State.writeRing (s : State) (n : Nat) : Bool × State :=
  let r := s.recOf n
  if r.items.isEmpty then (true, s)
  else if s.ringFits n then
    let s := (s.ringItems n).foldl (fun (s : State) x => s.ringWrite n x) s
    (true, s.updRec n (fun r => { r with items := [], dropped := 0, waiting := false }))
  else if s.flag (rplReg n rRPL_CTL) 8 then (false, s.updRec n (fun r => { r with waiting := true }))
  else
    let k := r.items.length
    let s := (s.bumpBy rRPL_CNT_DROP k).sticky (rplReg n rRPL_STATUS) 30
    (true, s.updRec n (fun r => { r with
      items := [], dropped := r.dropped + k, dropStroke := if r.dropped = 0 then (s.part n).stroke.toNat else r.dropStroke }))

/-! ### Modes (R453, R457, R460) -/

/-- Replay diverges at recorded stroke `r` (R456). -/
def State.diverge (s : State) (n reason r : Nat) : State :=
  if ((s.recOf n).mode ≠ 2 ∧ (s.recOf n).req ≠ some 2) ∨ (s.recOf n).diverged then s
  else
    let a := rplReg n rRPL_STATUS
    let s := ((s.setFld a 31 1 1).setFld a 20 3 reason).setReg (rplReg n rRPL_DIV_STROKE) (BitVec.ofNat 64 (r % 2 ^ 48))
    (s.raisePf 3).updRec n (fun x => { x with diverged := true })

/-- The recorded stroke that stroke `m` replays (R454). -/
def State.recordedOf (s : State) (n m : Nat) : Nat :=
  (m + 2 ^ 48 - (s.reg (rplReg n rRPL_OFFSET)).toNat % 2 ^ 48) % 2 ^ 48

/-- A write of RPL_CTL_n. -/
def State.writeRplCtl (s : State) (n w : Nat) : State :=
  let a := rplReg n rRPL_CTL
  if s.locked then s.lockViol
  else
    let m := if bits w 0 2 = 3 then 0 else bits w 0 2
    let lim := max 1 (bits w 16 8)
    let es : List ClampEntry := (if bits w 0 2 = 3 then [⟨regId a, 3, 0, 5⟩] else []) ++
      (if bits w 16 8 = 0 then [⟨regId a, 0, 1, 1⟩] else [])
    let bad := m == 2 && ((s.part n).st != .running || (s.partStreams n).any (fun i =>
      (s.stream i).st != .free && (s.stream i).st != .parked))
    let old := bits (s.wreg a).toNat 0 2
    let mode := if bad then old else m
    let s := s.stageReg a (BitVec.ofNat 64 (setBits (setBits (setBits (s.wreg a).toNat 0 2 mode) 8 1 (bits w 8 1)) 16 8 lim))
    let s := if bad then s.sticky (rplReg n rRPL_STATUS) 27
      else (s.setFld (rplReg n rRPL_STATUS) 31 1 0).updRec n (fun r => { r with
        req := some m, diverged := false, rStroke := if m = 2 then none else r.rStroke })
    s.clamped 4 es

def execRecordStart (n : Nat) (w : BitVec 32) (s : State) : Res :=
  .next (if !s.ready then s else if bits w.toNat 0 2 = 1 then s.writeRplCtl n w.toNat else s)
def execReplayStart (n : Nat) (w : BitVec 32) (s : State) : Res :=
  .next (if !s.ready then s else if bits w.toNat 0 2 = 2 then s.writeRplCtl n w.toNat else s)
/-- MODE 0, or 3, which becomes 0 (Table 17.6). -/
def execRecordStop (n : Nat) (w : BitVec 32) (s : State) : Res :=
  .next (if !s.ready then s else if bits w.toNat 0 2 = 0 ∨ bits w.toNat 0 2 = 3 then s.writeRplCtl n w.toNat else s)

/-- The mode written takes effect at an edge that begins a stroke; `fresh` says that the partition becomes RUNNING at it
(R453, R457). -/
def State.applyMode (s : State) (n : Nat) (fresh : Bool) : State :=
  let r := s.recOf n
  match r.req with
  | none => s
  | some m =>
    let s := s.updRec n (fun r => { r with req := none })
    if m = r.mode ∧ m ≠ 2 then s
    else if m = 1 then
      let s := s.updRec n (fun _ => { RecPart.init with mode := 1 })
      s.record n 1 (s.loadWords n (!fresh))
    else if m = 2 then s.updRec n (fun r => { r with mode := 2, waits := 0, seq := if r.rStroke.isSome || r.diverged then 1 else 0 })
    else s.updRec n (fun _ => RecPart.init)

/-! ### Replay (R454-R456) -/

/-- The host's head write (R452): discarded in replay; in record mode, entries that wait may now fit. -/
def execRplHeadWrite (n : Nat) (w : BitVec 32) (s : State) : Res :=
  .next (if !s.ready then s else if (s.recOf n).mode = 2 then s
    else
      let s := s.setFld (rplReg n rRPL_HEAD) 0 25 (bits w.toNat 0 25)
      if (s.recOf n).waiting && s.ringFits n then
        (s.updRec n (fun r => { r with waiting := false })).updPart n (fun p => { p with finished := true })
      else s)

/-- The host's tail write (R454): discarded in record mode. -/
def execRplTailWrite (n : Nat) (w : BitVec 32) (s : State) : Res :=
  .next (if !s.ready then s else if (s.recOf n).mode = 1 then s else s.setFld (rplReg n rRPL_TAIL) 0 25 (bits w.toNat 0 25))

/-- Payload word `i` of an entry. -/
def entryWord (e : RecEntry) (i : Nat) : Nat := e.words.getD i 0
/-- Why a recording cannot be replayed from this entry on: 2 FORMAT, 6 INEXACT; none when it can. -/
def entryFails (e : RecEntry) : Option Nat :=
  if !e.crcOk || e.kind == 0 || decide (12 < e.kind) || (e.kind == 10 && entryWord e 0 != 0) then some 2
  else if e.kind = 2 ∧ bit (entryWord e 0) 9 then some 6
  else none
/-- The first entry of a recording does not fit the partition (START). -/
def State.startFails (s : State) (n : Nat) (e : RecEntry) : Bool :=
  e.kind != 1 || bit (entryWord e 44) 0 || (List.range 44).any (fun i => entryWord e i != (s.loadWords n false).getD i 0)
/-- Take what one entry says of the recorded stroke. -/
def RecPart.take (r : RecPart) (e : RecEntry) : RecPart :=
  match e.kind with
  | 2 => { r with rStroke := some e.words }
  | 3 => { r with rAdmit := r.rAdmit ++ [(entryWord e 16 % 16, packNat 32 (e.words.take 16))] }
  | 4 => { r with rTokens := r.rTokens ++ [(entryWord e 0 % 2 ^ 20, entryWord e 1 % 2 ^ 18,
      ((e.words.drop 8).take (entryWord e 2)).map (fun x => x % 2 ^ 18))] }
  | 5 => { r with rWheld := r.rWheld ++ ((e.words.drop 1).take (entryWord e 0)).map (fun x => x % 2 ^ 20) }
  | 9 => { r with rBg := r.rBg ++ [entryWord e 0 % 2 ^ 20] }
  | _ => r

/-- The entries of the next recorded stroke, read from HEAD on (R454). They are taken once the ring holds the stroke's STROKE
entry; a stroke already taken is not read twice. -/
def execReplayStroke (n : Nat) (es : List RecEntry) (t : Nat) (s : State) : Res :=
  let s := s.at t
  let r := s.recOf n
  let units := (es.map RecEntry.units).foldl (· + ·) 0
  let u := s.ringUnits n
  let head := s.fld (rplReg n rRPL_HEAD) 0 25
  let avail := (s.fld (rplReg n rRPL_TAIL) 0 25 + u - head % u) % u
  .next (if (r.mode != 2 && r.req != some 2) || r.diverged || r.rStroke.isSome || decide (avail < units) ||
      !(es.any (fun e => e.kind == 2)) then s
    else
      let at' := s.recordedOf n ((s.part n).stroke.toNat + 1)
      let first := r.req == some 2 || r.seq == 0
      let s := ((s.setFld (rplReg n rRPL_HEAD) 0 25 ((head + units) % u)).bumpBy rRPL_CNT_ENTRY es.length).updRec n
        (fun r => { r with seq := if r.req = some 2 then r.seq else r.seq + es.length })
      if first && (es.head?.map (s.startFails n)).getD true then s.diverge n 1 at'
      else
        match es.findSome? entryFails with
        | some why => s.diverge n why at'
        | none => s.updRec n (fun r => es.foldl RecPart.take r))

/-- Why a replayed stroke cannot begin at this edge (R455); `need` quadrants of its entry must be among those ready. -/
def State.replayBlocked (s : State) (n : Nat) : Bool :=
  let r := s.recOf n
  match r.rStroke with
  | none => true
  | some w =>
    let w0 := w.headD 0
    let idle := bit w0 6 || bit w0 7
    let use := match (s.part n).lib with
      | some l => ((l.entries[bits w0 0 6]?).map (fun b => bits b.raw.toNat 12 4)).getD 0
      | none => 0
    let m := (s.part n).stroke.toNat + 1
    let done := (s.readySwaps n m).length + (s.readyCommits n m).length
    let quads := (List.range 4).all (fun q => !(bit use q) || (s.partSites n).all (fun p => s.quadOn p q))
    (!idle && (!quads || s.held n)) || decide (done < w0 / 2 ^ 12) ||
      r.rBg.any (fun i => (s.stream i).st == .draining || ((s.stream i).started &&
        (((s.stream i).ops.head?).map (fun o => o.opc == 4 || o.opc == 5 || o.opc == 6)).getD false)) ||
      (List.range 16).any (fun q => decide ((s.qp n q).room < (r.rAdmit.filter (fun a => a.1 == q)).length))

/-- A tick is consumed as a replay wait (R455). -/
def State.replayWait (s : State) (n : Nat) : State :=
  let s := (s.bump rRPL_CNT_WAIT).setFld (rplReg n rRPL_STATUS) 29 1 1
  let s := s.updRec n (fun r => { r with waits := r.waits + 1 })
  let s := s.updPart n (fun p => { p with slipDepth := p.slipDepth + 1, waits := p.waits + 1 })
  if s.fld (rplReg n rRPL_CTL) 16 8 ≤ (s.recOf n).waits then s.diverge n 7 (s.recordedOf n ((s.part n).stroke.toNat + 1)) else s

end Sys2Proof.Machine
end

