-- ==== Sys2Proof/Machine/Boot.lean ====
section
/-! DEFINITION. Panel reset, the boot phases, images, life cycle and test access (chapter 14). -/

namespace Sys2Proof.Machine

/-! ### Results and phases (R369, R370, R389) -/

/-- PHASE (Table 14.1). -/
def State.phase (s : State) : Nat := s.fld rSEC_BOOT_STAT 0 4
def State.setPhase (s : State) (p : Nat) : State := s.setFld rSEC_BOOT_STAT 0 4 p
/-- SEC_BOOT_STAT after a command: RESULT and PART; a refusal sets CMD_ERR. -/
def State.secResult (s : State) (res part : Nat) : State :=
  let s := (s.setFld rSEC_BOOT_STAT 27 3 res).setFld rSEC_BOOT_STAT 4 4 part
  if res = 0 then s else s.sticky rSEC_BOOT_STAT 31
/-- Commands and writes of the SEC block are accepted through J4, and through every port from READY on (R370). -/
def State.secOpen (s : State) (port : Nat) : Bool := port == 0 || s.phase == 6
/-- Vector 0 of the J4 PF, where the host has enabled it. -/
def State.raiseBoot (s : State) : State := if mget false s.host.msixOn 0 then s.raiseVec 0 0 0 else s
/-- The panel enters WAIT_IMAGE, or HALTED in SCRAPPED. -/
def State.enterWait (s : State) : State := if s.lifeCycle = 4 then s.setPhase 8 else (s.setPhase 1).raiseBoot
/-- Commands that `port` may not give are refused. -/
def State.secCommand (s : State) (port : Nat) (f : State → State) : State :=
  if s.secOpen port then f s else s.sticky rSEC_BOOT_STAT 31

/-! ### Panel reset (R368, R414) -/

/-- A panel reset: cause 0 power-up, 1 RESET#, 2 PANEL_RESET, 3 TAP_ENABLE. Fuses, repair maps and the hub domains stay, and
except at a power-up the last 32 journal entries, the last-ditch file and (with causes 2 and 3) TAP_EN. -/
def State.panelReset (s : State) (cause : Nat) : State :=
  let up := cause == 0
  let r := State.reset
  let old := s.jrnl.held
  let kept := if up then [] else old.drop (old.length - 32)
  let j : JrnlSt := if up then r.jrnl
    else { r.jrnl with ditch := s.jrnl.ditch, ditch15 := s.jrnl.ditch15, standby := kept, cause := cause }
  let b : BootSt := { r.boot with
    lcFuse := s.boot.lcFuse, svnMin := s.boot.svnMin, revoked := s.boot.revoked, lcNow := s.boot.lcFuse, keys := up || s.boot.keys }
  let n : State := { r with
    time := s.time, free := s.free, out := s.out, pending := s.pending, boot := b, inp := s.inp, jrnl := j,
    bist := { s.bist with pos := [], latch := [] }, comb := { r.comb with repair := s.comb.repair },
    dom := { r.dom with doms := if up then [] else s.dom.doms.filter (fun e => decide (408 ≤ e.1) && decide (e.1 < 420)) } }
  let n := if up then n
    else (((n.setFld rFLT_STBY_STAT 24 8 (s.fld rFLT_STBY_STAT 24 8)).setFld rFLT_STBY_STAT 2 6 kept.length).setFld
      rFLT_STBY_STAT 0 2 cause).jrnlStat
  if 2 ≤ cause ∧ s.flag rSEC_LC 31 then n.setFld rSEC_LC 31 1 1 else n

/-- Power-good asserts once charging is complete and the input has held (R465). -/
def execPowerGood (t : Nat) (s : State) : Res :=
  .next (let s : State := s.at t
    if s.inp.good || s.inp.failing || s.inp.stage != 1 then s
    else
      let s := s.panelReset 0
      { s with inp := { s.inp with stage := 3, standby := true, good := true } })

/-- RESET# has been low for 10 µs (R478). -/
def execResetPin (t : Nat) (s : State) : Res :=
  .next (let s : State := s.at t
    let s := if s.inp.good then s.panelReset 1 else s
    { s with inp := { s.inp with resetLow := true } })

def execResetRelease (s : State) : Res := .next { s with inp := { s.inp with resetLow := false } }

/-- PANEL_RESET of SEC_BOOT_CMD. -/
def execPanelReset (port : Nat) (s : State) : Res := .next (s.secCommand port (fun (s : State) => s.panelReset 2))

/-- A port is up: its functions can carry traffic; their VFs are enabled (log entry 46). -/
def State.portUp (s : State) (port : Nat) : State :=
  { s with host := { s.host with
      portsUp := orBit s.host.portsUp port, vfEn := setBits s.host.vfEn (17 * port) 17 (2 ^ 17 - 2) } }

/-- ROM_INIT ends: the hubs that completed it and their ports; HBM supplies are requested (R369, R405). -/
def execRomInitComplete (ports hubs t : Nat) (s : State) : Res :=
  .next (let s : State := s.at t
    if s.phase ≠ 0 ∨ s.inp.resetLow ∨ !s.inp.good then s
    else
      let up := setBitsOf 4 hubs
      let s := up.foldl (fun (s : State) h =>
        (List.range 3).foldl (fun (s : State) d => s.setDom (408 + 3 * h + d) { Dom.init with st := 4 }) s) s
      let s := { s with boot := { s.boot with badHubs := 15 - hubs % 16 } }
      let s := (setBitsOf 4 ports).foldl (fun (s : State) p => s.portUp p) s
      let s := (List.range 68).foldl (fun (s : State) k => s.domRequest (6 * k + 5)) s
      if s.boot.clear.isSome then s.setPhase 7 else s.enterWait)

/-- Training of the stack of site `p` ends; `fail`: the failing channel (R369). -/
def execHbmTrainingComplete (p : Nat) (fail : Option Nat) (t : Nat) (s : State) : Res :=
  .next (let s : State := s.at t
    if isHub p ∨ 71 < p ∨ 5 < s.phase then s
    else
      let s := { s with boot := { s.boot with trained := p :: s.boot.trained.filter (fun x => x != p) } }
      match fail with
      | none => s
      | some c =>
        let s := { s with fab := { s.fab with siteOut := mset false s.fab.siteOut p true } }
        let spare := if (s.lsite p).isSome then s.spareSites.head? else none
        let s := s.tickFault 0x13C3 16 p (p + spare.getD 0x7F * 2 ^ 7) (c % 32)
        match s.lsite p, spare with
        | some l, some q => s.rebind l q 0
        | _, _ => s)

/-! ### Interface level and commands (R371, R373, R382) -/

/-- A write of SEC_IFLEVEL.REQ, which reads as written; what is substituted is the level agreed (log entry 162). -/
def execIflevelRequest (req port : Nat) (s : State) : Res :=
  .next (if port ≠ 0 ∨ s.phase ≠ 1 then s.sticky rSEC_BOOT_STAT 31
    else
      let s := (s.setFld rSEC_IFLEVEL 0 4 req).setFld rSEC_IFLEVEL 8 4 1
      if req % 16 = 1 then s else s.clamped 4 [⟨0x800B0010, req % 16, 1, 8⟩])

/-- A load is in progress. -/
def State.loadBusy (s : State) : Bool := s.boot.cmd.isSome || !s.boot.reload.isEmpty

/-- Banks written for the sites of a partition lose VALID (R376). -/
def State.dropBanks (s : State) (n : Nat) : State :=
  let ps := s.partSites n
  { s with comb := { s.comb with hdr := s.comb.hdr.filterMap (fun (e : Nat × SlotHdr) =>
      if ps.contains (e.1 / 66 / 4160) then
        let h : SlotHdr := { e.2 with valid := false, checking := false }
        if h = SlotHdr.init then none else some (e.1, h)
      else some e) } }

/-- Partitions that an image loads. -/
def Image.parts (x : Image) : List Nat :=
  match x.target with
  | some n => [n]
  | none => (x.sects.filter (fun e => e.ty == 4)).map (fun e => e.part)

/-- An image is rejected: reason of Table 14.5, section (0xFF the header) and port (R376). -/
def State.rejectImage (s : State) (reason sec port version : Nat) : State :=
  let r := rSEC_BOOT_STAT
  let s := (((s.sticky r 30).setFld r 20 4 reason).setFld r 8 8 sec).setFld r 16 4 0
  let d0 := reason + sec * 2 ^ 4 + port % 16 * 2 ^ 12
  match s.boot.cmd with
  | none => s
  | some c =>
    if c < 16 then
      let s := ((s.dropBanks c).updPart c (fun p => { p with lib := none, loadFailed := false, loadDone := false })).setPState c .configured
      let e := s.event 0x33C2 c 0x3FFF (hubSite 0) (d0 + c * 2 ^ 16) version
      (({ s with boot := { s.boot with cmd := none, image := none } } : State).queueEvent
        { e with num := s.tick.number.toNat, tnum := true }).raiseBoot
    else
      let s := s.tickFault 0x43C1 16 (hubSite 0) d0 version
      let ns := (List.range 16).filter (fun n => (s.part n).st != .unconfigured)
      let s := ns.foldl (fun (s : State) n => (s.dropBanks n).freePartition n) s
      -- nothing of the image stays in use
      let s := { s with
        staged := [], clt := { s.clt with staged := [] },
        boot := { s.boot with cmd := none, image := none, loading := false, fw := false },
        wgl := { s.wgl with od := [], gcl := [], gclNext := none } }
      (((s.setFld rGLB_WGL_STAT 24 8 1).setFld rGLB_WGL_STAT 5 1 0).setPhase 1).raiseBoot

/-- LOAD_BOOT. -/
def execLoadBoot (port : Nat) (s : State) : Res :=
  .next (s.secCommand port (fun (s : State) =>
    if s.phase = 8 then (({ s with boot := { s.boot with cmd := some 16 } } : State).rejectImage 10 0xFF 0 0).setPhase 8
    else if s.loadBusy then s.secResult 1 0
    else if s.phase ≠ 1 ∨ s.boot.badHubs ≠ 0 then s.secResult 4 0
    else if s.fld rSEC_IFLEVEL 8 4 = 0 then s.secResult 3 0
    else
      ((({ s with boot := { s.boot with cmd := some 16, image := none } } : State).secResult 0 0).setPhase 2).setReg rSEC_LOAD_BYTES 0))

/-- LOAD_PART. -/
def execLoadPart (n port : Nat) (s : State) : Res :=
  .next (s.secCommand port (fun (s : State) =>
    if s.loadBusy then s.secResult 1 n
    else if s.phase ≠ 6 ∨ (s.part n).st ≠ .configured ∨ 15 < n then s.secResult 4 n
    else
      let s := { s with boot := { s.boot with cmd := some n, image := none } }
      let s := ((s.secResult 0 n).setFld rSEC_BOOT_STAT 16 4 n).setReg rSEC_LOAD_BYTES 0
      (s.updPart n (fun p => { p with lib := none, loadFailed := false, loadDone := false })).setPState n .loading))

/-- A SEC_BOOT_CMD with a reserved CMD or a non-zero reserved field (R389). -/
def execSecBootCmdInvalid (w : BitVec 32) (port : Nat) (s : State) : Res :=
  .next (s.secCommand port (fun (s : State) =>
    let x := w.toNat
    if bits x 28 4 ≠ 0 ∨ bits x 19 5 ≠ 0 ∨ bits x 4 12 ≠ 0 ∨ bits x 24 4 = 0 ∨ 5 < bits x 24 4 then s.secResult 2 (bits x 0 4) else s))

/-! ### The image header (R374-R377) -/

/-- Bytes of a header given as words. -/
def hdrBytes (h : List (BitVec 32)) (off n : Nat) : List (BitVec 8) :=
  (List.range n).map (fun i => BitVec.ofNat 8 (bits (h.getD ((off + i) / 4) 0).toNat (8 * ((off + i) % 4)) 8))
def hdrWordAt (h : List (BitVec 32)) (off : Nat) : Nat := (h.getD (off / 4) 0).toNat
def bytesNat (l : List (BitVec 8)) : Nat := packNat 8 (l.map BitVec.toNat)

/-- Key slots: fused, its hash, and revoked (log entry 5). -/
def slotFused (k : Nat) : Bool := Config.fused 5 (20 + k) % 2 == 1
def slotHash (k : Nat) : Nat := Config.fused 5 (24 + k)
def State.slotRevoked (s : State) (k : Nat) : Bool := bit s.boot.revoked k || Config.fused 5 (28 + k) % 2 == 1
/-- The manufacturing key of the boot ROM. -/
def romKey : Nat := Config.fused 5 40
def State.svnMin (s : State) : Nat := s.boot.svnMin.getD (Config.fused 5 41 % 64)

/-- Is a range of header bytes zero? -/
def hdrZero (h : List (BitVec 32)) (off n : Nat) : Bool := (hdrBytes h off n).all (fun b => b == 0)
/-- Section entry `i` (Table 14.3) at this header offset. -/
def sectOff (i : Nat) : Nat := 0x100 + 64 * i
def sectOf (h : List (BitVec 32)) (i : Nat) : ImgSect :=
  let w := hdrWordAt h (sectOff i)
  ⟨bits w 0 8, bits w 8 4, hdrWordAt h (sectOff i + 8) + 2 ^ 32 * hdrWordAt h (sectOff i + 12), bytesNat (hdrBytes h (sectOff i + 16) 48)⟩

/-- Check 1 of Table 14.5. -/
def headerBad (h : List (BitVec 32)) : Bool :=
  let w (o : Nat) : Nat := hdrWordAt h o
  w 0 != 0x43414F4D || w 4 != 1 || bits (w 8) 12 4 != 0 || bits (w 8) 20 12 != 0 || bits (w 12) 0 16 != 0x4B32 || bits (w 12) 20 12 != 0 ||
  decide (2 < bits (w 12) 16 4) || bits (w 16) 10 2 != 0 || bits (w 16) 16 16 != 0 || bits (w 24) 8 24 != 0 ||
  (bits (w 8) 0 8 != 1 && (bit (w 16) 6 || bits (w 16) 12 4 != 0)) ||
  (List.range 128).any (fun i => bits (w (sectOff i)) 12 20 != 0) ||
  !(hdrZero h 0x30 0xD0) || !(hdrZero h 0x2161 0x9F) || !(hdrZero h 0x2260 0x1DA0)

/-- Check 2: the kind against the command, TPART and SERIAL. -/
def State.kindBad (s : State) (h : List (BitVec 32)) (c : Nat) : Bool :=
  let w := hdrWordAt h 8
  let kind := bits w 0 8
  let ser := hdrWordAt h 0x20 + 2 ^ 32 * hdrWordAt h 0x24
  !(if c < 16 then kind == 2 && bits w 8 4 == c else (kind == 1 || (kind == 3 && s.lifeCycle == 2)) && bits w 8 4 == 0) ||
  (ser != 0 && ser != serial) || (kind == 3 && ser == 0)

/-- Check 4: the key is accepted in this state (Table 14.7). -/
def State.keyBad (s : State) (h : List (BitVec 32)) : Bool :=
  let w := hdrWordAt h 16
  let lc := s.lifeCycle
  let pub := hdrBytes h 0x2100 97
  if bit w 7 then !(lc == 0 || lc == 3) || bytesNat pub != romKey
  else
    let k := bits w 8 2
    lc == 0 || !(slotFused k) || Config.digest pub != slotHash k || s.slotRevoked k

/-- Check 6. -/
def State.rollbackBad (s : State) (h : List (BitVec 32)) : Bool :=
  let w := hdrWordAt h 16
  let rev := bits w 12 4
  (s.lifeCycle == 2 && decide (bits w 0 6 < s.svnMin)) ||
  (rev != 0 && ((!(bit w 7) && bit rev (bits w 8 2)) ||
    (List.range 4).all (fun k => !(slotFused k) || s.slotRevoked k || bit rev k)))

/-- Check 7: counts, types, sizes and placement (Table 14.4). -/
def layoutBad (h : List (BitVec 32)) (c : Nat) : Bool :=
  let n := bits (hdrWordAt h 24) 0 8
  let kind := bits (hdrWordAt h 8) 0 8
  let len := hdrWordAt h 0x28 + 2 ^ 32 * hdrWordAt h 0x2C
  let l := (List.range (min 128 n)).map (fun i => (sectOf h i, hdrWordAt h (sectOff i + 4)))
  let cnt (ty p : Nat) : Nat := (l.filter (fun x => x.1.ty == ty && (decide (ty < 4) || x.1.part == p))).length
  let loads := if kind = 1 then ((l.filter (fun x => x.1.ty == 4)).map (fun x => x.1.part)).eraseDups else if kind = 2 then [c] else []
  decide (128 < n) || len % 4096 != 0 || !(hdrZero h (sectOff n) (64 * (128 - n))) ||
  l.any (fun x =>
    let a := 4096 * x.2
    x.1.ty == 0 || decide (7 < x.1.ty) || decide (x.2 < 4) || x.1.len == 0 || decide (len < a + x.1.len) ||
    (x.1.ty == 1 && decide (2 ^ 23 < x.1.len)) || (x.1.ty == 2 && decide (2 ^ 17 < x.1.len)) ||
    (kind != 1 && (decide (x.1.ty < 5) || x.1.part != c)) ||
    decide (1 < (l.filter (fun y => meets (a, a + x.1.len) (4096 * y.2, 4096 * y.2 + y.1.len))).length)) ||
  (kind == 1 && (cnt 1 0 != 1 || cnt 2 0 != 1 || decide (1 < cnt 3 0))) || (kind == 3 && n != 0) ||
  (List.range 16).any (fun p => decide (1 < cnt 4 p) || decide (1 < cnt 5 p) || decide (64 < cnt 7 p)) || loads.any (fun p => cnt 6 p != 1)

/-- The port of `up` with the fewest bytes assigned, the lowest on a tie (R373). -/
def leastPort (load : List Nat) (up : List Nat) : Nat :=
  up.foldl (fun b p => if load.getD p 0 < load.getD b 0 then p else b) (up.headD 0)
/-- Ports of sections of these lengths, assigned in section-table order to the ports of `up` (R373; the order is DEDUCED, log
entry 160); `load`: bytes assigned to each port so far. -/
def assignPorts (up : List Nat) : List Nat → List Nat → List Nat
  | _, [] => []
  | load, n :: t =>
    let p := leastPort load up
    p :: assignPorts up (load.set p (load.getD p 0 + n)) t
/-- Ports through which an image is read: every port that is up, and for one partition those of its PORTS set (R373, R382). -/
def State.loadPorts (s : State) (c : Nat) : List Nat :=
  setBitsOf 4 (if c < 16 then s.host.portsUp &&& (s.part c).g.ports else s.host.portsUp)
/-- The unfinished sections of port `q`, which has gone down, are read again through the ports of `up` (R373). -/
def Image.reassign (x : Image) (q : Nat) (up : List Nat) : Image :=
  let r := (List.range x.sects.length).foldl (fun (y : List Nat × List Nat) i =>
    let n := ((x.sects[i]?).map (fun e => e.len)).getD 0
    if x.via.getD i 0 = q ∧ !(x.got.contains i) then
      let p := leastPort y.1 up
      (y.1.set p (y.1.getD p 0 + n), y.2 ++ [p])
    else (y.1, y.2 ++ [x.via.getD i 0]))
    ((List.range 4).map (fun p => (((List.range x.sects.length).filter (fun i => x.via.getD i 0 == p)).map
      (fun i => ((x.sects[i]?).map (fun e => e.len)).getD 0)).foldl (· + ·) 0), [])
  { x with via := r.2 }

/-- The first check of the header that fails (R376), 0 none. -/
def State.headerReason (s : State) (h : List (BitVec 32)) (c : Nat) : Nat :=
  let measure := Config.digest (hdrBytes h 0 0x2200)
  if headerBad h then 1
  else if s.kindBad h c then 6
  else if bits (hdrWordAt h 8) 16 4 ≠ s.fld rSEC_IFLEVEL 8 4 then 7
  else if s.keyBad h then 2
  else if !(Config.sigValid (bytesNat (hdrBytes h 0x2100 97)) measure (bytesNat (hdrBytes h 0x2200 96))) then 3
  else if s.rollbackBad h then 5
  else if layoutBad h c then 8
  else 0

/-- The image header has been read through `port`, or its read has failed (R373, R376). -/
def execImageHeaderReceived (hdr : Option (List (BitVec 32))) (port t : Nat) (s : State) : Res :=
  .next (let s : State := s.at t
    match s.boot.cmd, s.boot.image with
    | some c, none =>
      match hdr with
      | none => s.rejectImage 9 0xFF port 0
      | some h =>
        let s := s.bumpBy rSEC_LOAD_BYTES 0x4000
        let w := hdrWordAt h 16
        let version := hdrWordAt h 20
        let r := s.headerReason h c
        if r ≠ 0 then s.rejectImage r 0xFF port version
        else if bits (hdrWordAt h 8) 0 8 = 3 then
          -- an accepted token schedules the transition to RMA, after full clearing (R377, R385), unless one is pending (log entry 161)
          let s := { s with boot := { s.boot with cmd := none } }
          if s.boot.lcGoal.isSome then s.enterWait
          else ({ s with boot := { s.boot with lcGoal := some 3, clear := some (1, t) } } : State).setPhase 7
        else
          let img : Image :=
            { target := if c < 16 then some c else none, version := version, svn := bits w 0 6, adv := bit w 6, romkey := bit w 7,
              keyslot := bits w 8 2, revoke := bits w 12 4, measure := Config.digest (hdrBytes h 0 0x2200),
              sects := (List.range (bits (hdrWordAt h 24) 0 8)).map (sectOf h), got := [],
              via := assignPorts (s.loadPorts c) [0, 0, 0, 0]
                ((List.range (bits (hdrWordAt h 24) 0 8)).map (fun i => (sectOf h i).len)) }
          let s := { s with boot := { s.boot with image := some img } }
          if c < 16 then
            let s := { s with sls := { s.sls with xlat := s.sls.xlat.filter (fun e => e.1 / 4096 != c) } }
            (s.partSites c).foldl (fun (s : State) p => s.quadsUp p) s
          else ({ s with boot := { s.boot with loading := true } } : State).setPhase 3
    | _, _ => s)

/-! ### Sections (R378-R381) -/

/-- Entry sizes and entry counts of the configuration record tables (Table 14.6). -/
def recSize (t : Nat) : Nat := [0, 32, 2304, 128, 4096, 64, 8, 8].getD t 0
def recCount (t : Nat) : Nat := [0, 64, 65536, 64, 32, 16, 448, 4096].getD t 0
/-- Are the records of a CONFIG section badly framed (R380)? -/
def State.framesBad (s : State) (n : Nat) : Nat → List Nat → Bool
  | 0, l => !l.isEmpty
  | fuel + 1, l =>
    if l.isEmpty then false
    else
      let w (i : Nat) : Nat := packNat 8 ((l.drop (4 * i)).take 4)
      let tb := bits (w 0) 0 8
      let ls := bits (w 1) 0 7
      decide (l.length < 16) || tb == 0 || decide (7 < tb) || bits (w 0) 8 24 != 0 || bits (w 1) 7 25 != 0 ||
      (ls != 0x7F && (decide (63 < ls) || !bit (s.part n).g.sites ls)) || (tb == 7 && ls != 0x7F) ||
      decide (recCount tb < w 2 + w 3) || decide (l.length < 16 + w 3 * recSize tb) ||
      s.framesBad n fuel (l.drop (16 + w 3 * recSize tb))

/-- Write items up to the end of an OBJECTS section (R379). -/
def itemsToEnd : Nat → List Nat → List WItem
  | 0, _ => []
  | n + 1, l =>
    let len := bigNat [l.getD 4 0, l.getD 5 0]
    let size := 8 + len + (4 - len % 4) % 4
    if l.length < 8 ∨ l.length < size then []
    else ⟨bigNat [l.getD 0 0, l.getD 1 0], l.getD 2 0, l.getD 3 0, (l.drop 8).take len⟩ :: itemsToEnd n (l.drop size)

/-- Has every section been taken that must be applied before section `i` (R379, R381)? -/
def Image.ready (x : Image) (i : Nat) : Bool :=
  let all := (List.range x.sects.length).zip x.sects
  let done (f : Nat × ImgSect → Bool) : Bool := all.all (fun y => !(f y) || x.got.contains y.1)
  match x.sects[i]? with
  | none => false
  | some e =>
    let own (ty : Nat) : Bool := done (fun y => y.2.ty == ty && y.2.part == e.part)
    if e.ty < 3 then true
    else
      done (fun y => decide (y.2.ty < 3)) && (e.ty == 3 || (done (fun y => y.2.ty == 3) && (e.ty == 4 || (own 4 &&
        (e.ty == 5 || (own 5 && (e.ty == 6 || (own 6 &&
          done (fun y => y.2.ty == 7 && y.2.part == e.part && decide (y.1 < i))))))))))

/-- The firmware runs: the events that the boot ROM kept are journalled (R388). -/
def State.startFw (s : State) : State :=
  let e := s.boot.early
  e.foldl (fun (s : State) x => s.queueEvent x) { s with boot := { s.boot with fw := true, early := [] } }

/-- What a section does once its digest has been checked: the state and the reason of a rejection, 0 none. -/
def State.applySection (s : State) (img : Image) (e : ImgSect) (bytes : List Nat) (plans : List (List SectPlan)) : State × Nat :=
  let loads := img.parts.contains e.part
  if e.ty = 3 then
    let items := itemsToEnd 1024 (bytes.drop 4)
    let o := s.writeItems false items
    ((o.st.clamped 6 o.es).applyLink o.link o.gcl, 0)
  else if e.ty = 4 then
    let r := s.configure e.part 6 (packNat 8 (bytes.take 128))
    if 2 ≤ r.1 then (r.2, 12)
    else
      match (r.2.part e.part).pend with
      | some (.configure g) =>
        let s := ((r.2.applyWheel).applyConfigure e.part g).setPState e.part .loading
        ((s.partSites e.part).foldl (fun (s : State) p => s.quadsUp p) s, 0)
      | _ => (r.2, 0)
  else if !loads then (s, 0)
  else if e.ty = 5 then (s, if s.framesBad e.part bytes.length bytes then 11 else 0)
  else if e.ty = 6 then
    if (s.partSites e.part).any (fun p => mget false s.fab.siteOut p) then (s, 12)
    else
      ((s.unbindRest e.part).loadLibrary e.part (readLibrary bytes plans), 0)
  else (s, 0)

/-- Section `i` has been read whole through `port`, the one it was assigned to, or its read has failed. `plans`: where the items of a DUCTUS section's
per-site sections lie, by bucket entry and site rank. -/
def execSectionReceived (i : Nat) (bytes : Option (List (BitVec 8))) (plans : List (List SectPlan)) (port t : Nat) (s : State) : Res :=
  .next (let s : State := s.at t
    match s.boot.image with
    | none => s
    | some img =>
      if img.got.contains i ∨ img.sects.length ≤ i ∨ img.via.getD i 0 ≠ port then s
      else
        match bytes, img.sects[i]? with
        | some b, some e =>
          if !img.ready i then s
          else
            let s := s.bumpBy rSEC_LOAD_BYTES b.length
            if b.length ≠ e.len ∨ Config.digest b ≠ e.digest then s.rejectImage 4 i port img.version
            else
              let img' := { img with got := i :: img.got }
              let s := { s with boot := { s.boot with image := some img' } }
              let r : State × Nat := s.applySection img' e (b.map BitVec.toNat) plans
              let bad : Bool := img.parts.any (fun n => (r.1.part n).loadFailed)
              if r.2 != 0 || bad then r.1.rejectImage (if r.2 ≠ 0 then r.2 else 12) i port img.version
              else
                let all := (List.range img.sects.length).zip img.sects
                let fwDone := all.all (fun y => !(decide (y.2.ty < 3)) || img'.got.contains y.1)
                let s := if img.target.isNone ∧ fwDone ∧ !r.1.boot.fw then (r.1.startFw).setPhase 4 else r.1
                if img.target.isNone ∧ img'.got.length = img.sects.length then s.setPhase 5 else s
        | _, _ => s.rejectImage 9 i port img.version)

/-- Is a bank header check of a partition's site in progress? -/
def State.checking (s : State) (n : Nat) : Bool :=
  let ps := s.partSites n
  s.comb.hdr.any (fun e => e.2.checking && ps.contains (e.1 / 66 / 4160))
/-- Words of a measurement register block. -/
def State.setMeas (s : State) (r x : Nat) : State :=
  (List.range 12).foldl (fun (s : State) i => s.setReg (r + 4 * i) (BitVec.ofNat 64 (bits x (32 * i) 32))) s
def State.meas (s : State) (r : Nat) : Nat := packNat 32 ((List.range 12).map (fun i => s.fld (r + 4 * i) 0 32))

/-- The fuse updates of a boot image that has reached READY in FIELD (R377). -/
def State.fuseUpdates (s : State) (x : Image) : State :=
  if s.lifeCycle ≠ 2 then s
  else
    let note (s : State) : State :=
      s.tickFault 0x03C6 16 (hubSite 0) (s.svnMin + ((List.range 4).filter s.slotRevoked).foldl orBit 0 * 2 ^ 8) 0
    let s := if x.adv ∧ s.svnMin < x.svn then note { s with boot := { s.boot with svnMin := some x.svn } } else s
    (setBitsOf 4 x.revoke).foldl (fun (s : State) k => note { s with boot := { s.boot with revoked := orBit s.boot.revoked k } }) s

/-- FINAL_CHECK ends and the panel is READY, once the last header check and every stack's training have completed (R381). -/
def execBootReady (t : Nat) (s : State) : Res :=
  .next (let s : State := s.at t
    match s.boot.image with
    | none => s
    | some img =>
      let ns := img.parts
      if s.phase ≠ 5 ∨ !((List.range 72).all (fun p => isHub p || s.boot.trained.contains p)) ∨ ns.any s.checking then s
      else if ns.any (fun n => (s.part n).loadFailed || (s.partSites n).any (fun p => mget false s.fab.siteOut p)) then
        s.rejectImage 12 0xFF 0 img.version
      else
        let s := (s.setPhase 6).setMeas rSEC_MEAS img.measure
        let s := (List.range 4).foldl (fun (s : State) k => s.setFld rSEC_KEYS (4 * k + 2) 1 (b2n (!img.romkey && img.keyslot == k))) s
        let s := { s with boot := { s.boot with
          cmd := none, image := none, loading := false, version := img.version } }
        let s := ns.foldl (fun (s : State) n => s.updPart n (fun p => { p with loadDone := true })) s
        (s.fuseUpdates img).raiseBoot)

/-! ### Reloading (R382, R404) -/

/-- The checks of a partition's load are over. `measured`: the measurement of the image in host memory at a repair reload, which
took `ms`. -/
def execPartLoadComplete (n : Nat) (measured : Nat) (ms t : Nat) (s : State) : Res :=
  .next (let s : State := s.at t
    let out := (s.partSites n).any (fun p => mget false s.fab.siteOut p)
    let done (s : State) : State := s.updPart n (fun p => { p with loadDone := true })
    match s.boot.image with
    | some img =>
      if img.target ≠ some n ∨ img.got.length ≠ img.sects.length ∨ s.checking n then s
      else if (s.part n).loadFailed ∨ out then s.rejectImage 12 0xFF 0 img.version
      else
        let s := ((s.setMeas (rSEC_PMEAS + 0x30 * n) img.measure).setFld rSEC_BOOT_STAT 16 4 0)
        done { s with boot := { s.boot with cmd := none, image := none } }
    | none =>
      let xs := s.boot.reload.filter (fun x => x.1 == n)
      if xs.isEmpty then s
      else
        let own := s.meas (rSEC_PMEAS + 0x30 * n)
        let s := { s with boot := { s.boot with reload := s.boot.reload.filter (fun y => y.1 != n) } }
        if (s.part n).loadFailed ∨ out ∨ measured ≠ (if own = 0 then s.meas rSEC_MEAS else own) then
          (s.updPart n (fun p => { p with loadFailed := false })).setPState n .configured
        else
          let s := xs.foldl (fun (s : State) x =>
            let e := s.event 0x0404 n 0x3FFF x.2.2.2 (x.2.1 + x.2.2.1 * 2 ^ 6 + x.2.2.2 * 2 ^ 13) (ms % 2 ^ 16)
            s.queueEvent { e with num := s.tick.number.toNat, tnum := true }) s
          done s)

/-! ### Life cycle, clearing and test access (R384-R387) -/

/-- TAP_ENABLE. -/
def execTapEnable (port t : Nat) (s : State) : Res :=
  .next (let s : State := s.at t
    s.secCommand port (fun (s : State) =>
      let lc := s.lifeCycle
      if s.phase = 7 then s.secResult 1 0
      else if s.flag rSEC_LC 30 ∧ lc ≠ 4 then
        if lc = 0 ∨ lc = 3 then
          let s := ({ s with boot := { s.boot with keys := false } } : State).secResult 0 0
          (s.setFld rSEC_LC 31 1 1).tickFault 0x03C5 16 (hubSite 0) 1 0
        else s.secResult 5 0
      else
        let s := s.panelReset 3
        { s with boot := { s.boot with clear := some (0, t) } }))

/-- LC_ADVANCE. -/
def execLcAdvance (target port t : Nat) (s : State) : Res :=
  .next (let s : State := s.at t
    s.secCommand port (fun (s : State) =>
      let lc := s.lifeCycle
      if s.boot.lcGoal.isSome then s.secResult 1 0
      else if s.phase ≠ 1 ∨ s.loadBusy then s.secResult 4 0
      else if (lc = 0 ∧ target = 1 ∧ (List.range 4).any slotFused) ∨ (lc = 1 ∧ target = 2) then
        ({ s with boot := { s.boot with lcGoal := some target, lcDue := true } } : State).secResult 0 0
      else if target = 4 then
        (({ s with boot := { s.boot with lcGoal := some 4, clear := some (2, t) } } : State).setPhase 7).secResult 0 0
      else s.secResult 4 0))

/-- Full clearing is complete and reads back 0 everywhere (R386). -/
def execSecretsCleared (ms t : Nat) (s : State) : Res :=
  .next (let s : State := s.at t
    match s.boot.clear with
    | none => s
    | some (c, _) =>
      if s.phase ≠ 7 then s
      else
        let r := State.reset
        let s := { s with
          comb := { r.comb with repair := s.comb.repair }, rq := r.rq, sparse := r.sparse, desc := r.desc, kv := r.kv, spad := r.spad,
          sls := { s.sls with xlat := [] }, parts := s.parts.map (fun (e : Nat × Part) => (e.1, { e.2 with errq := [] })),
          host := { s.host with streams := [], qps := [] },
          boot := { s.boot with keys := false, clear := none, lcDue := s.boot.lcDue || decide (c ≠ 0) } }
        let s := if c = 0 then s.setFld rSEC_LC 31 1 1 else s
        (s.tickFault 0x03C5 16 (hubSite 0) (c * 2) (ms % 2 ^ 16)).enterWait)

/-- The life-cycle fuses are programmed; the new state is in force from the next panel reset (R385). -/
def execLifecycleFusesProgrammed (t : Nat) (s : State) : Res :=
  .next (let s : State := s.at t
    match s.boot.lcGoal with
    | some g =>
      if !s.boot.lcDue then s
      else
        let s := { s with boot := { s.boot with lcDue := false, lcFuse := some g } }
        let s := (s.setFld rSEC_LC 18 1 1).setFld rSEC_LC 15 3 g
        s.tickFault 0x03C4 16 (hubSite 0) (s.lifeCycle + g * 2 ^ 3) (serial % 2 ^ 32)
    | none => s)

end Sys2Proof.Machine
end

