-- ==== Sys2Proof/Machine/BootCfg.lean ====
section
/-! DEFINITION. Configuration records (R380, Table 14.6): each table's entries, clamped field by field (R12). -/

namespace Sys2Proof.Machine

/-- A reserved field that becomes 0. -/
def fixZero (row v : Nat) : Fix := fixTo row v 0 4

/-- A row function entry (R177). LEN of an entry that ends its program is not checked (log entry 74). -/
def clampRfu (e : Nat) : Nat × List ClampEntry :=
  let rng := fixRange 0 64 16384 (rfLen e)
  let len := if rfFn e = 0 then ⟨rfLen e, []⟩ else if rng.es.isEmpty then fixTo 0 (rfLen e) (rfLen e / 64 * 64 : Nat) 7 else rng
  let srcb := fixTo 2 (rfSrcB e) (min 2 (rfSrcB e) : Nat) 5
  let srca := fixTo 3 (rfSrcA e) (min 1 (rfSrcA e) : Nat) 5
  let z3 := fixZero 7 (wf e 3 26 6)
  let z4 := fixZero 8 (wf e 4 26 6)
  let z5 := fixZero 9 (wf e 5 26 6)
  let z6 := fixZero 10 (wf e 6 0 32 + 2 ^ 32 * wf e 7 0 32)
  (packNat 32 [rfFn e + srca.v.toNat * 2 ^ 6 + srcb.v.toNat * 2 ^ 8 + rfTbl e * 2 ^ 11 + len.v.toNat * 2 ^ 16,
      wf e 1 0 32, wf e 2 0 32, rfOffA e, rfOffB e, rfOffG e],
    len.es ++ srcb.es ++ srca.es ++ z3.es ++ z4.es ++ z5.es ++ z6.es)

/-- Largest divisor of `h` at or below `g`. -/
def divisorBelow (h : Nat) : Nat → Nat
  | 0 => 1
  | g + 1 => if h % (g + 1) = 0 then g + 1 else divisorBelow h g
/-- Raise DR by 8 until SEC is a multiple of 32. -/
def raiseDr (dk dv : Nat) : Nat → Nat → Nat
  | 0, dr => dr
  | n + 1, dr => if (dk + dv + dr + 16) % 32 = 0 then dr else raiseDr dk dv n (dr + 8)
/-- Lower GROUPS through the divisors of HEADS until RB is at most 4,096. -/
def lowerGroups (h sec : Nat) : Nat → Nat → Nat
  | 0, g => g
  | n + 1, g => if g * sec ≤ 4096 then g else lowerGroups h sec n (divisorBelow h (g - 1))
/-- A width clamped into a range and rounded down. -/
def fixWidth (row lo hi step x : Nat) : Fix :=
  let r := fixRange row lo hi x
  let y := r.v.toNat / step * step
  if r.es.isEmpty then fixTo row x y 7 else fixTo row x y (if x < lo then 1 else 2)
/-- A scale that is zero, negative or non-finite becomes 1.0. -/
def fixScale (row v : Nat) : Fix :=
  let x := BitVec.ofNat 32 v
  let one : Nat := 0x3F800000
  if bit v 31 || nonFinite32 x || (val32 x).n = 0 then fixTo row v one 5 else ⟨v, []⟩

/-- A KV layout entry (R198): words 0 to 3. -/
def clampLayout (e : Nat) : Nat × List ClampEntry :=
  let heads := fixRange 0 1 128 (bits e 24 8)
  let h := heads.v.toNat
  let g1 := divisorBelow h (bits e 20 4 + 1)
  let dk := fixWidth 4 16 512 16 (lyDk e)
  let dv := fixWidth 5 16 512 16 (lyDv e)
  let d0 := fixWidth 6 0 256 8 (lyDr e)
  let dr := raiseDr dk.v.toNat dv.v.toNat 4 d0.v.toNat
  let sec := dk.v.toNat + dv.v.toNat + dr + 16
  let g := lowerGroups h sec 16 g1
  let grp := fixTo 1 (bits e 20 4) (g - 1 : Nat) 6
  let drf := if dr = d0.v.toNat then d0 else fixTo 6 (lyDr e) dr 6
  let z2 := fixZero 2 (bits e 1 19)
  let z7 := fixZero 7 (wf e 1 0 2)
  let sm := fixScale 8 (wf e 2 0 32)
  let qs := fixScale 9 (wf e 3 0 32)
  let z10 := fixZero 10 (bits e 128 384)
  (packNat 32 [1 + (g - 1) * 2 ^ 20 + h * 2 ^ 24, dr * 2 ^ 2 + dv.v.toNat * 2 ^ 12 + dk.v.toNat * 2 ^ 22, sm.v.toNat, qs.v.toNat],
    heads.es ++ grp.es ++ z2.es ++ dk.es ++ dv.es ++ drf.es ++ z7.es ++ sm.es ++ qs.es ++ z10.es)

/-- A region register (R238). -/
def clampRegion (e : Nat) : Nat × List ClampEntry :=
  let z := fixZero 3 (bits e 40 21)
  let lim := fixTo 4 (bits e 20 20) (max (bits e 20 20) (bits e 0 20) : Nat) 6
  (bits e 0 20 + lim.v.toNat * 2 ^ 20 + bits e 61 3 * 2 ^ 61, z.es ++ lim.es)

/-- Master types that have region registers (Table 08.10). -/
def hasRegions (m : Nat) : Bool :=
  decide (m < 4) || m == 8 || (decide (0x10 ≤ m) && decide (m ≤ 0x14)) || (decide (0x18 ≤ m) && decide (m ≤ 0x1B))

/-- One entry of a table, given as its words, is written at site `p` for partition `n`. -/
def State.writeRecord (s : State) (n p table idx : Nat) (ws : List (BitVec 32)) : State × List ClampEntry :=
  let w (i : Nat) : Nat := (ws.getD i 0).toNat
  let e := packNat 32 (ws.map BitVec.toNat)
  if table = 1 then
    let c := clampIngress (w 0) (w 1) (w 2) (bits e 96 160)
    ({ s with rq := { s.rq with ingress := mset 0x3F80000000000001#96 s.rq.ingress (p * 64 + idx) (BitVec.ofNat 96 c.1) } }, c.2)
  else if table = 2 then
    let k := idx / 16
    s.putSet p k (s.pcomb p k) (idx % 16) (w 0) (w 1) (fun c => w (64 + 4 * c) + 2 ^ 32 * w (65 + 4 * c) + 2 ^ 64 * w (66 + 4 * c))
  else if table = 3 then
    (List.range 4).foldl (fun (y : State × List ClampEntry) i =>
      let c := clampRfu (bits e (256 * i) 256)
      ({ y.1 with desc := { y.1.desc with rfu := mset 0 y.1.desc.rfu ((p * 64 + idx) * 4 + i) (BitVec.ofNat 256 c.1) } },
        y.2 ++ c.2)) (s, [])
  else if table = 4 then
    let s := (List.range 1024).foldl (fun (s : State) i =>
      { s with desc := { s.desc with pwc := mset 0 s.desc.pwc ((p * 32 + idx) * 1024 + i) (ws.getD i 0) } }) s
    ({ s with desc := { s.desc with pwcLoaded := mset false s.desc.pwcLoaded (p * 32 + idx) true } }, [])
  else if table = 5 then
    let c := clampLayout e
    ({ s with kv := { s.kv with layout := mset kvLayoutReset s.kv.layout (p * 16 + idx) (BitVec.ofNat 128 c.1) } }, c.2)
  else if table = 6 then
    if hasRegions (idx / 16) then
      let c := clampRegion e
      ({ s with spad := { s.spad with region := mset 0 s.spad.region (regionKey p (idx / 16) (idx % 16)) (BitVec.ofNat 64 c.1) } }, c.2)
    else (s, [])
  else if table = 7 then s.bindEntry n idx e
  else (s, [])

/-- The entries of one record from index `first`. -/
def State.writeRecords (s : State) (n p table : Nat) : Nat → List (List (BitVec 32)) → State × List ClampEntry
  | _, [] => (s, [])
  | i, e :: t =>
    let r := s.writeRecord n p table i e
    let q := State.writeRecords r.1 n p table (i + 1) t
    (q.1, r.2 ++ q.2)

/-- Offset of entry `i` of a configuration table in space 3. -/
def tableOfs (table i : Nat) : Nat :=
  if table = 1 then 0x2100000000 + 0x20 * i
  else if table = 2 then 0x2000000000 + 0x10000 * (i / 16) + 0x1000 * (i % 16)
  else if table = 3 then 0x2300000000 + 0x80 * i
  else if table = 4 then 0x2310000000 + 0x1000 * i
  else if table = 5 then 0x2400000000 + 0x40 * i
  else 0x2500000000 + 0x100 * (i / 16) + 8 * (i % 16)
/-- A write of a configuration table outside load mode is not performed, and the table's fault names its first entry. The address of
a seal translation is stated nowhere, and which engine writes is DMA engine 0 (log entry 124). -/
def State.tableDenied (s : State) (n lsite table first : Nat) : State :=
  let p := if lsite < 64 then s.phys lsite else (s.partSites n).headD 0
  if table = 7 then
    let f := s.takeFree
    f.2.accessFault 0x324B n (partHub n) (f.1.toNat % 2 ^ 48) 0x10
  else if 1 ≤ table ∧ table < 7 then
    let o := tableOfs table first
    s.accessFault (space3Denied o) n p (mkAddr 3 p o) 0x10
  else s

/-- A load-mode DMA engine writes a record: to one site of the partition, or with LSITE 0x7F to all. A seal entry is the
partition's, and is bound once. Clamps are reported once for the record. -/
def execConfigRecordWrite (n lsite table first : Nat) (entries : List (List (BitVec 32))) (s : State) : Res :=
  .next (if (s.part n).st ≠ .loading then s.tableDenied n lsite table first
    else if recCount table < first + entries.length then s
    else
      let sites := if table = 7 then [0] else if lsite = 0x7F then s.partSites n
        else if bit (s.part n).g.sites lsite then [s.phys lsite] else []
      let r := sites.foldl (fun (y : State × List (List ClampEntry)) p =>
        let q := y.1.writeRecords n p table first entries
        (q.1, y.2 ++ [q.2])) (s, [])
      r.1.clamped 6 (r.2.headD []))

end Sys2Proof.Machine
end

