-- ==== Sys2Proof/Machine/Input.lean ====
section
/-! DEFINITION. The input stage and the status pins (R465-R470, R478), and the PCIe links (R271, R373, R471). -/

namespace Sys2Proof.Machine

def State.setInp (s : State) (f : InpSt → InpSt) : State := { s with inp := f s.inp }

/-- MODGOOD is high only while the panel is READY with no trip, no lost hub and no power-fail sequence (R478). -/
def State.modGood (s : State) : Bool :=
  s.inp.standby && s.inp.good && !s.inp.failing && !s.trip && s.boot.hubLost == 0 && s.phase == 6
/-- THERMTRIP# is driven low (R478). -/
def State.thermTrip (s : State) : Bool := s.trip && s.inp.standby

/-- J1 engages or the input returns: charging begins, and the standby rail comes up on the way (R465, R470). -/
def execInputChargeStart (t : Nat) (s : State) : Res :=
  .next (let s : State := s.at t
    if s.inp.good ∨ s.inp.stage ≠ 0 then s
    else s.setInp (fun x => { x with stage := 1, standby := true, cut := false }))

/-- 45 V not reached within 100 ms: charging stops (R465). -/
def execChargeTimeout (t : Nat) (s : State) : Res :=
  .next (let s : State := s.at t
    if s.inp.stage = 1 then s.setInp (fun x => { x with stage := 2 }) else s)

/-- After a second it is tried again (R465). -/
def execChargeRetry (t : Nat) (s : State) : Res :=
  .next (let s : State := s.at t
    if s.inp.stage = 2 then s.setInp (fun x => { x with stage := 1 }) else s)

/-- The power-fail sequence starts: cause 0 under-voltage, 1 over-voltage; input voltage and the metered power of the last whole
tick period as Table 18.11 gives them (R467). -/
def execInputPowerFail (cause v w t : Nat) (s : State) : Res :=
  .next (let s : State := s.at t
    if !s.inp.good ∨ s.inp.failing then s
    else
      let s := ((List.range 408).filter (fun d => decide (domKind d < 2))).foldl (fun (s : State) d => s.domDown d) s
      let s := s.setInp (fun x => { x with failing := true, cut := cause == 1 })
      s.tickFault 0x42CC 16 (hubSite 0) (cause % 2 + v % 2 ^ 16 * 2 ^ 16) (w % 2 ^ 16))

/-- Hold-up ends: every domain is removed and power-good deasserts. What the standby rail feeds stays (R467, R470). -/
def execHoldupExpiry (t : Nat) (s : State) : Res :=
  .next (let s : State := s.at t
    if !s.inp.failing then s
    else
      let j := s.jrnl
      let stat := s.reg rFLT_STBY_STAT
      let s := s.panelReset 0
      let s := { s with jrnl := { s.jrnl with ditch := j.ditch, ditch15 := j.ditch15, standby := j.standby, cause := j.cause } }
      (s.setReg rFLT_STBY_STAT stat).setInp (fun x => { x with stage := 0, good := false, failing := false, low := false }))

/-- The standby rail goes down, and the register files it feeds lose what they hold (R470). -/
def execStandbyRailLoss (t : Nat) (s : State) : Res :=
  .next (let s : State := s.at t
    let s := { s with jrnl := { s.jrnl with ditch := [], ditch15 := none, standby := [], cause := 0 } }
    (s.setReg rFLT_STBY_STAT (regReset rFLT_STBY_STAT)).jrnlStat.setInp (fun x => { x with standby := false }))

/-- A link trains again (R373). A port of a lost hub stays out of service (R405). -/
def execPcieLinkUp (port t : Nat) (s : State) : Res :=
  .next (let s : State := s.at t
    if 3 < port ∨ bit s.boot.hubLost port ∨ !s.inp.good then s else s.portUp port)

/-- A read of an image that can no longer be made rejects it (R373): J4 down before the header, or no port left. -/
def State.loadPortLost (s : State) (port : Nat) : State :=
  match s.boot.cmd, s.boot.image with
  | some _, none => if port = 0 then s.rejectImage 9 0xFF port 0 else s
  | some c, some img =>
    if s.loadPorts c = [] then
      s.rejectImage 9 (((List.range img.sects.length).find? (fun i => !(img.got.contains i))).getD 0xFF) port img.version
    else { s with boot := { s.boot with image := some (img.reassign port (s.loadPorts c)) } }
  | none, _ => s

/-- A PF FLR, hot reset or link loss (R271). -/
def execPortDown (port cause t : Nat) (s : State) : Res :=
  .next (let s : State := s.at t
    if 3 < port ∨ 2 < cause then s
    else
      let s := s.portDown port cause
      if cause = 0 then s.loadPortLost port else s)

end Sys2Proof.Machine
end

