-- ==== Sys2Proof/Machine/Demand.lean ====
section
/-! DEFINITION. The last 8 µs of INGEST: demand, choice of the bucket entry, placement, frames held and live tables (R127, R135,
R141, R195, R287-R291, R307). -/

namespace Sys2Proof.Machine

/-! ### Service order (R288) -/

/-- Insert a keyed item; equal keys keep their order. -/
def insertKey (x : Nat × Nat) : List (Nat × Nat) → List (Nat × Nat)
  | [] => [x]
  | y :: t => if x.1 < y.1 then x :: y :: t else y :: insertKey x t
/-- The items in ascending order of their keys. -/
def sortKeys (l : List (Nat × Nat)) : List Nat := (l.foldl (fun acc x => insertKey x acc) []).map Prod.snd

/-- Code of the operation that a stream runs, 0 none. -/
def Stream.opNow (x : Stream) : Nat := if x.started then (x.ops.head?.map (fun o => o.opc)).getD 0 else 0
/-- Positions below L whose prompt token stands in the standby's log and whose record is missing (R438, R439). -/
def State.missing (s : State) (i : Nat) : List Nat :=
  (s.pair.tokens.filter (fun e => e.1 / 131072 == i && decide (e.1 % 131072 < (s.stream i).ntok))).map (fun e => e.1 % 131072)
/-- The same, with 8 for a rebuild: it runs before an adopted operation goes on, while records are missing (R439). -/
def State.opNow (s : State) (i : Nat) : Nat :=
  let k := (s.stream i).opNow
  if (k = 2 ∨ k = 3) ∧ !(s.missing i).isEmpty then 8 else k
/-- Streams due in the stroke, in service order: withheld ones first, then by LSTROKE, then by ID. -/
def State.dueStreams (s : State) (n : Nat) : List Nat :=
  sortKeys (((s.partStreams n).filter (fun i =>
    let x := s.stream i
    x.st == .active && x.endCode == 0 && [2, 3, 8].contains (s.opNow i))).map (fun i =>
      let x := s.stream i
      ((if x.wheld = 0 then 2 ^ 70 else 0) + x.lstroke * 2 ^ 20 + i, i)))

/-- Operations that can start do; a GENERATE whose step would pass MAXCTX ends before it (R280, R284). -/
def State.readyOp (s : State) (n i : Nat) : Nat → State
  | 0 => s
  | fuel + 1 =>
    let s := s.startOps n i 5
    let x := s.stream i
    match x.ops with
    | o :: _ =>
      if x.st = .active ∧ x.started ∧ o.opc = 3 ∧ x.maxctx < x.len + 1 then
        State.readyOp ((s.finalOp n i o [3] 0 x.len none false).popOp i) n i fuel
      else s
    | [] => s

/-! ### Positions and page groups (R289, R290) -/

/-- Budget of a page group: that of its first position. -/
def groupBudget (b : Bucket) (g : Nat) : Nat := (((bucketPos b).find? (fun x => posGroup x.2 == g)).map (fun x => posPgb x.2)).getD 0

/-- Positions taken, and pages used per group. -/
structure Room where
  taken : List Nat
  used  : SMap Nat
  deriving DecidableEq, Repr

def Room.init : Room := ⟨[], []⟩
def Room.fits (r : Room) (b : Bucket) (e : BitVec 32) (pages : Nat) : Bool :=
  decide (mget 0 r.used (posGroup e) + pages ≤ groupBudget b (posGroup e))
def Room.take (r : Room) (i : Nat) (e : BitVec 32) (pages : Nat) : Room :=
  ⟨i :: r.taken, mupd 0 r.used (posGroup e) (fun x => x + pages)⟩
/-- Free positions of base `hb` in the decode or prefill range. -/
def Room.free (r : Room) (b : Bucket) (pre : Bool) (hb : Nat) : List (Nat × BitVec 32) :=
  (bucketPos b).filter (fun x => decide (0x4000 ≤ x.1) == pre && posBase x.2 == hb && !(r.taken.contains x.1))
/-- The first free decode position with room for the stream's pages; else the reason: 1 BASE, 2 PAGES. -/
def Room.decode (r : Room) (b : Bucket) (hb pages : Nat) : Option (Nat × Room) × Nat :=
  let l := r.free b false hb
  match l.find? (fun x => r.fits b x.2 pages) with
  | some x => (some (x.1, r.take x.1 x.2 pages), 0)
  | none => (none, if l.isEmpty then 1 else 2)
/-- Prefill positions for the largest number of tokens that passes, up to those of `pages` (pages each token attends). -/
def Room.prefill (r : Room) (b : Bucket) (hb : Nat) (pages : List Nat) : List Nat × Room × Nat :=
  let l := r.free b true hb
  let y := l.foldl (fun (y : List Nat × Room × List Nat) x =>
    match y.2.2 with
    | [] => y
    | k :: t => if y.2.1.fits b x.2 k then (y.1 ++ [x.1], y.2.1.take x.1 x.2 k, t) else y) ([], r, pages)
  (y.1, y.2.1, if l.isEmpty then 1 else 2)

/-! ### What a stream asks for (R284, R287, R439) -/

/-- Token positions of the first `c` tokens that the stream's operation takes. -/
def State.chunkPos (s : State) (i c : Nat) : List Nat :=
  let x := s.stream i
  if s.opNow i = 8 then (s.missing i).take c else (List.range c).map (fun k => x.len + k)
/-- Chunk size before the limits of Table 10.9 (R287). -/
def State.chunkOf (s : State) (n i : Nat) : Nat :=
  let x := s.stream i
  let g := (s.part n).g
  min (if s.opNow i = 8 then (s.missing i).length else x.remain) (min 4096 (g.stageKib * 1024 / max 1 g.srow))
/-- Records that the work of the stream's stroke reaches up to. -/
def State.topOf (s : State) (i c : Nat) : Nat :=
  if s.opNow i = 3 then (s.stream i).len else (s.chunkPos i c).foldl (fun m p => max m (p + 1)) 0

/-- Frames and heap chunks that logs of up to `top` records need, per layer: site, frames, chunks (R195). -/
def State.growth (s : State) (n i top : Nat) : List (Nat × Nat × Nat) :=
  (List.range (s.part n).g.nlayer).map (fun l =>
    let p := s.homeOf n i l
    let e := s.dirAt p (s.dirIdx n i l)
    let have' := if e.v then e.npg else 0
    let want := s.npgOf n top
    if want ≤ have' then (p, 0, 0)
    else (p, want - have', if e.v && decide (want ≤ 64 * (e.capc + 1)) then 0 else growTo want 4 (if e.v then e.capc + 1 else 1)))

/-- Frames and heap chunks promised to the streams offered so far, per site. -/
structure Promise where
  frames : SMap Nat
  heap   : SMap Nat
  deriving DecidableEq, Repr

def Promise.add (w : Promise) (l : List (Nat × Nat × Nat)) : Promise :=
  l.foldl (fun (w : Promise) x => ⟨mupd 0 w.frames x.1 (fun k => k + x.2.1), mupd 0 w.heap x.1 (fun k => k + x.2.2)⟩) w
/-- Check 4 of Table 10.9. -/
def State.promiseOk (s : State) (w : Promise) (l : List (Nat × Nat × Nat)) : Bool :=
  let w' := w.add l
  l.all (fun x => decide (mget 0 w'.frames x.1 ≤ s.freeFrames x.1) &&
    (x.2.2 == 0 || decide ((s.svc x.1).top + mget 0 w'.heap x.1 ≤ s.heapCh x.1)))

/-! ### The walk (R288) -/

/-- A stream is deferred: 0 CQ, 1 BASE, 2 PAGES, 3 FRAMES, 4 SLOTS, 5 SHORT. Room reserved for its token is given back. -/
def State.deferStream (s : State) (n i reason : Nat) : State :=
  let s := (s.bump (rSTRM_CNT_DEF + 8 * reason)).updStat n (fun z => { z with defer := z.defer + 1 })
  let x := s.stream i
  if x.rsv then (s.unreserve n x.qp).setStream i { x with rsv := false } else s

structure Walk where
  rooms   : SMap Room
  /-- streams offered a decode slot with their pages, and streams with their chunks, in service order -/
  dec     : List (Nat × Nat)
  app     : List (Nat × Nat)
  prom    : Promise
  offered : Nat
  capped  : Bool
  st      : State

def Walk.init (s : State) : Walk := ⟨[], [], [], ⟨[], []⟩, 0, false, s⟩
def Walk.defer (w : Walk) (n i r : Nat) : Walk := { w with st := w.st.deferStream n i r }

/-- Offer one decode slot; `ref` is the reference entry with its index. -/
def Walk.offerDecode (n : Nat) (ref : Option (Nat × Bucket)) (w : Walk) (i : Nat) : Walk :=
  let x := w.st.stream i
  let room := x.rsv || decide (0 < (w.st.qp n x.qp).room)
  if !room then w.defer n i 0
  else
    let s := if x.rsv then w.st
      else (w.st.updQp n x.qp (fun q => { q with reserved := q.reserved + 1 })).setStream i { x with rsv := true }
    let w := { w with st := s }
    let pages := s.npgOf n x.len
    let pick : Option (SMap Room) × Nat := match ref with
      | none => (some w.rooms, 0)
      | some (k, b) =>
        let y := (mget Room.init w.rooms k).decode b x.hb pages
        (y.1.map (fun z => mset Room.init w.rooms k z.2), y.2)
    match pick.1 with
    | none => w.defer n i pick.2
    | some rooms =>
      let need := s.growth n i x.len
      if !(s.promiseOk w.prom need) then w.defer n i 3
      else if 16383 ≤ w.dec.length then w.defer n i 4
      else { w with rooms := rooms, prom := w.prom.add need, dec := w.dec ++ [(i, pages)] }

/-- Largest chunk of at most `c` tokens whose frames can be had. -/
def Walk.framesFor (w : Walk) (n i : Nat) : Nat → Nat
  | 0 => 0
  | c + 1 => if w.st.promiseOk w.prom (w.st.growth n i (w.st.topOf i (c + 1))) then c + 1 else Walk.framesFor w n i c

/-- Offer a chunk; `cap` is PF_CAP. -/
def Walk.offerChunk (n cap : Nat) (ref : Option (Nat × Bucket)) (w : Walk) (i : Nat) : Walk :=
  let c0 := w.st.chunkOf n i
  let cut := w.capped || decide (cap < w.offered + c0)
  let c := if w.capped then 0 else min c0 (cap - w.offered)
  let w := if cut then { w with st := w.st.bump rSTRM_CNT_DEFCAP, capped := true } else w
  if c = 0 then
    (if cut then { w with st := w.st.updStat n (fun z => { z with defer := z.defer + 1 }) } else w)
  else
    let s := w.st
    let hb := (s.stream i).hb
    let pages (c : Nat) : List Nat := (s.chunkPos i c).map (fun p => s.npgOf n (p + 1))
    let fit (c : Nat) : Nat × SMap Room × Nat := match ref with
      | none => (c, w.rooms, 0)
      | some (k, b) =>
        let y := (mget Room.init w.rooms k).prefill b hb (pages c)
        (y.1.length, mset Room.init w.rooms k y.2.1, y.2.2)
    let f1 := fit c
    if f1.1 = 0 then w.defer n i f1.2.2
    else
      let c2 := w.framesFor n i f1.1
      if c2 = 0 then w.defer n i 3
      else if 16383 ≤ w.dec.length + w.app.length then w.defer n i 4
      else { w with rooms := (fit c2).2.1, prom := w.prom.add (s.growth n i (s.topOf i c2)), app := w.app ++ [(i, c2)],
                    offered := w.offered + c2 }

/-! ### Choosing the bucket (R135) -/

/-- Entries whose quadrants are all ready, with their indices. -/
def candidates (l : Library) (ready : Nat) : List (Nat × Bucket) :=
  ((List.range l.entries.length).zip l.entries).filter (fun x => andNot 4 (bits x.2.raw.toNat 12 4) ready == 0)
/-- The best of a list by a key, the first on a tie. -/
def bestBy (key : Nat × Bucket → Nat) (l : List (Nat × Bucket)) : Option (Nat × Bucket) :=
  l.foldl (fun (m : Option (Nat × Bucket)) x => match m with
    | none => some x
    | some y => if key y < key x then some x else some y) none
/-- Reference entries for decode streams and for chunks (R288). -/
def refDecode (c : List (Nat × Bucket)) : Option (Nat × Bucket) := bestBy (fun x => decSlots x.2 * 2 ^ 20 + preTokens x.2) c
def refPrefill (c : List (Nat × Bucket)) : Option (Nat × Bucket) := bestBy (fun x => preTokens x.2 * 2 ^ 20 + decSlots x.2) c
/-- The entry for a demand, and what of the demand it serves. -/
def chooseEntry (c : List (Nat × Bucket)) (d p : Nat) : Option Nat × Nat × Nat :=
  let d' := min d ((c.map (fun x => decSlots x.2)).foldl max 0)
  let c1 := c.filter (fun x => decide (d' ≤ decSlots x.2))
  let p' := min p ((c1.map (fun x => preTokens x.2)).foldl max 0)
  let c2 := c1.filter (fun x => decide (p' ≤ preTokens x.2))
  let key (x : Nat × Bucket) : Nat := 2 ^ 80 - (wf x.2.raw.toNat 1 0 32 * 2 ^ 40 + decSlots x.2 * 2 ^ 20 + preTokens x.2)
  ((bestBy key c2).map Prod.fst, d', p')

/-- Shorten chunks, last first, by `excess` tokens in all (R289); the list is in reverse service order. -/
def shortenRev : Nat → List (Nat × Nat) → List (Nat × Nat)
  | _, [] => []
  | excess, x :: t => (x.1, x.2 - min excess x.2) :: shortenRev (excess - min excess x.2) t

/-! ### Placement and slots (R289) -/

structure Place where
  room : Room
  out  : List Placed
  st   : State

/-- The tokens read for a chunk: those that the fetch brought, or those recorded (R287, R439, R454). -/
def State.fetched (s : State) (n i c : Nat) (fetch : List (Nat × Option (List Nat))) : Option (List Nat) :=
  if s.opNow i = 8 then
    some ((s.chunkPos i c).map (fun p => mget 0 s.pair.tokens (i * 131072 + p) - 1))
  else
    let l : Option (List Nat) := if (s.recOf n).mode = 2 then
        ((s.recOf n).rTokens.find? (fun e => e.1 == i)).map (fun e => e.2.2)
      else ((fetch.find? (fun e => e.1 == i)).map Prod.snd).getD none
    match l with
    | some ts => if ts.length < c then none else some ((ts.take c).map (fun x => x % 2 ^ 18))
    | none => none

/-- Place one decode stream. -/
def Place.decode (n : Nat) (b : Bucket) (w : Place) (x : Nat × Nat) : Place :=
  let y := w.st.stream x.1
  match (w.room.decode b y.hb x.2).1 with
  | some z => { w with room := z.2, out := w.out ++ [⟨x.1, 0x3FFF, false, [z.1], [y.lasttok], y.wheld != 0, false, none, false, 0⟩] }
  | none => { w with st := w.st.deferStream n x.1 1 }
/-- Place one chunk. A failed fetch of its tokens ends the stream (Table 10.13). -/
def Place.chunk (n : Nat) (b : Bucket) (fetch : List (Nat × Option (List Nat))) (w : Place) (x : Nat × Nat) : Place :=
  let s := w.st
  let y := s.stream x.1
  let z := w.room.prefill b y.hb ((s.chunkPos x.1 x.2).map (fun p => s.npgOf n (p + 1)))
  if z.1.isEmpty then { w with st := s.deferStream n x.1 1 }
  else
    match s.fetched n x.1 z.1.length fetch with
    | some ts => { w with room := z.2.1, out := w.out ++ [⟨x.1, 0x3FFF, true, z.1, ts, y.wheld != 0, false, none, false, 0⟩] }
    | none => { w with st := s.hostDmaError n x.1 (((y.ops.head?).map (fun o => o.port)).getD 0) 0 y.haddr }

/-- Stream slots in two passes. -/
def State.giveSlots (s : State) (n : Nat) (l : List Placed) : List Placed :=
  let now := (s.part n).stroke.toNat
  let keeps (x : Placed) : Bool :=
    let y := s.stream x.stream
    y.sslot != 0x3FFF && y.slotStroke + 1 == now
  let l1 := l.map (fun x => if keeps x then { x with slot := (s.stream x.stream).sslot } else x)
  let used := (l1.filter keeps).map (fun x => x.slot)
  (l1.foldl (fun (y : List Placed × List Nat) x =>
    if keeps x then (y.1 ++ [x], y.2)
    else
      let k := ((List.range 16383).find? (fun k => !(y.2.contains k))).getD 0x3FFF
      (y.1 ++ [{ x with slot := k }], k :: y.2)) ([], used)).1

/-! ### Frames and live tables (R195, R291) -/

/-- Frames held and leaves grown for the stroke's appends of one layer. -/
def State.holdLayer (s : State) (n i top l : Nat) : State :=
  let p := s.homeOf n i l
  let d := s.dirIdx n i l
  let e := s.dirAt p d
  let have' := if e.v then e.npg else 0
  let want := s.npgOf n top
  if want ≤ have' then s
  else
    match s.ensureLeaf p d want with
    | none => (s.journal 0x2186 n 0x3FFF p ((s.lsite p).getD 0) (s.svc p).top).endStream i 0x2186
    | some s =>
      (List.range (want - have')).foldl (fun (s : State) _ =>
        match s.takeFrame p 2 with
        | some z => z.2
        | none => (s.journal 0x2185 n 0x3FFF p ((s.lsite p).getD 0 + l % 256 * 2 ^ 7) (s.freeFrames p)).endStream i 0x2185) s
def State.holdFrames (s : State) (n : Nat) (l : List Placed) : State :=
  l.foldl (fun (s : State) x =>
    let top := s.topOf x.stream x.pos.length
    (List.range (s.part n).g.nlayer).foldl (fun (s : State) k => s.holdLayer n x.stream top k) s) s

/-- Live-table entry of token `k` of a placement. -/
def State.liveEntry (s : State) (x : Placed) (k : Nat) : Nat :=
  let y := s.stream x.stream
  let pos := if x.prefill then (s.chunkPos x.stream x.pos.length).getD k 0 else y.len - 1
  x.slot % 2 ^ 14 + x.tokens.getD k 0 % 2 ^ 18 * 2 ^ 14 + x.stream % 2 ^ 20 * 2 ^ 32 + pos % 2 ^ 18 * 2 ^ 64 + k % 2 ^ 16 * 2 ^ 96
/-- The live table of an entry. -/
def State.liveTable (s : State) (b : Bucket) (l : List Placed) : List Nat :=
  let m : SMap Nat := l.foldl (fun (m : SMap Nat) x =>
    ((List.range x.pos.length).foldl (fun (m : SMap Nat) k => mset 0x3FFF m (x.pos.getD k 0) (s.liveEntry x k)) m)) []
  (bucketPos b).map (fun x => mget 0x3FFF m x.1)

/-- The entry chosen and the streams placed take effect: slots, frames, live tables (R195, R289, R291). -/
def State.placeAll (s : State) (n i : Nat) (l : List Placed) : State :=
  let now := (s.part n).stroke.toNat
  let b := match (s.part n).lib with
    | some x => x.entries[i]?
    | none => none
  match b with
  | none => s
  | some b =>
    let s := l.foldl (fun (s : State) x => s.updStream x.stream (fun y => { y with sslot := x.slot, slotStroke := now })) s
    let s := s.updPart n (fun p => { p with
      entry := some i, opmark := bits b.raw.toNat 6 2, placed := l, decLive := (l.filter (fun x => !x.prefill)).length })
    let s := s.holdFrames n l
    let t := s.liveTable b l
    let off := (s.part n).g.liveOff
    let s := (s.partSites n).foldl (fun (s : State) p => s.setSpadBytes p off (16 * t.length) (packNat 128 t)) s
    let s := s.updRec n (fun r => { r with pdig := crc32 (t.flatMap (fun x => unpackNat 8 16 x)) })
    (l.filter (fun x => x.prefill)).foldl (fun (s : State) x =>
      if s.opNow x.stream = 2 then
        s.record n 4 ([x.stream, (s.stream x.stream).len % 2 ^ 18, x.tokens.length, 0, 0, 0, 0, 0] ++ x.tokens)
      else s) s

/-! ### The stroke of one partition -/

/-- The stroke is idle: no entry. -/
def State.idleStroke (s : State) (n : Nat) : State :=
  s.updPart n (fun p => { p with
    entry := none, opmark := 3, decLive := 0, idle := true, short := false, idleRun := p.idleRun + 1, formed := true, placed := [],
    demandD := 0, demandP := 0 })
/-- BUCKET_SHORT is counted in every stroke, and journalled in the first of an unbroken run (R135). -/
def State.bucketShort (s : State) (n d p : Nat) (was : Bool) : State :=
  let s := s.bump rSTRK_CNT_SHORT
  if was then s else s.journal 0x0106 n 0x3FFF (partHub n) (min d 32767) (min p (2 ^ 26 - 1))

/-- The gate set of the next stroke (R141). -/
def State.setGate (s : State) (n : Nat) : State :=
  let p := s.part n
  let g := match s.bucketOf n with
    | some b => bits b.raw.toNat 16 4
    | none =>
      if p.idle then
        let k := match p.lib with
          | some l => wf l.hdr.toNat 2 0 8
          | none => 0
        if k ≠ 0 ∧ k ≤ p.idleRun then 15 else 0
      else 0
  s.updPart n (fun p => { p with gateSet := if s.role = 3 then 15 else g })

/-- Demand is formed and placed for partition `n` (R135, R287-R291). -/
def State.formDemand (s : State) (n : Nat) (fetch : List (Nat × Option (List Nat))) : State :=
  let was := (s.part n).short
  let s := (s.partStreams n).foldl (fun (s : State) i => s.readyOp n i 5) s
  match (s.part n).lib with
  | none => s.idleStroke n
  | some l =>
    let ready := (s.part n).ready &&& (if s.mirrored && s.role == 1 then mget 0 s.pair.quads n else 15)
    let c := candidates l ready
    let due := s.dueStreams n
    let w := (due.filter (fun i => s.opNow i == 3)).foldl (Walk.offerDecode n (refDecode c)) (Walk.init s)
    let w := (due.filter (fun i => s.opNow i != 3)).foldl (Walk.offerChunk n (s.part n).g.pfCap (refPrefill c)) w
    let s := w.st
    let d := w.dec.length
    let p := (w.app.map Prod.snd).foldl (· + ·) 0
    let forced : Option Nat := if (s.recOf n).mode = 2 then ((s.recOf n).rStroke.map (fun x => bits (x.headD 0) 0 6)) else none
    if d = 0 ∧ p = 0 ∧ forced.isNone then s.idleStroke n
    else
      let ch := match forced with
        | some i => (some i, (l.entries[i]?.map decSlots).getD 0, (l.entries[i]?.map preTokens).getD 0)
        | none => chooseEntry c d p
      let set (s : State) (short : Bool) : State := s.updPart n (fun q => { q with
        idle := false, idleRun := 0, short := short, formed := true, demandD := d, demandP := p, placed := [], entry := none, opmark := 3,
        decLive := 0 })
      match ch.1, (ch.1.bind (fun i => l.entries[i]?)) with
      | some i, some b =>
        let d' := min d ch.2.1
        let p' := min p ch.2.2
        let s := (w.dec.drop d').reverse.foldl (fun (s : State) x => s.deferStream n x.1 5) s
        let app := (shortenRev (p - p') w.app.reverse).reverse
        let s := (app.reverse.filter (fun x => x.2 == 0)).foldl (fun (s : State) x => s.deferStream n x.1 5) s
        let short := decide (d' < d) || decide (p' < p)
        let s := set (if short then s.bucketShort n d p was else s) short
        let pl := (w.dec.take d').foldl (Place.decode n b) ⟨Room.init, [], s⟩
        let pl := (app.filter (fun x => x.2 != 0)).foldl (Place.chunk n b fetch) pl
        pl.st.placeAll n i (pl.st.giveSlots n pl.out)
      | _, _ =>
        let s := (w.dec ++ w.app).foldl (fun (s : State) x => s.deferStream n x.1 5) s
        set (s.bucketShort n d p was) true

/-- A replayed stroke whose live table differs from the recorded one (R456). -/
def State.checkPdig (s : State) (n : Nat) : State :=
  let r := s.recOf n
  match r.rStroke with
  | some w =>
    if r.mode = 2 ∧ !(bit (w.headD 0) 6) ∧ !(bit (w.headD 0) 7) ∧ r.pdig ≠ w.getD 3 0 then
      s.diverge n 3 (s.recordedOf n (s.part n).stroke.toNat)
    else s
  | none => s

/-- INGEST of the stroke (Table 16.2, R429). -/
def State.sendIngest (s : State) (n : Nat) : State :=
  match (s.pp n).ingest with
  | none => s
  | some (st, a) =>
    let num := bigBytes 4
    s.pairSend 3 (some n) (bigBytes 8 st ++ [match a.entry with | some i => i | none => 0x3F, b2n a.short] ++
      num a.demD ++ num a.demP ++ num a.subs.length ++ a.subs.flatMap (fun x => x.1 :: unpackNat 8 64 x.2.toNat) ++ num a.placed.length ++
      a.placed.flatMap (fun x => num x.stream ++ num x.slot ++ [b2n x.prefill] ++ num x.pos.length ++ x.pos.flatMap num ++
        num x.tokens.length ++ x.tokens.flatMap num))

/-- What the last 8 µs of INGEST decide for partition `n`. -/
def State.formPart (s : State) (n : Nat) (fetch : List (Nat × Option (List Nat))) : State :=
  let r := s.recOf n
  let recIdle := r.mode == 2 && (match r.rStroke with | some w => bit (w.headD 0) 6 || bit (w.headD 0) 7 | none => true)
  let s := (s.closeIngest n).updRec n (fun r => { r with held := s.held n })
  let s := if s.held n then
      let x := s.ppwr n
      ((s.setPpwr n { x with heldCnt := x.heldCnt + 1 }).bump rPWR_CNT_HOLD).idleStroke n
    else if s.forcedIdle n || recIdle then
      ((s.partStreams n).foldl (fun (s : State) i => if s.forcedIdle n then s else s.readyOp n i 5) s).idleStroke n
    else (s.formDemand n fetch).checkPdig n
  let s := s.setGate n
  if s.mirrored ∧ s.role = 1 then
    let p := s.part n
    let subs := match (s.pp n).ingest with
      | some i => if i.1 = p.stroke.toNat then i.2.subs else []
      | none => []
    let a : IngestArg := ⟨p.entry, p.demandD, p.demandP, p.short, p.placed.map (fun x => ⟨x.stream, x.slot, x.prefill, x.pos, x.tokens⟩),
      subs⟩
    (s.updPp n (fun x => { x with ingest := some (p.stroke.toNat, a) })).sendIngest n
  else s

/-- PACE of every partition that runs (R430). -/
def State.sendPace (s : State) : State :=
  if s.mirrored then
    ((List.range 16).filter (fun n => (s.part n).st == .running)).foldl (fun (s : State) n =>
      s.pairSend 4 (some n) [(s.ppwr n).entry % 256, b2n (s.held n)]) s
  else s

/-- The last 8 µs of INGEST (R127, R135, R305). Partitions that a MIRROR secondary runs have been given their strokes by INGEST.
`fetch` holds the prompt tokens that the fetches brought, per stream; none for a failed one. -/
def execDemandFormation (fetch : List (Nat × Option (List Nat))) (t : Nat) (s : State) : Res :=
  let s := s.at t
  let began := (List.range 16).filter (fun n => (s.part n).inStroke && (s.part n).phase == 0)
  .next (if s.inp.failing || !s.admitOver || decide (s.ingestNs ≤ s.sinceEdge) then s
    else
      let s := (began.filter (fun n => !(s.part n).formed && !(s.mirrored && s.role == 2))).foldl
        (fun (s : State) n => s.formPart n fetch) s
      let began := began.filter (fun n => (s.part n).formed)
      let s := s.plan began s.mirrored
      let s := (List.range 16).foldl (fun (s : State) n => if s.held n then s.updPart n (fun p => { p with gateSet := 15 }) else s) s
      s.sendPace)

end Sys2Proof.Machine
end

