-- ==== Sys2Proof/Machine/Stroke.lean ====
section
/-! DEFINITION. RUN, end markers, withholding, the commit of the stream table, EMIT, GUARD and slips (R128, R129, R141-R147, R231-R233,
R284-R286, R292, R431, R433, R434, R438). -/

namespace Sys2Proof.Machine

/-! ### What a stroke withholds (R231, R233, R434) -/

/-- Stream slots that this panel withholds: named by an entry of the error queue, carried with the mark, or all. -/
def State.ownWheld (s : State) (n : Nat) : List Nat :=
  let p := s.part n
  let all := p.errDropped != 0 || p.errq.any (fun e => e.stream == 0x3FFF)
  sortKeys (((p.placed.map (fun x => x.slot)).filter (fun k =>
    all || p.errq.any (fun e => e.stream == k) || p.withheld.contains k)).map (fun k => (k, k)))
/-- Is the stroke late-failed? -/
def State.lateStroke (s : State) (n : Nat) : Bool :=
  let p := s.part n
  !p.errq.isEmpty || p.errDropped != 0 || !p.withheld.isEmpty
/-- A late-failed stroke is recorded and journalled once (R233). -/
def State.journalLate (s : State) (n : Nat) : State :=
  let p := s.part n
  let s := if p.errDropped = 0 then s else s.raise 0x11C3 n 0x3FFF (partHub n) (min 65535 p.errDropped) 0
  let late := s.lateStroke n
  let s := s.setFld (leqReg n) 28 1 (b2n late)
  if late then
    let s := (s.updPart n (fun p => { p with lateFailed := true, lateStrokes := p.lateStrokes + 1 })).satFld (leqReg n) 9 19 1
    match p.errq with
    | e :: _ => s.raise 0x11C2 n 0x3FFF (partHub n) (e.stream + e.reason * 2 ^ 14 + e.dst * 2 ^ 17)
        (e.tag + p.errq.length * 2 ^ 16)
    | [] => s.raise 0x11C2 n 0x3FFF (partHub n) ((s.ownWheld n).headD 0x3FFF + 7 * 2 ^ 14 + 0x7F * 2 ^ 17) 0
  else s

/-- H of a live slot (R433): its records, and bytes 0 to 27 of its token record. -/
def State.slotHash (s : State) (n : Nat) (x : Placed) : Nat :=
  let h := (mget 0 s.pair.hash (n * 16384 + x.slot)).toNat
  match x.draw with
  | some d => h ^^^ crc64 (leBytes 28 d.toNat)
  | none => h
/-- END of the stroke (R433, R435). -/
def State.endOf (s : State) (n : Nat) : EndArg :=
  let p := s.part n
  let u := s.updState n
  let slots := sortKeys (p.placed.map (fun x => (x.slot, x.slot)))
  ⟨s.ownWheld n, slots.map (fun k => (k, ((s.placedAt n k).map (s.slotHash n)).getD 0)), u.1, u.2⟩
/-- END as R433 lays it down: a header of 64 bytes, the withheld set as a map, and the H of each live slot in ascending order. -/
def endBytes (k : Nat) (e : EndArg) : List Nat :=
  bigBytes 8 k ++ bigBytes 4 e.hashes.length ++ bigBytes 4 e.updCnt ++ [b2n e.updOk] ++ List.replicate 47 0 ++
    bigBytes 2048 (e.wheld.foldl orBit 0) ++ e.hashes.flatMap (fun h => bigBytes 8 h.2)
def State.sendEnd (s : State) (n : Nat) : State :=
  let e := s.endOf n
  let k := (s.part n).stroke.toNat
  (s.updPp n (fun x => { x with ownEnd := some (k, e) })).pairSend 5 (some n)
    (endBytes k e)
/-- The partner's END of the present stroke. -/
def State.peerEndNow (s : State) (n : Nat) : Option EndArg :=
  match (s.pp n).peerEnd with
  | some (k, e) => if k = (s.part n).stroke.toNat then some e else none
  | none => none
/-- Slots whose hashes differ, and slots live on one panel only. -/
def endDiffer (a b : EndArg) : List Nat :=
  (a.hashes.filter (fun h => b.hashes.any (fun g => g.1 == h.1 && g.2 != h.2))).map Prod.fst
def endLone (a b : EndArg) : List Nat :=
  ((a.hashes.map Prod.fst).filter (fun k => !(b.hashes.any (fun g => g.1 == k)))) ++
    ((b.hashes.map Prod.fst).filter (fun k => !(a.hashes.any (fun g => g.1 == k))))
/-- Both ENDs of the stroke are present: PAIR_MISMATCH, and whether coordinated updates take effect at the next edge (R434, R435). -/
def State.meetEnds (s : State) (n : Nat) (a b : EndArg) : State :=
  let d := endDiffer a b
  let s := s.updPp n (fun x => { x with updGo := a.updOk && b.updOk && a.updCnt == b.updCnt && a.updCnt != 0 })
  match d with
  | [] => s
  | k :: _ =>
    let h := ((a.hashes.find? (fun g => g.1 == k)).map Prod.snd).getD 0
    ((s.bumpBy rPAIR_CNT_MISMATCH d.length).sticky rPAIR_STATUS 29).raise 0x1446 n k (hubSite 0) (k + min 16383 d.length * 2 ^ 14) h

/-! ### Delivery (R284, R292, R294) -/

/-- First tainted delivery of a stream (Table 10.7). -/
def Stream.tainted (x : Stream) (t : Bool) (o : Nat) : Stream := if t && !x.taint then { x with taint := true, origin := o } else x

/-- A GENERATE step is delivered. -/
def State.deliverToken (s : State) (n : Nat) (x : Placed) (o : AdmOp) : State :=
  let i := x.stream
  let y := s.stream i
  let now := (s.part n).stroke.toNat
  let d := (x.draw.getD 0).toNat
  let dt := bit d 24
  let taint := dt || x.taint
  let origin := if dt then (if x.taint then minOrigin (wf d 4 0 32) x.origin else wf d 4 0 32) else x.origin
  if x.draw.isNone || bit d 27 then
    let s := s.setStream i ({ y with lstroke := now, wheld := 0, rsv := false }.tainted taint origin)
    let s := if y.rsv then s.unreserve n y.qp else s
    ((s.finalOp n i o (if taint then [2, 1] else [2]) 0 y.len (if taint then some origin else none) false).popOp i).startOps n i 5
  else
    let last := decide (y.remain ≤ 1)
    let s := s.setStream i ({ y with
      len := y.len + 1, lasttok := bits d 0 18, remain := y.remain - 1, lstroke := now, wheld := 0, rsv := false }.tainted taint origin)
    let s := s.complete n
      { qp := o.qp, cid := o.cid, stream := i, last := last, tok := true, tnt := taint, recomp := y.wheld != 0, short := bit d 26,
        sfd := x.sfd, token := bits d 0 18, pos := y.len, fault := 0, status := if taint then 1 else 0,
        origin := if taint then origin else 0, adm := o.stroke, strokeL := now % 2 ^ 32 }
    let s := s.bump rSTRM_CNT_TOKEN
    let w := s.ppwr n
    let s := s.setPpwr n { w with tok := w.tok + 1, tokSec := w.tokSec + 1 }
    if last then ((s.unreserve n o.qp).popOp i).startOps n i 5 else s

/-- A chunk of an APPEND is delivered. -/
def State.deliverChunk (s : State) (n : Nat) (x : Placed) (o : AdmOp) : State :=
  let i := x.stream
  let y := s.stream i
  let c := x.tokens.length
  let ot := y.opTaint || x.taint
  let oo := if y.opTaint then y.opOrigin else x.origin
  let z : Stream := { y with
    len := y.len + c, remain := y.remain - c, haddr := y.haddr + 4 * c, lasttok := x.tokens.getLastD 0,
    lstroke := (s.part n).stroke.toNat, wheld := 0, opTaint := ot, opOrigin := oo }
  let s := (s.setStream i (z.tainted x.taint x.origin)).bumpBy rSTRM_CNT_PTOK c
  let s := s.updStat n (fun w => { w with prompt := w.prompt + c })
  if y.remain ≤ c then
    ((s.finalOp n i o (if ot then [1] else []) 0 z.len (if ot then some oo else none) false).popOp i).startOps n i 5
  else s

/-- Records of a rebuild are in place (R439). -/
def State.deliverRebuild (s : State) (n : Nat) (x : Placed) : State :=
  let i := x.stream
  let ks := (s.chunkPos i x.tokens.length).map (fun p => i * 131072 + p)
  let s := { s with pair := { s.pair with tokens := s.pair.tokens.filter (fun e => !(ks.contains e.1)) } }
  let s := s.updStream i (fun y => { y with lstroke := (s.part n).stroke.toNat, wheld := 0 })
  if (s.missing i).isEmpty then s.bgDone n i 8 0 else s

/-- The work of a stream is withheld once more; LATE_LIMIT strokes in succession end the stream (R233, R434). -/
def State.withholdStream (s : State) (n : Nat) (x : Placed) (reason : Nat) (differ : Bool) : State :=
  let i := x.stream
  let y := s.stream i
  let s := if y.rsv then s.unreserve n y.qp else s
  let s := (s.setStream i { y with wheld := y.wheld + 1, rsv := false }).bump rSTRM_CNT_WHELD
  let s := s.updStat n (fun w => { w with wheld := w.wheld + 1 })
  let s := s.updPp n (fun w => { w with differ := if differ then i :: w.differ else w.differ.filter (fun j => j != i) })
  let lim := s.fld (siteReg (partHub n) rFAB_CFG) 16 4
  if y.wheld + 1 < lim then s
  else if differ then s.raise 0x2447 n x.slot (hubSite 0) i lim
  else s.raise 0x21C4 n x.slot (partHub n) (x.slot + reason * 2 ^ 14) lim

/-- The stream table is committed for one placement (R292). A stream that a fault ends in the stroke delivers nothing (R286). -/
def State.commitPlaced (s : State) (n : Nat) (w differ : List Nat) (x : Placed) : State :=
  let y := s.stream x.stream
  if y.endCode ≠ 0 ∨ y.st ≠ .active then s
  else if w.contains x.slot then
    let why := (((s.part n).errq.reverse.find? (fun e => e.stream == x.slot || e.stream == 0x3FFF)).map (fun e => e.reason)).getD 7
    s.withholdStream n x why (differ.contains x.slot)
  else
    let s := s.updPp n (fun z => { z with differ := z.differ.filter (fun j => j != x.stream) })
    match y.ops with
    | [] => s
    | o :: _ =>
      if s.opNow x.stream = 3 then s.deliverToken n x o
      else if s.opNow x.stream = 2 then s.deliverChunk n x o
      else if s.opNow x.stream = 8 then s.deliverRebuild n x
      else s

/-! ### Ending streams (R286) -/

/-- Every operation of a stream that is not a CLOSE gets its final completion; the stream drains. -/
def State.drainStream (s : State) (n i : Nat) (status code : Nat) (ops : List AdmOp) : State :=
  let y := s.stream i
  let s := match y.ops with
    | o :: _ => if y.started && o.opc == 4 then s.dropChild n o.child else s
    | [] => s
  let s := if y.rsv then s.unreserve n y.qp else s
  let s := ((List.range ops.length).zip ops).foldl (fun (s : State) e =>
    s.finalOp n i e.2 [status] code y.len (if e.1 = 0 ∧ y.opTaint then some y.opOrigin else none) false) s
  s.setStream i { y with
    st := .draining, ops := [], started := false, waitFork := false, rsv := false, endCode := 0, remain := 0, wheld := 0,
    opTaint := false, opOrigin := 0 }
/-- A stream-fatal fault of the stroke ends the stream. -/
def State.endByFault (s : State) (n i : Nat) : State :=
  let y := s.stream i
  if y.endCode = 0 then s
  else if y.st = .free ∨ y.st = .closed ∨ y.st = .draining then s.setStream i { y with endCode := 0 }
  else
    let s := ((s.drainStream n i 5 y.endCode (y.ops ++ y.closeOps)).bump rSTRM_CNT_ENDED).sticky rSTRM_STAT 1
    (s.updStream i (fun z => { z with fault := y.endCode, toFree := false, closeOps := [] })).updStat n
      (fun w => { w with ended := w.ended + 1 })
/-- A CLOSE ends the running operation at the end of the stroke. -/
def State.endByClose (s : State) (n i : Nat) : State :=
  let y := s.stream i
  if y.st = .active ∧ y.ops.any (fun o => o.opc == 7) ∧ !(s.heldForPartner n) then
    let s := s.drainStream n i 4 0 (y.ops.filter (fun o => o.opc != 7))
    s.updStream i (fun z => { z with toFree := true, closeOps := y.ops.filter (fun o => o.opc == 7) })
  else s

/-! ### The finish (R144, R145, R431) -/

/-- Every site of the partition has passed its end marker. -/
def State.sitesDone (s : State) (n : Nat) : Bool := (s.partSites n).all (fun p => (s.part n).done.contains p)

/-- The commit of a stroke: the withheld set, the stream table, the streams that end (R233, R286, R292, R434, R454). -/
def State.commitStroke (s : State) (n : Nat) : State :=
  let own := s.ownWheld n
  let s := s.journalLate n
  let mine := match (s.pp n).ownEnd with
    | some e => e.2
    | none => s.endOf n
  let peer : Option EndArg := if s.mirrored then s.peerEndNow n else none
  let s := match peer with
    | some b => s.meetEnds n mine b
    | none => s
  let differ := (peer.map (endDiffer mine)).getD []
  let lone := (peer.map (endLone mine)).getD []
  let theirs := (peer.map (fun e => e.wheld)).getD []
  let r := s.recOf n
  let told := r.mode == 2 && !r.diverged
  let slotOf (i : Nat) : List Nat := (((s.part n).placed.filter (fun x => x.stream == i)).map (fun x => x.slot))
  let recorded := r.rWheld.flatMap slotOf
  let s := if told && own.any (fun k => !(recorded.contains k)) then s.diverge n 5 (s.recordedOf n (s.part n).stroke.toNat) else s
  let w := own ++ theirs ++ differ ++ lone ++ (if told then recorded else [])
  let held := (s.part n).placed.filter (fun x => w.contains x.slot && (s.stream x.stream).endCode == 0)
  let why (k : Nat) : Nat := if s.marked 0x0183 n k then 2 else if own.contains k || theirs.contains k || !(differ.contains k) then 0 else 1
  let s := if held.isEmpty then s else s.record n 5 (held.length :: held.map (fun x => x.stream + why x.slot * 2 ^ 20))
  let s := (s.part n).placed.foldl (fun (s : State) x => s.commitPlaced n w differ x) s
  let s := (s.partStreams n).foldl (fun (s : State) i => (s.endByFault n i).endByClose n i) s
  let s := (s.partSites n).foldl (fun (s : State) p => s.releaseHeld p) s
  s.updPart n (fun p => { p with finished := true, committed := true })

/-- The stroke finishes when its own sites are done and the partner's frame has arrived (R144, R431). -/
def State.tryFinish (s : State) (n : Nat) : State :=
  let p := s.part n
  if !p.inStroke || p.phase == 0 || p.committed || p.issueFault || p.hung || !(s.sitesDone n) then s
  else if s.mirrored && (s.peerEndNow n).isNone then s
  else if s.shared && s.servesPart n && (s.pp n).acked != some p.stroke.toNat then s
  else
    let s := if p.slipDepth = 0 ∧ s.runCloseNs ≤ s.sinceEdge ∧ s.sinceEdge < s.guardOpenNs then s.bump rSTRK_CNT_OVERRUN else s
    s.commitStroke n

/-- A record of a stream's log, RB bytes as one number. -/
def State.logRecord (s : State) (n i l pos : Nat) : Nat :=
  let rb := s.rbOf n
  s.logNat (s.homeOf n i l) (s.dirIdx n i l) (pos * rb) rb
/-- DELTA of the stroke (R438): entries as the commit will leave them, records appended by GENERATE steps, prompt tokens taken; and
whole streams that the standby has refused. -/
def State.deltaOf (s : State) (n : Nat) : DeltaArg :=
  let s' := s.commitStroke n
  let pl := (s.part n).placed
  let whole := ((s.pp n).unprot).filter (fun i => (s.stream i).st != .free)
  let layers := List.range (s.part n).g.nlayer
  let ids := ((s.partStreams n).filter (fun i => s'.streamWords i != s.streamWords i || pl.any (fun x => x.stream == i) || whole.contains i))
  ⟨ids.map (fun i => (i, s'.streamWords i)),
    (pl.filter (fun x => !x.prefill)).flatMap (fun x => layers.map (fun l =>
      let p := (s.stream x.stream).len - 1
      (x.stream, l, p, s.logRecord n x.stream l p))) ++
    whole.flatMap (fun i => layers.flatMap (fun l => (List.range (s.stream i).ntok).map (fun p => (i, l, p, s.logRecord n i l p)))),
    (pl.filter (fun x => x.prefill && s.opNow x.stream == 2)).flatMap (fun x =>
      ((List.range x.tokens.length).zip x.tokens).map (fun e => (x.stream, (s.stream x.stream).len + e.1, e.2)))⟩
/-- Send DELTA. The number of its payload bytes is a value the manual does not state (log entry 83). -/
def State.sendDelta (s : State) (n : Nat) : State :=
  let d := s.deltaOf n
  let f := s.takeFree
  let s := f.2.bumpBy rPAIR_CNT_DELTA (f.1.toNat % 2 ^ 32)
  let num := bigBytes 4
  s.pairSend 6 (some n) (bigBytes 8 (s.part n).stroke.toNat ++ num d.entries.length ++ num d.records.length ++ num d.prompt.length ++
    d.entries.flatMap (fun e => num e.1 ++ e.2.flatMap (unpackNat 8 4)) ++
    d.records.flatMap (fun e => num e.1 ++ [e.2.1] ++ num e.2.2.1 ++ leBytes (s.rbOf n) e.2.2.2) ++
    d.prompt.flatMap (fun e => num e.1 ++ num e.2.1 ++ num e.2.2))

/-- The last site has passed its end marker: locks still held are judged (R262), END or DELTA is sent, and the stroke may finish. -/
def State.lastSite (s : State) (n : Nat) : State :=
  let s := s.sealHeldAtEnd n
  let s := if s.mirrored then s.sendEnd n else if s.shared && s.servesPart n then s.sendDelta n else s
  s.tryFinish n

/-- The three steps of R144: descriptor streams, fence, merge contexts. A halted core holds the work of its site (R459). -/
def State.siteReady (s : State) (n p : Nat) : Bool :=
  match s.bucketOf n with
  | none => false
  | some b =>
    let need := (bucketSect b (s.rankOf n p)).streams
    (List.range 6).all (fun st => (s.dstream p st).finished && decide ((need.getD st []).length ≤ (s.dstream p st).next)) &&
      (List.range 8).all (fun st => s.outst p st == 0) && (s.openCtxs p).isEmpty && !(s.rcd.halted.any (fun k => k / 8 == p))

/-- A site passes its end marker (R144); the requantizers of its combs are updated (R76). -/
def execSiteEndMarker (site t : Nat) (s : State) : Res :=
  let s := s.at t
  let n := s.owner site
  let p := s.part n
  .next (if n < 16 ∧ p.inStroke ∧ p.phase ≠ 0 ∧ !p.issueFault ∧ !(p.done.contains site) ∧ s.siteReady n site then
      let s := (s.updPart n (fun p => { p with done := p.done ++ [site] })).scaleUpdate site
      if s.sitesDone n then s.lastSite n else s
    else s)

/-! ### RUN open (R142, R143, R299) -/

/-- RUN opens for a partition, as a wave: quadrants wanted in the next stroke are requested when the site's quadrant 0 opens (R142,
R143). Without an entry its sites have nothing to do. -/
def State.openRun (s : State) (n : Nat) : State :=
  let open' := s.tick.last + s.ingestNs
  let s := s.updPart n (fun p => { p with phase := 1, runAt := open' })
  let s := (s.partSites n).foldl (fun (s : State) p =>
    (List.range 4).foldl (fun (s : State) q =>
      if bit (s.part n).gateSet q || s.quadOn p q then s else s.domRequestAt (siteDom p q) (open' + 2 * hops31 p)) s) s
  if (s.part n).entry.isSome then s
  else
    let s := (s.partSites n).foldl (fun (s : State) p => s.scaleUpdate p) s
    (s.updPart n (fun p => { p with done := s.partSites n })).lastSite n

/-- RUN opens: clocks change, quadrants that are wanted in the next stroke are requested. -/
def execRunOpen (t : Nat) (s : State) : Res :=
  let s := s.at t
  .next (if !s.tick.started || decide (s.sinceEdge < s.ingestNs) then s
    else
      let s := (List.range 72).foldl (fun (s : State) p =>
        let x := s.pwr1 p
        if x.prev = x.entry then s else s.setPwr1 p { x with prev := x.entry }) s
      let s := if s.pwr.k = s.pwr.kNext then s else { s with pwr := { s.pwr with k := s.pwr.kNext } }
      (List.range 16).foldl (fun (s : State) n =>
        let p := s.part n
        if p.inStroke && p.phase == 0 then
          (if p.formed then s.openRun n else if s.mirrored && s.role == 2 then s else (((s.closeIngest n).idleStroke n).setGate n).openRun n)
        else s) s)

/-! ### EMIT (R129, R277, R426, R429, R451, R456, R486) -/

/-- Digest of one completion entry (ODIG of Table 17.3). -/
def complDigest (c : Completion) : Nat :=
  let w := complWord c false 0
  crc32 (wordBytes ((List.range 5).map (fun i => wf w (1 + i) 0 32)) ++ [bits w 20 6])
/-- Completions of the present stroke. -/
def State.strokeCompls (s : State) (n : Nat) : List Completion :=
  (s.part n).compl.filter (fun c => c.strokeL == (s.part n).stroke.toNat % 2 ^ 32)
/-- A reset due at the next edge takes the place of the faults that ended streams in the stroke (R486). -/
def State.mergeEnded (s : State) (n : Nat) : State :=
  match (s.part n).resetDue with
  | none => s
  | some c =>
    let now := (s.part n).stroke.toNat % 2 ^ 32
    s.updPart n (fun p => { p with compl := p.compl.map (fun x =>
      if x.status = 5 ∧ x.strokeL = now then { x with status := 6, fault := c } else x) })
/-- The STROKE entry (Table 17.3). IDLE also stands for a stroke without an entry (log entry 84). -/
def State.strokeWords (s : State) (n odig : Nat) : List Nat :=
  let p := s.part n
  let r := s.recOf n
  let pre := (p.placed.filter (fun x => x.prefill)).map (fun x => x.pos.length)
  [(p.entry.getD 0) + b2n p.entry.isNone * 2 ^ 6 + b2n r.held * 2 ^ 7 + b2n p.lateFailed * 2 ^ 8 + b2n (s.marked 0x1084 n 0) * 2 ^ 9 +
    r.upd * 2 ^ 12, p.decLive, pre.foldl (· + ·) 0, r.pdig, odig, 0, 0, 0]

/-- Free entries of a completion queue. -/
def QPair.gap (x : QPair) : Nat :=
  if x.cqEn then 2 ^ x.cqSize - 1 - (x.cqTail + 2 ^ x.cqSize - x.cqDb) % 2 ^ x.cqSize else 0
/-- Write the stroke's completions; those that a MIRROR secondary cannot place wait (R429). -/
def State.emitCompls (s : State) (n : Nat) : State :=
  if s.mirrored && s.role == 2 then
    let now := (s.part n).stroke.toNat % 2 ^ 32
    let r := (s.part n).compl.foldl (fun (y : List Completion × List Completion) c =>
      if (y.1.filter (fun x => x.qp == c.qp)).length < (s.qp n c.qp).gap then (y.1 ++ [c], y.2) else (y.1, y.2 ++ [c])) ([], [])
    let s := s.bumpBy rPAIR_CNT_CQWAIT (r.2.filter (fun c => c.strokeL == now)).length
    ((s.updPart n (fun p => { p with compl := r.1 })).writeCompls n 16384).updPart n (fun p => { p with compl := p.compl ++ r.2 })
  else s.writeCompls n 16384

/-- The replayed stroke is over: its digest is compared and its entries are done with (R454, R456). -/
def State.closeReplay (s : State) (n odig : Nat) : State :=
  let r := s.recOf n
  match r.mode, r.rStroke with
  | 2, some w =>
    let s := if w.getD 4 0 ≠ odig then s.diverge n 4 (s.recordedOf n (s.part n).stroke.toNat) else s
    s.updRec n (fun r => { r with rStroke := none, rWheld := [], rTokens := [], rBg := [], rAdmit := [] })
  | _, _ => s

/-- Records and completions of a finished stroke, once EMIT is open: written once in the stroke, and those of a slip stroke against
the consumed period's EMIT (R129, R146). -/
def State.emitStroke (s : State) (n : Nat) : State :=
  let p := s.part n
  if !p.finished || p.slipping || p.emitted then s
  else
    let s := s.mergeEnded n
    let odig := (s.strokeCompls n).foldl (fun a c => a ^^^ complDigest c) 0
    let s := s.updRec n (fun r => { r with odig := odig })
    let s := if (s.recOf n).items.any (fun x => x.kind == 2) then s else s.record n 2 (s.strokeWords n odig)
    let r := s.writeRing n
    if r.1 then ((r.2.updPart n (fun p => { p with emitted := true })).closeReplay n odig).emitCompls n
    else r.2.updPart n (fun p => { p with finished := false })

/-- EMIT is open, or the stroke has finished in it. -/
def execEmitOpen (n t : Nat) (s : State) : Res :=
  let s := s.at t
  .next (if !(s.part n).inStroke || (s.part n).phase == 0 || decide (s.sinceEdge < s.runCloseNs) then s
    else (s.updPart n (fun p => { p with phase := if p.phase = 1 then 2 else p.phase })).emitStroke n)

/-! ### GUARD and slips (R113, R146, R147, R429, R431) -/

/-- Sites that have not passed their end markers, ascending. -/
def State.unfinished (s : State) (n : Nat) : List Nat :=
  sortKeys (((s.partSites n).filter (fun p => !((s.part n).done.contains p))).map (fun p => (p, p)))
/-- Tag of a site's current descriptor: that of the lowest stream that runs one (log entry 85). -/
def State.currentTag (s : State) (p : Nat) : Nat :=
  (((List.range 6).findSome? (fun st => (s.dstream p st).running)).map (fun d => dTag d.toNat)).getD 0
/-- Only the partner's frame is missing. -/
def State.pairWaits (s : State) (n : Nat) : Bool :=
  s.sitesDone n && !(s.part n).committed && !(s.part n).issueFault &&
    ((s.mirrored && (s.peerEndNow n).isNone) || (s.shared && s.servesPart n && (s.pp n).acked != some (s.part n).stroke.toNat))
def State.slipLimit (s : State) : Nat := s.fld rSTRK_CTL 16 4

/-- A stroke not finished at GUARD start (R146, R147). -/
def State.judge (s : State) (n : Nat) : State :=
  let p := s.part n
  if p.issueFault || p.resetDue.isSome then s
  else if s.slipLimit ≤ p.slipDepth - p.waits ∧ !(s.pairWaits n) then
    let u := s.unfinished n
    let lo := u.headD (partHub n)
    (((s.bump rSTRK_CNT_HUNG).sticky rSTRK_STATUS 11).updPart n (fun p => { p with hung := true })).raise 0x3104 n 0x3FFF lo
      (u.headD 0 + u.length * 2 ^ 7) (s.slipLimit + s.currentTag lo * 2 ^ 16)
  else
    let s := if p.slipDepth = 0 then ((s.setFld (rSTRK_PSLIP + 4 * n) 0 32 (s.fld (rSTRK_PSLIP + 4 * n) 0 32 + 1)).bump
        rSTRK_CNT_SLIP).sticky rSTRK_STATUS 10 else s
    s.updPart n (fun p => { p with slipping := true })

def execGuardStart (t : Nat) (s : State) : Res :=
  let s := s.at t
  .next (if !s.tick.started || decide (s.sinceEdge < s.guardOpenNs) then s
    else (List.range 16).foldl (fun (s : State) n =>
      let p := s.part n
      if !p.inStroke || p.phase == 0 || p.phase == 3 || p.phase == 6 then s
      else
        let s := s.updPart n (fun p => { p with phase := if p.phase = 4 then 6 else 3 })
        if p.finished then s else s.judge n) s)

/-- The tick that a slip or a pair wait consumes (step 4 of Table 05.4). -/
def State.consumeTick (s : State) (n : Nat) : State :=
  let wait := s.pairWaits n
  let s := s.updPart n (fun p => { p with
    slipDepth := p.slipDepth + 1, waits := p.waits + b2n wait, slipping := false, phase := 4 })
  let s := if wait then
      let s := s.bump rPAIR_CNT_PWAIT
      if s.mirrored && s.role == 1 then s.sendIngest n else s
    else
      let u := s.unfinished n
      let lo := u.headD (partHub n)
      (s.bump rSTRK_CNT_CONSUMED).raise 0x0101 n 0x3FFF lo (u.headD 0 + u.length * 2 ^ 7 + min 255 (s.part n).slipDepth * 2 ^ 14)
        ((s.part n).entry.getD 0 + s.currentTag lo * 2 ^ 16)
  (s.partSites n).foldl (fun (s : State) p => (s.openCtxs p).foldl (fun (s : State) m => s.mergeFinish p m true) s) s

end Sys2Proof.Machine
end

