-- ==== Sys2Proof/Machine/Pair.lean ====
section
/-! DEFINITION. Membership, coupling, MIRROR, SHARE and the resynchronisation of the redundant pair (R417-R442), and the loss of a
hub with its lane-group (R405, R418). -/

namespace Sys2Proof.Machine

/-- The word of a CONTROL frame as the recorder keeps it (Table 17.3). -/
def State.recControl (s : State) (kind : Nat) (h : PairHdr) : State :=
  s.recordAll 8 [2, s.role + 4 * s.role, h.epoch, kind, h.part, h.stroke % 2 ^ 32, h.stroke / 2 ^ 32 % 2 ^ 16, h.serial % 2 ^ 32]

/-! ### Lane-groups (R418, R421) -/

/-- A lane-group goes down: cause 0 alignment, 1 replays, 2 domain, 3 hub lost. -/
def State.laneDown (s : State) (lane cause : Nat) : State :=
  if !(s.lanesUp.contains lane) then s
  else
    let up := clrBit (s.fld rPAIR_STATUS 4 4) lane
    let s := (s.setFld rPAIR_STATUS 4 4 up).raise 0x1442 16 0x3FFF (hubSite lane) (lane + cause * 4) up
    if up = 0 then
      let s := s.raise 0x1443 16 0x3FFF (hubSite lane) lane 0
      if s.resyncing = 0 then s else s.endResync
    else s

/-- Loss of alignment, failure of the retry protocol, or a fault of the lane-group's domain or hub. -/
def execPairLaneDown (lane cause t : Nat) (s : State) : Res := .next ((s.at t).laneDown lane cause)

/-- Lock, alignment and a passed loop-back check. Both directions start again at SEQ 0 (log entry 81). -/
def execPairLaneUp (lane t : Nat) (s : State) : Res :=
  let s := s.at t
  .next (if 3 < lane ∨ s.lanesUp.contains lane ∨ !(s.domOn (420 + lane)) ∨ bit s.boot.hubLost lane then s
    else
      let s := s.setFld rPAIR_STATUS 4 4 (orBit (s.fld rPAIR_STATUS 4 4) lane)
      { s with pair := { s.pair with
        txSeq := mset 0 s.pair.txSeq lane 0, rxSeq := mset 0 s.pair.rxSeq lane 0, replays := mset 0 s.pair.replays lane 0,
        frames := s.pair.frames.filter (fun f => f.lane != lane || f.part < 16) } })

/-- A NAK: frames are sent again from the SEQ it names. -/
def execPairNak (h : PairHdr) (seq t : Nat) (s : State) : Res :=
  let r := s.pairRx 10 h t
  .next (if r.1 then r.2.replayFrom h.lane seq else r.2)

/-- The oldest frame of a lane-group has not been acknowledged within 20 µs; its eighth replay takes the lane-group down. -/
def execPairReplayTimeout (lane t : Nat) (s : State) : Res :=
  let s := s.at t
  .next (match s.pair.frames.find? (fun f => f.lane == lane) with
    | none => s
    | some f =>
      if !(s.lanesUp.contains lane) then s
      else
        let k := mget 0 s.pair.replays lane + 1
        let s := (s.emit (.pair lane f.type f.body)).bump rPAIR_CNT_REPLAY
        let s := { s with pair := { s.pair with replays := mset 0 s.pair.replays lane k } }
        if 8 ≤ k then s.laneDown lane 1 else s)

/-! ### Joining (R424, R427, R440) -/

/-- Configured partitions. -/
def State.configured (s : State) : List Nat := (List.range 16).filter (fun n => (s.part n).st != .unconfigured)
/-- Partitions that hold streams, bit n. -/
def State.liveMask (s : State) : Nat :=
  ((List.range 16).filter (fun n => (s.partStreams n).any (fun i => (s.stream i).st != .free))).foldl orBit 0
/-- Measurement of the image that a partition runs (R389). -/
def State.measOf (s : State) (n : Nat) : Nat := s.meas (rSEC_PMEAS + 0x30 * n)
/-- HELLO of this panel (Table 16.2). -/
def State.helloArg (s : State) : HelloArg :=
  ⟨s.fld rGLB_ID 16 16, s.fld rGLB_ID 4 4, s.modeNow, s.role, s.fld rPAIR_CTL 16 16, s.flag rPAIR_CTL 2, s.meas rSEC_MEAS,
    s.configured.map (fun n => (n, s.nsite n, s.measOf n)), s.liveMask⟩
def State.sendHello (s : State) : State :=
  let b := s.helloArg
  s.pairSend 1 none (bigBytes 4 (s.fld rGLB_ID 0 32) ++ [b.mode, b.role] ++ bigBytes 2 b.serve ++ [b2n b.auto] ++ bigBytes 48 b.meas ++
    [b.parts.length] ++ b.parts.flatMap (fun x => [x.1, x.2.1] ++ bigBytes 48 x.2.2) ++ bigBytes 2 b.live)
/-- Does the panel send HELLO at tick edges (R424)? -/
def State.sendsHello (s : State) : Bool :=
  s.modeNow != 0 && (s.role == 0 || (s.role == 3 && (s.flag rPAIR_CTL 2 || s.pair.hello)))

/-- Both panels hold streams of paired partitions; in SHARE, of one partition. -/
def bothLive (mode a b : Nat) : Bool := if mode = 2 then a &&& b != 0 else a != 0 && b != 0
/-- The first join check that fails (Table 16.4). -/
def joinFails (a b : HelloArg) : Option Nat :=
  if a.mode ≠ b.mode ∨ a.mode = 0 ∨ a.id ≠ b.id ∨ a.level ≠ b.level then some 0
  else
    let has (x : HelloArg) (n : Nat) : Option (Nat × Nat × Nat) := x.parts.find? (fun p => p.1 == n)
    let serve := a.serve ||| b.serve
    let same := if a.mode = 1 then
        a.meas == b.meas && (List.range 16).all (fun n => has a n == has b n)
      else
        a.serve &&& b.serve == 0 && (List.range 16).all (fun n => !(bit serve n) || ((has a n).isSome && has a n == has b n))
    if !same then some 1
    else if a.role = 0 ∧ b.role = 0 ∧ bothLive a.mode a.live b.live then some 2
    else none
/-- Does this panel become PRIMARY (R424)? A quarantined panel is always the joiner (R426). -/
def becomesPrimary (a b : HelloArg) (mine theirs : Nat) : Bool :=
  if a.role = 3 then false
  else if b.role = 3 then true
  else
    let la := if a.mode = 2 then a.live &&& a.serve else a.live
    let lb := if a.mode = 2 then b.live &&& b.serve else b.live
    if la ≠ 0 ∧ lb = 0 then true else if la = 0 ∧ lb ≠ 0 then false else decide (mine < theirs)

/-- A HELLO is judged by a panel that is ready to join. -/
def State.meetHello (s : State) (h : PairHdr) (b : HelloArg) : State :=
  let a := s.helloArg
  let low := h.serial % 2 ^ 32
  if h.epoch = s.epoch ∧ a.role = 0 ∧ b.role = 0 ∧ a.mode ≠ 0 ∧ a.mode = b.mode ∧ bothLive a.mode a.live b.live then
    let s := (s.sticky rPAIR_STATUS 28).pairFault 0x044B s.epoch low
    let s := s.recordAll 8 [3, s.role + 4 * s.role, h.epoch, 1, low, h.serial / 2 ^ 32, 0, 0]
    if h.serial < serial then s.quarantine h.epoch else s
  else
    match joinFails a b with
    | some r => s.pairFault 0x0449 r low
    | none =>
      let s := s.setReg rPAIR_PARTNER (BitVec.ofNat 64 h.serial)
      let s : State := { s with pair := { s.pair with epoch := max s.epoch h.epoch, since := s.time, inStep := false } }
      if becomesPrimary a b serial h.serial then
        let s := if s.role = 1 then s else (s.setRole 1).pairFault 0x0441 (1 + s.modeNow * 4) s.epoch
        (s.setFld rPAIR_STATUS 12 3 1).pairSend 9 none [1]
      else { s with pair := { s.pair with joiner := true, hello := false } }

/-- HELLO. A panel that runs in step, or whose resynchronisation goes on, takes no notice of it. -/
def execPairHello (h : PairHdr) (b : HelloArg) (t : Nat) (s : State) : Res :=
  let r := s.pairRx 1 h t
  let s := r.2
  .next (if r.1 && (s.sendsHello || (s.role == 1 && !s.pair.inStep && s.resyncing == 0)) then s.meetHello h b else s)

/-- HEARTBEAT (R425, R428): `skew` is what the panel measures from it, in ns. -/
def execPairHeartbeat (h : PairHdr) (role : Nat) (quads : List Nat) (skew : Int) (t : Nat) (s : State) : Res :=
  let r := s.pairRx 2 h t
  let s := r.2
  .next (if r.1 && decide (role < 4) then
      let s : State := { s with pair := { s.pair with
        seen := s.pair.seen || h.epoch == s.epoch,
        quads := (List.range 16).foldl (fun (m : SMap Nat) n => mset 0 m n (quads.getD n 0)) s.pair.quads } }
      let s := s.setReg rPAIR_SKEW (BitVec.ofNat 64 (unsigned 32 skew))
      let now := s.tick.number.toNat
      let due := match s.pair.skewAt with
        | some k => decide (k + 1000 ≤ now)
        | none => true
      if 20000 < skew.natAbs ∧ due = true then
        (({ s with pair := { s.pair with skewAt := some now } } : State)).pairFault 0x044D (unsigned 32 skew) 0
      else s
    else s)

/-! ### The dead partner (R425, R431, R436, R439) -/

/-- A stream of a standby partition is adopted (R439, log entry 97). -/
def State.adoptStream (s : State) (n i : Nat) : State :=
  let x := s.stream i
  if x.st ≠ .active then s
  else
    match x.ops with
    | o :: _ =>
      if (x.started && (o.opc == 2 || o.opc == 3)) || o.opc == 7 then
        (s.setStream i { x with ops := [{ o with qp := x.qp, port := (s.qp n x.qp).sqPort }] }).updQp n x.qp (fun q =>
          { q with reserved := q.reserved + 1 })
      else s.setStream i ({ x with ops := [], started := false, remain := 0 }.settle)
    | [] => s.setStream i x.settle

/-- The partner is dead: this panel goes on alone. The strokes that wait for its frame alone finish and are emitted at once. -/
def State.partnerDead (s : State) : State :=
  let waits := (List.range 16).filter (fun n => (s.part n).inStroke && (s.part n).phase != 0 && s.pairWaits n)
  let stand := (List.range 16).filter (fun n => s.standbyPart n && (s.part n).st != .unconfigured)
  let low := s.fld rPAIR_PARTNER 0 32
  let s := (s.setEpoch (s.epoch + 1)).setRole 0
  let s := (s.bump rPAIR_CNT_TAKEOVER).pairFault 0x1444 s.epoch low
  let s := ((s.setReg rPAIR_PARTNER 0).setFld rPAIR_STATUS 8 4 0).endResync.leaveStep
  let s := stand.foldl (fun (s : State) n =>
    (s.partStreams n).foldl (fun (s : State) i => s.adoptStream n i) (s.setFld rPAIR_CTL (16 + n) 1 1)) s
  waits.foldl (fun (s : State) n =>
    let s := s.tryFinish n
    if (s.part n).finished then (s.updPart n (fun p => { p with slipping := false })).emitStroke n else s) s

/-- Is the partner dead at the edge that ends this period (R425)? -/
def State.partnerMissed (s : State) : Bool :=
  s.coupled && s.modeNow != 0 && !s.pair.seen && decide (7 ≤ s.fld rPAIR_STATUS 8 4)

/-- The declaration at the edge that ends the eighth missed period. -/
def execPairPartnerDead (t : Nat) (s : State) : Res :=
  let s := s.at t
  .next (if s.partnerMissed then s.partnerDead else s)

/-! ### MIRROR: INGEST and PACE (R429, R430) -/

/-- The secondary applies INGEST instead of forming demand. It reserves completion room in its own queue pairs; what INGEST admits
does not move their heads. -/
def State.applyIngest (s : State) (n : Nat) (a : IngestArg) : State :=
  let was := (s.part n).short
  let s := a.subs.foldl (fun (s : State) x =>
    let head := (s.qp n x.1).sqHead
    (s.admitOp n x.1 x.2.toNat).updQp n x.1 (fun q => { q with sqHead := head })) s
  let s := (s.partStreams n).foldl (fun (s : State) i => s.readyOp n i 5) s
  let s := if a.entry.isNone ∧ a.demD = 0 ∧ a.demP = 0 then s.idleStroke n
    else
      let s := if a.short then s.bucketShort n a.demD a.demP was else s
      let s := s.updPart n (fun q => { q with
        idle := false, idleRun := 0, short := a.short, formed := true, demandD := a.demD, demandP := a.demP, placed := [], entry := none,
        opmark := 3, decLive := 0 })
      let s := (a.placed.filter (fun x => !x.prefill)).foldl (fun (s : State) x =>
        let y := s.stream x.stream
        if y.rsv then s
        else (s.updQp n y.qp (fun q => { q with reserved := q.reserved + 1 })).setStream x.stream { y with rsv := true }) s
      match a.entry with
      | some i => s.placeAll n i (a.placed.map (fun x =>
          (⟨x.stream, x.slot, x.prefill, x.pos, x.tokens, (s.stream x.stream).wheld != 0, false, none, false, 0⟩ : Placed)))
      | none => s
  s.setGate n

/-- INGEST of the stroke that this secondary has begun. -/
def execPairIngest (h : PairHdr) (a : IngestArg) (t : Nat) (s : State) : Res :=
  let r := s.pairRx 3 h t
  let s := r.2
  let p := s.part h.part
  .next (if r.1 && s.mirrored && s.role == 2 && p.inStroke && p.phase == 0 && !p.formed && p.stroke.toNat == h.stroke &&
      !s.inp.failing then s.applyIngest h.part a
    else s)

/-- INGEST is missing 9 µs before INGEST closes: the stroke does not begin, and the tick is a pair wait. -/
def execIngestWait (n t : Nat) (s : State) : Res :=
  let s := s.at t
  let p := s.part n
  .next (if s.mirrored && s.role == 2 && p.inStroke && p.phase == 0 && !p.formed && decide (s.ingestNs ≤ s.sinceEdge + 9000) then
      (s.updPart n (fun p => { p with
        stroke := p.stroke - 1, inStroke := false, phase := 4, slipDepth := p.slipDepth + 1, waits := p.waits + 1 })).bump
        rPAIR_CNT_PWAIT
    else s)

/-- Lower the entry of a partition whose plan is complete to the partner's (PAIR_PACE, R305, R314). -/
def State.lowerTo (s : State) (n e : Nat) : State :=
  let p := s.part n
  let w := s.ppwr n
  let s := s.setPpwr n { w with pace := some e }
  if p.formed ∧ p.phase = 0 ∧ e < w.entry then
    let s := s.setPpwr n { w with pace := some e, entry := e }
    (s.partSites n).foldl (fun (s : State) q =>
      let x := s.pwr1 q
      s.setPwr1 q { x with entry := min x.entry e, capWhy := if e < x.tgt then orBit x.capWhy 6 else x.capWhy }) s
  else s
/-- A partition held on either panel is held on both; a hold that is the partner's alone ends with it (R430). -/
def State.holdWith (s : State) (n : Nat) (hold : Bool) : State :=
  if hold ∧ !(s.held n) then (s.setFld (rPWR_PREF + 4 * n) 31 1 1).updPart n (fun p => { p with gateSet := 15 })
  else if !hold ∧ s.held n ∧ (s.ppwr n).heldAt.isNone then s.unhold n
  else s

/-- PACE. -/
def execPairPace (h : PairHdr) (entry : Nat) (hold : Bool) (t : Nat) (s : State) : Res :=
  let r := s.pairRx 4 h t
  let s := r.2
  .next (if r.1 && s.mirrored then
      let s := s.updPp h.part (fun x => { x with pace := some (entry, hold), paceNow := true })
      (s.lowerTo h.part entry).holdWith h.part hold
    else s)

/-- PACE is missing when the plan must be complete: the partner's last entry, lowered by one, and the own hold decision. -/
def execPaceTimeout (n t : Nat) (s : State) : Res :=
  let s := s.at t
  .next (if s.mirrored && (s.part n).inStroke && (s.part n).phase == 0 && !(s.pp n).paceNow then
      match (s.pp n).pace with
      | some x => (s.lowerTo n (x.1 - 1)).updPp n (fun z => { z with paceNow := true })
      | none => s
    else s)

/-! ### END, DELTA and DELTA_ACK (R431-R434, R438) -/

/-- END of the partner's stroke. -/
def execPairEnd (h : PairHdr) (a : EndArg) (t : Nat) (s : State) : Res :=
  let r := s.pairRx 5 h t
  let s := r.2
  .next (if r.1 && s.mirrored then (s.updPp h.part (fun x => { x with peerEnd := some (h.stroke, a) })).tryFinish h.part else s)

/-- A stream that the standby holds no longer: logs, token log and entry go (R438, R440). -/
def State.clearStream (s : State) (n i : Nat) : State :=
  let hb := (s.stream i).hb
  let s := (s.pair.logFr.filter (fun e => e.1 == i)).foldl (fun (s : State) e => s.dropFrame (s.rankSite n hb) e.2.2) s
  let s := { s with pair := { s.pair with
    logFr := s.pair.logFr.filter (fun e => e.1 != i), tokens := s.pair.tokens.filter (fun e => e.1 / 131072 != i) } }
  (s.freeStream n i).setStream i Stream.init

/-- A stream-table entry written from the words of Table 10.7. NTOK is one below the length, and an entry that has no token yet
shows NTOK 0 too; it is told from a length of 1 by STATE and LSTROKE (log entry 98). -/
def State.putStream (s : State) (n i : Nat) (w : List Nat) : State :=
  let g (k lo m : Nat) : Nat := bits (w.getD k 0) lo m
  let st : StreamState := match g 0 0 3 with
    | 1 => .opened | 2 => .resident | 3 => .active | 4 => .parked | 5 => .draining | 6 => .closed | _ => .free
  if st = .free then s.clearStream n i
  else
    let s := if st = .closed ∨ st = .parked then s.freeStream n i else s
    let last := g 14 0 32 + g 15 0 16 * 2 ^ 32
    let ntok := g 1 0 18
    let opc := g 0 24 8
    let addr := g 6 0 32 + g 7 0 32 * 2 ^ 32
    let seed := g 10 0 32 + g 11 0 32 * 2 ^ 32
    let o : AdmOp := ⟨opc, g 3 0 16, g 0 16 4, 0, addr, g 5 0 18, 0, g 8 0 32, g 9 0 32, seed, (s.part n).stroke.toNat + 1 - g 13 0 32⟩
    s.setStream i { Stream.init with
      st := st, part := n, taint := g 0 3 1 == 1, hb := g 0 8 8, qp := g 0 16 4, wheld := g 0 20 4,
      len := if st = .opened ∨ (st = .active ∧ ntok = 0 ∧ last = 0) then 0 else ntok + 1,
      maxctx := g 2 0 18, fault := g 3 16 16, origin := g 4 0 32, remain := g 5 0 18, haddr := addr, temp := g 8 0 32, topw := g 9 0 32,
      seed := seed, sslot := g 12 0 14, lasttok := g 12 14 18, lstroke := last, ops := if opc = 0 then [] else [o],
      started := opc != 0 && opc != 7, parked := st == .parked || opc == 6 }

/-- Pages up to the one that holds byte `b - 1` of a log are opened; none when a frame or a chunk is missing. -/
def State.openTo (s : State) (p d want : Nat) : Nat → Option State
  | 0 => if want ≤ (s.dirAt p d).npg ∧ (s.dirAt p d).v then some s else none
  | fuel + 1 =>
    if want ≤ (s.dirAt p d).npg ∧ (s.dirAt p d).v then some s
    else
      (s.ensureLeaf p d want).bind (fun s =>
        (s.takeFrame p 1).bind (fun z => State.openTo (z.2.addPage p d z.1 false) p d want fuel))
/-- A record of DELTA is written to its home (R190, R438). -/
def State.putRecord (s : State) (n i l pos x : Nat) : Option State :=
  let p := s.homeOf n i l
  let d := s.dirIdx n i l
  let rb := s.rbOf n
  let want := s.npgOf n (pos + 1)
  (s.openTo p d want (want + 1)).map (fun s =>
    let s := s.setLog p d (pos * rb) (leBytes rb x)
    { s with pair := { s.pair with tokens := mset 0 s.pair.tokens (i * 131072 + pos) 0 } })
/-- A prompt token is written to the token log at HB: 16,384 tokens per frame. Tokens are held plus one, so that 0 is none. -/
def State.putToken (s : State) (n i pos tok : Nat) : Option State :=
  let b := pos / 16384
  let got : Option State := if s.pair.logFr.any (fun e => e.1 == i && e.2.1 == b) then some s
    else (s.takeFrame (s.rankSite n (s.stream i).hb) 1).map (fun z =>
      ({ z.2 with pair := { z.2.pair with logFr := z.2.pair.logFr ++ [(i, b, z.1)] } } : State))
  got.map (fun s => { s with pair := { s.pair with tokens := mset 0 s.pair.tokens (i * 131072 + pos) (tok % 2 ^ 18 + 1) } })

/-- Apply one item for a stream unless the stream has been refused; a missing frame refuses it and clears what is held of it (log
entry 99). -/
def deltaItem (n i : Nat) (f : State → Option State) (y : State × List Nat) : State × List Nat :=
  if y.2.contains i then y
  else
    match f y.1 with
    | some s => (s, y.2)
    | none => (y.1.clearStream n i, y.2 ++ [i])
/-- DELTA is applied; the answer names the streams refused. -/
def State.applyDelta (s : State) (n : Nat) (a : DeltaArg) : State × List Nat :=
  let s := a.entries.foldl (fun (s : State) e => s.putStream n e.1 e.2) s
  let y := a.records.foldl (fun (y : State × List Nat) e =>
    deltaItem n e.1 (fun s => s.putRecord n e.1 e.2.1 e.2.2.1 e.2.2.2) y) (s, [])
  a.prompt.foldl (fun (y : State × List Nat) e => deltaItem n e.1 (fun s => s.putToken n e.1 e.2.1 e.2.2) y) y

/-- DELTA at the standby, which answers with DELTA_ACK. -/
def execPairDelta (h : PairHdr) (a : DeltaArg) (t : Nat) (s : State) : Res :=
  let r := s.pairRx 6 h t
  let s := r.2
  let n := h.part
  .next (if r.1 && s.shared && s.standbyPart n && (s.part n).st != .unconfigured then
      let y := s.applyDelta n a
      y.1.pairSend 7 (some n) (bigBytes 8 h.stroke ++ bigBytes 4 y.2.length ++ y.2.flatMap (bigBytes 4))
    else s)

/-- DELTA_ACK at the serving panel. -/
def execPairDeltaAck (h : PairHdr) (refused : List Nat) (t : Nat) (s : State) : Res :=
  let r := s.pairRx 7 h t
  let s := r.2
  let n := h.part
  .next (if r.1 && s.shared && s.servesPart n then
      let s := s.updPp n (fun x => { x with acked := some h.stroke, unprot := refused })
      let s := match refused with
        | [] => s
        | i :: _ => if s.marked 0x044A n 0 then s else (s.mark 0x044A n 0).pairFault 0x044A i (min 65535 refused.length)
      s.tryFinish n
    else s)

/-! ### CONTROL (R422, R426, R432, R435, R442) -/

/-- CONTROL RESET: the partition is reset here too, at the next edge. -/
def execControlReset (h : PairHdr) (t : Nat) (s : State) : Res :=
  let r := s.pairRx 8 h t
  let s := r.2
  let n := h.part
  .next (if r.1 then
      let s := s.recControl 1 h
      if s.mirrored && ((s.part n).st == .running || (s.part n).st == .loading) then
        (s.resetPart n 0).updPp n (fun x => { x with told := true })
      else s
    else s)

def execControlQuarantine (h : PairHdr) (t : Nat) (s : State) : Res :=
  let r := s.pairRx 8 h t
  .next (if r.1 then (r.2.recControl 2 h).quarantine h.epoch else r.2)

/-- The panel leaves the pair; standby partitions keep nothing of the partner's streams (log entry 100). -/
def State.leavePair (s : State) : State :=
  let stand := (List.range 16).filter s.standbyPart
  let s := stand.foldl (fun (s : State) n => (s.partStreams n).foldl (fun (s : State) i => s.clearStream n i) s) s
  let s := ((s.setRole 0).setReg rPAIR_PARTNER 0).setFld rPAIR_STATUS 8 4 0
  let s := s.endResync.leaveStep
  { s with pair := { s.pair with hello := false } }

def execControlLeave (h : PairHdr) (t : Nat) (s : State) : Res :=
  let r := s.pairRx 8 h t
  .next (if r.1 then ((r.2.recControl 3 h).setEpoch (r.2.epoch + 1)).leavePair else r.2)

/-- CONTROL UPDATE: firmware is told of the banks and sets; it opens, fills and arms its slots with commands of its own. -/
def execControlUpdate (h : PairHdr) (banks sets : List (Nat × Nat)) (t : Nat) (s : State) : Res :=
  let r := s.pairRx 8 h t
  .next (if r.1 then
      let s := r.2.recControl 4 h
      { s with pair := { s.pair with want := s.pair.want.filter (fun x => x.1 != h.part) ++ [(h.part, banks, sets)] } }
    else r.2)

/-! ### Resynchronisation (R440) -/

/-- Partitions that the joiner has overwritten: the paired ones, or its standby partitions. -/
def State.overwritten (s : State) : List Nat :=
  s.configured.filter (fun n => s.modeNow == 1 || !(s.servesPart n))
/-- Phase CLEAR. -/
def State.clearPaired (s : State) : State :=
  s.overwritten.foldl (fun (s : State) n =>
    let s := (s.partStreams n).foldl (fun (s : State) i => s.clearStream n i) s
    let ps := s.partSites n
    let r := (s.part n).g.rsvFr
    let s := { s with kv := { s.kv with
      frames := s.kv.frames.filter (fun e => !(ps.contains (e.1 / 589824)) || decide (e.1 % 589824 < r)),
      park := s.kv.park.filter (fun x => !(ps.contains x.site)),
      dir := s.kv.dir.filter (fun e => !(ps.contains (e.1 / 2 ^ 27))), leaf := s.kv.leaf.filter (fun e => !(ps.contains (e.1 / 2 ^ 25))) } }
    let s := ps.foldl (fun (s : State) p => s.setSvc p ({ s.svc p with top0 := 0, top1 := 0, holes0 := 0, holes1 := 0 } : PageSvc).stop) s
    s.updPart n (fun p => { p with compl := [], inStroke := false, placed := [], phase := 5, finished := false })) s

/-- Apply an item of RESYNC. -/
def State.putItem (s : State) (x : SyncItem) : State :=
  match x with
  | .stream i w =>
    match (List.range 16).find? (fun n => s.ownsStream n i) with
    | some n => s.putStream n i w
    | none => s
  | .frame l f st c k => s.setFrame (s.phys l) f { s.frame (s.phys l) f with st := st, cestr := c, refcnt := k }
  | .dir l i taint capc npg leaf =>
    let p := s.phys l
    let v := s.svc p
    (s.setSvc p (v.setHeap (max v.top (leaf + capc + 1)) v.holes)).setDirRaw p i ⟨true, taint, capc, npg, leaf⟩
  | .leaf l i shr f =>
    let p := s.phys l
    { s with kv := { s.kv with leaf := mset PageEntry.init s.kv.leaf (leafKey p (s.svc p).gen 0 i) ⟨true, shr, f⟩ } }
  | .data l f g v => s.setHbmGran (s.phys l) f g v
  | .scale l comb set ws flags head nvalid ring =>
    let p := s.phys l
    let pc := s.pcomb p comb
    let k := scaleKey pc set
    let g (i : Nat) : BitVec 32 := ws.getD i 0
    (s.setScaleSet k { s.scaleSet k with
      gInit := g 0, gCur := g 1, gPrev := g 2, fStroke := g 3, fPend := g 4, strokeValid := bit flags 0, pendValid := bit flags 1,
      inexact := bit flags 2, headIdx := head, nvalid := nvalid,
      ring := (List.range 16).foldl (fun (m : SMap (BitVec 32)) i => mset 0 m i (ring.getD i 0)) [] }).deriveSet p comb pc set (g 1)
  | .row l comb bank r w m =>
    let pc := s.pcomb (s.phys l) comb
    let sk := slotKey pc (s.liveSlot pc bank)
    (s.setWeightRow sk r w).setMetaRow sk r m
  | .seal l i c => s.setSeal (l * 256 + i) { mget Seal.init s.sls.seals (l * 256 + i) with count := c }

/-- What the PRIMARY sends (Table 16.5) of one partition. Of banks it sends every one that holds rows, which includes those
rewritten since load (log entry 101). -/
def State.syncItems (s : State) (n : Nat) : List SyncItem :=
  let ps := (setBitsOf 64 (s.part n).g.sites).map (fun l => (l, s.phys l))
  let kv := s.kv
  let mirror := s.modeNow == 1
  let rsv := (s.part n).g.rsvFr
  ((s.partStreams n).map (fun i => SyncItem.stream i (s.streamWords i))) ++
  ps.flatMap (fun x =>
    let gen := (s.svc x.2).gen
    let used (f : Nat) : Bool := decide (rsv ≤ f) && (s.frame x.2 f).st == 1
    ((kv.frames.filter (fun e => e.1 / 589824 == x.2)).map (fun e => SyncItem.frame x.1 (e.1 % 589824) e.2.st e.2.cestr e.2.refcnt)) ++
    ((kv.dir.filter (fun e => e.1 / 2 ^ 26 == x.2 * 2 + gen)).map (fun e =>
      SyncItem.dir x.1 (e.1 % 2 ^ 26) e.2.taint e.2.capc e.2.npg e.2.leaf)) ++
    ((kv.leaf.filter (fun e => e.1 / 2 ^ 24 == x.2 * 2 + gen)).map (fun e => SyncItem.leaf x.1 (e.1 % 2 ^ 24) e.2.shr e.2.frame)) ++
    ((kv.hbm.filter (fun e => e.1 / 1024 / 589824 == x.2 && used (e.1 / 1024 % 589824))).map (fun e =>
      SyncItem.data x.1 (e.1 / 1024 % 589824) (e.1 % 1024) e.2)) ++
    (if mirror then
      ((s.rq.sets.filter (fun e => e.1 / 16 / 4160 == x.2)).map (fun e =>
        let pc := e.1 / 16
        let y := e.2
        SyncItem.scale x.1 (pc % 4160 / 1040 * 1024 + pc % 1040) (e.1 % 16) [y.gInit, y.gCur, y.gPrev, y.fStroke, y.fPend]
          (b2n y.strokeValid + b2n y.pendValid * 2 + b2n y.inexact * 4) y.headIdx y.nvalid
          ((List.range 16).map (fun i => mget 0 y.ring i)))) ++
      ((s.comb.rows.filter (fun e => e.1 / 256 / 66 / 4160 == x.2)).filterMap (fun e =>
        let pc := e.1 / 256 / 66
        ((List.range 64).find? (fun b => s.liveSlot pc b == e.1 / 256 % 66)).map (fun b =>
          SyncItem.row x.1 (pc % 4160 / 1040 * 1024 + pc % 1040) b (e.1 % 256) e.2 (s.metaRow (e.1 / 256) (e.1 % 256))))) ++
      ((s.sls.seals.filter (fun e => e.1 / 256 == x.1 && e.2.kind == 0 && !e.2.clr)).map (fun e =>
        SyncItem.seal x.1 (e.1 % 256) e.2.count))
     else []))

/-- An item as the bytes of a frame, its kind first. What other chapters lay out keeps its own byte order. -/
def syncBytes : SyncItem → List Nat
  | .stream i w => 0 :: bigBytes 4 i ++ w.flatMap (unpackNat 8 4)
  | .frame l f st c k => [1, l] ++ bigBytes 4 f ++ [st, c] ++ bigBytes 4 k
  | .dir l i taint capc npg leaf => [2, l] ++ [i, b2n taint, capc, npg, leaf].flatMap (bigBytes 4)
  | .leaf l i shr f => [3, l] ++ bigBytes 4 i ++ [b2n shr] ++ bigBytes 4 f
  | .data l f g v => [4, l] ++ bigBytes 4 f ++ bigBytes 2 g ++ unpackNat 8 64 v.toNat
  | .scale l c k ws fl hd nv ring => [5, l] ++ bigBytes 2 c ++ [k] ++ ws.flatMap (fun x => bigBytes 4 x.toNat) ++ [fl, hd, nv] ++
      ring.flatMap (fun x => bigBytes 4 x.toNat)
  | .row l c b r w m => [6, l] ++ bigBytes 2 c ++ [b] ++ bigBytes 2 r ++ unpackNat 8 32 w.toNat ++ unpackNat 8 16 m.toNat
  | .seal l i c => [7, l, i] ++ bigBytes 4 c

/-- Partitions that the PRIMARY brings the joiner up to date with. -/
def State.suppliedParts (s : State) : List Nat := s.configured.filter (fun n => s.modeNow == 1 || s.servesPart n)
/-- The PRIMARY enters a phase and sends what it carries. -/
def State.sendPhase (s : State) (ph : Nat) (extra : List Nat) : State :=
  let items := s.suppliedParts.flatMap s.syncItems
  (s.setFld rPAIR_STATUS 12 3 ph).pairSend 9 none ([ph] ++ extra ++ items.flatMap syncBytes)

/-- RESYNC. At the joiner a frame of phase `phase`; at the PRIMARY the phase that it enters, from which the frames follow. -/
def execPairResync (h : PairHdr) (phase : Nat) (items : List SyncItem) (t : Nat) (s : State) : Res :=
  .next (if s.role = 1 then
      let s := s.at t
      if s.resyncing ≠ 0 ∧ s.resyncing ≤ phase ∧ phase ≤ 3 then s.sendPhase phase [] else s
    else
      let r := s.pairRx 9 h t
      let s := r.2
      if r.1 && s.pair.joiner && decide (1 ≤ phase) && decide (phase ≤ 4) then
        let s := s.setFld rPAIR_STATUS 12 3 phase
        let s := if phase = 1 then s.clearPaired else s
        items.foldl (fun (s : State) x => s.putItem x) s
      else s)

/-- The LOCK edge (R424, R440): EPOCH is one more than the larger of the two, and the panels are in step. -/
def State.lockStep (s : State) : State :=
  let tenths := (s.time - s.pair.since) / 100000000
  let s := s.endResync.setEpoch (s.pair.epoch + 1)
  let s := ({ s with pair := { s.pair with inStep := true, seen := true, lastPanel := [] } } : State).setFld rPAIR_STATUS 8 4 0
  s.pairFault 0x044C s.epoch (min 65535 tenths)

/-- RESYNC ends: at the joiner with the stroke numbers of its partitions, at the PRIMARY with the frame that names them. -/
def execPairResyncDone (h : PairHdr) (strokes : List (Nat × Nat)) (t : Nat) (s : State) : Res :=
  .next (if s.role = 1 then
      let s := s.at t
      if s.resyncing = 2 ∨ s.resyncing = 3 then
        let ns := s.suppliedParts
        (s.sendPhase 4 (ns.length :: ns.flatMap (fun n => n :: bigBytes 8 (s.part n).stroke.toNat))).lockStep
      else s
    else
      let r := s.pairRx 9 h t
      let s := r.2
      if r.1 && s.pair.joiner && s.resyncing != 0 then
        let s := strokes.foldl (fun (s : State) x =>
          if s.overwritten.contains x.1 then s.updPart x.1 (fun p => { p with stroke := BitVec.ofNat 48 x.2 }) else s) s
        let s := if s.modeNow = 1 then
            s.overwritten.foldl (fun (s : State) n => (s.partStreams n).foldl (fun (s : State) i =>
              let x := s.stream i
              s.updQp n x.qp (fun q => { q with reserved := q.reserved + x.ops.length })) s) s
          else s
        let s := (s.setRole 2).lockStep
        s.pairFault 0x0441 (2 + s.modeNow * 4) s.epoch
      else s)

/-- A diagnostic vector between the hub firmwares; an invalid header is discarded (R108, R420). -/
def execPairVector (h : PairHdr) (v : BitVec 256) (planes : List Nat) (len t : Nat) (s : State) : Res :=
  let r := s.pairRx 11 h t
  let s := r.2
  .next (if r.1 then
      match hdrFail v.toNat planes len with
      | some f => s.badVector h.part (hubSite h.lane) v.toNat 4 f
      | none => s.emit (.vector (hubSite h.lane) v.toNat planes)
    else s)

/-! ### Registers (R442) -/

/-- A write of PAIR_CMD (Table 16.10). -/
def State.pairCmd (s : State) (w : Nat) : State :=
  let c := bits w 24 4
  if bits w 28 4 ≠ 0 ∨ bits w 0 24 ≠ 0 ∨ c = 0 ∨ 2 < c then s.sticky rPAIR_STATUS 31
  else if c = 1 then
    if s.role = 3 then { s with pair := { s.pair with hello := true } } else s.sticky rPAIR_STATUS 31
  else
    let s := if s.role = 3 then s else s.sendControl none 3 []
    s.leavePair

def execPairRejoin (w : BitVec 32) (t : Nat) (s : State) : Res :=
  let s := s.at t
  .next (if !s.ready then s else if bits w.toNat 24 4 = 1 then s.pairCmd w.toNat else s)
def execPairLeave (w : BitVec 32) (t : Nat) (s : State) : Res :=
  let s := s.at t
  .next (if !s.ready then s else if bits w.toNat 24 4 = 2 then s.pairCmd w.toNat else s)

/-- A write of PAIR_CTL, treated as a write of an RWI object. -/
def State.pairCtl (s : State) (w : Nat) : State :=
  if s.locked then s.lockViol
  else if !s.allIdle then s.sticky rPAIR_STATUS 30
  else s.writeSettings rPAIR_CTL w
def execPairCtlWrite (w : BitVec 32) (t : Nat) (s : State) : Res :=
  let s := s.at t
  .next (if !s.ready then s else s.pairCtl w.toNat)

/-! ### A lost hub (R405, R418) -/

/-- The hub's partitions, PCIe port and journal copy, its waggle port where it has one, and its lane-group go. -/
def execHubLost (h cause d t : Nat) (s : State) : Res :=
  let s := s.at t
  .next (if 3 < h ∨ 1 < cause ∨ bit s.boot.hubLost h then s
    else
      let s := s.hubLost h cause d
      let port := if h = 3 then 1 else 0
      let s := if (h = 0 ∨ h = 3) ∧ s.wglPort port ≠ 0 then
          (s.setFld rGLB_WGL_STAT (2 * port) 2 0).wglFault 0x0385 (hubSite h) port 0
        else s
      s.laneDown h 3)

end Sys2Proof.Machine
end

