-- ==== Sys2Proof/Machine/View.lean ====
section
/-! DEFINITION. What a register reads as (R6, R7, R269, R270, R370): the stored fields, and the fields that show other state. -/

namespace Sys2Proof.Machine

/-! ### Which offsets answer -/

/-- Offsets served before READY: GLB_ID, GLB_SITEMAP_n, the SEC block, and the PF MSI-X table and pending bits (R370). -/
def bootVisible (a : Nat) : Bool :=
  a == rGLB_ID || (decide (rGLB_SITEMAP ≤ a) && decide (a < rGLB_SITEMAP + 256)) ||
    (decide (rSEC_BOOT_CMD ≤ a) && decide (a < rSEC_BOOT_CMD + 0x10000)) ||
    (decide (0xE0000 ≤ a) && decide (a < 0xE8000)) || (decide (0xF0000 ≤ a) && decide (a < 0xF0100))
/-- Registers of a site window that a hub window lacks: all but the FAB registers; and FAB_HUBWHEEL_w and FAB_LEQ_STAT_n, which
only a hub window has. -/
def windowHas (p o : Nat) : Bool :=
  let fab := decide (rFAB_CFG ≤ o) && decide (o < rFAB_CFG + 0x1000)
  if isHub p then fab else !(decide (rFAB_HUBWHEEL ≤ o) && decide (o < rFAB_HUBWHEEL + 64)) &&
    !(decide (rFAB_LEQ_STAT ≤ o) && decide (o < rFAB_LEQ_STAT + 64))
/-- The register at BAR0 offset `a`: its row and its offset, and whether `a` is the high half of a 64-bit register. -/
def regAt (a : Nat) : Option (RegRow × Nat × Bool) :=
  let ok (b : Nat) : Bool := !(inSiteWindow b) || windowHas ((b - siteWindow0) / siteStride) ((b - siteWindow0) % siteStride)
  match regRow a with
  | some r => if ok a then some (r, a, false) else none
  | none =>
    if a < 4 then none
    else match regRow (a - 4) with
      | some r => if r.wide && ok (a - 4) then some (r, a - 4, true) else none
      | none => none

/-! ### Fields that show other state -/

/-- Ports of site `p` that lead somewhere: north, east, south, west on the 9-column grid, and optical (R14). -/
def portThere (p d : Nat) : Bool :=
  if d = 0 then decide (9 ≤ p) else if d = 1 then p % 9 != 8 else if d = 2 then decide (p < 63) else if d = 3 then p % 9 != 0 else true
/-- A mesh link that carries no packets, its lanes idle: its two sites are not of one partition (R216). -/
def State.linkIdle (s : State) (p d : Nat) : Bool := d < 4 && (s.owner p == 16 || s.owner p != s.owner (neighbour p d))
/-- FAB_LINK (Table 08.17). -/
def State.linkWord (s : State) (p : Nat) : Nat :=
  packNat 2 ((List.range 5).map (fun d =>
    if !(portThere p d) then 0 else if mget false s.fab.down (p * 5 + d) then 3 else if s.linkIdle p d then 1 else 2))
/-- COMB_BMAP_DATA (Table 02.23). -/
def State.bmapWord (s : State) (p : Nat) : Nat :=
  let x := s.fld (siteReg p rCOMB_BMAP_SEL) 0 21
  let k := bits x 0 13
  let b := bits x 13 8
  if 4095 < k ∨ 63 < b then 0xFF
  else
    let pc := s.pcomb p k
    let slot := s.liveSlot pc b
    slot + b2n (s.slotHdr (slotKey pc slot)).valid * 2 ^ 8 +
      b2n ((List.range 2).any (fun i => (s.shadow pc i).st != .free && (s.shadow pc i).bank == b)) * 2 ^ 9
/-- SLOT_STATE and SLOT of COMB_SHADOW_STAT. -/
def State.shadowWord (s : State) (p : Nat) : Nat :=
  match mget 0 s.comb.lastShadow p with
  | 0 => 0
  | x + 1 => x % 2 * 2 ^ 27 + shadowCode (s.shadow (x / 2) (x % 2)).st * 2 ^ 28
/-- KV_PT_STAT (Table 07.18). -/
def State.ptWord (s : State) (p : Nat) : Nat :=
  let v := s.svc p
  v.gen * 2 ^ 31 + b2n v.compacting * 2 ^ 30 + b2n v.flipReady * 2 ^ 29 + v.log.length % 2 ^ 13 * 2 ^ 16 +
    (if v.top = 0 then 0 else 100 * v.holes / v.top) % 2 ^ 8 * 2 ^ 8
/-- KV_FRAME_STAT (Table 07.20). -/
def State.frameWord (s : State) (p : Nat) : Nat :=
  s.freeFrames p % 2 ^ 20 + s.framesIn p 2 % 2 ^ 20 * 2 ^ 20 + s.framesIn p 3 % 2 ^ 20 * 2 ^ 40
/-- BAD_GRAN, TEST_ACTIVE and TEST_REGION of SPAD_STAT (Table 08.20). -/
def State.spadWord (s : State) (p : Nat) : Nat :=
  let r := (mget SpadTest.init s.spad.test p).region
  (mget [] s.spad.badList p).length % 2 ^ 5 * 2 ^ 22 + b2n (r != 0) * 2 ^ 21 + (r - 1) % 2 ^ 14 * 2 ^ 6

/-- What a register of a site window shows beside its stored fields. -/
def State.siteView (s : State) (p o v : Nat) : Nat :=
  if o = rCOMB_SHADOW_STAT then v + s.shadowWord p
  else if o = rCOMB_BMAP_DATA then s.bmapWord p
  else if o = rRQ_STAGE_STAT then
    v + (match mget 0 s.rq.lastCmd p with | 0 => 0 | x + 1 => b2n (mget 0 s.rq.pend x != 0) * 2 ^ 27)
  else if o = rKV_PT_STAT then s.ptWord p
  else if o = rKV_HBM_STAT then setBits v 16 8 (s.svc p).temp
  else if o = rKV_FRAME_STAT then s.frameWord p
  else if o = rFAB_CFG ∧ !(isHub p) then setBits v 16 4 0
  else if o = rFAB_LINK then s.linkWord p
  else if rFAB_LEQ_STAT ≤ o ∧ o < rFAB_LEQ_STAT + 64 then
    let n := (o - rFAB_LEQ_STAT) / 4
    setBits v 0 9 (if partHub n = p then (s.part n).errq.length else 0)
  else if o = rSPAD_STAT then v + s.spadWord p
  -- cycles are not modelled: what these counts have reached is open (log entry 152)
  else if rSPAD_CNT_STALL ≤ o ∧ o < rSPAD_CNT_STALL + 40 then Config.rowFn 0x45 p o s.time % 2 ^ 64
  else v

/-- SEC_KEYS (Table 14.14). -/
def State.keysWord (s : State) (v : Nat) : Nat :=
  (List.range 4).foldl (fun x k => setBits (setBits x (4 * k) 1 (b2n (slotFused k))) (4 * k + 1) 1 (b2n (s.slotRevoked k)))
    (setBits v 16 1 (b2n (s.lifeCycle == 0 || s.lifeCycle == 3)))
/-- Number of domains whose state is listed. -/
def State.countDoms (s : State) (l : List Nat) : Nat := ((List.range 424).filter (fun d => l.contains (s.domAt d).st)).length
/-- STATE of QUE_PSTAT and PART_STATE_n. -/
def State.partWord (s : State) (n : Nat) : Nat :=
  let p := s.part n
  pstateCode p.st + s.nsite n % 2 ^ 7 * 2 ^ 8 + p.g.nsq % 2 ^ 5 * 2 ^ 15 + p.g.ports % 2 ^ 4 * 2 ^ 20

/-- What a register outside the site windows shows beside its stored fields. -/
def State.panelView (s : State) (a v : Nat) : Nat :=
  if a = rGLB_STATUS then setBits v 1 1 (b2n s.locked)
  else if a = rSTRK_NOW then s.time
  else if isNth rSTRK_PSTROKE 8 16 a then
    let p := s.part ((a - rSTRK_PSTROKE) / 8)
    p.stroke.toNat + (if p.phase = 6 then 4 else p.phase) % 2 ^ 3 * 2 ^ 48 + min 255 p.slipDepth * 2 ^ 56
  else if isNth rSTRK_PBUCKET 4 16 a then s.pbucket ((a - rSTRK_PBUCKET) / 4)
  else if isNth rSEAL_PQUOTA 4 16 a then
    let n := (a - rSEAL_PQUOTA) / 4
    (s.part n).g.quota % 2 ^ 13 + s.sealUsed n % 2 ^ 13 * 2 ^ 16
  else if isNth rSTRM_PCOUNT 8 16 a then
    let n := (a - rSTRM_PCOUNT) / 8
    s.countStreams n [.resident, .active] % 2 ^ 18 + s.countStreams n [.parked] % 2 ^ 18 * 2 ^ 20 +
      s.countStreams n [.active] % 2 ^ 18 * 2 ^ 40
  else if a = rPART_CMD_STAT then
    setBits v 30 1 (b2n ((s.host.lastCmd.map (fun n => (s.part n).pend.isSome)).getD false))
  else if isNth rPART_STATE 4 16 a then s.partWord ((a - rPART_STATE) / 4)
  else if isNth rPART_SITES 8 16 a then (s.part ((a - rPART_SITES) / 8)).g.sites
  else if isNth rPART_STREAMS 4 16 a then
    let g := (s.part ((a - rPART_STREAMS) / 4)).g
    g.nblk % 2 ^ 11 + g.baseBlk % 2 ^ 10 * 2 ^ 16
  else if a = rDOM_STATUS then
    v % 2 ^ 3 + s.countDoms [2, 3] % 2 ^ 7 * 2 ^ 7 + s.countDoms [4] % 2 ^ 9 * 2 ^ 14 + s.countDoms [5] % 2 ^ 9 * 2 ^ 23
  else if a = rPWR_SITE_DATA then (s.siteWords (s.fld rPWR_SITE_SEL 0 7)).headD 0
  else if isNth rPWR_SITE_DATA 4 4 a then s.pwr.latch.getD ((a - rPWR_SITE_DATA) / 4 - 1) 0
  else if a = rSEAL_CNT_SPIN then Config.rowFn 0x46 0 0 s.time % 2 ^ 64
  else if a = rSEAL_INSP_DATA then (s.sealAt (s.fld rSEAL_INSP_SEL 0 14)).count
  else if isNth rSEAL_INSP_DATA 4 5 a then s.sls.insp.getD ((a - rSEAL_INSP_DATA) / 4 - 1) 0
  else if a = rSTRM_INSP_DATA then s.inspWords.headD 0
  else if isNth rSTRM_INSP_DATA 4 16 a then s.host.inspLatch.getD ((a - rSTRM_INSP_DATA) / 4 - 1) 0
  else if a = rDOM_DATA0 then (s.domWords (s.fld rDOM_SEL 0 9)).1
  else if a = rDOM_DATA1 then s.dom.latch
  else if a = rSEC_LC then setBits (setBits v 0 3 s.lifeCycle) 24 6 s.svnMin
  else if a = rSEC_KEYS then s.keysWord v
  else if a = rSEC_CAP then s.spareSites.length % 2 ^ 4 * 2 ^ 24 + 0x0010FF7F
  else v

/-- The value of the whole register at offset `a`, the offset of a row (R7). -/
def State.readReg (s : State) (a : Nat) : Nat :=
  let v := (s.wreg a).toNat
  if inSiteWindow a then s.siteView ((a - siteWindow0) / siteStride) ((a - siteWindow0) % siteStride) v
  else s.panelView a v

/-! ### MSI-X tables and pending bits (R268, R269) -/

/-- The 32-bit word at byte offset `o` of a function's pending-bit array. -/
def State.pendWord (s : State) (port fn o : Nat) : Nat :=
  packNat 1 ((List.range 32).map (fun i => b2n (mget false s.host.pendBit (fnKey port fn (8 * o + i)))))
/-- The 32-bit word at byte offset `o` of a function's MSI-X table. -/
def State.tableWord (s : State) (port fn o : Nat) : Nat := (s.msixWord port fn (o / 16) (o % 16 / 4)).toNat

/-- A 32-bit read at BAR0 offset `a` through `port` (R6, R269, R370); offsets without a register read 0. -/
def State.read32 (s : State) (port a : Nat) : Nat :=
  if !s.ready && !(bootVisible a) then 0
  else if 0xE0000 ≤ a ∧ a < 0xE8000 then s.tableWord port 0 (a - 0xE0000)
  else if 0xF0000 ≤ a ∧ a < 0xF0100 then s.pendWord port 0 (a - 0xF0000)
  else match regAt a with
    | some (_, b, true) => bits (s.readReg b) 32 32
    | some (_, b, false) => bits (s.readReg b) 0 32
    | none => 0

/-! ### BAR2 of a VF (Tables 10.19-10.21) -/

/-- QUE_PSTAT of partition `n`. -/
def State.pstatWord (s : State) (n : Nat) : Nat :=
  let p := s.part n
  pstateCode p.st + n * 2 ^ 4 + p.g.nsq % 2 ^ 5 * 2 ^ 8 + p.stroke.toNat % 2 ^ 16 * 2 ^ 16
/-- A 32-bit read of BAR2 of VF `vf` through `port` (R269, R270). -/
def State.readVf (s : State) (port vf a : Nat) : Nat :=
  let n := vf - 1
  let x := s.qp n (a / 64)
  let d := s.qp n ((a - 0x1000) / 8)
  if a = 0x2000 then s.pstatWord n
  else if 0x4000 ≤ a ∧ a < 0xC000 ∧ s.served port vf 0 then s.tableWord port vf (a - 0x4000)
  else if 0xF000 ≤ a ∧ a < 0xF100 ∧ s.served port vf 0 then s.pendWord port vf (a - 0xF000)
  else if a < 0x400 ∧ s.served port vf (a / 64) then
    match a % 64 with
    | 0x00 => bits x.sqBase.toNat 0 32
    | 0x04 => bits x.sqBase.toNat 32 32
    | 0x08 => bits x.cqBase.toNat 0 32
    | 0x0C => bits x.cqBase.toNat 32 32
    | 0x10 => x.sqSize + b2n x.sqEn * 2 ^ 31
    | 0x14 => x.cqSize + x.vec * 2 ^ 16 + b2n x.irqEn * 2 ^ 30 + b2n x.cqEn * 2 ^ 31
    | 0x18 => x.sqHead
    | 0x1C => x.cqTail + b2n x.phase * 2 ^ 16
    | 0x20 => x.stat
    | _ => 0
  else if 0x1000 ≤ a ∧ a < 0x1080 ∧ s.served port vf ((a - 0x1000) / 8) then (if a % 8 = 0 then d.sqDb else d.cqDb)
  else 0

/-! ### 32-bit reads of 64-bit registers (R6) -/

/-- The half of a 64-bit register at offset `a` of function `fn`: `some false` the low half, `some true` the high half. -/
def wideHalf (fn a : Nat) : Option Bool :=
  if fn = 0 then (match regAt a with | some (r, _, hi) => if r.wide then some hi else none | none => none)
  else if a < 0x400 ∧ (a % 64 = 0 ∨ a % 64 = 8) then some false
  else if a < 0x400 ∧ (a % 64 = 4 ∨ a % 64 = 12) then some true
  else none
/-- A 32-bit read at offset `a` of function `fn` (0 the PF's BAR0, n the BAR2 of VF n). -/
def State.readAt (s : State) (port fn a : Nat) : Nat := if fn = 0 then s.read32 port a else s.readVf port fn a
/-- The key of a latched high half: the function that reads (each port's functions apart) and the offset. DESIGN CHOICE, log
entry 136. -/
def latchKey (port fn a : Nat) : Nat := (port * 17 + fn) * 2 ^ 26 + a
/-- A 32-bit read with its effect on the latch: the low half of a 64-bit register latches the high half, which the next read of
the high half returns unless 1 µs has passed (R6). -/
def State.readHalf (s : State) (port fn a : Nat) : Nat × State :=
  let v := s.readAt port fn a
  let k := latchKey port fn a
  match wideHalf fn a with
  | some false =>
    (v, { s with latch := (k + 4, s.readAt port fn (a + 4), s.time + 1000) :: s.latch.filter (fun e => e.1 != k + 4) })
  | some true =>
    match s.latch.find? (fun e => e.1 == k && decide (s.time < e.2.2)) with
    | some e => (e.2.1, { s with latch := s.latch.filter (fun e => e.1 != k) })
    | none => (v, s)
  | none => (v, s)

end Sys2Proof.Machine
end

