-- ==== Sys2Proof/Machine/Registers.lean ====
section
/-! DEFINITION. Register accesses from the host (R6-R10, R269, R370): legal and refused accesses, register types, settings with
their checks, the lock, and the latch of a 64-bit read. -/

namespace Sys2Proof.Machine

/-! ### Refused accesses (R6, Table 15.15) -/

/-- A refused access: a completer abort, and a record in FLT_BADACC. -/
def State.refuseAccess (s : State) (fn port a len : Nat) (write : Bool) : State :=
  let i := rFLT_BADACC_INFO
  let cnt := if s.flag i 31 then min 255 (s.fld i 16 8 + 1) else 1
  let info := 2 ^ 31 + fn % 2 ^ 5 * 2 ^ 25 + cnt * 2 ^ 16 + port % 4 * 2 ^ 8 + b2n write * 2 ^ 7 + min 127 len
  (((s.setReg rFLT_BADACC_ADDR (BitVec.ofNat 64 (a % 2 ^ 26))).setReg i (BitVec.ofNat 64 info)).heat i 31).emit (.abort port fn)

/-! ### The lock (R9, R10) -/

/-- A write of GLB_CFG_LOCK. -/
def State.writeLock (s : State) (w : Nat) : State :=
  if bit w 0 then (s.setFld rGLB_CFG_LOCK 0 1 1).setFld rGLB_STATUS 1 1 1 else s

/-! ### RWL fields -/

/-- The fields of KV_CFG and FAB_CFG that have a range: low bit, width, lowest and highest value (Tables 07.17, 08.16).
LATE_LIMIT is a field of the hub windows. -/
def rangedFields (p o : Nat) : List (Nat × Nat × Nat × Nat) :=
  if o = rKV_CFG then [(16, 8, 5, 90)]
  else if o = rFAB_CFG then (if isHub p then [(16, 4, 1, 8)] else []) ++ [(0, 8, 2, 200)]
  else []
/-- A word with its ranged fields clamped, and the clamps. -/
def clampFields (id w : Nat) (l : List (Nat × Nat × Nat × Nat)) : Nat × List ClampEntry :=
  l.foldl (fun (x : Nat × List ClampEntry) f =>
    let c := clampE id f.2.2.1 f.2.2.2 (bits x.1 f.1 f.2.1)
    (setBits x.1 f.1 f.2.1 c.1, x.2 ++ c.2)) (w, [])

/-- The RWL fields of a site window's register (R60, R86, R215, R243). -/
def State.writeSiteRwl (s : State) (a mask w : Nat) : State :=
  let c := clampFields (regId a) (w &&& mask) (rangedFields ((a - siteWindow0) / siteStride) ((a - siteWindow0) % siteStride))
  (s.stageReg a (BitVec.ofNat 64 c.1)).clamped 4 c.2
/-- BIST_CTL (R391): a change of LIMIT_MODE while a partition is not idle is discarded and sets CFG_ERR. -/
def State.writeBistCtl (s : State) (w : Nat) : State :=
  let old := bits (s.wreg rBIST_CTL).toNat 1 1
  if bits w 1 1 ≠ old ∧ !s.allIdle then (s.sticky rBIST_STAT 3).writeSettings rBIST_CTL (setBits w 1 1 old)
  else s.writeSettings rBIST_CTL w
/-- RPL_BASE_n, RPL_SIZE_n and RPL_OFFSET_n (R460, Table 17.6): SIZE is writable while MODE = 0. -/
def State.writeRingReg (s : State) (n a mask w : Nat) : State :=
  if a = rplReg n rRPL_SIZE then
    if bits (s.wreg (rplReg n rRPL_CTL)).toNat 0 2 ≠ 0 then s
    else let c := clampFields (regId a) (w &&& mask) [(0, 5, 6, 20)]; (s.stageReg a (BitVec.ofNat 64 c.1)).clamped 4 c.2
  else s.stageReg a (BitVec.ofNat 64 (w &&& mask))
/-- The RWL fields of the register at `a`, once the lock is known to be clear. -/
def State.writeRwl (s : State) (a mask w : Nat) : State :=
  if inSiteWindow a then s.writeSiteRwl a mask w
  else if a = rBIST_CTL then s.writeBistCtl w
  else if a = rCLT_CTL then (s.writeSettings a w).loopFollows
  else if tableOfReg a ≠ 0 then s.writeSettings a w
  else if rRPL_CTL ≤ a ∧ a < rRPL_CTL + 0x400 then s.writeRingReg ((a - rRPL_CTL) / 64) a mask w
  else s.stageReg a (BitVec.ofNat 64 (w &&& mask))

/-- A register of types RW and W1C after a write of `w` (R7); a bit that hardware sets at this instant stays (R8). -/
def State.writeRw (s : State) (r : RegRow) (a w : Nat) : State :=
  let old := (s.reg a).toNat
  let clr := (w &&& r.w1c) - (w &&& r.w1c &&& s.hotMask a)
  if r.rw = 0 ∧ r.w1c = 0 then s
  else s.setReg a (BitVec.ofNat 64 ((old - (old &&& clr) - (old &&& r.rw)) ||| (w &&& r.rw)))

/-! ### Registers whose writes are commands -/

/-- The state an outcome leads to. -/
def nextOf (r : Res) (s : State) : State :=
  match r with
  | .next t => t
  | _ => s
/-- PART_CMD. A CONFIGURE needs the structure at PART_CFG_ADDR, which the command PART_CONFIGURE carries. -/
def State.writePartCmd (s : State) (w : Nat) : State :=
  let b := BitVec.ofNat 32 w
  if bits w 24 8 ≠ 0 ∨ bits w 4 16 ≠ 0 ∨ bits w 20 4 = 0 ∨ 3 < bits w 20 4 then nextOf (execPartCmdInvalid b s) s
  else if bits w 20 4 = 2 then nextOf (execPartRelease (bits w 0 4) s) s
  else if bits w 20 4 = 3 then nextOf (execPartReset (bits w 0 4) s) s
  else s
/-- SEC_BOOT_CMD. -/
def State.writeBootCmd (s : State) (port w t : Nat) : State :=
  let n := bits w 0 4
  if bits w 28 4 ≠ 0 ∨ bits w 19 5 ≠ 0 ∨ bits w 4 12 ≠ 0 then nextOf (execSecBootCmdInvalid (BitVec.ofNat 32 w) port s) s
  else match bits w 24 4 with
    | 1 => nextOf (execLoadBoot port s) s
    | 2 => nextOf (execLoadPart n port s) s
    | 3 => nextOf (execTapEnable port t s) s
    | 4 => nextOf (execLcAdvance (bits w 16 3) port t s) s
    | 5 => nextOf (execPanelReset port s) s
    | _ => nextOf (execSecBootCmdInvalid (BitVec.ofNat 32 w) port s) s
/-- The SEC block (R370, R371, R387): read-only through the other ports until READY. -/
def State.writeSec (s : State) (r : RegRow) (port a w t : Nat) : State :=
  if !(s.secOpen port) then s.sticky rSEC_BOOT_STAT 31
  else if a = rSEC_BOOT_CMD then s.writeBootCmd port w t
  else if a = rSEC_IFLEVEL then nextOf (execIflevelRequest (bits w 0 4) port s) s
  else if a = rSEC_LC then
    if s.phase = 1 then s.setFld a 30 1 (bits w 30 1) else s.sticky rSEC_BOOT_STAT 31
  else s.writeRw r a w

/-- A write of a whole register by its type (R7, R9). `w`: the value, `t`: the instant. -/
def State.writeReg (s : State) (r : RegRow) (port a w t : Nat) : State :=
  if rSEC_BOOT_CMD ≤ a ∧ a < rSEC_BOOT_CMD + 0x10000 then s.writeSec r port a w t
  else if a = rGLB_CFG_LOCK then s.writeLock w
  else if a = rPART_CMD then s.writePartCmd w
  else if a = rGLB_OD_CMD then nextOf (execMailboxGo (BitVec.ofNat 32 w) t s) s
  else if a = rFLT_JRNL_CMD then nextOf (execClearLost (BitVec.ofNat 32 w) s) s
  else if a = rPAIR_CMD then s.pairCmd w
  else if a = rPAIR_CTL then s.pairCtl w
  else if r.base = rRPL_CTL then s.writeRplCtl ((a - rRPL_CTL) / 64) w
  else if r.base = rRPL_HEAD then nextOf (execRplHeadWrite ((a - rRPL_HEAD) / 64) (BitVec.ofNat 32 w) s) s
  else if r.base = rRPL_TAIL then nextOf (execRplTailWrite ((a - rRPL_TAIL) / 64) (BitVec.ofNat 32 w) s) s
  else
    let s := s.writeRw r a w
    let s := if r.rwl = 0 then s else if s.locked then s.lockViol else s.writeRwl a r.rwl w
    if a = rPWR_CTL ∧ bit w 31 then nextOf (execTripClr ((s.pwr.sites.map (fun x => x.2.temp)).foldl max 0) s) s
    else if a = rCLT_CTL ∧ bit w 31 then nextOf (execValveClr s) s
    else s

/-- A 32-bit write to a register; in a 64-bit register the other half keeps its value. -/
def State.writeHalf (s : State) (port a w t : Nat) : State :=
  match regAt a with
  | some (r, b, hi) =>
    s.writeReg r port b (if r.wide then setBits (s.wreg b).toNat (if hi then 32 else 0) 32 w else w) t
  | none => s

/-! ### MSI-X tables (R268, R269) -/

/-- A 32-bit write of byte offset `o` of a function's table; a mask cleared sends the pending message. -/
def State.writeMsix (s : State) (port fn o w : Nat) : State :=
  let v := o / 16
  let k := o % 16 / 4
  if k = 3 then (s.setMsixWord port fn v 3 (BitVec.ofNat 32 (w % 2))).unmaskVec port fn v
  else s.setMsixWord port fn v k (BitVec.ofNat 32 w)

/-! ### The two windows -/

/-- A 32-bit write at BAR0 offset `a` (R370). -/
def State.write32 (s : State) (port a w t : Nat) : State :=
  if !s.ready && !(bootVisible a) then s
  else if 0xE0000 ≤ a ∧ a < 0xE8000 then s.writeMsix port 0 (a - 0xE0000) w
  else s.writeHalf port a w t
/-- A legal write at BAR0 offset `a`: a 64-bit register whole, or 32 bits at a time, the lower-addressed first (R6). -/
def State.writeBar0 (s : State) (port a len v t : Nat) : State :=
  let wide := match regAt a with | some (r, _, _) => r.wide | none => false
  if len = 4 then s.write32 port a (v % 2 ^ 32) t
  else if wide then
    match regAt a with
    | some (r, b, _) => if !s.ready && !(bootVisible a) then s else s.writeReg r port b (v % 2 ^ 64) t
    | none => s
  else (s.write32 port a (v % 2 ^ 32) t).write32 port (a + 4) (v / 2 ^ 32 % 2 ^ 32) t

/-- A 32-bit write at offset `a` of BAR2 of VF `vf` (R269, R270). -/
def State.writeVf32 (s : State) (port vf a w t : Nat) : State :=
  let q := a / 64
  let b := BitVec.ofNat 32 w
  if !(s.served port vf 0) then s
  else if 0x4000 ≤ a ∧ a < 0xC000 then s.writeMsix port vf (a - 0x4000) w
  else if a < 0x400 then
    match a % 64 with
    | 0x00 => nextOf (execQueBaseWrite port vf q true 1 (BitVec.ofNat 64 w) s) s
    | 0x04 => nextOf (execQueBaseWrite port vf q true 2 (BitVec.ofNat 64 w) s) s
    | 0x08 => nextOf (execQueBaseWrite port vf q false 1 (BitVec.ofNat 64 w) s) s
    | 0x0C => nextOf (execQueBaseWrite port vf q false 2 (BitVec.ofNat 64 w) s) s
    | 0x10 => nextOf (execQueCfgWrite port vf q true b s) s
    | 0x14 => nextOf (execQueCfgWrite port vf q false b s) s
    | 0x20 =>
      if s.served port vf q then s.updQp (vf - 1) q (fun x =>
          { x with stat := x.stat - (x.stat &&& (w % 16 - (w % 16 &&& s.hotMask (queStat (vf - 1) q)))) }) else s
    | _ => s
  else if 0x1000 ≤ a ∧ a < 0x1080 then
    let d := (a - 0x1000) / 8
    if a % 8 = 0 then nextOf (execSqTailDoorbell port vf d b t s) s else nextOf (execCqHeadDoorbell port vf d b t s) s
  else s
/-- A legal write at offset `a` of BAR2. -/
def State.writeBar2 (s : State) (port vf a len v t : Nat) : State :=
  let q := a / 64
  if len = 4 then s.writeVf32 port vf a (v % 2 ^ 32) t
  else if a < 0x400 ∧ (a % 64 = 0 ∨ a % 64 = 8) then nextOf (execQueBaseWrite port vf q (a % 64 == 0) 0 (BitVec.ofNat 64 v) s) s
  else (s.writeVf32 port vf a (v % 2 ^ 32) t).writeVf32 port vf (a + 4) (v / 2 ^ 32 % 2 ^ 32) t

/-! ### Reads -/

/-- The data registers whose read is a command of its own: the words after them are latched with it. The contents of a journal
entry are correctable on this path; FLT_JRNL_DATA_READ carries the other case (log entry 137). -/
def State.dataRead (s : State) (a : Nat) : Option Res :=
  if a = rPWR_SITE_DATA then some (execPwrSiteDataRead s)
  else if a = rSEAL_INSP_DATA then some (execSealInspRead s)
  else if a = rSTRM_INSP_DATA then some (execStrmInspRead s)
  else if a = rDOM_DATA0 then some (execDomDataRead s)
  else if a = rBIST_SITE_DATA then some (execBistSiteDataRead s)
  else if a = rFLT_JRNL_DATA then some (execFltJrnlDataRead false false false s)
  else if a = rFLT_STBY_DATA then some (execFltJrnlDataRead true false false s)
  else none
/-- A 32-bit read: its value goes out. -/
def State.readOne (s : State) (port fn a : Nat) : State :=
  match (if fn = 0 then s.dataRead a else none) with
  | some r => nextOf r s
  | none => let r := s.readHalf port fn a; r.2.emit (.value a r.1)
/-- A legal read: a 64-bit register whole, or 32 bits at a time, the lower-addressed first (R6). -/
def State.readAccess (s : State) (port fn a len : Nat) : State :=
  if len = 4 then s.readOne port fn a
  else if wideHalf fn a = some false then
    s.emit (.value a (s.readAt port fn a + s.readAt port fn (a + 4) * 2 ^ 32))
  else (s.readOne port fn a).readOne port fn (a + 4)

/-! ### The commands -/

/-- REGISTER_WRITE (R6, R7): `fn` 0 the PF's BAR0, n the BAR2 of VF n; `len` the bytes written. -/
def execRegisterWrite (fn port a len : Nat) (v : BitVec 64) (t : Nat) (s : State) : Res :=
  let s := s.at t
  .next (if !(accessLegal a len) then s.refuseAccess fn port a len true
    else if fn = 0 then s.writeBar0 port a len v.toNat t
    else if fn ≤ 16 then s.writeBar2 port fn a len v.toNat t
    else s)

/-- GLB_CFG_LOCK (R9). -/
def execGlbCfgLock (w : BitVec 32) (s : State) : Res := .next (if !s.ready then s else s.writeLock w.toNat)

/-- REFUSED_ACCESS (R6): any access of another size or with another alignment; its data are discarded. The row is the only one
that carries reads, so a legal access that it carries is performed (DESIGN CHOICE, log entry 137). -/
def execRefusedAccess (fn port a len : Nat) (write : Bool) (v : BitVec 64) (t : Nat) (s : State) : Res :=
  if !(accessLegal a len) then .next ((s.at t).refuseAccess fn port a len write)
  else if write then execRegisterWrite fn port a len v t s
  else .next (if 16 < fn then s.at t else (s.at t).readAccess port fn a len)

/-- HIGH_HALF_LATCH_EXPIRY (R6): the latched high half is released 1 µs after the read of the low half. -/
def execHighHalfLatchExpiry (t : Nat) (s : State) : Res :=
  let s := s.at t
  .next { s with latch := s.latch.filter (fun e => decide (s.time < e.2.2)) }

end Sys2Proof.Machine
end

