-- ==== Sys2Proof/Machine/Tap.lean ====
section
/-! DEFINITION. The test access port and the diagnostic UART of J10 (R387, R458, R459). -/

namespace Sys2Proof.Machine

/-- SEC_LC.TAP_EN. -/
def State.tapEn (s : State) : Bool := s.flag rSEC_LC 31
/-- An instruction is in force; `outs` is what it does with the outputs of J9 and J10. -/
def State.setIr (s : State) (ir outs : Nat) : State :=
  { s.setFld rRPL_TAP_STAT 0 8 ir with rcd := { s.rcd with ir := ir, outs := outs } }
/-- Load a gated instruction: while test access is not enabled it acts as BYPASS and sets GATED. -/
def State.loadGated (s : State) (ir outs : Nat) (f : State → State) : State :=
  if s.tapEn then f (s.setIr ir outs) else (s.sticky rRPL_TAP_STAT 8).setIr 0xFF 0

/-- Codes of Table 17.4 that name an instruction of another row. -/
def otherCode (ir : Nat) : Bool := [0x01, 0x02, 0x03, 0x04, 0x05, 0x10, 0x11, 0x20].contains ir
/-- BYPASS, and every code that is not listed. -/
def execBypass (ir : BitVec 8) (s : State) : Res := .next (if otherCode ir.toNat then s else s.setIr 0xFF 0)
/-- IDCODE: the identification register is shifted out. -/
def execIdcode (s : State) : Res := .next ((s.setIr 0x01 0).emit (.value rRPL_TAP_STAT 0x24B321CB))
/-- SAMPLE/PRELOAD: the boundary register takes the pins, and then what is shifted in, if anything is. -/
def execSamplePreload (pins : Nat) (load : Option Nat) (s : State) : Res :=
  .next (let s : State := s.setIr 0x02 0
    { s with rcd := { s.rcd with bsr := load.getD pins } })
/-- EXTEST: the boundary register drives the outputs. -/
def execExtest (s : State) : Res := .next (s.loadGated 0x03 1 id)
/-- CLAMP: the outputs are held at the preloaded values. -/
def execClamp (s : State) : Res := .next (s.loadGated 0x04 2 id)
/-- HIGHZ: the outputs are at high impedance. -/
def execHighz (s : State) : Res := .next (s.loadGated 0x05 3 id)

/-- Configured partitions whose sites or hub the physical site belongs to. -/
def State.touchedBy (s : State) (p : Nat) : List Nat :=
  (List.range 16).filter (fun n => (s.part n).st != .unconfigured && (s.owner p == n || partHub n == p))
/-- The debug access is marked in every partition concerned; its DEBUG entry is the first of the stroke (Table 17.3). -/
def State.debugTouch (s : State) (p ir addr : Nat) : State :=
  (s.touchedBy p).foldl (fun (s : State) n =>
    let s := s.sticky (rRPL_STATUS + 0x40 * n) 28
    if s.marked 12 n 0 then s
    else (s.mark 12 n 0).record n 12 [ir, addr % 2 ^ 32, addr / 2 ^ 32 % 2 ^ 16, 0, 0, 0, 0, 0]) s

/-- DEBUG: core `core` (hub or site × 8 + core) is halted, or runs again. -/
def execDebug (core : Nat) (halt : Bool) (t : Nat) (s : State) : Res :=
  .next ((s.at t).loadGated 0x10 0 (fun (s : State) =>
    let rest := s.rcd.halted.filter (fun k => k != core)
    let l := if halt then core :: rest else rest
    let s := { s with rcd := { s.rcd with halted := l } }.setFld rRPL_TAP_STAT 9 1 (b2n !l.isEmpty)
    if halt then s.debugTouch (core / 8) 0x10 (core % 8) else s))

/-- A read by MEM of `len` bytes. -/
def State.memRead (s : State) (a len : Nat) : State :=
  let off := addrOfs a
  let p := addrSite a
  let answer (f : Nat → Nat) : State := s.emit (.value a (packNat 8 ((List.range len).map f)))
  match addrSpace a with
  | 0 => (s.spadRead (s.owner p) p 0x3FFF 0x31 off len).2.emit (.value a (s.spadBytes p off len))
  | 1 =>
    let pc := s.pcomb p (bits a 21 13)
    let bank := bits a 13 8
    let slot := if bit a 35 then (s.openShadow pc bank).map (fun i => (s.shadow pc i).slot) else some (s.liveSlot pc bank)
    (match slot with
     | some sl => answer (fun i => s.slotReadByte (slotKey pc sl) (bits a 36 2) (bits a 0 13 + i))
     | none => s)
  | 2 => answer (fun i => s.stackByte p (bits (a + i) 16 20) (bits (a + i) 0 16))
  | 3 => answer (fun i => s.space3Byte p (off + i))
  | _ => s.emit (.value a 0)
/-- A write by MEM: spaces 0 and 3 alone, no region register. What space 3 denies to firmware it denies here too. -/
def State.memWrite (s : State) (a len d : Nat) : State :=
  let off := addrOfs a
  let p := addrSite a
  let mark (s : State) : State := (s.sticky rRPL_TAP_STAT 10).debugTouch p 0x11 a
  match addrSpace a with
  | 0 => mark (s.setSpadBytes p off len d)
  | 3 =>
    if off / 2 ^ 32 = 0x20 ∧ 0x10000000 ≤ off % 2 ^ 32 then
      let o := off % 2 ^ 32 - 0x10000000
      mark ((List.range (len / 4)).foldl
        (fun (s : State) i => s.stagingWrite p (o / 0x1000) (o % 0x1000 / 4 + i) (BitVec.ofNat 32 (bits d (32 * i) 32))) s)
    else if 0x20 ≤ off / 2 ^ 32 ∧ off / 2 ^ 32 ≤ 0x25 then s.accessFault (space3Denied off) (s.owner p) p a 0x31
    else mark s
  | _ => s

/-- MEM: panel address access as master 0x31. `e`: what happens to the memories of the site in its step. -/
def execMem (write : Bool) (addr : BitVec 48) (len : Nat) (data : BitVec 512) (e : MemErr) (t : Nat) (s : State) : Res :=
  let a := addr.toNat
  .next ((s.at t).loadGated 0x11 0 (fun (s : State) =>
    let p := addrSite a
    if s.rangeBad a len false || (addrSpace a == 0 && decide (2 ^ 26 < addrOfs a + len)) then
      s.accessFault 0x31C1 (if p < 72 then s.owner p else 16) (if p < 72 then p else hubSite 0) a 0x31
    else
      let s := s.memErrs (s.owner p) p 0x3FFF e
      if write then s.memWrite a len (data.toNat % 2 ^ (8 * len)) else s.memRead a len))

/-- SCAN stops the clocks of the hubs scanned, bit h; a panel reset must follow. -/
def execScan (hubs : Nat) (s : State) : Res :=
  .next (s.loadGated 0x20 0 (fun (s : State) => { s with rcd := { s.rcd with scanned := s.rcd.scanned ||| hubs % 16 } }))

/-- A byte arrives on UART_RX. -/
def execUartRx (b : BitVec 8) (s : State) : Res :=
  .next (if s.tapEn then { s with rcd := { s.rcd with uart := b.toNat :: s.rcd.uart } } else s)

end Sys2Proof.Machine
end

