-- ==== Sys2Proof/Machine/Tick.lean ====
section
/-! DEFINITION. The tick generator and the tick edge (R116-R130, R141, R142, R146, R197, R272, R404, R425, R466, R475, R476). -/

namespace Sys2Proof.Machine

/-! ### The tick generator (R119-R122) -/

def State.slewNs (s : State) : Nat := s.fld rSTRK_TICK_CFG 24 8
def State.tolNs (s : State) : Nat := s.fld rSTRK_TICK_CFG 0 13
def State.qualTicks (s : State) : Nat := s.fld rSTRK_TICK_CFG 16 4
def State.lossTicks (s : State) : Nat := s.fld rSTRK_TICK_CFG 20 4
def State.updTick (s : State) (f : TickSt → TickSt) : State := { s with tick := f s.tick }

/-- The next tick edge, and whether it ends a realign stroke (R119, R121). -/
def State.nextEdge (s : State) : Nat × Bool :=
  let base := s.tick.last + s.periodNs
  match s.tick.err with
  | none => (base, false)
  | some e =>
    if s.tick.active = 2 then (base, false)
    else if s.tick.realign && decide (s.slewNs < e.natAbs) then (base + (e % (s.periodNs : Int)).toNat, true)
    else (((base : Int) + clampI (-(s.slewNs : Int)) s.slewNs e).toNat, false)

/-- The measured e of the active source (Table 05.16); an e that starts a realign stroke shows in STRK_STATUS. -/
def State.measured (s : State) (e : Int) : State :=
  let s := s.setReg rSTRK_LAST_ERR (BitVec.ofNat 64 (unsigned 32 e))
  if s.tick.realign && decide (s.slewNs < e.natAbs) then s.setFld rSTRK_STATUS 5 1 1 else s

/-- A record entry of a tick anomaly, source change or realign (Table 17.3). -/
def State.recordTick (s : State) (code d0 d1 : Nat) : State := s.recordAll 7 [code, d0, d1, 0, 0, 0, 0, 0]

/-- TICK_ANOMALY: 0 a missing instant, 1 an edge outside the window, 2 an extra edge (R122). -/
def State.anomaly (s : State) (kind : Nat) (err : Int) : State :=
  let d0 := s.tick.active + kind * 4
  let d1 := unsigned 32 err
  let s := (s.sticky rSTRK_STATUS 9).bump (if kind = 0 then rSTRK_CNT_MISS else rSTRK_CNT_WINDOW)
  (s.raise 0x1103 16 0x3FFF (hubSite 0) d0 d1).recordTick 0x1103 d0 d1

/-- The distance of `x` from the nearest multiple of `p`. -/
def nearest (p : Nat) (x : Int) : Int :=
  let r := x % (p : Int)
  if 2 * r ≤ p then r else r - p

/-- Judge an edge of the active J9 source against the generated ticks. -/
def State.judgeEdge (s : State) (t : Nat) : State :=
  let k := s.tick
  if k.active ≠ 0 ∨ !k.started then s
  else
    let late := decide (2 * (t - k.last) ≤ s.periodNs)
    let e : Int := if late then (t : Int) - k.last else (t : Int) - s.nextEdge.1
    let taken := if late then k.err.isSome else k.early.isSome
    if !k.realign && decide (s.tolNs < e.natAbs) then s.anomaly 1 e
    else if taken then s.anomaly 2 e
    else if late then (s.updTick (fun k => { k with err := some e })).measured e
    else s.updTick (fun k => { k with early := some e })

/-- A rising edge at J9 that is followed by `high` ns of high level (R120, R475): a pulse under 100 ns is no edge, and edges within 1
µs of the one before are ignored. While another source is active an edge is
judged against the one before, else against the tick that it is nearest to. -/
def execTickInEdge (high t : Nat) (s : State) : Res :=
  let s := s.at t
  let k := s.tick
  .next (match k.lastJ9 with
    | some l => if t < l + 1000 ∨ high < 100 then s else
      let good := decide (((t : Int) - (l + s.periodNs : Nat)).natAbs ≤ s.tolNs)
      let s := s.updTick (fun k => { k with lastJ9 := some t, qualJ9 := if good then min 15 (k.qualJ9 + 1) else 0 })
      s.judgeEdge t
    | none => if high < 100 then s else (s.updTick (fun k => { k with lastJ9 := some t })).judgeEdge t)

/-! ### The source (R120, R121) -/

/-- e of a source against the tick at `s.tick.last`, before it has been measured (log entry 91). -/
def State.sourceErr (s : State) (src : Nat) : Int :=
  let at' : Int := s.tick.last
  if src = 0 then (match s.tick.lastJ9 with | some l => nearest s.periodNs ((l : Int) - at') | none => 0)
  else if src = 1 then nearest s.periodNs ((s.fld rSTRK_PHASE_OFS 0 32 : Int) - s.wgl.gpOfs - at')
  else 0

/-- The sources qualified at the edge: J9, gPTP. -/
def State.qualified (s : State) : Bool × Bool :=
  let k := s.tick
  let j := if k.active = 0 then decide (k.missJ9 < s.lossTicks) else decide (s.qualTicks ≤ k.qualJ9)
  let g := s.flag rGLB_WGL_STAT 4 && (k.active == 1 || decide (s.qualTicks ≤ k.qualGptp))
  (j && s.flag rSTRK_CTL 0, g && s.flag rSTRK_CTL 1)

/-- The source changes at the edge at which a higher one has qualified, or the active one is lost. -/
def State.chooseSource (s : State) : State :=
  let q := s.qualified
  let new := if q.1 then 0 else if q.2 then 1 else 2
  let old := s.tick.active
  let s := s.setFld rSTRK_STATUS 2 3 (b2n q.1 + 2 * b2n q.2 + 4)
  if new = old then s
  else
    let off := (old == 0 && !(s.flag rSTRK_CTL 0)) || (old == 1 && !(s.flag rSTRK_CTL 1))
    let reason := if new < old then 1 else if off then 2 else 0
    let d0 := old + new * 4 + reason * 16
    let d1 := unsigned 32 (s.sourceErr new)
    let s := s.updTick (fun k => { k with active := new, realign := new != 2, missJ9 := 0, err := none, early := none,
                                          qualJ9 := if old = 0 then 0 else k.qualJ9 })
    let s := ((s.setFld rSTRK_STATUS 0 2 new).sticky rSTRK_STATUS 8).bump rSTRK_CNT_SRCCHG
    (s.raise 0x0102 16 0x3FFF (hubSite 0) d0 d1).recordTick 0x0102 d0 d1

/-- What the edge makes of the source of the period that ends, once the settings are in force. -/
def State.stepSource (s : State) (missing : Bool) : State :=
  let s := if missing then (s.updTick (fun k => { k with missJ9 := k.missJ9 + 1 })).anomaly 0 0
    else s.updTick (fun k => { k with missJ9 := 0 })
  let stale := match s.tick.lastJ9 with
    | some l => decide (l + s.periodNs + s.tolNs < s.tick.last)
    | none => true
  let s := s.updTick (fun k => { k with
    qualGptp := if s.flag rGLB_WGL_STAT 4 then min 15 (k.qualGptp + 1) else 0,
    qualJ9 := if stale then 0 else k.qualJ9 })
  let s := s.chooseSource
  if s.tick.active = 1 then
    let e := s.sourceErr 1
    (s.updTick (fun k => { k with err := some e })).measured e
  else s

/-! ### The end of the tick period (R186, R317, R355, R357, R411, R466) -/

/-- INPUT_LOW. -/
def State.inputLow (s : State) (mv w : Nat) : State :=
  if mv < 46000 ∧ !s.inp.low then
    ({ s with inp := { s.inp with low := true } } : State).raise 0x02CB 16 0x3FFF (hubSite 0) (mv % 2 ^ 16) (w % 2 ^ 16)
  else if 46500 ≤ mv then { s with inp := { s.inp with low := false } }
  else s

/-- The temperature of a stack, and the error-severity reports of its on-die ECC that have been read (R185, R186). -/
def State.stackTemp (s : State) (p t sev : Nat) : State :=
  let v := s.svc p
  let r := siteReg p rKV_HBM_STAT
  let hot := decide (85 < t)
  let n := s.owner p
  let s := ((s.setSvc p { v with temp := t, hot := hot, sev := v.sev + sev }).setFld r 2 1 (b2n hot)).setFld r 16 8 t
  let s := if hot && decide (n < 16) && (s.part n).st == .running then s.bump (siteReg p rKV_CNT_HOTREF) else s
  if 105 ≤ t ∧ v.temp < 105 then
    ((s.selfRefresh p true).sticky r 1).raise 0x318C n 0x3FFF p (p + t % 256 * 2 ^ 8) 0
  else s

/-- Events that are journalled once a tick with their number: events, late answers and NOTIFYs dropped. -/
def State.tickCounts (s : State) : State :=
  let hub := if s.jrnl.okA then hubSite 1 else hubSite 2
  let k := s.jrnl.dropped
  let s := if k ≠ 0 ∧ s.jrnl.queue.length < 256 then
      ({ s with jrnl := { s.jrnl with dropped := 0 } } : State).tickFault 0x0483 16 hub (k % 2 ^ 16) (s.fld rFLT_CNT_DROP 0 32)
    else s
  let w := s.wgl
  let s := if w.lateCnt = 0 then s
    else ({ s with wgl := { s.wgl with lateCnt := 0 } } : State).wglFault 0x0381 (wglHub (bits w.lateD0 4 1)) w.lateD0 (w.lateCnt % 2 ^ 16)
  if w.dropped = 0 then s
  else ({ s with wgl := { s.wgl with dropped := 0 } } : State).wglFault 0x0386 (hubSite 0) (w.dropped % 2 ^ 16) w.dropSeq

def State.endPeriod (s : State) (a : EdgeArg) : State :=
  let s := (s.attribute a.em).inputLow a.volt a.watt
  (a.hbm.foldl (fun (s : State) x => s.stackTemp x.1 x.2.1 x.2.2) s).tickCounts

/-! ### Steps 1 to 3 -/

/-- Step 1: the tick number, and the tick output (R116, R123, R476). -/
def State.countTick (s : State) (inst : Nat) : State :=
  let s := (s.updTick (fun k => { k with
    started := true, number := if k.started then k.number + 1 else 0, last := inst })).clearMarks 16
  let s := (s.setReg rSTRK_TICK (BitVec.ofNat 64 s.tick.number.toNat)).setReg rSTRK_TICK_TIME (BitVec.ofNat 64 inst)
  if s.flag rSTRK_CTL 8 && !s.inp.failing then s.emit (.tickOut (inst + 8)) else s

/-- Step 2: settings (R126, R346). -/
def State.applySettings (s : State) : State :=
  let s := s.applyStaged
  match s.wgl.gclNext with
  | some g => { s with wgl := { s.wgl with gcl := g, gclNext := none } }
  | none => s

/-- Step 3: the grant and the budget; each recording partition keeps a GRANT entry (R303, R304, Table 17.3). -/
def State.takeGrant (s : State) : State :=
  let s := s.latchGrant.formBudget
  s.recordAll 6 [s.fld rPWR_GRANT_NOW 0 16, s.fld rPWR_GRANT_NOW 24 7 + b2n (s.flag rPWR_GRANT_NOW 31) * 2 ^ 7, 0, 0, 0, 0, 0, 0]

/-! ### The pair at the edge (R421, R425) -/

/-- Frames of partitions that a lost lane-group has not delivered go out on those that remain. -/
def State.moveFrames (s : State) : State :=
  let up := s.lanesUp
  let lost := s.pair.frames.filter (fun f => !(up.contains f.lane) && decide (f.part < 16))
  let s := { s with pair := { s.pair with edge := s.fld rPAIR_STATUS 4 4, frames := s.pair.frames.filter (fun f => !(lost.contains f)) } }
  lost.foldl (fun (s : State) f =>
    (s.lanesFor (some f.part)).foldl (fun (s : State) l => s.pairFrame f.type l f.part f.stroke f.last f.pay) s) s

/-- The missed periods are counted, and a partner that has missed eight of them is dead. -/
def State.pairEdge (s : State) : State :=
  let dead := s.partnerMissed
  let s := if s.coupled && s.modeNow != 0 then
      (if s.pair.seen then s.setFld rPAIR_STATUS 8 4 0 else (s.satFld rPAIR_STATUS 8 4 1).bump rPAIR_CNT_HBMISS)
    else s
  let s := if dead then s.partnerDead else s
  ({ s with pair := { s.pair with seen := false, fenced := false } } : State).moveFrames

/-- HELLO or HEARTBEAT of the edge (R424, R425). -/
def State.pairSends (s : State) : State :=
  if s.sendsHello then s.sendHello
  else if (s.role = 1 ∨ s.role = 2) ∧ s.modeNow ≠ 0 then
    s.pairSend 2 none (bigBytes 8 s.tick.number.toNat ++ bigBytes 8 s.tick.last ++ [s.role] ++ (List.range 16).map (fun n => (s.part n).ready))
  else s

/-! ### Partitions: resets, commands, sites that fail, loads that end (R272, R273, R382, R404, R432) -/

/-- A load in progress for partition `n` is abandoned (R382). -/
def State.abortLoad (s : State) (n : Nat) : State :=
  let s := { s with boot := { s.boot with reload := s.boot.reload.filter (fun x => x.1 != n) } }
  if s.boot.cmd = some n then
    let s := (s.dropBanks n).updPart n (fun p => { p with lib := none })
    (({ s with boot := { s.boot with cmd := none, image := none } } : State).setFld rSEC_BOOT_STAT 16 4 0).raiseBoot
  else s

/-- A reset that is due. In MIRROR the partner is told of it, unless it is the partner that asked. -/
def State.resetAtEdge (s : State) (n : Nat) : State :=
  match (s.part n).resetDue with
  | none => s
  | some c =>
    let told := (s.pp n).told
    let s := if s.mirrored && !told then s.sendControl (some n) 1 [s.tick.number.toNat] else s
    let s := if s.resyncing = 0 then s else s.endResync
    let s := if (s.part n).st = .loading then s.abortLoad n else s
    if (s.part n).st = .running ∨ (s.part n).st = .loading then s.resetPartition n c
    else s.updPart n (fun p => { p with resetDue := none })

/-- A partition command that waits for the edge. -/
def State.cmdAtEdge (s : State) (n : Nat) : State :=
  match (s.part n).pend with
  | none => s
  | some c =>
    let s := s.updPart n (fun p => { p with pend := none })
    match c with
    | .configure g => s.applyConfigure n g
    | .release => s.freePartition n
    | .reset => s

/-- A failed site goes out of service; its logical site is bound to the lowest usable spare, and the image is reloaded there
(R404). `live` says that its partition ran when the site failed. STROKE_LO: DESIGN CHOICE, log entry 141. -/
def State.siteOutAtEdge (s : State) (p : Nat) (live : Bool) : State :=
  let n := s.owner p
  let l := s.lsite p
  let s := { s with fab := { s.fab with siteOut := mset false s.fab.siteOut p true } }
  -- no master of the site holds a lock or waits any more (R263)
  let mine (w : Nat) : Bool := owSite w == p
  let s := (s.sealAbandonAll mine 1).dropWaits mine
  let s := (s.quadsDown p).syncKv p
  match l, (if s.flag rBIST_CTL 2 then s.spareSites.head? else none) with
  | some l, some q =>
    let s := (s.rebind l q (if n < 16 then (s.part n).stroke.toNat + 1 else s.tick.number.toNat)).syncKv q
    if live then
      let s := s.quadsUp q
      let s := { s with boot := { s.boot with reload := s.boot.reload ++ [((n, l, p, q) : Nat × Nat × Nat × Nat)] } }
      (s.updPart n (fun x => { x with loadFailed := false, loadDone := false })).setPState n .loading
    else s
  | _, _ =>
    if live then ({ s with boot := { s.boot with reload := s.boot.reload.filter (fun x => x.1 != n) } } : State).setPState n .configured else s

/-- All of it. -/
def State.partsAtEdge (s : State) : State :=
  let ns := List.range 16
  let ran := ns.filter (fun n => (s.part n).st == .running)
  -- a RESET command is a reset without a fault
  let s := ns.foldl (fun (s : State) n =>
    if (s.part n).pend = some .reset ∧ (s.part n).resetDue.isNone then s.updPart n (fun p => { p with resetDue := some 0 }) else s) s
  let s := ns.foldl (fun (s : State) n => s.resetAtEdge n) s
  let s := ns.foldl (fun (s : State) n => s.cmdAtEdge n) s.applyWheel
  let s := ({ s with host := { s.host with lastCmd := none } } : State).setFld rPART_CMD_STAT 30 1 0
  let out := s.dom.outNext
  let s := { s with dom := { s.dom with outNext := [] } }
  let s := out.foldl (fun (s : State) p => s.siteOutAtEdge p (ran.contains (s.owner p))) s
  let s := s.retryDoms
  ns.foldl (fun (s : State) n =>
    if (s.part n).st = .loading ∧ (s.part n).loadDone then
      (s.updPart n (fun p => { p with loadDone := false })).setPState n .running
    else s) s

/-! ### Steps 5 to 7: what takes effect as a stroke begins -/

/-- The bank maps of one slot are exchanged (R57). -/
def State.swapSlot (s : State) (x : Nat × Nat) : State :=
  let y := s.shadow x.1 x.2
  let live := s.liveSlot x.1 y.bank
  let s := { s with comb := { s.comb with bmap := mset y.bank s.comb.bmap (x.1 * 64 + y.bank) y.slot } }
  s.setShadow x.1 x.2 { Shadow.init (x.2 % 2) with slot := live }

/-- Swaps and commits of partition `n` at the start of its stroke `m`: in MIRROR only when both panels are ready (R435), in replay
exactly as many as were recorded (R454). Slots that are not complete yet are late (R58); a complete one that is held back is not.
The entries carry the number of the stroke that has just ended, for the new one is counted after them (DESIGN CHOICE, log entry
132); COMB_SHADOW_SWAP_STROKE shows `m`. -/
def State.updates (s : State) (n m : Nat) : State :=
  let armed := s.armedAt n m
  let r := s.recOf n
  let sw := s.readySwaps n m
  let cm := s.readyCommits n m
  let told := match r.rStroke with | some w => w.headD 0 / 2 ^ 12 | none => 0
  let replay := r.mode == 2 && !r.diverged
  let go := !s.mirrored || (s.pp n).updGo
  let sw := if !go then [] else if replay then sw.take told else sw
  let cm := if !go then [] else if replay then cm.take (told - sw.length) else cm
  let s := sw.foldl (fun (s : State) x => (s.swapSlot x).bump (siteReg (x.1 / 4160) rCOMB_CNT_SWAP)) s
  let s := (s.partSites n).foldl (fun (s : State) p =>
    let mine := sw.filter (fun x => x.1 / 4160 == p)
    let late := armed.filter (fun x => x.1 / 4160 == p && (s.shadow x.1 x.2).st == .armed)
    let s := if mine.isEmpty then s
      else (s.setReg (siteReg p rCOMB_SHADOW_SWAP_STROKE) (BitVec.ofNat 64 m)).journal 0x0047 n 0x3FFF p (mine.length % 2 ^ 13) 0
    if late.isEmpty then s
    else s.journal 0x0045 n 0x3FFF p (late.length % 2 ^ 13)
      ((late.filterMap (fun x => s.combId x.1)).foldl min 0xFFFF)) s
  let s := cm.foldl (fun (s : State) pc =>
    let set := mget 0 s.rq.pend pc % 32 - 1
    let s := match s.combId pc with
      | some k => s.applyCommit (pc / 4160) k pc set
      | none => s
    ({ s with rq := { s.rq with pend := mset 0 s.rq.pend pc 0 } } : State).setReg
      (siteReg (pc / 4160) rRQ_STAGE_STROKE) (BitVec.ofNat 64 m)) s
  s.updRec n (fun r => { r with upd := sw.length + cm.length })

/-- The flip of a site's page table to the generation that copy and replay have built (R196, R197). -/
def State.flipGen (s : State) (p : Nat) : State :=
  let v := s.svc p
  if !v.flipReady then s
  else
    let w := { v.stop with gen := v.idle }.setHeapOf v.gen 0 0
    (({ s with kv := { s.kv with
      dir := s.kv.dir.filter (fun e => e.1 / 2 ^ 26 != p * 2 + v.gen), leaf := s.kv.leaf.filter (fun e => e.1 / 2 ^ 24 != p * 2 + v.gen) } } : State).setSvc p
        w).bump (siteReg p rKV_CNT_FLIP)

/-- Step 7: quadrants of the announced gate set power down; those wanted and not ready are reported (R141, R142). -/
def State.gateQuads (s : State) (n : Nat) : State :=
  let g := (s.part n).gateSet
  let ps := s.partSites n
  let s := ps.foldl (fun (s : State) p =>
    (setBitsOf 4 g).foldl (fun (s : State) q => s.domDown (siteDom p q)) s) s
  let ready := (List.range 4).foldl (fun x q => if ps.all (fun p => s.quadOn p q) then orBit x q else x) 0
  let s := s.updPart n (fun x => { x with ready := ready })
  ps.foldl (fun (s : State) p =>
    let miss := (List.range 4).filter (fun q => !(bit g q) && !(s.quadOn p q))
    if miss.isEmpty then s
    else
      let el := ((miss.find? (fun q => (s.domAt (siteDom p q)).st == 2 || (s.domAt (siteDom p q)).st == 3)).map
        (fun q => (s.time - (s.domAt (siteDom p q)).start) / 1000)).getD 0
      (s.bump rSTRK_CNT_GATENR).journal 0x0107 n 0x3FFF p (miss.foldl orBit 0 + p * 2 ^ 4) (el % 2 ^ 16)) s

/-! ### Step 8: the stroke begins (R127, R232, R259, R443, R454) -/

/-- What partition `n` holds of a stroke, new. -/
def Part.begun (p : Part) (snap : List (Nat × Nat)) : Part :=
  { p with
    inStroke := true, phase := 0, runAt := 0, slipDepth := 0, slipping := false, hung := false, waits := 0, formed := false, done := [],
    finished := false, committed := false, emitted := false, issueFault := false, placed := [], snap := snap, errq := [],
    errDropped := 0, lateFailed := false, withheld := [] }

def State.beginStroke (s : State) (n m : Nat) : State :=
  let ps := s.partSites n
  let snap := if s.admitsFor n then
      ((List.range (s.part n).g.nsq).filter (fun q => (s.qp n q).sqEn)).map (fun q => (q, (s.qp n q).sqDb))
    else []
  let s := s.updPart n (fun p => { p.begun snap with stroke := BitVec.ofNat 48 m })
  let s := (s.clearMarks n).sealStroke n
  let s := s.updPp n (fun x => { x with paceNow := false, ingest := none, ownEnd := none, updGo := false })
  let s := s.setPpwr n { s.ppwr n with pace := none }
  let s := { s with
    pair := { s.pair with hash := s.pair.hash.filter (fun e => e.1 / 16384 != n) },
    spad := { s.spad with marks := s.spad.marks.filter (fun e => !(ps.contains e.1)),
                          markAll := s.spad.markAll.filter (fun e => !(ps.contains e.1)) },
    desc := { s.desc with streams := s.desc.streams.filter (fun e => !(ps.contains (e.1 / 8))) } }
  let s := (s.setFld (rplReg n rRPL_STATUS) 29 1 0).setFld (rplReg n rRPL_STATUS) 26 1 (b2n (s.classP n))
  let s := s.updRec n (fun r => { r with pdig := 0, odig := 0, held := false, waits := 0 })
  let r := s.recOf n
  if r.mode = 2 ∧ !r.diverged then
    r.rAdmit.foldl (fun (s : State) x =>
      let head := (s.qp n x.1).sqHead
      (s.admitOp n x.1 x.2).updQp n x.1 (fun q => { q with sqHead := head })) s
  else s

/-- A partition that runs and does not slip: its replay may wait, else its next stroke begins. -/
def State.startStroke (s : State) (n : Nat) (fresh first : Bool) : State :=
  let s := s.applyMode n fresh
  let r := s.recOf n
  if r.mode = 2 ∧ !r.diverged ∧ s.replayBlocked n then
    (s.updPart n (fun p => { p with inStroke := false, phase := 4 })).replayWait n
  else
    let m := if first then (s.part n).stroke.toNat else ((s.part n).stroke + 1).toNat
    let s := (s.applyStagedIf (s.strokeStaged n)).updates n m
    let s := (s.partSites n).foldl (fun (s : State) p => s.flipGen p) s
    let s := (s.partSites n).foldl (fun (s : State) p => s.gainsApply p) (s.replaceCombs n)
    let s := if fresh then (s.partSites n).foldl (fun (s : State) p => s.setPwr1 p { s.pwr1 p with fresh := true }) s else s
    (s.gateQuads n).beginStroke n m

/-! ### The edge -/

/-- Steps 4 to 8 for one partition. -/
def State.partEdge (s : State) (ran : List Nat) (first : Bool) (n : Nat) : State :=
  if (s.part n).st ≠ .running then s
  else if (s.part n).slipping then s.consumeTick n
  else s.startStroke n (!(ran.contains n)) first

/-- TICK_EDGE (R130, Table 05.4). -/
def State.tickEdge (s : State) (a : EdgeArg) : State :=
  if s.phase ≠ 6 then s
  else
    let first := !s.tick.started
    let nx := s.nextEdge
    let inst := if first then a.first else nx.1
    let missing := !first && s.tick.active == 0 && s.tick.err.isNone && !(s.tick.realign && s.tick.early.isSome)
    let s := s.at inst
    let s := (if first then s else s.endPeriod a).openPeriod first
    let e := s.tick.err
    let s := s.countTick inst
    let s := if nx.2 && !first then
        (s.bump rSTRK_CNT_REALIGN).recordTick 0x0102 (s.tick.active + s.tick.active * 4) (unsigned 32 (e.getD 0))
      else s
    let early := s.tick.early
    let s := (s.setFld rSTRK_STATUS 5 1 0).updTick (fun k => { k with
      realign := k.realign && e.isNone, err := k.early, early := none })
    let s := match early with | some x => s.measured x | none => s
    let s := (s.applySettings.stepSource missing).takeGrant
    let s := s.pairEdge
    let ran := (List.range 16).filter (fun n => (s.part n).st == .running)
    let s := s.partsAtEdge
    let s := (List.range 16).foldl (fun (s : State) n => s.partEdge ran first n) s
    s.openOwners.pairSends

def execTickEdge (a : EdgeArg) (s : State) : Res := .next (s.tickEdge a)

end Sys2Proof.Machine
end

