-- ==== Sys2Proof/Machine/Dispatch.lean ====
section
/-! DEFINITION. The meaning of every command: one direct call per row of the command table. -/

namespace Sys2Proof.Machine

/-- The effect of a command on everything but the queue. -/
def exec (i : Instr) (s : State) : Host.Outcome State Fault Refusal :=
  match i with
  | .registerWrite fn port a len v t => Sys2Proof.Machine.execRegisterWrite fn port a len v t s
  | .glbCfgLock w => Sys2Proof.Machine.execGlbCfgLock w s
  | .refusedAccess fn port a len write v t => Sys2Proof.Machine.execRefusedAccess fn port a len write v t s
  | .highHalfLatchExpiry t => Sys2Proof.Machine.execHighHalfLatchExpiry t s
  | .tickEdge a => Sys2Proof.Machine.execTickEdge a s
  | .tickInEdge high t => Sys2Proof.Machine.execTickInEdge high t s
  | .ingestAdmission n es t => Sys2Proof.Machine.execIngestAdmission n es t s
  | .demandFormation fetch t => Sys2Proof.Machine.execDemandFormation fetch t s
  | .runOpen t => Sys2Proof.Machine.execRunOpen t s
  | .emitOpen n t => Sys2Proof.Machine.execEmitOpen n t s
  | .guardStart t => Sys2Proof.Machine.execGuardStart t s
  | .siteEndMarker site t => Sys2Proof.Machine.execSiteEndMarker site t s
  | .descriptorFetch site stream => Sys2Proof.Machine.execDescriptorFetch site stream s
  | .descriptorIssue site stream t => Sys2Proof.Machine.execDescriptorIssue site stream t s
  | .nop site stream => Sys2Proof.Machine.execNop site stream s
  | .matmul site stream e => Sys2Proof.Machine.execMatmul site stream e s
  | .matmulFused site stream e => Sys2Proof.Machine.execMatmulFused site stream e s
  | .threshold site stream e => Sys2Proof.Machine.execThreshold site stream e s
  | .rowfn site stream e => Sys2Proof.Machine.execRowfn site stream e s
  | .gather site e => Sys2Proof.Machine.execGather site e s
  | .scatter site e => Sys2Proof.Machine.execScatter site e s
  | .copy site e => Sys2Proof.Machine.execCopy site e s
  | .kvAppend site e => Sys2Proof.Machine.execKvAppend site e s
  | .kvAttend site e => Sys2Proof.Machine.execKvAttend site e s
  | .kvSample site e => Sys2Proof.Machine.execKvSample site e s
  | .descriptorSignal site stream => Sys2Proof.Machine.execDescriptorSignal site stream s
  | .vectorConsume a hdr planes late delayed => Sys2Proof.Machine.execVectorConsume a hdr planes late delayed s
  | .tileFillEnd a => Sys2Proof.Machine.execTileFillEnd a s
  | .drainComplete a => Sys2Proof.Machine.execDrainComplete a s
  | .fallbackComplete a => Sys2Proof.Machine.execFallbackComplete a s
  | .exactDrainComplete a => Sys2Proof.Machine.execExactDrainComplete a s
  | .ingressBlock site slot chan0 comb layer tag hdr late xs => Sys2Proof.Machine.execIngressBlock site slot chan0 comb layer tag hdr late xs s
  | .space1Write part master mode addr len data => Sys2Proof.Machine.execSpace1Write part master mode addr len data s
  | .bankHeaderCheckComplete site comb bank shadow => Sys2Proof.Machine.execBankHeaderCheckComplete site comb bank shadow s
  | .shadowOpen site comb bank => Sys2Proof.Machine.execShadowOpen site comb bank s
  | .shadowArm site comb bank => Sys2Proof.Machine.execShadowArm site comb bank s
  | .shadowCancel site comb bank => Sys2Proof.Machine.execShadowCancel site comb bank s
  | .shadowCmdInvalid site w => Sys2Proof.Machine.execShadowCmdInvalid site w s
  | .rqCommit site comb set => Sys2Proof.Machine.execRqCommit site comb set s
  | .rqCancel site comb set => Sys2Proof.Machine.execRqCancel site comb set s
  | .rqStageCmdInvalid site w => Sys2Proof.Machine.execRqStageCmdInvalid site w s
  | .stagingWrite site comb w v => Sys2Proof.Machine.execStagingWrite site comb w v s
  | .configRecordWrite n lsite table first entries => Sys2Proof.Machine.execConfigRecordWrite n lsite table first entries s
  | .packEntry site entry => Sys2Proof.Machine.execPackEntry site entry s
  | .packTileComplete site rows zp => Sys2Proof.Machine.execPackTileComplete site rows zp s
  | .mergeArrival site hdr payload late => Sys2Proof.Machine.execMergeArrival site hdr payload late s
  | .mergeResultWrite site mctx => Sys2Proof.Machine.execMergeResultWrite site mctx s
  | .pwriteLand site hdr payload badFirst bad => Sys2Proof.Machine.execPwriteLand site hdr payload badFirst bad s
  | .readReq site hdr e => Sys2Proof.Machine.execReadReq site hdr e s
  | .readCpl site hdr payload => Sys2Proof.Machine.execReadCpl site hdr payload s
  | .landAck site hdr => Sys2Proof.Machine.execLandAck site hdr s
  | .lateErr site hdr => Sys2Proof.Machine.execLateErr site hdr s
  | .fenceTimeout site dst kind seq t => Sys2Proof.Machine.execFenceTimeout site dst kind seq t s
  | .noSlot site dst kind seq t => Sys2Proof.Machine.execNoSlot site dst kind seq t s
  | .linkReplay site port far first => Sys2Proof.Machine.execLinkReplay site port far first s
  | .siteCoreAccess site core part write addr len data e => Sys2Proof.Machine.execSiteCoreAccess site core part write addr len data e s
  | .sealNop word req => Sys2Proof.Machine.execSealNop word req s
  | .sealSignal sl epoch word req same t => Sys2Proof.Machine.execSealSignal sl epoch word req same t s
  | .sealWait sl epoch word req same t => Sys2Proof.Machine.execSealWait sl epoch word req same t s
  | .sealAcquire sl epoch word req same t => Sys2Proof.Machine.execSealAcquire sl epoch word req same t s
  | .sealRelease sl epoch word req same t => Sys2Proof.Machine.execSealRelease sl epoch word req same t s
  | .armBarrier sl epoch word req same t => Sys2Proof.Machine.execArmBarrier sl epoch word req same t s
  | .sealRead sl epoch word req same t => Sys2Proof.Machine.execSealRead sl epoch word req same t s
  | .sealWake site sl count => Sys2Proof.Machine.execSealWake site sl count s
  | .sealGrant req status => Sys2Proof.Machine.execSealGrant req status s
  | .sealAck req result status => Sys2Proof.Machine.execSealAck req result status s
  | .barrierWaveTime req t => Sys2Proof.Machine.execBarrierWaveTime req t s
  | .sealImportForward word req => Sys2Proof.Machine.execSealImportForward word req s
  | .sealResultLoad site core => Sys2Proof.Machine.execSealResultLoad site core s
  | .sealInspRead => Sys2Proof.Machine.execSealInspRead s
  | .partConfigure n cfg => Sys2Proof.Machine.execPartConfigure n cfg s
  | .partRelease n => Sys2Proof.Machine.execPartRelease n s
  | .partReset n => Sys2Proof.Machine.execPartReset n s
  | .partCmdInvalid w => Sys2Proof.Machine.execPartCmdInvalid w s
  | .queCfgWrite port vf q sq w => Sys2Proof.Machine.execQueCfgWrite port vf q sq w s
  | .queBaseWrite port vf q sq half v => Sys2Proof.Machine.execQueBaseWrite port vf q sq half v s
  | .sqTailDoorbell port vf q w t => Sys2Proof.Machine.execSqTailDoorbell port vf q w t s
  | .cqHeadDoorbell port vf q w t => Sys2Proof.Machine.execCqHeadDoorbell port vf q w t s
  | .msixUnmask port fn vec enable mask => Sys2Proof.Machine.execMsixUnmask port fn vec enable mask s
  | .flr port vf => Sys2Proof.Machine.execFlr port vf s
  | .portDown port cause t => Sys2Proof.Machine.execPortDown port cause t s
  | .openStream n q e => Sys2Proof.Machine.execOpen n q e s
  | .append n q e => Sys2Proof.Machine.execAppend n q e s
  | .generate n q e => Sys2Proof.Machine.execGenerate n q e s
  | .fork n q e => Sys2Proof.Machine.execFork n q e s
  | .park n q e => Sys2Proof.Machine.execPark n q e s
  | .resume n q e => Sys2Proof.Machine.execResume n q e s
  | .close n q e => Sys2Proof.Machine.execClose n q e s
  | .forkComplete k => Sys2Proof.Machine.execForkComplete k s
  | .parkComplete k failed => Sys2Proof.Machine.execParkComplete k failed s
  | .resumeComplete id port image => Sys2Proof.Machine.execResumeComplete id port image s
  | .streamDrainComplete k => Sys2Proof.Machine.execStreamDrainComplete k s
  | .strmInspRead => Sys2Proof.Machine.execStrmInspRead s
  | .compactionStart site => Sys2Proof.Machine.execCompactionStart site s
  | .compactionComplete site => Sys2Proof.Machine.execCompactionComplete site s
  | .powerWindow ws t => Sys2Proof.Machine.execPowerWindow ws t s
  | .calibration check t => Sys2Proof.Machine.execCalibration check t s
  | .pwrGrantLost => Sys2Proof.Machine.execPwrGrantLost s
  | .droopEvent p quads t => Sys2Proof.Machine.execDroopEvent p quads t s
  | .droopRestore p t => Sys2Proof.Machine.execDroopRestore p t s
  | .thermalTrip p sensor tj t => Sys2Proof.Machine.execThermalTrip p sensor tj t s
  | .tripClr hot => Sys2Proof.Machine.execTripClr hot s
  | .pwrSiteDataRead => Sys2Proof.Machine.execPwrSiteDataRead s
  | .coolantSensorSample vs t => Sys2Proof.Machine.execCoolantSensorSample vs t s
  | .coolantLoopRun pulses enc t => Sys2Proof.Machine.execCoolantLoopRun pulses enc t s
  | .valveSoftstartDone enc => Sys2Proof.Machine.execValveSoftstartDone enc s
  | .valveShort enc => Sys2Proof.Machine.execValveShort enc s
  | .valveStall enc => Sys2Proof.Machine.execValveStall enc s
  | .valveClr => Sys2Proof.Machine.execValveClr s
  | .loopDisable => Sys2Proof.Machine.execLoopDisable s
  | .domOn d => Sys2Proof.Machine.execDomOn d s
  | .domOff d => Sys2Proof.Machine.execDomOff d s
  | .domClear d => Sys2Proof.Machine.execDomClear d s
  | .domCmdInvalid w => Sys2Proof.Machine.execDomCmdInvalid w s
  | .domDataRead => Sys2Proof.Machine.execDomDataRead s
  | .softstartComplete d t => Sys2Proof.Machine.execSoftstartComplete d t s
  | .softstartWindowExpiry d t => Sys2Proof.Machine.execSoftstartWindowExpiry d t s
  | .domShort d cur t => Sys2Proof.Machine.execDomShort d cur t s
  | .domInrushHold p byp t => Sys2Proof.Machine.execDomInrushHold p byp t s
  | .sagRecovery p t => Sys2Proof.Machine.execSagRecovery p t s
  | .wglRead fr leaves t => Sys2Proof.Machine.execWglRead fr leaves t s
  | .wglReadMulti fr leaves t => Sys2Proof.Machine.execWglReadMulti fr leaves t s
  | .wglWrite fr leaves t => Sys2Proof.Machine.execWglWrite fr leaves t s
  | .wglGrant fr leaves t => Sys2Proof.Machine.execWglGrant fr leaves t s
  | .wglHeartbeat fr leaves t => Sys2Proof.Machine.execWglHeartbeat fr leaves t s
  | .wglForward port src dst body fcsOk gptp t => Sys2Proof.Machine.execWglForward port src dst body fcsOk gptp t s
  | .heartbeatSend t => Sys2Proof.Machine.execHeartbeatSend t s
  | .notifySend => Sys2Proof.Machine.execNotifySend s
  | .wglAnswerLate msg port seq t => Sys2Proof.Machine.execWglAnswerLate msg port seq t s
  | .standardAnswer late t => Sys2Proof.Machine.execStandardAnswer late t s
  | .wglPortChange port st => Sys2Proof.Machine.execWglPortChange port st s
  | .gptpSync ofs capable t => Sys2Proof.Machine.execGptpSync ofs capable t s
  | .wglTimeLost reason t => Sys2Proof.Machine.execWglTimeLost reason t s
  | .mailboxGo w t => Sys2Proof.Machine.execMailboxGo w t s
  | .mailboxDone t => Sys2Proof.Machine.execMailboxDone t s
  | .powerGood t => Sys2Proof.Machine.execPowerGood t s
  | .resetPin t => Sys2Proof.Machine.execResetPin t s
  | .resetRelease => Sys2Proof.Machine.execResetRelease s
  | .panelReset port => Sys2Proof.Machine.execPanelReset port s
  | .romInitComplete ports hubs t => Sys2Proof.Machine.execRomInitComplete ports hubs t s
  | .hbmTrainingComplete p fail t => Sys2Proof.Machine.execHbmTrainingComplete p fail t s
  | .iflevelRequest req port => Sys2Proof.Machine.execIflevelRequest req port s
  | .loadBoot port => Sys2Proof.Machine.execLoadBoot port s
  | .loadPart n port => Sys2Proof.Machine.execLoadPart n port s
  | .tapEnable port t => Sys2Proof.Machine.execTapEnable port t s
  | .lcAdvance target port t => Sys2Proof.Machine.execLcAdvance target port t s
  | .secBootCmdInvalid w port => Sys2Proof.Machine.execSecBootCmdInvalid w port s
  | .imageHeaderReceived hdr port t => Sys2Proof.Machine.execImageHeaderReceived hdr port t s
  | .sectionReceived ix bytes plans port t => Sys2Proof.Machine.execSectionReceived ix bytes plans port t s
  | .bootReady t => Sys2Proof.Machine.execBootReady t s
  | .partLoadComplete n measured ms t => Sys2Proof.Machine.execPartLoadComplete n measured ms t s
  | .secretsCleared ms t => Sys2Proof.Machine.execSecretsCleared ms t s
  | .selfTestSlice p unit len steps leaves t => Sys2Proof.Machine.execSelfTestSlice p unit len steps leaves t s
  | .selfTestYield p q => Sys2Proof.Machine.execSelfTestYield p q s
  | .analogCheck order site inst pass err aux => Sys2Proof.Machine.execAnalogCheck order site inst pass err aux s
  | .hubLost h cause d t => Sys2Proof.Machine.execHubLost h cause d t s
  | .ageingUpdate hours therm valve sites mons => Sys2Proof.Machine.execAgeingUpdate hours therm valve sites mons s
  | .journalWrite bad => Sys2Proof.Machine.execJournalWrite bad s
  | .journalCopy bad => Sys2Proof.Machine.execJournalCopy bad s
  | .clearLost w => Sys2Proof.Machine.execClearLost w s
  | .journalRecoveryComplete passA passB => Sys2Proof.Machine.execJournalRecoveryComplete passA passB s
  | .fltJrnlDataRead stby ueA ueB => Sys2Proof.Machine.execFltJrnlDataRead stby ueA ueB s
  | .bistSiteDataRead => Sys2Proof.Machine.execBistSiteDataRead s
  | .pairHello h b t => Sys2Proof.Machine.execPairHello h b t s
  | .pairHeartbeat h role quads skew t => Sys2Proof.Machine.execPairHeartbeat h role quads skew t s
  | .pairPartnerDead t => Sys2Proof.Machine.execPairPartnerDead t s
  | .pairIngest h a t => Sys2Proof.Machine.execPairIngest h a t s
  | .ingestWait n t => Sys2Proof.Machine.execIngestWait n t s
  | .pairPace h entry hold t => Sys2Proof.Machine.execPairPace h entry hold t s
  | .paceTimeout n t => Sys2Proof.Machine.execPaceTimeout n t s
  | .pairEnd h a t => Sys2Proof.Machine.execPairEnd h a t s
  | .pairDelta h a t => Sys2Proof.Machine.execPairDelta h a t s
  | .pairDeltaAck h refused t => Sys2Proof.Machine.execPairDeltaAck h refused t s
  | .controlReset h t => Sys2Proof.Machine.execControlReset h t s
  | .controlQuarantine h t => Sys2Proof.Machine.execControlQuarantine h t s
  | .controlLeave h t => Sys2Proof.Machine.execControlLeave h t s
  | .controlUpdate h banks sets t => Sys2Proof.Machine.execControlUpdate h banks sets t s
  | .pairResync h phase items t => Sys2Proof.Machine.execPairResync h phase items t s
  | .pairResyncDone h strokes t => Sys2Proof.Machine.execPairResyncDone h strokes t s
  | .pairNak h seq t => Sys2Proof.Machine.execPairNak h seq t s
  | .pairVector h v planes len t => Sys2Proof.Machine.execPairVector h v planes len t s
  | .pairReplayTimeout lane t => Sys2Proof.Machine.execPairReplayTimeout lane t s
  | .pairLaneDown lane cause t => Sys2Proof.Machine.execPairLaneDown lane cause t s
  | .pairLaneUp lane t => Sys2Proof.Machine.execPairLaneUp lane t s
  | .pairRejoin w t => Sys2Proof.Machine.execPairRejoin w t s
  | .pairLeave w t => Sys2Proof.Machine.execPairLeave w t s
  | .pairCtlWrite w t => Sys2Proof.Machine.execPairCtlWrite w t s
  | .recordStart n w => Sys2Proof.Machine.execRecordStart n w s
  | .replayStart n w => Sys2Proof.Machine.execReplayStart n w s
  | .recordStop n w => Sys2Proof.Machine.execRecordStop n w s
  | .replayStroke n es t => Sys2Proof.Machine.execReplayStroke n es t s
  | .rplHeadWrite n w => Sys2Proof.Machine.execRplHeadWrite n w s
  | .rplTailWrite n w => Sys2Proof.Machine.execRplTailWrite n w s
  | .bypass ir => Sys2Proof.Machine.execBypass ir s
  | .idcode => Sys2Proof.Machine.execIdcode s
  | .samplePreload pins load => Sys2Proof.Machine.execSamplePreload pins load s
  | .extest => Sys2Proof.Machine.execExtest s
  | .clamp => Sys2Proof.Machine.execClamp s
  | .highz => Sys2Proof.Machine.execHighz s
  | .debug core halt t => Sys2Proof.Machine.execDebug core halt t s
  | .mem write addr len data ue t => Sys2Proof.Machine.execMem write addr len data ue t s
  | .scan hubs => Sys2Proof.Machine.execScan hubs s
  | .uartRx b => Sys2Proof.Machine.execUartRx b s
  | .inputPowerFail cause v w t => Sys2Proof.Machine.execInputPowerFail cause v w t s
  | .holdupExpiry t => Sys2Proof.Machine.execHoldupExpiry t s
  | .chargeTimeout t => Sys2Proof.Machine.execChargeTimeout t s
  | .chargeRetry t => Sys2Proof.Machine.execChargeRetry t s
  | .inputChargeStart t => Sys2Proof.Machine.execInputChargeStart t s
  | .standbyRailLoss t => Sys2Proof.Machine.execStandbyRailLoss t s
  | .pcieLinkUp port t => Sys2Proof.Machine.execPcieLinkUp port t s
  | .landAckGatherExpiry site src vc t => Sys2Proof.Machine.execLandAckGatherExpiry site src vc t s
  | .lifecycleFusesProgrammed t => Sys2Proof.Machine.execLifecycleFusesProgrammed t s

end Sys2Proof.Machine
end

