-- ==== Sys2Proof/Safety.lean ====
section
/-! DEFINITION. The terms in which claims are stated: a command that completes, the invariant of the stored data, and the
commands that may reset the panel. -/

namespace Sys2Proof.Machine

/-- Command `i` completes in state `s`: it answers a next state, and that state satisfies `P`. -/
def Completes (i : Instr) (s : State) (P : State → Prop) : Prop := ∃ t, exec i s = .next t ∧ P t

/-- The stored data have their canonical form, GLB_ID reads as Table 00.1 fixes it, and no setting that waits for its edge
belongs to one of the first two registers. -/
structure Good (s : State) : Prop where
  regs : mwf regReset s.regs = true
  spad : mwf (fun _ => 0) s.spad.mem = true
  hbm  : mwf (fun _ => 0) s.kv.hbm = true
  id   : s.reg rGLB_ID = 0x4B322010
  st   : ∀ x ∈ s.staged, 4 < x.1
  cst  : ∀ x ∈ s.clt.staged, 4 < x.1

/-- The commands that may carry out a panel reset (R368): power-good, the RESET# pin, the PANEL_RESET command, the end of a
hold-up, test access at J10, and a register write, which may issue a boot command (REFUSED_ACCESS carries one when the access is
legal, log entry 137). -/
def mayReset : Instr → Bool
  | .panelReset _ => true
  | .powerGood _ => true
  | .resetPin _ => true
  | .holdupExpiry _ => true
  | .tapEnable _ _ => true
  | .registerWrite _ _ _ _ _ _ => true
  | .refusedAccess _ _ _ _ _ _ _ => true
  | _ => false

/-- No core has a store that waits for its port (R254). -/
def PortsFree (s : State) : Prop := ∀ e ∈ s.sls.ports, e.2.stalled = none

/-- The state of the tick generator that only a tick edge changes (R116). -/
def tickCore (k : TickSt) : Bool × BitVec 48 × Nat := (k.started, k.number, k.last)

end Sys2Proof.Machine
end

