-- ==== Sys2Proof/Certificates/Slice0/Obligations.lean ====
section
/-! DEFINITION. The statements for the provers: what each command does, what every command keeps, and what the panel is after reset. -/

open Sys2Proof Sys2Proof.Machine

/-- A step takes the command at the front of the queue and runs it with the rest of the queue. With no command waiting the block
idles (the model's choice, log entry 1). -/
def Obligations.StepRunsFrontCommand : Prop :=
  (∀ (s : State) (c : Instr) (rest : List Instr), s.pending = c :: rest → step s = exec c { s with pending := rest }) ∧
  (∀ s : State, s.pending = [] → step s = .next s)

/-- The invariant of the stored data holds after reset. What stands in the machine right after reset: role ALONE with EPOCH 0
(R423), the configuration unlocked (R9), no partition configured, no stream, tick or journal entry. -/
def Obligations.ResetStateIsGood : Prop :=
  (Good State.reset) ∧
  (State.reset.role = 0 ∧ State.reset.epoch = 0 ∧ State.reset.locked = false ∧ State.reset.phase = 0 ∧
   (∀ n, (State.reset.part n).st = .unconfigured) ∧ (∀ i, (State.reset.stream i).st = .free) ∧
   State.reset.tick.started = false ∧ State.reset.jrnl.held = [] ∧ State.reset.pending = [] ∧
   (∀ d, (State.reset.domAt d).st = 0) ∧ (∀ k, (State.reset.sealAt k).st = 0))

/-- Every step keeps the invariant: register file, scratchpads and HBM stay canonical, and GLB_ID keeps its value. -/
def Obligations.StepKeepsGood : Prop :=
  ∀ s t : State, Good s → step s = .next t → Good t

/-- Every command, with any operands, completes in every state, leaves the queue of waiting commands alone and keeps the invariant
(the model's choice for what the panel does with a command out of context: log entry 2). -/
def Obligations.EveryCommandCompletes : Prop :=
  ∀ (c : Instr) (s : State), Completes c s (fun t => t.pending = s.pending ∧ (Good s → Good t))

/-- Once GLB_CFG_LOCK is set, no command but one that may reset the panel clears it (R9). -/
def Obligations.LockHoldsUntilPanelReset : Prop :=
  ∀ (c : Instr) (s t : State), mayReset c = false → Good s → s.locked = true → exec c s = .next t → t.locked = true

/-- Panel time never steps backwards (R118). Only a tick edge changes the tick number and the instant of the last edge; a panel
reset clears them (R116). -/
def Obligations.TimeAndTicksOnlyAdvance : Prop :=
  (∀ (c : Instr) (s t : State), exec c s = .next t → s.time ≤ t.time) ∧
  (∀ (c : Instr) (s t : State), mayReset c = false → (∀ a, c ≠ .tickEdge a) → exec c s = .next t →
     tickCore t.tick = tickCore s.tick)

/-- Fuses are only ever programmed: SVN_MIN never falls and a revoked key slot stays revoked, through a panel reset too (R375,
R377). -/
def Obligations.FusesAreOnlyProgrammed : Prop :=
  ∀ (c : Instr) (s t : State), exec c s = .next t →
    s.svnMin ≤ t.svnMin ∧ ∀ k, bit s.boot.revoked k = true → bit t.boot.revoked k = true

/-- GLB_ID stands at offset 0 with the fields of Table 00.1, and no command changes it, a panel reset included (R2). -/
def Obligations.GlbIdIsFixed : Prop :=
  rGLB_ID = 0 ∧
  (∀ s : State, Good s → s.fld rGLB_ID 16 16 = 0x4B32 ∧ s.fld rGLB_ID 12 4 = 2 ∧ s.fld rGLB_ID 8 4 = 0 ∧ s.fld rGLB_ID 4 4 = 1 ∧
    s.fld rGLB_ID 0 4 = 0 ∧ s.reg rGLB_ID = 0x4B322010) ∧
  (∀ (c : Instr) (s t : State), Good s → exec c s = .next t → t.reg rGLB_ID = s.reg rGLB_ID) ∧
  (∀ (s : State) (cause : Nat), (s.panelReset cause).reg rGLB_ID = 0x4B322010)

/-- After panel reset, whatever its cause, the site map binds logical sites 0-63 in ascending order to the compute positions in
ascending physical index, and no logical site to a spare position (R17). -/
def Obligations.SiteMapAfterReset : Prop :=
  ∀ (s : State) (cause : Nat),
    ((List.range 64).map (s.panelReset cause).phys = (List.range 72).filter (fun p => !(isHub p) && !(isSpare p))) ∧
    (∀ p, isSpare p = true → (s.panelReset cause).lsite p = none) ∧
    (List.range 64).map State.reset.phys = (List.range 64).map (s.panelReset cause).phys

/-- When a partition is idle for an RWI object (R361). -/
def Obligations.IdleForRwiObjects : Prop :=
  ∀ s : State,
    (∀ n, s.idlePart n = true ↔ (s.part n).st ≠ .running ∨
      ((s.part n).st = .running ∧ (∀ i ∈ s.partStreams n, (s.stream i).st ≠ .active) ∧ (s.part n).idle = true)) ∧
    (s.allIdle = true ↔ ∀ n, n < 16 → s.idlePart n = true)

/-- A 32-bit write of a PF through BAR0 to a register that has RW bits only, outside the SEC block, the MSI-X table and the ring
pointers, replaces those bits and no others, and writes no other register (R7). An access of another size or alignment is
aborted, changes no register but the two of FLT_BADACC, and is recorded there (R6, Table 15.15). -/
def Obligations.RegisterAccesses : Prop :=
  (∀ (s : State) (port a t : Nat) (v : BitVec 64) (r : RegRow),
     Good s → s.ready = true → a % 4 = 0 →
     a < rSEC_BOOT_CMD ∨ (rSEC_BOOT_CMD + 0x10000 ≤ a ∧ a < 0xE0000) ∨ 0xE8000 ≤ a → regAt a = some (r, a, false) → r.wide = false → r.rwl = 0 → r.w1c = 0 →
     r.rw ≠ 0 → r.base ≠ rRPL_CTL → r.base ≠ rRPL_HEAD → r.base ≠ rRPL_TAIL → a ≠ rPWR_CTL → a ≠ rCLT_CTL →
     Completes (.registerWrite 0 port a 4 v t) s (fun u =>
       (u.reg a).toNat % 2 ^ 32 = (((s.reg a).toNat - ((s.reg a).toNat &&& r.rw)) ||| (v.toNat % 2 ^ 32 &&& r.rw)) % 2 ^ 32 ∧
       (∀ b, b ≠ a → u.reg b = s.reg b) ∧ u = { s.at t with regs := u.regs })) ∧
  (∀ (s : State) (fn port a len t : Nat) (v : BitVec 64) (w : Bool), accessLegal a len = false →
     (∃ u, exec (.refusedAccess fn port a len w v t) s = .next u ∧
       u = { s.at t with regs := u.regs, hot := u.hot, out := .abort port fn :: s.out } ∧
       (∀ b, b ≠ rFLT_BADACC_ADDR → b ≠ rFLT_BADACC_INFO → u.reg b = s.reg b)) ∧
     exec (.registerWrite fn port a len v t) s = exec (.refusedAccess fn port a len true v t) s)

/-- A write of an RWL register while the configuration is locked is discarded, flagged and counted, and leaves everything else
alone (R9). GLB_CFG_LOCK: writing 1 sets it, and writing 0 changes nothing (R9). A high half latched by a read is released 1 µs
after it, and no other latch is (R6). -/
def Obligations.LockAndLatch : Prop :=
  (∀ (s : State) (port a t : Nat) (v : BitVec 64) (r : RegRow),
     s.ready = true → s.locked = true → a % 4 = 0 → inSiteWindow a = true → regAt a = some (r, a, false) → r.wide = false →
     r.rw = 0 → r.w1c = 0 → r.rwl ≠ 0 → r.site = true →
     exec (.registerWrite 0 port a 4 v t) s = .next (s.at t).lockViol ∧
     exec .loopDisable s = .next s.lockViol) ∧
  ((∀ (s : State) (w : BitVec 32), Good s → s.ready = true → w.toNat % 2 = 1 →
     Completes (.glbCfgLock w) s (fun t => t.locked = true ∧
       (∀ b, b ≠ rGLB_CFG_LOCK → b ≠ rGLB_STATUS → t.reg b = s.reg b) ∧ t = { s with regs := t.regs })) ∧
   (∀ (s : State) (w : BitVec 32), w.toNat % 2 = 0 → exec (.glbCfgLock w) s = .next s) ∧
   (∀ (s : State) (t : Nat), Completes (.highHalfLatchExpiry t) s (fun u =>
     (∀ e, e ∈ u.latch ↔ e ∈ s.latch ∧ max s.time t < e.2.2) ∧ u = { s.at t with latch := u.latch })))

/-- A tick edge of a panel in operation: the tick number is 0 at the first edge and one more at every other (R116), the edge
stands at the instant that the generator gives it (R119), and panel time has reached it. -/
def Obligations.TickEdgeCounts : Prop :=
  ∀ (s : State) (a : EdgeArg), s.phase = 6 → Completes (.tickEdge a) s (fun t =>
    t.tick.started = true ∧ t.tick.number = (if s.tick.started then s.tick.number + 1 else 0) ∧
    t.tick.last = (if s.tick.started then s.nextEdge.1 else a.first) ∧ t.tick.last ≤ t.time)

/-- An edge at J9 (R120, R475): a pulse under 100 ns, and an edge within 1 µs of the one before, change nothing but panel time; while
J9 is not the active source, or the generator has not started, an edge is counted towards its qualification and nothing else
changes; and one of the active source, late and within the window, is the measured error of the tick. -/
def Obligations.TickInEdge : Prop :=
  ∀ (s : State) (t l high : Nat), Good s → s.tick.lastJ9 = some l →
    (t < l + 1000 ∨ high < 100 → exec (.tickInEdge high t) s = .next (s.at t)) ∧
    (100 ≤ high → l + 1000 ≤ t → s.tick.active ≠ 0 ∨ s.tick.started = false →
      exec (.tickInEdge high t) s = .next ((s.at t).updTick (fun k => { k with
        lastJ9 := some t,
        qualJ9 := if ((t : Int) - (l + s.periodNs : Nat)).natAbs ≤ s.tolNs then min 15 (k.qualJ9 + 1) else 0 }))) ∧
    (∀ d : Nat, 100 ≤ high → l + 1000 ≤ t → s.tick.active = 0 → s.tick.started = true → t = s.tick.last + d → 2 * d ≤ s.periodNs →
      d ≤ s.tolNs → s.tick.err = none → d < 2 ^ 31 →
      Completes (.tickInEdge high t) s (fun u => u.tick.err = some (d : Int) ∧ u.tick.lastJ9 = some t ∧
        u.reg rSTRK_LAST_ERR = BitVec.ofNat 64 d ∧ (∀ b, b ≠ rSTRK_LAST_ERR → b ≠ rSTRK_STATUS → u.reg b = s.reg b) ∧
        u = { s.at t with tick := u.tick, regs := u.regs, hot := u.hot }))

/-- INGEST and DEMAND (R127, R277): until 8 µs before INGEST closes the entry at the head of a queue is admitted, and from then on
none; in those 8 µs the strokes that have begun are formed, the entries that admission has left are counted in STRK_CNT_DEFER,
and the partitions are planned and their pace announced. The phases of a stroke open at their times from the tick edge (Table
05.3, R129, R146): RUN opens for a formed stroke, and an unformed one is idle in it; EMIT emits the stroke; a stroke that is
not finished at GUARD is judged. A site passes its end marker once its descriptor streams have done their work (R144). -/
def Obligations.StrokePhases : Prop :=
  (∀ (s : State) (t n : Nat), s.inp.failing = false →
     (∀ q (e : BitVec 512), (s.at t).admissible n q = true →
       exec (.ingestAdmission n [(q, some e)] t) s = .next ((s.at t).admitOp n q e.toNat)) ∧
     (∀ q (e : Option (BitVec 512)), (s.at t).admitOver = true → exec (.ingestAdmission n [(q, e)] t) s = .next (s.at t)) ∧
     (∀ es, exec (.ingestAdmission n es t) s = .next ((s.at t).admitAll n es)) ∧
     ((s.at t).admitOver = true → (s.at t).sinceEdge < s.ingestNs → s.mirrored = false →
       ∀ (fetch : List (Nat × Option (List Nat))) (began : List Nat) (u : State),
       began = (List.range 16).filter (fun m => (s.part m).inStroke && (s.part m).phase == 0) →
       u = (began.filter (fun m => !(s.part m).formed)).foldl (fun (u : State) m => u.formPart m fetch) (s.at t) →
       exec (.demandFormation fetch t) s = .next ((List.range 16).foldl
         (fun (u : State) m => if u.held m then u.updPart m (fun p => { p with gateSet := 15 }) else u)
         (u.plan (began.filter (fun m => (u.part m).formed)) u.mirrored)).sendPace)) ∧
  (∀ (s : State) (n t : Nat), s.tick.started = true → s.tick.last ≤ s.time → s.time ≤ t →
     (t < s.tick.last + s.ingestNs → exec (.runOpen t) s = .next (s.at t)) ∧
     (t < s.tick.last + s.guardOpenNs → exec (.guardStart t) s = .next (s.at t)) ∧
     (∀ u v : State, u = (List.range 72).foldl (fun (u : State) p => if (u.pwr1 p).prev = (u.pwr1 p).entry then u else
         u.setPwr1 p { u.pwr1 p with prev := (u.pwr1 p).entry }) (s.at t) →
       v = (if u.pwr.k = u.pwr.kNext then u else { u with pwr := { u.pwr with k := u.pwr.kNext } }) →
       s.tick.last + s.ingestNs ≤ t → exec (.runOpen t) s = .next ((List.range 16).foldl (fun (u : State) m =>
         if (u.part m).inStroke && (u.part m).phase == 0 then
           if (u.part m).formed then u.openRun m
           else if u.mirrored && u.role == 2 then u else (((u.closeIngest m).idleStroke m).setGate m).openRun m
         else u) v)) ∧
     ((s.part n).inStroke = true → (s.part n).phase ≠ 0 → s.tick.last + s.runCloseNs ≤ t →
       exec (.emitOpen n t) s =
         .next (((s.at t).updPart n (fun p => { p with phase := if p.phase = 1 then 2 else p.phase })).emitStroke n)) ∧
     (s.tick.last + s.guardOpenNs ≤ t →
       exec (.guardStart t) s = .next ((List.range 16).foldl (fun (u : State) m =>
         if !(u.part m).inStroke || [0, 3, 6].contains (u.part m).phase then u
         else
           let v := u.updPart m (fun p => { p with phase := if p.phase = 4 then 6 else 3 })
           if (u.part m).finished then v else v.judge m) (s.at t)))) ∧
  (∀ (s : State) (site t : Nat), s.owner site < 16 → (s.part (s.owner site)).inStroke = true → (s.part (s.owner site)).phase ≠ 0 →
     (s.part (s.owner site)).issueFault = false → site ∉ (s.part (s.owner site)).done → (s.at t).siteReady (s.owner site) site = true →
     exec (.siteEndMarker site t) s =
       .next (let u := ((s.at t).updPart (s.owner site) (fun p => { p with done := p.done ++ [site] })).scaleUpdate site
         if u.sitesDone (s.owner site) then u.lastSite (s.owner site) else u))

/-- A descriptor stream (R150, R151, R152, R183): the next descriptor of the library's stream is fetched while the partition's RUN is
open, translated as the loader stores it, with what the issue checks find; one that failed them stops the issue of the
partition; one that waits for no seal, or whose wait is satisfied, begins to run; and a descriptor that has issued, whose rows
have all come back, counts, and signals its seal. -/
def Obligations.DescriptorFlow : Prop :=
  ∀ (s : State) (p st t : Nat), (∀ e ∈ s.sls.ports, e.2.stalled = none) →
    (∀ (d : BitVec 512) (off : Nat), (s.dstream p st).fetched = none → (s.part (s.owner p)).inStroke = true →
      (s.part (s.owner p)).phase ≠ 0 → (s.part (s.owner p)).issueFault = false →
      off = (s.streamOf (s.owner p) p st).1 → (s.streamOf (s.owner p) p st).2[(s.dstream p st).next]? = some d →
      dOpc (s.loadDesc d.toNat) ≠ 2 → dOpc (s.loadDesc d.toNat) ≠ 3 →
      exec (.descriptorFetch p st) s = .next (s.setDstream p st { s.dstream p st with
        next := (s.dstream p st).next + 1,
        fetched := some (BitVec.ofNat 1024 (s.loadDesc d.toNat), off + 64 * (s.dstream p st).next),
        failed := (s.issueCheck (s.owner p) p st (s.loadDesc d.toNat) 0).map
          (fun f => issueDetail st (off + 64 * (s.dstream p st).next) (s.loadDesc d.toNat) f),
        thrNext := 0 })) ∧
    (∀ (d : BitVec 1024) (off : Nat), (s.dstream p st).fetched = some (d, off) → (s.part (s.owner p)).issueFault = false →
      (s.at t).streamOpen (s.owner p) p st = true →
      ((s.dstream p st).running = none ∨ (s.dstream p st).issued = true) → (∀ k ∈ s.rcd.halted, k / 8 ≠ p) →
      ((s.dstream p st).failed = none →
        ((s.dstream p st).wait = 0 ∧ dWait d.toNat = 0x3FF ∧ (dOpc d.toNat ≠ 2 ∨ dWait (d.toNat / 2 ^ 512) = 0x3FF)) ∨
          ((s.dstream p st).wait = 2 ∧ (dOpc d.toNat ≠ 2 ∨ (s.dstream p st).half2 = true ∨ dWait (d.toNat / 2 ^ 512) = 0x3FF)) →
        exec (.descriptorIssue p st t) s = .next ((s.at t).setDstream p st { s.dstream p st with
          fetched := none, running := some d, issued := false, wait := 0, half2 := false, thr := (s.dstream p st).thrNext })) ∧
      (∀ f, (s.dstream p st).failed = some f →
        exec (.descriptorIssue p st t) s = .next ((s.at t).issueFault (s.owner p) p f))) ∧
    (∀ (d : BitVec 1024) (l : List (BitVec 1024)), (s.dstream p st).signal = d :: l → dOpc d.toNat ≠ 2 →
      (∀ o ∈ s.fab.flight, o.src = p → o.dstream = st → o.kind = 1 → (s.dstream p st).count < o.ord) →
      (dSig d.toNat = 0x3FF → exec (.descriptorSignal p st) s =
        .next (s.setDstream p st { s.dstream p st with signal := l, count := (s.dstream p st).count + 1 })) ∧
      (dSig d.toNat ≠ 0x3FF → exec (.descriptorSignal p st) s =
        .next ((s.setDstream p st { s.dstream p st with signal := l, count := (s.dstream p st).count + 1 }).sealIssue (s.owner p) p
          (streamMaster st) ((s.sealList (s.owner p) p).getD (dSig d.toNat) 0).toNat st (dTag d.toNat)).sealNext))

/-- A running descriptor that has not run yet does its work, is issued and waits to be signalled, whichever opcode it has (Table
06.1); a matrix product whose tile must claim a set that is taken stalls its combs (R38); one of another opcode is left alone. -/
def Obligations.DescriptorsRun : Prop :=
  ∀ (s : State) (p st : Nat) (d : BitVec 1024) (e : MemErr),
    (s.dstream p st).running = some d → (s.dstream p st).issued = false →
    (dOpc d.toNat = 0 → exec (.nop p st) s = .next (s.setDstream p st { s.dstream p st with
      issued := true, signal := (s.dstream p st).signal ++ [d] })) ∧
    (dOpc d.toNat = 1 →
      (s.blockedCombs p (d.toNat % 2 ^ 512) = [] → exec (.matmul p st e) s =
        .next (((s.descErrs (s.owner p) p (d.toNat % 2 ^ 512) e).runProduct (s.owner p) p st (d.toNat % 2 ^ 512) none).issuedNow p st
          d.toNat)) ∧
      (s.blockedCombs p (d.toNat % 2 ^ 512) ≠ [] → exec (.matmul p st e) s =
        .next ((s.blockedCombs p (d.toNat % 2 ^ 512)).foldl (fun (u : State) pc => u.stallSet p pc) s))) ∧
    (dOpc d.toNat = 2 → s.blockedCombs p (d.toNat % 2 ^ 512) = [] → s.blockedCombs p (d.toNat / 2 ^ 512) = [] →
      exec (.matmulFused p st e) s =
        .next (((s.descErrs (s.owner p) p (d.toNat % 2 ^ 512) e).runFused (s.owner p) p st (d.toNat % 2 ^ 512)
          (d.toNat / 2 ^ 512)).issuedNow p st d.toNat)) ∧
    (dOpc d.toNat = 3 → s.blockedCombs p (d.toNat % 2 ^ 512) = [] → exec (.threshold p st e) s =
      .next (((s.descErrs (s.owner p) p (d.toNat % 2 ^ 512) e).runProduct (s.owner p) p st (d.toNat % 2 ^ 512)
        (some (s.dstream p st).thr.toNat)).issuedNow p st d.toNat)) ∧
    (dOpc d.toNat = 7 → exec (.rowfn p st e) s =
      .next (((s.descErrs (s.owner p) p (d.toNat % 2 ^ 512) e).runRowfn (s.owner p) p st (d.toNat % 2 ^ 512)).issuedNow p st d.toNat)) ∧
    (st = 5 →
      (dOpc d.toNat = 4 → exec (.gather p e) s =
        .next (((s.descErrs (s.owner p) p (d.toNat % 2 ^ 512) e).runGather (s.owner p) p (d.toNat % 2 ^ 512)).issuedNow p 5 d.toNat)) ∧
      (dOpc d.toNat = 5 → exec (.scatter p e) s =
        .next (((s.descErrs (s.owner p) p (d.toNat % 2 ^ 512) e).runScatter (s.owner p) p (d.toNat % 2 ^ 512)).issuedNow p 5 d.toNat)) ∧
      (dOpc d.toNat = 6 → exec (.copy p e) s =
        .next (((s.descErrs (s.owner p) p (d.toNat % 2 ^ 512) e).runCopy (s.owner p) p (d.toNat % 2 ^ 512)).issuedNow p 5 d.toNat))) ∧
    (st = 4 →
      (dOpc d.toNat = 8 → exec (.kvAppend p e) s =
        .next (((s.descErrs (s.owner p) p (d.toNat % 2 ^ 512) e).runKvAppend (s.owner p) p (d.toNat % 2 ^ 512)).issuedNow p 4 d.toNat)) ∧
      (dOpc d.toNat = 9 → exec (.kvAttend p e) s =
        .next (((s.descErrs (s.owner p) p (d.toNat % 2 ^ 512) e).runKvAttend (s.owner p) p (d.toNat % 2 ^ 512)).issuedNow p 4 d.toNat)) ∧
      (dOpc d.toNat = 10 → exec (.kvSample p e) s =
        .next (((s.descErrs (s.owner p) p (d.toNat % 2 ^ 512) e).runKvSample (s.owner p) p (d.toNat % 2 ^ 512)).issuedNow p 4 d.toNat))) ∧
    (dOpc d.toNat ≠ 0 → exec (.nop p st) s = .next s)

/-- A vector whose header and planes pass the checks of R37 enters the tile that it opens, or the open tile; while the comb's set
is taken it stalls, is counted and ends the delay of a W4S vector (R38, R92); a bad one raises BAD_VECTOR 0x30C6. A vector that
the ingress refuses raises it too; what the ingress forms goes out as a vector. A tile goes from filling to draining (or, with a
threshold, to its mask), is drained by the requantizer, or by the exact port when it is held (R38, R39, R53, R54, R68, R80). -/
def Obligations.VectorsAndTiles : Prop :=
  (∀ (s : State) (a : TileArgs) (h : BitVec 256) (planes : List (BitVec 512)) (late delayed : Bool),
     (∀ f, (vhKind h.toNat ≠ 0 ∧ f = 8) ∨
         (vhKind h.toNat = 0 ∧ hdrFail h.toNat (planes.map (·.toNat)) (planes.length * (vhElems h.toNat / 8)) = some f) →
       exec (.vectorConsume a h planes late delayed) s =
         .next (s.raise 0x30C6 (s.owner a.site) 0x3FFF a.site (wf h.toNat 0 0 32) (2 ^ 4 * f))) ∧
     (vhKind h.toNat = 0 → hdrFail h.toNat (planes.map (·.toNat)) (planes.length * (vhElems h.toNat / 8)) = none →
       (a.first = true → a.tmode = 0 → s.claimable (s.pcomb a.site a.comb) a.wfmt = true →
         exec (.vectorConsume a h planes late delayed) s =
           .next (s.consume a h.toNat (late || vhLate h.toNat) planes none delayed)) ∧
       (a.first = true → a.tmode ≠ 1 → s.claimable (s.pcomb a.site a.comb) a.wfmt = false →
         exec (.vectorConsume a h planes late delayed) s =
           .next ((({ s with comb := { s.comb with tailW4S := mset false s.comb.tailW4S (s.pcomb a.site a.comb) false } } : State).bump
             (siteReg a.site rCOMB_CNT_DSTALL)).bump (siteReg a.site rCOMB_CNT_HOLD))) ∧
       (a.first = false → (s.accSet (s.pcomb a.site a.comb) (s.curSet (s.pcomb a.site a.comb) a.wfmt)).st = .filling →
         exec (.vectorConsume a h planes late delayed) s =
           .next (s.consume a h.toNat (late || vhLate h.toNat) planes none delayed))) ∧
     (∀ (slot chan0 comb layer tag : Nat) (xs : List (BitVec 16)),
       (∀ f, ingressFail h.toNat (32 * ceilDiv (2 * xs.length) 32) = some f →
         exec (.ingressBlock a.site slot chan0 comb layer tag h late xs) s =
           .next (s.raise 0x30C6 (s.owner a.site) 0x3FFF a.site (wf h.toNat 0 0 32) (5 + 2 ^ 4 * f))) ∧
       (ingressFail h.toNat (32 * ceilDiv (2 * xs.length) 32) = none →
         Completes (.ingressBlock a.site slot chan0 comb layer tag h late xs) s (fun t => ∃ r u,
           s.ingress a.site slot chan0 h.toNat (s.gcomb a.site comb) layer tag (vhStream h.toNat) (late || vhLate h.toNat) xs = (r, u) ∧
           t = u.emit (.vector a.site r.hdr (r.planes.map (·.toNat))))))) ∧
  (∀ (s : State) (a : TileArgs),
     ((s.accSet (s.pcomb a.site a.comb) (s.curSet (s.pcomb a.site a.comb) a.wfmt)).st = .filling → a.thr = none →
       exec (.tileFillEnd a) s = .next (s.setTile (s.pcomb a.site a.comb) (s.curSet (s.pcomb a.site a.comb) a.wfmt) a.wfmt
         { s.tile (s.pcomb a.site a.comb) (s.curSet (s.pcomb a.site a.comb) a.wfmt) a.wfmt with
           m := { (s.tile (s.pcomb a.site a.comb) (s.curSet (s.pcomb a.site a.comb) a.wfmt) a.wfmt).m with st := .draining } })) ∧
     (∀ i, a.wfmt ≠ 0 → s.findSet (s.pcomb a.site a.comb) (fun x => decide (x.st = .draining) && x.fbGain.isNone) = some i →
       exec (.drainComplete a) s = .next (s.drainTile a i)) ∧
     (∀ i g, a.wfmt ≠ 0 → s.findSet (s.pcomb a.site a.comb) (fun x => decide (x.st = .draining) && x.fbGain.isSome) = some i →
       (s.accSet (s.pcomb a.site a.comb) i).fbGain = some g → exec (.fallbackComplete a) s = .next (s.fallbackTile a i g)) ∧
     (∀ i, a.wfmt ≠ 0 → s.findSet (s.pcomb a.site a.comb) (fun x => decide (x.st = .held)) = some i →
       exec (.exactDrainComplete a) s = .next (s.exactDrain a i)))

/-- Additions of accumulator-domain values (R43, Table 02.10): a finite sum is exact while it stays in range, and becomes +INF or
-INF outside it; POISON absorbs; a special value absorbs a finite one; opposite infinities give POISON. Subtraction adds the
negated operand, and a special value negates to itself, with +INF and -INF exchanged. -/
def Obligations.AccumulatorSums : Prop :=
  ∀ (x y : Int) (v : AccVal),
    (-(2 : Int) ^ 31 + 2 ≤ x + y → x + y ≤ 2 ^ 31 - 2 → accAdd (.fin x) (.fin y) = .fin (x + y)) ∧
    (2 ^ 31 - 2 < x + y → accAdd (.fin x) (.fin y) = .pinf) ∧ (x + y < -(2 : Int) ^ 31 + 2 → accAdd (.fin x) (.fin y) = .ninf) ∧
    accAdd .poison v = .poison ∧ accAdd v .poison = .poison ∧
    accAdd .pinf (.fin x) = .pinf ∧ accAdd (.fin x) .pinf = .pinf ∧ accAdd .ninf (.fin x) = .ninf ∧ accAdd (.fin x) .ninf = .ninf ∧
    accAdd .pinf .pinf = .pinf ∧ accAdd .ninf .ninf = .ninf ∧ accAdd .pinf .ninf = .poison ∧ accAdd .ninf .pinf = .poison ∧
    (-(2 : Int) ^ 31 + 2 ≤ x - y → x - y ≤ 2 ^ 31 - 2 → accAdd (.fin x) (accNeg (.fin y)) = .fin (x - y)) ∧
    accNeg .pinf = .ninf ∧ accNeg .ninf = .pinf ∧ accNeg .poison = .poison

/-- The patterns of an accumulator (R42): a finite value of at most 2^31 - 2 in magnitude, +INF, -INF and POISON each have the
pattern that reads back as them, the three special ones those of the manual, and every 32-bit pattern has one meaning, whose
pattern it is. -/
def Obligations.AccumulatorPatterns : Prop :=
  (∀ x : Int, -(2 : Int) ^ 31 + 2 ≤ x → x ≤ 2 ^ 31 - 2 → accDec (accEnc (.fin x)) = .fin x) ∧
  (accEnc .pinf = 0x7FFFFFFF#32 ∧ accEnc .ninf = 0x80000000#32 ∧ accEnc .poison = 0x80000001#32) ∧
  (∀ v : AccVal, (∀ x, v ≠ .fin x) → accDec (accEnc v) = v) ∧
  (∀ w : BitVec 32, accEnc (accDec w) = w ∧ ∀ x, accDec w = .fin x → -(2 : Int) ^ 31 + 2 ≤ x ∧ x ≤ 2 ^ 31 - 2)

/-- Writes of the comb space (R27) and the check of a header that ends (R29): a write that touches a reserved address, or by a
master that is no DMA engine, or in the wrong mode, is denied; a DMA engine in load mode writes the live slot of a site that is
being loaded, one in shadow mode the open shadow slot; what runs past the window of a bank is written to the next one. A
configuration record write (R378 to R380) takes effect only while its partition loads, and only within its table; outside the
load it is a denied write of the table; one for a site of the partition writes its records there, and their clamps are
reported. -/
def Obligations.CombSpaceWrites : Prop :=
  (∀ (s : State) (part master mode len : Nat) (a : BitVec 48) (data : BitVec 512),
     (s.rangeBad a.toNat len false = true → exec (.space1Write part master mode a len data) s =
       .next (s.accessFault 0x31C1 part (addrSite a.toNat) a.toNat master)) ∧
     (s.rangeBad a.toNat len false = false → len ≤ 2 ^ 13 - bits a.toNat 0 13 →
       (master < 0x10 ∨ (0x13 < master ∧ master ≠ 0x16) ∨ (mode = 1 ∧ bit a.toNat 35 = true) ∨ (mode = 2 ∧ bit a.toNat 35 = false) →
         exec (.space1Write part master mode a len data) s =
           .next (s.accessFault 0x3044 part (addrSite a.toNat) a.toNat master)) ∧
       (0x10 ≤ master → master ≤ 0x13 → mode = 1 → bit a.toNat 35 = false → s.loadingSite (addrSite a.toNat) = true →
         exec (.space1Write part master mode a len data) s =
           .next (s.slotWrite (s.pcomb (addrSite a.toNat) (bits a.toNat 21 13))
             (s.liveSlot (s.pcomb (addrSite a.toNat) (bits a.toNat 21 13)) (bits a.toNat 13 8)) (bits a.toNat 36 2)
             (bits a.toNat 0 13) len data.toNat)) ∧
       (∀ i, 0x10 ≤ master → master ≤ 0x13 → mode = 2 → bit a.toNat 35 = true →
         s.openShadow (s.pcomb (addrSite a.toNat) (bits a.toNat 21 13)) (bits a.toNat 13 8) = some i →
         exec (.space1Write part master mode a len data) s =
           .next (s.slotWrite (s.pcomb (addrSite a.toNat) (bits a.toNat 21 13))
             (s.shadow (s.pcomb (addrSite a.toNat) (bits a.toNat 21 13)) i).slot (bits a.toNat 36 2) (bits a.toNat 0 13) len
             data.toNat))) ∧
     (∀ n, s.rangeBad a.toNat len false = false → n = 2 ^ 13 - bits a.toNat 0 13 → n < len →
       exec (.space1Write part master mode a len data) s =
         .next ((s.bankWrite part master mode a.toNat n data.toNat).bankWrite part master mode (a.toNat + n) (len - n)
           (data.toNat / 2 ^ (8 * n)))) ∧
     (∀ site comb bank, exec (.bankHeaderCheckComplete site comb bank false) s =
       .next (s.headerCheck site comb bank false (s.liveSlot (s.pcomb site comb) bank)) ∧
       (∀ i, s.openShadow (s.pcomb site comb) bank = some i → exec (.bankHeaderCheckComplete site comb bank true) s =
         .next (s.headerCheck site comb bank true (s.shadow (s.pcomb site comb) i).slot)))) ∧
  (∀ (s : State) (n l table first : Nat) (es : List (List (BitVec 32))),
     ((s.part n).st ≠ .loading → exec (.configRecordWrite n l table first es) s = .next (s.tableDenied n l table first)) ∧
     ((s.part n).st = .loading → recCount table < first + es.length → exec (.configRecordWrite n l table first es) s = .next s) ∧
     ((s.part n).st = .loading → first + es.length ≤ recCount table → table ≠ 7 → l ≠ 0x7F → bit (s.part n).g.sites l = true →
       exec (.configRecordWrite n l table first es) s =
         .next ((s.writeRecords n (s.phys l) table first es).1.clamped 6 (s.writeRecords n (s.phys l) table first es).2)))

/-- The shadow commands (R56, R57): OPEN takes a free slot that is not retired; ARM makes the open slot armed, or complete-armed,
from the next stroke on; CANCEL frees it; each names its slot in COMB_SHADOW_STAT. An OPEN of a bank that is open is refused
with result 1, ARM and CANCEL of one that is not with result 2. Commits of the staging buffer (R72 to R75): a commit is held
for the next stroke at which it may take effect, a second one is refused with result 1; a cancel drops it, or is refused with
result 2; the buffer is written while no commit waits, and a write while one waits only sets bit 31 of RQ_STAGE_STAT. -/
def Obligations.ShadowAndStagingCommands : Prop :=
  (∀ (s : State) (p k bank : Nat),
     (s.openShadow (s.pcomb p k) bank = none → (s.shadow (s.pcomb p k) 0).st = .free →
       (s.slotHdr (slotKey (s.pcomb p k) (s.shadow (s.pcomb p k) 0).slot)).retired = false →
       exec (.shadowOpen p k bank) s =
         .next (((s.setShadow (s.pcomb p k) 0 { s.shadow (s.pcomb p k) 0 with
           st := .opened, bank := bank, rows := 0, metaW := 0, eligible := 0, linked := false }).clearBad p
             (slotKey (s.pcomb p k) (s.shadow (s.pcomb p k) 0).slot)).shadowOk p k bank (s.pcomb p k) 0)) ∧
     (∀ i, s.openShadow (s.pcomb p k) bank = some i →
       exec (.shadowOpen p k bank) s =
         .next ((s.shadowStat p k bank 1).raise 0x0046 (s.owner p) 0x3FFF p (k + bank * 2 ^ 13) 0) ∧
       ((s.shadow (s.pcomb p k) i).st = .opened →
         exec (.shadowArm p k bank) s = .next ((s.setShadow (s.pcomb p k) i { s.shadow (s.pcomb p k) i with
           st := if s.shadowComplete (s.pcomb p k) i then .completeArmed else .armed,
           eligible := s.nextStroke (s.owner p) }).shadowOk p k bank (s.pcomb p k) i)) ∧
       ((s.shadow (s.pcomb p k) i).linked = false →
         exec (.shadowCancel p k bank) s = .next ((s.setShadow (s.pcomb p k) i
           { Shadow.init (i % 2) with slot := (s.shadow (s.pcomb p k) i).slot }).shadowOk p k bank (s.pcomb p k) i))) ∧
     (s.openShadow (s.pcomb p k) bank = none →
       exec (.shadowArm p k bank) s = .next (s.shadowStat p k bank 2) ∧
       exec (.shadowCancel p k bank) s = .next (s.shadowStat p k bank 2))) ∧
  (∀ (s : State) (p k set : Nat),
     (mget 0 s.rq.pend (s.pcomb p k) = 0 →
       exec (.rqCommit p k set) s = .next (({ s with rq := { s.rq with
         pend := mset 0 s.rq.pend (s.pcomb p k) (set + 1 + 32 * s.nextStroke (s.owner p)) } } : State).stageStat p k set 0) ∧
       exec (.rqCancel p k set) s = .next (s.stageStat p k set 2) ∧
       (∀ (w : Nat) (v : BitVec 32), w < 576 → exec (.stagingWrite p k w v) s =
         .next { s with rq := { s.rq with stage := mset 0 s.rq.stage (stageKey (s.pcomb p k) w) v } })) ∧
     (mget 0 s.rq.pend (s.pcomb p k) ≠ 0 →
       exec (.rqCommit p k set) s = .next (s.stageStat p k set 1) ∧
       exec (.rqCancel p k set) s = .next (({ s with rq := { s.rq with
         pend := mset 0 s.rq.pend (s.pcomb p k) 0 } } : State).stageStat p k set 0) ∧
       (∀ (w : Nat) (v : BitVec 32), exec (.stagingWrite p k w v) s = .next (s.sticky (siteReg p rRQ_STAGE_STAT) 31))))

/-- Packing and merging (R94, R97, R109, R110): an entry that passes its checks is held by the packer until its tile is complete,
one that does not raises PACK_ERR 0x30C5 and is dropped; its tile is packed into the slot that the entry names, or denied where
that slot may no longer be written; an arrival that its context expects is written to its staging slot and counted; and a
context whose arrivals are all there writes its result. -/
def Obligations.PackAndMerge : Prop :=
  ∀ (s : State) (p : Nat),
    (∀ e : BitVec 256, s.packFail p e.toNat = none → exec (.packEntry p e) s = .next { s with sparse := { s.sparse with
      packer := mset none s.sparse.packer p (some e) } }) ∧
    (∀ (e : BitVec 256) (f : Nat), s.packFail p e.toNat = some f → exec (.packEntry p e) s =
      .next (({ s with sparse := { s.sparse with packer := mset none s.sparse.packer p none } } : State).raise 0x30C5 (s.owner p) 0x3FFF
        p (peComb e.toNat + peBank e.toNat * 2 ^ 13 + peMode e.toNat * 2 ^ 21) (peSeq e.toNat + f * 2 ^ 16))) ∧
    (∀ (e : BitVec 256) (rows : List (BitVec 256)) (zp : List (BitVec 8)) (u : State), mget none s.sparse.packer p = some e →
      u = { s with sparse := { s.sparse with packer := mset none s.sparse.packer p none } } →
      (∀ a b, s.packSlot p (s.pcomb p (peComb e.toNat)) (peBank e.toNat) (peShadow e.toNat) = some a →
        (if peMode e.toNat = 2 then s.packSlot p (s.pcomb p (peComb e.toNat)) (peBank e.toNat + 1) (peShadow e.toNat) else some 0) =
          some b →
        exec (.packTileComplete p rows zp) s = .next (u.packTile p e.toNat a b rows (zp.map (fun b => b.toNat)))) ∧
      (s.packSlot p (s.pcomb p (peComb e.toNat)) (peBank e.toNat) (peShadow e.toNat) = none →
        exec (.packTileComplete p rows zp) s = .next (u.accessFault 0x3044 (s.owner p) p
          (mkAddr 1 p (b2n (peShadow e.toNat) * 2 ^ 35 + peComb e.toNat * 2 ^ 21 + peBank e.toNat * 2 ^ 13)) 0x10))) ∧
    (∀ (h : BitVec 256) (xs : List (BitVec 32)) (late : Bool),
      hdrFail h.toNat [] (32 * ceilDiv (4 * xs.length) 32) = none → vhMrg h.toNat = true →
      (s.mergeCtx p (vhMctx h.toNat)).opened = true → (s.mergeCtx p (vhMctx h.toNat)).stream = vhStream h.toNat →
      (s.mergeCtx p (vhMctx h.toNat)).token = vhToken h.toNat →
      bit (s.mergeCtx p (vhMctx h.toNat)).expect.toNat (vhRank h.toNat) = true →
      bit (s.mergeCtx p (vhMctx h.toNat)).arrived.toNat (vhRank h.toNat) = false →
      exec (.mergeArrival p h xs late) s =
        .next (((s.writeGran p ((s.mergeCtx p (vhMctx h.toNat)).stageOf (vhRank h.toNat) / 64)
            (h.toNat + 2 ^ 256 * (packNat 32 (xs.map (·.toNat)) % 2 ^ (512 * ((s.mergeCtx p (vhMctx h.toNat)).nval + 1))))
            ((s.mergeCtx p (vhMctx h.toNat)).nval + 2)).setMergeCtx p (vhMctx h.toNat)
          { s.mergeCtx p (vhMctx h.toNat) with
            arrived := (s.mergeCtx p (vhMctx h.toNat)).arrived ||| BitVec.ofNat 256 (2 ^ vhRank h.toNat),
            latem := (s.mergeCtx p (vhMctx h.toNat)).latem || vhLate h.toNat || late }).bump (siteReg p rSPARSE_CNT_MARR))) ∧
    (∀ m, (s.mergeCtx p m).opened = true → (s.mergeCtx p m).arrived = (s.mergeCtx p m).expect →
      exec (.mergeResultWrite p m) s = .next (s.mergeFinish p m false))

/-- A command word that the command registers do not take is reported in the status register of its block with the result that the
block has for it, sets the register's sticky error bit, and changes nothing else (R60, R86, R273, R340, R389). -/
def Obligations.InvalidCommandsAreReported : Prop :=
  ∀ (s : State) (w : BitVec 32) (p port : Nat), Good s → p < 72 →
    (∀ (c : Instr) (r res : Nat), (c, r, res) ∈
        [(.shadowCmdInvalid p w, siteReg p rCOMB_SHADOW_STAT, 3), (.rqStageCmdInvalid p w, siteReg p rRQ_STAGE_STAT, 3)] →
      Completes c s (fun t => t.fld r 24 3 = res ∧ t.flag r 30 = true ∧ (∀ b, b ≠ r → t.reg b = s.reg b) ∧
        t = { s with regs := t.regs, hot := t.hot })) ∧
    (bits w.toNat 24 4 = 0 →
      Completes (.domCmdInvalid w) s (fun t => t.fld rDOM_CMD_STAT 24 3 = 1 ∧ t.flag rDOM_CMD_STAT 31 = true ∧
        (∀ b, b ≠ rDOM_CMD_STAT → t.reg b = s.reg b) ∧ t = { s with regs := t.regs, hot := t.hot })) ∧
    (bits w.toNat 20 4 = 0 → s.ready = true →
      Completes (.partCmdInvalid w) s (fun t => t.fld rPART_CMD_STAT 24 3 = 7 ∧ t.flag rPART_CMD_STAT 31 = true ∧
        (∀ b, b ≠ rPART_CMD_STAT → t.reg b = s.reg b) ∧ t = { s with regs := t.regs, hot := t.hot })) ∧
    (bits w.toNat 24 4 = 0 → s.secOpen port = true →
      Completes (.secBootCmdInvalid w port) s (fun t => t.fld rSEC_BOOT_STAT 27 3 = 2 ∧ t.flag rSEC_BOOT_STAT 31 = true ∧
        (∀ b, b ≠ rSEC_BOOT_STAT → t.reg b = s.reg b) ∧ t = { s with regs := t.regs, hot := t.hot })) ∧
    (s.secOpen port = false → exec (.secBootCmdInvalid w port) s = .next (s.sticky rSEC_BOOT_STAT 31))

/-- A packet that arrives in its turn (R226 to R232) is counted in FAB_CNT_RX. A posted write that may land is written, or its
arrival enters its merge context, and its acknowledgement is held; a read request is answered with the granules it asks for;
one that may not land is answered with its reason; a packet with a bad header is counted, flagged and answered with reason 4. A
packet that would overtake an earlier write of its stream waits. -/
def Obligations.PacketsLand : Prop :=
  ∀ (s u : State) (p : Nat) (h : BitVec 128) (xs : List (BitVec 512)),
    (u = s.bump (siteReg p rFAB_CNT_RX) → s.overtakes p h.toNat = false →
      (pkBad h.toNat xs.length = false → pkType h.toNat = 0 → u.landFail p h.toNat true = none →
        (isArrival (xs.headD 0).toNat = false → exec (.pwriteLand p h xs false false) s =
          .next (((u.judged p h.toNat false).writeGran p (pkOfs h.toNat) (packNat 512 (xs.map BitVec.toNat)) xs.length).holdAck
            p h.toNat)) ∧
        (isArrival (xs.headD 0).toNat = true → hdrFail ((xs.headD 0).toNat % 2 ^ 256) []
            (if xs.length = ceilDiv (32 + paddedBytes ((xs.headD 0).toNat % 2 ^ 256)) 64 then paddedBytes ((xs.headD 0).toNat % 2 ^ 256)
              else 64 * xs.length) = none →
          exec (.pwriteLand p h xs false false) s =
            .next (((u.judged p h.toNat false).mergeArrive p ((xs.headD 0).toNat % 2 ^ 256)
              (packNat 512 (xs.map BitVec.toNat) / 2 ^ 256) false).holdAck p h.toNat))) ∧
      (∀ reason, pkBad h.toNat xs.length = false → pkType h.toNat = 0 → u.landFail p h.toNat true = some (some reason) →
        isArrival (xs.headD 0).toNat = false → exec (.pwriteLand p h xs false false) s =
          .next (((u.lateMark p (pkOfs h.toNat) (pkOfs h.toNat + pkLen h.toNat)).inboundDenied p h.toNat reason).lateReply p h.toNat
            reason)) ∧
      (pkBad h.toNat xs.length = true → pkType h.toNat ≠ 5 → exec (.pwriteLand p h xs false false) s =
        .next (((u.bump (siteReg p rFAB_CNT_BADHDR)).sticky (siteReg p rFAB_STAT) 3).lateReply p h.toNat 4)) ∧
      (pkBad h.toNat xs.length = false → pkType h.toNat = 5 → sealRsv (xs.headD 0).toNat = false →
        exec (.pwriteLand p h xs false false) s = .next (u.sealLand p (xs.headD 0).toNat))) ∧
    (∀ e, u = (s.memErrs (pkPart h.toNat) p (pkStream h.toNat) e).bump (siteReg p rFAB_CNT_RX) →
      (s.memErrs (pkPart h.toNat) p (pkStream h.toNat) e).overtakes p h.toNat = false →
      pkBad h.toNat 0 = false → pkType h.toNat = 1 → u.landFail p h.toNat false = none →
      (pkSpace h.toNat ≠ 2 →
        (∀ i, i < pkLen h.toNat + 1 → mget false u.spad.bad (spadKey p (pkOfs h.toNat + i)) = false) →
        Completes (.readReq p h e) s (fun t => ∀ late v,
          u.spadReadG (pkPart h.toNat) p (pkStream h.toNat) 8 (pkOfs h.toNat) (pkLen h.toNat + 1) = (late, v) → late = false →
          t = v.replyRead p h.toNat 0 (pkLen h.toNat)
            ((List.range (pkLen h.toNat + 1)).map (fun i => (v.granule p (pkOfs h.toNat + i)).toNat)))) ∧
      (pkSpace h.toNat = 2 → u.stackBad p (pkOfs h.toNat / 1024) (pkOfs h.toNat % 1024) (pkLen h.toNat + 1) = [] →
        exec (.readReq p h e) s = .next (u.replyRead p h.toNat 0 (pkLen h.toNat) ((List.range (pkLen h.toNat + 1)).map (fun i =>
          (u.hbmGran p (pkOfs h.toNat / 1024 + (pkOfs h.toNat % 1024 + i) / 1024) ((pkOfs h.toNat % 1024 + i) % 1024)).toNat))))) ∧
    (pkType h.toNat = 0 → s.overtakes p h.toNat = true → exec (.pwriteLand p h xs false false) s = .next s)

/-- The answers of a packet (R229, R231): a completion that comes in its turn, a land acknowledgement or a late error takes the
packets it names out of flight, with the rows stored or the value answered, nothing more, or the late error entered. Packets
that get no answer, and links (R217, R221, R227, R229): the fence gives up a packet that has left after FENCE_TMO microseconds
with reason 5, one that has not left and has no grant to wait for fails with reason 6; a gathered acknowledgement goes out after
256 ns; a link replays up to eight times in succession, counted, and then is down. -/
def Obligations.PacketsAreAnswered : Prop :=
  (∀ (s u : State) (p : Nat) (h : BitVec 128) (xs : List (BitVec 512)) (o : OutPkt), u = s.bump (siteReg p rFAB_CNT_RX) →
     (pkBad h.toNat xs.length = false → pkType h.toNat = 2 → s.inFlight p (pkSrc h.toNat) 1 (pkSeq h.toNat) = some o →
       (∀ x ∈ s.fab.flight.takeWhile (fun o => !(o.src == p && o.dst == pkSrc h.toNat && o.kind == 1 && o.seq == pkSeq h.toNat)),
         x.src = p → x.dst = pkSrc h.toNat → x.kind = 1 → x.sent = true → x.failed = true) →
       pkErr h.toNat = false →
       (o.dstream ≠ 6 → exec (.readCpl p h xs) s = .next (o.into.foldl (fun (v : State) e =>
         v.placeRow o.part p o.dstream o.tag o.slot (packNat 512 (xs.map BitVec.toNat)) xs.length e) (u.acked o))) ∧
       (o.dstream = 6 → exec (.readCpl p h xs) s = .next (o.into.foldl (fun (v : State) e =>
         v.emit (.value e.1 (bits (packNat 512 (xs.map BitVec.toNat)) (8 * (e.1 % 64)) (8 * e.2.1)))) (u.acked o)))) ∧
     (∀ kind rest, kind = (if pkSpace h.toNat = 4 then 2 else 0) → pkBad h.toNat 0 = false → pkType h.toNat = 3 → pkLen h.toNat = 0 →
       s.fab.flight.filter (fun o => o.src == p && o.dst == pkSrc h.toNat && o.kind == kind && o.sent && !o.failed) = o :: rest →
       (∀ x ∈ rest, x.seq ≠ pkSeq h.toNat) → (pkSeq h.toNat + 4096 - o.seq) % 4096 < 2048 →
       exec (.landAck p h) s = .next (u.acked o).freeHeld) ∧
     (pkBad h.toNat 0 = false → pkType h.toNat = 4 →
       s.fab.flight.find? (fun o => decide (o.src = p ∧ o.dst = pkSrc h.toNat ∧ o.kind ≤ 2 ∧ o.seq = pkSeq h.toNat ∧
         o.addr = mkAddr (pkSpace h.toNat) (pkSrc h.toNat) (64 * pkOfs h.toNat))) = some o →
       exec (.lateErr p h) s = .next (u.failPkt o (pkLen h.toNat)).freeHeld)) ∧
  (∀ (s : State) (p dst kind seq t : Nat) (o : OutPkt),
     (s.inFlight p dst kind seq = some o →
       (o.sent = false → (s.at t).grantsFor o.part o.kind o.src o.dst = [] →
         exec (.noSlot p dst kind seq t) s = .next ((s.at t).failPkt o 6).freeHeld) ∧
       (o.sent = true ∨ (s.at t).grantsFor o.part o.kind o.src o.dst ≠ [] → exec (.noSlot p dst kind seq t) s = .next (s.at t)) ∧
       (o.kind < 2 → o.sent = true → o.time + 1000 * s.fld (siteReg p rFAB_CFG) 0 8 ≤ t →
         exec (.fenceTimeout p dst kind seq t) s = .next (((s.at t).bump (siteReg p rFAB_CNT_TMO)).failPkt o 5).freeHeld) ∧
       (o.sent = false ∨ t < o.time + 1000 * s.fld (siteReg p rFAB_CFG) 0 8 →
         exec (.fenceTimeout p dst kind seq t) s = .next (s.at t))) ∧
     (∀ vc, 0 < (mget Gather.init s.fab.gather (seqKey p dst vc)).count →
       (mget Gather.init s.fab.gather (seqKey p dst vc)).since + 256 ≤ t →
       exec (.landAckGatherExpiry p dst vc t) s = .next ((s.at t).sendAck p dst vc)) ∧
     (∀ port far, mget false s.fab.down (p * 5 + port) = false →
       (mget 0 s.fab.replays (p * 5 + port) < 8 → exec (.linkReplay p port far false) s =
         .next (({ s with fab := { s.fab with
           replays := mset 0 s.fab.replays (p * 5 + port) (mget 0 s.fab.replays (p * 5 + port) + 1) } } : State).bump
             (siteReg p rFAB_CNT_RETRY))) ∧
       (8 ≤ mget 0 s.fab.replays (p * 5 + port) →
         exec (.linkReplay p port far false) s = .next (s.linkDown p port far))))

/-- Accesses of a core of a site or a hub (R236, R239, Table 06.8): one of its own scratchpad lands in it or is answered, and is
denied where its areas forbid it; one of another site's goes out as a posted write or a read; a write of the combs or the stack
is denied with fault 0x3044 or 0x318B; a reserved address raises 0x31C1. -/
def Obligations.SiteCoreAccesses : Prop :=
  ∀ (s u : State) (p core pn part len m : Nat) (a : BitVec 48) (d : BitVec 512) (e : MemErr),
    part = (if isHub p then pn else s.owner p) → m = coreMaster p core → u = s.memErrs part p 0x3FFF e →
    (u.rangeBad a.toNat len true = false → addrSpace a.toNat = 0 →
      (addrSite a.toNat = p →
        (u.areaFail p m (64 * (addrOfs a.toNat / 64)) false true (ceilDiv (addrOfs a.toNat % 64 + len) 64) = none →
          exec (.siteCoreAccess p core pn true a len d e) s =
            .next (u.setSpadBytes p (addrOfs a.toNat) len (d.toNat % 2 ^ (8 * len)))) ∧
        (∀ f, u.areaFail p m (64 * (addrOfs a.toNat / 64)) false true (ceilDiv (addrOfs a.toNat % 64 + len) 64) = some f →
          exec (.siteCoreAccess p core pn true a len d e) s =
            .next (((u.sticky (siteReg p rSPAD_STAT) 1).raise 0x3204 part 0x3FFF p (addrOfs a.toNat) (m + 2 ^ 8)).emit
              (.coreFault p core))) ∧
        (u.areaFail p m (64 * (addrOfs a.toNat / 64)) true false (ceilDiv (addrOfs a.toNat % 64 + len) 64) = none →
          (∀ i, i < ceilDiv (addrOfs a.toNat % 64 + len) 64 →
            mget false u.spad.bad (spadKey p (addrOfs a.toNat / 64 + i)) = false) →
          Completes (.siteCoreAccess p core pn false a len d e) s (fun t => ∃ v : State,
            v = (u.spadReadG part p 0x3FFF m (addrOfs a.toNat / 64) (ceilDiv (addrOfs a.toNat % 64 + len) 64)).2 ∧
            t = v.emit (.value a.toNat (v.spadBytes p (addrOfs a.toNat) len))))) ∧
      (addrSite a.toNat ≠ p →
        (len = 64 → a.toNat % 64 = 0 → exec (.siteCoreAccess p core pn true a len d e) s =
          .next (({ u with free := u.free + 1 } : State).sendPkt 0 part 0 p (addrSite a.toNat) 0 (addrOfs a.toNat / 64) 0 0 0 0x3FFF 6 []
            [d.toNat])) ∧
        exec (.siteCoreAccess p core pn false a len d e) s =
          .next (u.sendPkt 1 part 1 p (addrSite a.toNat) (ceilDiv (a.toNat % 64 + len) 64 - 1) (addrOfs a.toNat / 64) 0 0 0 0x3FFF 6
            [(a.toNat, len, core)] []))) ∧
    (u.rangeBad a.toNat len true = false →
      (addrSpace a.toNat = 1 → exec (.siteCoreAccess p core pn true a len d e) s =
        .next ((u.accessFault 0x3044 part p a.toNat m).emit (.coreFault p core))) ∧
      (addrSpace a.toNat = 2 → exec (.siteCoreAccess p core pn true a len d e) s =
        .next ((u.accessFault 0x318B part p a.toNat m).emit (.coreFault p core)))) ∧
    (u.rangeBad a.toNat len true = true → ∀ w, exec (.siteCoreAccess p core pn w a len d e) s =
      .next (u.accessFault 0x31C1 part p a.toNat m))

/-- A seal operation is answered at the site that issued it (R250, R254): its wait is dropped, and the result reaches the port of
the core, or lets the descriptor stream go on. -/
def Obligations.SealAnswerReachesMaster : Prop :=
  ∀ (s : State) (req result status : Nat),
    (∀ c x, masterCore (owMaster req) = some c → x = s.corePort (portKey (owSite req) c) → x.blocked = false →
      s.sealDone req result status = { s with
        sls := { s.sls with
          waits := s.sls.waits.filter (fun w => w.req != req),
          ports := mset CorePort.init s.sls.ports (portKey (owSite req) c)
            { x with busy := false, blocked := false, result := BitVec.ofNat 64 (status % 256 + 2 ^ 32 * result) } } }) ∧
    (∀ d, masterCore (owMaster req) = none → masterStream (owMaster req) = some d → (s.dstream (owSite req) d).wait = 1 →
      s.sealDone req result status = { s with
        sls := { s.sls with waits := s.sls.waits.filter (fun w => w.req != req) },
        desc := { s.desc with
          streams := mset DStream.init s.desc.streams (dsKey (owSite req) d) { s.dstream (owSite req) d with wait := 2 } } })

/-- Answers of seal operations (R250, R255, R258, R261, R262): a NOP is answered at once, a grant, an acknowledgement and a wake
answer the operation that waits for them, and a barrier is left when its wave time has come. A WAIT whose value the counter
has reached is answered at once and one that it has not joins the waiters; a READ is answered with the count (R250). Operations
that reach a seal in the same cycle apply in the order ARM, SIGNAL, RELEASE, then the others, whichever way they come (R251). -/
def Obligations.SealOperationsAnswer : Prop :=
  (∀ (s : State) (word : BitVec 64) (req result : BitVec 32) (status t : Nat), PortsFree s →
     (opLegal 0 false word.toNat = true → exec (.sealNop word req) s = .next (s.sealDone req.toNat 0 0)) ∧
     ((∃ w ∈ s.sls.waits, w.req = req.toNat ∧ w.op = 3) → exec (.sealGrant req status) s = .next (s.sealDone req.toNat 0 status)) ∧
     ((∃ w ∈ s.sls.waits, w.req = req.toNat) →
       exec (.sealAck req result status) s = .next (s.sealDone req.toNat result.toNat status)) ∧
     (∀ w tr, s.sls.waits.find? (fun w => w.req == req.toNat) = some w → w.trel = some tr → waveTime tr w.req ≤ t →
       exec (.barrierWaveTime req t) s = .next ((s.at t).sealDone w.req (s.sealAt w.sl).gen 0)) ∧
     (∀ site sl count w, s.sls.waits.filter (fun w => w.sl == sl && w.op == 2 && owSite w.req == site && decide (w.value ≤ count)) = [w] →
       exec (.sealWake site sl count) s = .next (s.sealDone w.req count 0))) ∧
  (∀ (s : State) (k t : Nat) (word : BitVec 64) (req : BitVec 32), PortsFree s →
     k < 16384 → (s.sealAt k).st ≠ 0 → (s.sealAt k).kind ≠ 2 → opLegal (s.sealAt k).kind (s.sealAt k).tkt word.toNat = true →
     owPart req.toNat = (s.sealAt k).part →
     (opOp word.toNat = 2 → opValue word.toNat ≤ (s.sealAt k).count → owSite req.toNat = s.sealSite k →
       exec (.sealWait k (s.sealAt k).epoch word req [] t) s =
         .next (((s.at t).bump rSEAL_CNT_OPS).sealDone req.toNat (s.sealAt k).count 0)) ∧
     (opOp word.toNat = 2 → (s.sealAt k).count < opValue word.toNat →
       exec (.sealWait k (s.sealAt k).epoch word req [] t) s =
         .next (((s.at t).bump rSEAL_CNT_OPS).sealJoin k req.toNat 2 (opValue word.toNat) (opVseal word.toNat))) ∧
     (opOp word.toNat = 6 → owSite req.toNat = s.sealSite k →
       exec (.sealRead k (s.sealAt k).epoch word req [] t) s =
         .next (((s.at t).bump rSEAL_CNT_OPS).sealDone req.toNat (s.sealAt k).count 0))) ∧
  (∀ (s : State) (k t : Nat) (a : SealArr) (same : List SealArr),
     (opOp a.word.toNat = 1 → exec (.sealSignal k a.epoch a.word a.req same t) s =
       .next ((s.at t).sealCycle k (a :: same)).sealNext) ∧
     (∀ (b : SealArr) (rank : Nat → Nat), rank = (fun op => if op = 5 then 0 else if op = 1 then 1 else if op = 4 then 2 else 3) →
       rank (opOp a.word.toNat) < rank (opOp b.word.toNat) →
       ∀ l, l = [a, b] ∨ l = [b, a] → s.sealCycle k l =
         (s.sealOp k a.epoch a.word.toNat a.req.toNat).sealOp k b.epoch b.word.toNat b.req.toNat))

/-- A SIGNAL adds its value to the counter of its seal and to no other, keeps the epoch, and touches only the seals, the streams
and registers they wake, the fabric and what goes out (R245, R250). -/
def Obligations.SealSignalAddsToCounter : Prop :=
  ∀ (s : State) (k t : Nat) (word : BitVec 64) (req : BitVec 32), PortsFree s →
    (s.sealAt k).st ≠ 0 → (s.sealAt k).kind = 0 → opLegal 0 (s.sealAt k).tkt word.toNat = true → opOp word.toNat = 1 →
    (s.sealAt k).count + opValue word.toNat < 2 ^ 32 →
    Completes (.sealSignal k (s.sealAt k).epoch word req [] t) s (fun u =>
      (u.sealAt k).count = (s.sealAt k).count + opValue word.toNat ∧ (u.sealAt k).epoch = (s.sealAt k).epoch ∧
      (∀ j, j ≠ k → u.sealAt j = s.sealAt j) ∧
      u = { s.at t with sls := u.sls, desc := u.desc, out := u.out, regs := u.regs, fab := u.fab, free := u.free })

/-- A lock that is free is taken by the ACQUIRE that finds it so; a RELEASE by its owner with nobody waiting leaves it free
without an owner (R250, R262). An ARM of a barrier whose target is above its count arms it (R250, R260). -/
def Obligations.SealLocksAndBarriers : Prop :=
  (∀ (s : State) (k t : Nat) (word : BitVec 64) (req : BitVec 32), PortsFree s →
     (s.sealAt k).kind = 1 → (s.sealAt k).tkt = false → opLegal 1 false word.toNat = true →
     (∀ w ∈ s.sls.waits, w.sl = k → w.op = 3 → w.granted = true) →
     (opOp word.toNat = 3 → (s.sealAt k).st = 1 →
       Completes (.sealAcquire k (s.sealAt k).epoch word req [] t) s (fun u =>
         (u.sealAt k).st = 2 ∧ (u.sealAt k).owner = req.toNat ∧ (u.sealAt k).epoch = (s.sealAt k).epoch)) ∧
     (opOp word.toNat = 4 → (s.sealAt k).st = 2 → (s.sealAt k).owner = req.toNat →
       Completes (.sealRelease k (s.sealAt k).epoch word req [] t) s (fun u =>
         (u.sealAt k).st = 1 ∧ (u.sealAt k).owner = 0 ∧ (u.sealAt k).epoch = (s.sealAt k).epoch))) ∧
  (∀ (s : State) (k t : Nat) (word : BitVec 64) (req : BitVec 32), PortsFree s →
     k < 16384 → (s.sealAt k).kind = 2 → (s.sealAt k).st = 1 → opLegal 2 (s.sealAt k).tkt word.toNat = true → opOp word.toNat = 5 →
     (s.sealAt k).count < opValue word.toNat → owPart req.toNat = (s.sealAt k).part → owSite req.toNat = s.sealSite k →
     exec (.armBarrier k (s.sealAt k).epoch word req [] t) s =
       .next (((s.at t).bump rSEAL_CNT_OPS).setSeal k { s.sealAt k with st := 4, target := opValue word.toNat }))

/-- An operation on an imported seal (R256) is counted and forwarded to the seal's home when the importing entry and the owner's
entry are valid, the owner exports the seal to the importer and the operation is no ARM; the result register of a site core
reads at once, or blocks the core while its operation runs (R254); SEAL_INSP_DATA reads the selected seal's count and latches the
words after it (R267). -/
def Obligations.SealImportsAndReads : Prop :=
  ∀ (s : State) (req : BitVec 32) (w : BitVec 64) (own ov k site core : Nat), PortsFree s →
    (bits (s.xlat (owPart req.toNat) (opVseal w.toNat)) 16 4 = own → bits (s.xlat (owPart req.toNat) (opVseal w.toNat)) 0 12 = ov →
      xlV (s.xlat (owPart req.toNat) (opVseal w.toNat)) = true → xlImp (s.xlat (owPart req.toNat) (opVseal w.toNat)) = true →
      xlV (s.xlat own ov) = true → xlImp (s.xlat own ov) = false → bit (s.xlat own ov) (48 + owPart req.toNat) = true →
      opOp w.toNat ≠ 5 → xlSeal (s.xlat own ov) = k →
      exec (.sealImportForward w req) s = .next ((s.bump rSEAL_CNT_FWD).sendPkt 5 own 3 (partHub own) (s.sealSite k) 0 0 4 0 0
        0x3FFF 0 [] [sealPayload w.toNat k (bits (s.xlat own ov) 32 16) req.toNat 0 0])) ∧
    ((s.corePort (portKey site core)).busy = false → exec (.sealResultLoad site core) s =
      .next (s.emit (.value (portAddr site core) (s.corePort (portKey site core)).result.toNat))) ∧
    ((s.corePort (portKey site core)).busy = true → exec (.sealResultLoad site core) s =
      .next (s.setCorePort (portKey site core) { s.corePort (portKey site core) with blocked := true })) ∧
    (s.ready = true → Completes .sealInspRead s (fun t =>
      t.out = .value rSEAL_INSP_DATA (s.sealAt (s.fld rSEAL_INSP_SEL 0 14)).count :: s.out ∧
      t = { s with out := t.out, sls := { s.sls with insp := t.sls.insp } }))

/-- The partition commands (R272, R273): RELEASE of a configured partition and RESET of a running or loading one are accepted with
result 0 and wait for the edge; each of the three is refused with result 2 while one waits; CONFIGURE gives the result of its
checks, and 6 when its block cannot be read. Before READY nothing happens. -/
def Obligations.PartitionCommands : Prop :=
  ∀ (s : State) (n : Nat),
    (s.ready = true →
      ((s.part n).st = .unconfigured → (s.part n).pend = none → s.boot.hubLost = 0 →
        exec (.partConfigure n none) s = .next (s.partResult 1 n 6) ∧
        (∀ c : BitVec 1024, exec (.partConfigure n (some c)) s =
          .next ((s.configure n 5 c.toNat).2.partResult 1 n (s.configure n 5 c.toNat).1))) ∧
      ((s.part n).st = .configured → (s.part n).pend = none →
        exec (.partRelease n) s = .next ((s.updPart n (fun p => { p with pend := some .release })).partResult 2 n 0)) ∧
      ((s.part n).st = .running ∨ (s.part n).st = .loading → (s.part n).pend = none → exec (.partReset n) s =
        .next (((s.updPart n (fun p => { p with pend := some .reset })).resetPart n 0).partResult 3 n 0)) ∧
      ((s.part n).pend ≠ none → (∀ c, exec (.partConfigure n c) s = .next (s.partResult 1 n 2)) ∧
        exec (.partRelease n) s = .next (s.partResult 2 n 2) ∧ exec (.partReset n) s = .next (s.partResult 3 n 2))) ∧
    (s.ready = false → (∀ c, exec (.partConfigure n c) s = .next s) ∧ exec (.partRelease n) s = .next s ∧
      exec (.partReset n) s = .next s)

/-- Queue registers (R275, R276): a write of a base while its queue is disabled replaces the written half and aligns it down to
4096 bytes, a clamp being reported; one that would change it while it is enabled sets bit 0 of QUE_STAT, and changes nothing
else; enabling a submission queue with SIZE in range clears its head and its doorbell. Through a port or of a queue that the
partition does not have, nothing happens. Doorbells (R276): a value within the queue's size is taken; another raises
BAD_DOORBELL 0x0286 and sets bit 1 of QUE_STAT. -/
def Obligations.QueueRegisters : Prop :=
  (∀ (s : State) (port vf q : Nat),
     (s.served port vf q = true →
       (∀ (half req : Nat) (v : BitVec 64), (s.qp (vf - 1) q).sqEn = false →
         req = mergeHalf half (s.qp (vf - 1) q).sqBase.toNat v.toNat →
         exec (.queBaseWrite port vf q true half v) s =
           .next ((s.setQp (vf - 1) q { s.qp (vf - 1) q with sqBase := BitVec.ofNat 64 (req / 4096 * 4096) }).clamped 8
             (if req = req / 4096 * 4096 then [] else [⟨vfId port vf (0x40 * q), req, req / 4096 * 4096, 7⟩]))) ∧
       (∀ (half : Nat) (v : BitVec 64), (s.qp (vf - 1) q).cqEn = true →
         (mergeHalf half (s.qp (vf - 1) q).cqBase.toNat v.toNat / 4096 * 4096 = (s.qp (vf - 1) q).cqBase.toNat →
           exec (.queBaseWrite port vf q false half v) s = .next s) ∧
         (mergeHalf half (s.qp (vf - 1) q).cqBase.toNat v.toNat / 4096 * 4096 ≠ (s.qp (vf - 1) q).cqBase.toNat →
           Completes (.queBaseWrite port vf q false half v) s (fun u =>
             u = { s.setQp (vf - 1) q ((s.qp (vf - 1) q).err 0) with hot := u.hot }))) ∧
       (∀ w : BitVec 32, (s.qp (vf - 1) q).sqEn = false → bit w.toNat 31 = true → 6 ≤ bits w.toNat 0 5 → bits w.toNat 0 5 ≤ 16 →
         exec (.queCfgWrite port vf q true w) s = .next (s.setQp (vf - 1) q { s.qp (vf - 1) q with
           sqSize := bits w.toNat 0 5, sqEn := true, sqHead := 0, sqDb := 0, sqPort := port }))) ∧
     (s.served port vf q = false → ∀ (sq : Bool) (half t : Nat) (v : BitVec 64) (w : BitVec 32),
       exec (.queBaseWrite port vf q sq half v) s = .next s ∧ exec (.queCfgWrite port vf q sq w) s = .next s ∧
       exec (.sqTailDoorbell port vf q w t) s = .next (s.at t) ∧ exec (.cqHeadDoorbell port vf q w t) s = .next (s.at t))) ∧
  (∀ (s : State) (port vf q t : Nat) (w : BitVec 32), s.served port vf q = true →
     (bits w.toNat 0 16 < 2 ^ (s.qp (vf - 1) q).sqSize → exec (.sqTailDoorbell port vf q w t) s =
       .next ((s.at t).setQp (vf - 1) q { s.qp (vf - 1) q with sqDb := bits w.toNat 0 16 })) ∧
     (bits w.toNat 0 16 < 2 ^ (s.qp (vf - 1) q).cqSize → exec (.cqHeadDoorbell port vf q w t) s =
       .next ((s.at t).setQp (vf - 1) q { s.qp (vf - 1) q with cqDb := bits w.toNat 0 16 })) ∧
     (2 ^ (s.qp (vf - 1) q).sqSize ≤ bits w.toNat 0 16 → exec (.sqTailDoorbell port vf q w t) s =
       .next (((s.at t).qpErr (vf - 1) q 1).raiseOnce 0 0x0286 (vf - 1) 0x3FFF (hubSite port) q w.toNat)) ∧
     (2 ^ (s.qp (vf - 1) q).cqSize ≤ bits w.toNat 0 16 → exec (.cqHeadDoorbell port vf q w t) s =
       .next (((s.at t).qpErr (vf - 1) q 1).raiseOnce 0 0x0286 (vf - 1) 0x3FFF (hubSite port) (q + 16) w.toNat)))

/-- Unmasking a vector that is pending sends its message, while MSI-X is enabled and the function is not masked; setting the
function's mask, or clearing its enable, sends none (R268). An FLR resets the queues that the VF has through the port and its
MSI-X state, and is journalled (R271). A port that goes down, or comes up, does so by the operations of R271 and R405; without
input power no port comes up. -/
def Obligations.PortsAndVectors : Prop :=
  ∀ (s : State) (port vf v t : Nat),
    (mget false s.host.msixOn (port * 17 + vf) = true → mget false s.host.fmask (port * 17 + vf) = false →
      mget false s.host.pendBit (fnKey port vf v) = true → ∀ en mask,
      exec (.msixUnmask port vf (some v) en mask) s = .next (((s.setMsixWord port vf v 3
        (BitVec.ofNat 32 (clrBit (s.msixWord port vf v 3).toNat 0))).sendMsix port vf v).setPendBit (fnKey port vf v) false)) ∧
    (∀ en mask, (en = false ∧ mRising 0 s.host.msixOn = true) ∨ mask = true → exec (.msixUnmask port vf none en mask) s = .next { s with host := { s.host with
      msixOn := mset false s.host.msixOn (port * 17 + vf) en, fmask := mset false s.host.fmask (port * 17 + vf) mask } }) ∧
    (1 ≤ vf → vf ≤ 16 → exec (.flr port vf) s = .next
      (let u := s.resetPortQps (vf - 1) port
       ({ u with
          host := { u.host with
            msixOn := mset false u.host.msixOn (port * 17 + vf) false,
            fmask := mset false u.host.fmask (port * 17 + vf) false,
            msixTab := u.host.msixTab.filter (fun e => e.1 / 8192 != port * 17 + vf),
            pendBit := u.host.pendBit.filter (fun e => e.1 / 2048 != port * 17 + vf) } } : State).journal 0x0285 (vf - 1) 0x3FFF
        (hubSite port) (port + 3 * 2 ^ 4) (2 ^ (vf - 1)))) ∧
    (port < 4 → exec (.portDown port 0 t) s = .next (((s.at t).portDown port 0).loadPortLost port) ∧
      exec (.portDown port 1 t) s = .next ((s.at t).portDown port 1) ∧
      (bit s.boot.hubLost port = false → s.inp.good = true → exec (.pcieLinkUp port t) s = .next ((s.at t).portUp port)) ∧
      (s.inp.good = false → exec (.pcieLinkUp port t) s = .next (s.at t)))

/-- Admission of a submission entry (R277, R279 to R283): the queue's head moves on and a completion is reserved; an entry that
passes its checks is counted, recorded and its operation admitted, whichever of the seven it is; one that fails is rejected
with its status; and an entry of a queue that may take nothing is left where it stands. -/
def Obligations.Admission : Prop :=
  ∀ (s u v : State) (n q : Nat) (e : BitVec 512),
    u = s.updQp n q (fun x => { x with sqHead := (x.sqHead + 1) % 2 ^ x.sqSize, reserved := x.reserved + 1 }) →
    v = ((u.bump rSTRM_CNT_ADMIT).record n 3 (unpackNat 32 16 e.toNat ++ [q, 0, 0, 0, 0, 0, 0, 0])).noteSub n q e.toNat →
    (s.admissible n q = true → u.entryFail n q e.toNat = none →
      (sbOpc e.toNat = 1 → exec (.openStream n q e) s = .next (v.opOpen n q e.toNat)) ∧
      (sbOpc e.toNat = 2 → exec (.append n q e) s = .next (v.queueOp n q e.toNat)) ∧
      (sbOpc e.toNat = 3 → exec (.generate n q e) s = .next (v.queueOp n q e.toNat)) ∧
      (sbOpc e.toNat = 4 → exec (.fork n q e) s = .next (v.opFork n q e.toNat)) ∧
      (sbOpc e.toNat = 5 → exec (.park n q e) s = .next (v.queueOp n q e.toNat)) ∧
      (sbOpc e.toNat = 6 → exec (.resume n q e) s = .next (v.queueOp n q e.toNat)) ∧
      (sbOpc e.toNat = 7 → exec (.close n q e) s = .next (v.opClose n q e.toNat))) ∧
    (∀ f, s.admissible n q = true → u.entryFail n q e.toNat = some f → sbOpc e.toNat = 1 →
      exec (.openStream n q e) s = .next (u.rejectEntry n q e.toNat f.1 f.2)) ∧
    (s.admissible n q = false → exec (.openStream n q e) s = .next s ∧ exec (.close n q e) s = .next s)

/-- An OPEN that passes makes its stream OPEN, bound to the queue, empty, with the context that it asks for up to 131072 (R279,
R283). -/
def Obligations.OpenMakesStream : Prop :=
  ∀ (s : State) (n q : Nat) (e : BitVec 512), s.admissible n q = true → sbOpc e.toNat = 1 →
    (s.updQp n q (fun x => { x with sqHead := (x.sqHead + 1) % 2 ^ x.sqSize, reserved := x.reserved + 1 })).entryFail n q e.toNat =
      none →
    Completes (.openStream n q e) s (fun t =>
      (t.stream (sbStream e.toNat)).st = .opened ∧ (t.stream (sbStream e.toNat)).part = n ∧ (t.stream (sbStream e.toNat)).qp = q ∧
      (t.stream (sbStream e.toNat)).len = 0 ∧
      (sbCount e.toNat ≠ 0 → (t.stream (sbStream e.toNat)).maxctx = min 131072 (sbCount e.toNat)) ∧
      (∀ i, i ≠ sbStream e.toNat → t.stream i = s.stream i))

/-- At OPEN and at RESUME the stream gets as home base the site rank of the partition that is the home base of the fewest streams
in OPEN, RESIDENT, ACTIVE or DRAINING, and the lowest such rank on a tie (R283); the stream itself is not counted (log entry
116). -/
def Obligations.HomeBaseIsLeastLoaded : Prop :=
  ∀ (s u : State) (n q : Nat) (e : BitVec 512) (load : Nat → Nat),
    (∀ r, load r = ((s.partStreams n).filter (fun i => i != sbStream e.toNat && ((s.stream i).hb == r &&
      [StreamState.opened, .resident, .active, .draining].contains (s.stream i).st))).length) →
    0 < s.nsite n → s.admissible n q = true →
    u = s.updQp n q (fun x => { x with sqHead := (x.sqHead + 1) % 2 ^ x.sqSize, reserved := x.reserved + 1 }) →
    u.entryFail n q e.toNat = none →
    (sbOpc e.toNat = 1 → Completes (.openStream n q e) s (fun t =>
      (t.stream (sbStream e.toNat)).hb < s.nsite n ∧ ∀ r, r < s.nsite n →
        load (t.stream (sbStream e.toNat)).hb ≤ load r ∧
        (r < (t.stream (sbStream e.toNat)).hb → load (t.stream (sbStream e.toNat)).hb < load r))) ∧
    (sbOpc e.toNat = 6 → (s.stream (sbStream e.toNat)).ops = [] → (s.stream (sbStream e.toNat)).waitFork = false →
      (s.stream (sbStream e.toNat)).started = false → (s.stream (sbStream e.toNat)).parked = true →
      Completes (.resume n q e) s (fun t =>
        (t.stream (sbStream e.toNat)).hb < s.nsite n ∧ ∀ r, r < s.nsite n →
          load (t.stream (sbStream e.toNat)).hb ≤ load r ∧
          (r < (t.stream (sbStream e.toNat)).hb → load (t.stream (sbStream e.toNat)).hb < load r)))

/-- Operations that run in the background complete (R205 to R208, R286): a PARK or RESUME whose transfer fails through a port
raises the host DMA error; a PARK whose image stands in the parking buffer frees the stream's pages and leaves it parked; a
RESUME of an image of another format ends its stream with 0x2187; a FORK finishes and the operations that wait for it start; and
a stream that has drained is freed and closed. Compaction (R196, R197): it starts when enabled, with the share of holes reached,
no compaction or flip pending and its stroke reached; when it completes the changes of its log are carried out in the idle
generation, oldest first, and the page table of the site is ready to flip. -/
def Obligations.BackgroundCompletes : Prop :=
  (∀ (s : State) (i : Nat) (o : AdmOp), s.bgHeld (s.stream i).part i = false →
     (s.runningOp i 5 = some o → ∀ port, exec (.parkComplete i (some port)) s =
       .next (s.hostDmaError (s.stream i).part i port 1 o.addr)) ∧
     (∀ pages, s.runningOp i 5 = some o → s.parkImage (s.stream i).part i = some pages → ∀ (n npg : Nat) (hdr : List Nat) (u v : State),
       n = (s.stream i).part → npg = s.npgOf n (s.stream i).ntok →
       hdr = [1, (s.stream i).ntok, s.shapeWord n, npg] ++ List.replicate 12 0 ++ pages.map (fun g => crc32 (granBytes g)) →
       u = (List.range (s.part n).g.nlayer).foldl (fun (w : State) l => w.bumpBy (siteReg (s.homeOf n i l) rKV_CNT_PARK) npg)
         (s.sendImage n o.addr hdr pages) →
       v = ((u.freeStream n i).updStream i (fun y => { y with parked := true })).parkRetry n →
       exec (.parkComplete i none) s =
         .next ((((v.finalOp n i o [0] 0 (s.stream i).len none false).popOp i).bgDone n i 5 0).startOps n i 5)) ∧
     (s.runningOp i 6 = some o → ∀ port,
       exec (.resumeComplete i port none) s = .next (s.hostDmaError (s.stream i).part i port 2 o.addr) ∧
       (∀ (h : List (BitVec 32)) (pages : List (List (BitVec 512))), (h.getD 0 0).toNat % 2 ^ 16 ≠ 1 →
         exec (.resumeComplete i port (some (h, pages))) s = .next ((s.journal 0x2187 (s.stream i).part 0x3FFF
           (s.homeOf (s.stream i).part i 0) 0 0).endStream i 0x2187)) ∧
       (∀ (h : List (BitVec 32)) (pages : List (List (BitVec 512))) (n : Nat) (u v : State), n = (s.stream i).part →
         (h.getD 0 0).toNat % 2 ^ 16 = 1 → (h.getD 2 0).toNat = s.shapeWord n →
         (∀ e ∈ (List.range pages.length).zip pages, crc32 (granBytes e.2) = (h.getD (16 + e.1) 0).toNat) →
         u = ((List.range pages.length).zip pages).foldl (fun (w : State) e =>
           (w.resumePage n i (e.1 / max 1 (h.getD 3 0).toNat) e.2).bump
             (siteReg (w.homeOf n i (e.1 / max 1 (h.getD 3 0).toNat)) rKV_CNT_RESUME)) s →
         v = ((List.range (u.part n).g.nlayer).foldl (fun (w : State) l =>
           w.noteTaint n (w.homeOf n i l) (w.dirIdx n i l) (s.stream i).ntok) u).updStream i (fun y => { y with parked := false }) →
         exec (.resumeComplete i port (some (h, pages))) s =
           .next ((((v.finalOp n i o [0] 0 (s.stream i).len none false).popOp i).bgDone n i 6 0).startOps n i 5))) ∧
     (s.runningOp i 4 = some o → ∀ (n : Nat) (u v : State), n = (s.stream i).part →
       u = (List.range (s.part n).g.nlayer).foldl (fun (w : State) l => w.forkLayer n i o.child (o.count - 1) l) s →
       v = u.takeFree.2.updStream o.child (fun c => { c with
         len := o.count, waitFork := false,
         lasttok := if o.count = (s.stream i).len then (s.stream i).lasttok else u.takeFree.1.toNat % 2 ^ 18,
         taint := (s.stream i).taint, origin := (s.stream i).origin }.settle) →
       exec (.forkComplete i) s =
         .next (((((v.finalOp n i o [0] 0 (s.stream i).len none false).popOp i).bgDone n i 4 0).startOps n i 5).startOps n o.child 5)) ∧
     ((s.stream i).st = .draining → (s.stream i).toFree = false → exec (.streamDrainComplete i) s =
       .next (((s.freeStream (s.stream i).part i).setStream i { s.stream i with st := .closed }).bgDone (s.stream i).part i 7 5)) ∧
     ((s.stream i).st ≠ .draining → exec (.streamDrainComplete i) s = .next s)) ∧
  (∀ (s : State) (p : Nat),
     (s.flag (siteReg p rKV_CFG) 8 = true → s.fld (siteReg p rKV_CFG) 16 8 * (s.svc p).top < 100 * (s.svc p).holes →
       (s.svc p).compacting = false → (s.svc p).flipReady = false → s.owner p < 16 →
       (s.svc p).notBefore ≤ (s.part (s.owner p)).stroke.toNat →
       exec (.compactionStart p) s = .next ((s.copyGen p).setSvc p { (s.copyGen p).svc p with compacting := true, log := [] })) ∧
     (∀ u : State, (s.svc p).compacting = true → u = (s.svc p).log.foldl (fun (u : State) c => u.replayChange p c) s →
       exec (.compactionComplete p) s = .next (u.setSvc p { u.svc p with compacting := false, flipReady := true, log := [] })) ∧
     ((s.svc p).compacting = false → exec (.compactionComplete p) s = .next s))

/-- Inspection reads before READY read 0 and latch nothing; from READY on the first word is answered and the words after it are
latched (R267, R296, R321, R340). Reads of the journal (R412): the entry of the selected number is shown from copy A while
that serves it, from copy B where copy A has none, and zeros where neither has it; and of the last-ditch file and the standby
copy by index. The self-test's site data are shown likewise (R393). -/
def Obligations.InspectionReads : Prop :=
  (∀ s : State,
     (s.ready = false →
       exec .strmInspRead s = .next (s.emit (.value rSTRM_INSP_DATA 0)) ∧ exec .sealInspRead s = .next (s.emit (.value rSEAL_INSP_DATA 0)) ∧
       exec .pwrSiteDataRead s = .next (s.emit (.value rPWR_SITE_DATA 0)) ∧ exec .domDataRead s = .next (s.emit (.value rDOM_DATA0 0))) ∧
     (s.ready = true →
       exec .strmInspRead s = .next (({ s with host := { s.host with inspLatch := s.inspWords.drop 1 } } : State).emit
         (.value rSTRM_INSP_DATA (s.inspWords.headD 0))) ∧
       (s.fld rSTRM_INSP_SEL 0 20 ≤ 262143 → s.entryLost (s.fld rSTRM_INSP_SEL 0 20) = false →
         s.inspWords = s.streamWords (s.fld rSTRM_INSP_SEL 0 20)) ∧
       exec .pwrSiteDataRead s = .next (({ s with pwr := { s.pwr with latch := (s.siteWords (s.fld rPWR_SITE_SEL 0 7)).drop 1 } } : State).emit
         (.value rPWR_SITE_DATA ((s.siteWords (s.fld rPWR_SITE_SEL 0 7)).headD 0))) ∧
       exec .domDataRead s = .next (({ s with dom := { s.dom with latch := (s.domWords (s.fld rDOM_SEL 0 9)).2 } } : State).emit
         (.value rDOM_DATA0 (s.domWords (s.fld rDOM_SEL 0 9)).1)))) ∧
  (∀ s : State, s.ready = true →
     (∀ e, s.jrnl.okA = true → s.jrnl.copyA.find? (fun x => x.seq == s.fld rFLT_JRNL_SEL 0 32) = some e →
       exec (.fltJrnlDataRead false false false) s = .next (s.showWords rFLT_JRNL_DATA e.words)) ∧
     (∀ e, s.jrnl.okA = false → s.jrnl.okB = true → s.jrnl.copyB.find? (fun x => x.seq == s.fld rFLT_JRNL_SEL 0 32) = some e →
       exec (.fltJrnlDataRead false false false) s = .next (s.showWords rFLT_JRNL_DATA e.words)) ∧
     (s.jrnl.okA = false → s.jrnl.okB = false →
       exec (.fltJrnlDataRead false false false) s = .next (s.showWords rFLT_JRNL_DATA (List.replicate 8 0))) ∧
     (∀ e, s.fld rFLT_STBY_SEL 0 6 < 15 → s.jrnl.ditch[s.fld rFLT_STBY_SEL 0 6]? = some e →
       exec (.fltJrnlDataRead true false false) s = .next (s.showWords rFLT_STBY_DATA e.words)) ∧
     exec .bistSiteDataRead s =
       .next (({ s with bist := { s.bist with latch := (s.bistWords (s.fld rBIST_SEL 0 7)).drop 1 } } : State).showWords
         rBIST_SITE_DATA (s.bistWords (s.fld rBIST_SEL 0 7))))

/-- The 2 µs window (R300, R309, R311), the second's calibration (R301) and the loss of the grant (R303). A window of no site
only judges the budget; a calibration closes the sums of the second, once it is over; and a grant missed for as long as
GRANT_MISS allows puts the budget on the floor. Droop and thermal trip (R310, R312): a droop event halves the site's clock and
counts; its end restores the clock; a thermal trip sets the trip flag, opens the valve to 1000 and resets every live partition;
it is cleared below 95 °C only, and the KV engines then follow their partitions again. -/
def Obligations.PowerAndTrips : Prop :=
  (∀ (s : State) (t : Nat),
     (∀ (p : Nat) (counts : List Nat) (tj : Nat), exec (.powerWindow [(p, counts, tj)] t) s =
       .next (((s.at t).siteWindow p counts tj).budgetGuard.countReasons)) ∧
     (∀ check : Option Nat, s.ticksPerSec ≤ s.pwr.secTicks → Completes (.calibration check t) s (fun u =>
       u.pwr.secE = 0 ∧ u.pwr.secUnc = 0 ∧ u.pwr.secTicks = 0 ∧ u.pwr.lastSecE = s.pwr.secE)) ∧
     (∀ check : Option Nat, s.pwr.secTicks < s.ticksPerSec → exec (.calibration check t) s = .next (s.at t)) ∧
     (∀ u : State, u = ((s.setFld rPWR_GRANT_NOW 31 1 1).setFld rPWR_GRANT_NOW 0 16 s.floorBudget).setFld rPWR_STATUS 14 1 1 →
       s.grantMiss ≤ s.fld rPWR_GRANT_NOW 24 7 → s.flag rPWR_GRANT_NOW 31 = false → exec .pwrGrantLost s =
         .next ((u.sticky rPWR_STATUS 1).raise 0x02C1 16 0x3FFF (hubSite 0) (s.fld rPWR_GRANT_NOW 0 16) u.floorBudget)) ∧
     (s.fld rPWR_GRANT_NOW 24 7 < s.grantMiss → s.flag rPWR_GRANT_NOW 31 = false → exec .pwrGrantLost s = .next s)) ∧
  (∀ (s : State) (p t : Nat),
     (∀ quads, s.marked 0x02C4 (s.owner p) p = true → Completes (.droopEvent p quads t) s (fun u =>
       (u.pwr1 p).kDroop = 8 ∧ (u.pwr1 p).droopEv = (s.pwr1 p).droopEv + 1 ∧
       u = { s.at t with pwr := u.pwr, regs := u.regs, hot := u.hot, jrnl := u.jrnl })) ∧
     (exec (.droopRestore p t) s = .next ((((s.at t).droopClose p).setPwr1 p
       { ((s.at t).droopClose p).pwr1 p with kDroop := 16, droopAt := none }).droopPersist p)) ∧
     (∀ (sensor tj : Nat) (u v : State),
       u = ((List.range 408).filter (fun d => decide (domKind d < 2))).foldl (fun (u : State) d => u.domDown d)
         (((s.at t).sticky rPWR_STATUS 15).sticky rPWR_STATUS 0) →
       v = (u.setFld rCLT_VALVE 0 10 1000).raise 0x42C7 16 0x3FFF p (p + sensor % 8 * 2 ^ 7) (tj % 256) →
       exec (.thermalTrip p sensor tj t) s = .next (v.livePartitions.foldl (fun (w : State) n => w.resetPart n 0x42C7) v)) ∧
     (s.ready = true → s.trip = true →
       (∀ hot, hot < 95 → exec (.tripClr hot) s =
         .next ((List.range 72).foldl (fun (u : State) p => u.syncKv p) (s.setFld rPWR_STATUS 15 1 0))) ∧
       (∀ hot, 95 ≤ hot → exec (.tripClr hot) s = .next s)))

/-- The coolant loop and its valve (R322 to R327): a sample in range joins the mean, one out of range only shows; the loop runs
every 40 ticks times its period plus one; a bridge that has started up runs, a short or a stall opens the valve and raises its
fault, and clearing it, or disabling the loop, turns the bridge off. -/
def Obligations.CoolantLoop : Prop :=
  ∀ (s : State) (t enc : Nat) (v : Int),
    (-200 ≤ v → v ≤ 1200 → exec (.coolantSensorSample [some v] t) s = .next ((s.at t).setSensor 0
      { s.sensor 0 with sum := (s.sensor 0).sum + v, n := (s.sensor 0).n + 1, last := v })) ∧
    (1200 < v → exec (.coolantSensorSample [some v] t) s = .next ((s.at t).setSensor 0 { s.sensor 0 with last := v })) ∧
    (∀ pulses, s.tick.started = true → s.tick.number.toNat % (40 * (s.fld rCLT_CTL 5 4 + 1)) = 0 →
      exec (.coolantLoopRun pulses enc t) s = .next ((s.at t).loopRun pulses enc)) ∧
    (s.bridge = 1 → exec (.valveSoftstartDone enc) s = .next (((s.setEnc enc).setBridge 2).setI ⟨enc, 1⟩)) ∧
    (s.bridge = 1 ∨ s.bridge = 2 → exec (.valveShort enc) s = .next (s.valveFault 0x1305 s.bridge 0 enc)) ∧
    (s.bridge = 2 → exec (.valveStall enc) s = .next (s.valveFault 0x1306 (s.fld rCLT_VALVE 0 10) 1 enc)) ∧
    (s.ready = true → s.bridge = 3 → exec .valveClr s = .next (s.setBridge 0)) ∧
    (s.ready = true → s.locked = false → exec .loopDisable s = .next s.loopOff)

/-- The domain commands (R334, R338): a request of a domain that nothing owns starts it, ON with result 0, OFF takes it down; a
domain that faulted is refused with result 2 until it is cleared, an owned one with 5, a clear of one that has not faulted
with 4. Soft starts, shorts and sags (R335 to R338): a soft start that completes powers its domain and serves its group; one
that takes too long, or a short, breaks the domain with 0x3342 or 0x3341; an inrush hold extends the soft start of its group
once, and aborts it the second time; when the sag is over the held domain goes on. -/
def Obligations.PowerDomains : Prop :=
  (∀ (s : State) (d : Nat),
     ((s.domAt d).st ≠ 5 →
       (s.domOwned d = false → (s.trip = false ∨ 2 ≤ domKind d) → exec (.domOn d) s = .next ((s.domRequest d).domStat d 0)) ∧
       (s.domOwned d = false → exec (.domOff d) s = .next ((s.domDown d).domStat d 0)) ∧
       (s.domOwned d = true → exec (.domOn d) s = .next (s.domStat d 5) ∧ exec (.domOff d) s = .next (s.domStat d 5)) ∧
       exec (.domClear d) s = .next (s.domStat d 4)) ∧
     ((s.domAt d).st = 5 →
       exec (.domOn d) s = .next (s.domStat d 2) ∧ exec (.domOff d) s = .next (s.domStat d 2) ∧
       exec (.domClear d) s = .next (((s.updDom d (fun x => { x with st := 0 })).setFld (rDOM_FAULT + 4 * (d / 32)) (d % 32) 1 0).domStat
         d 0))) ∧
  (∀ (s : State) (d p t : Nat),
     ((s.domAt d).st = 2 →
       exec (.softstartComplete d t) s =
         .next (((((s.at t).updDom d (fun x => { x with st := 4, ext := false })).powered d true).bump rDOM_CNT_SS).serveGroup
           (domGroup d)) ∧
       ((s.domAt d).ext = false → (s.domAt d).start + 1000 * softUs d ≤ (s.at t).time → exec (.softstartWindowExpiry d t) s =
         .next ((s.at t).domBreak d 0x3342 (domWord d + 2 ^ 16) (((s.at t).time - (s.domAt d).start) / 1000 % 512)))) ∧
     ((s.domAt d).st = 4 → ∀ cur, exec (.domShort d cur t) s =
       .next ((((s.at t).setDom d { s.domAt d with cur := cur }).bump rDOM_CNT_SHORT).domBreak d 0x3341 (domWord d) (cur % 2 ^ 16))) ∧
     ((groupDoms p).find? (fun d => (s.domAt d).st == 2) = some d → ∀ byp,
       ((s.domAt d).ext = false → exec (.domInrushHold p byp t) s =
         .next (((((s.at t).updDom d (fun x => { x with st := 3, ext := true })).sticky rDOM_STATUS 1).bump rDOM_CNT_HOLD).domFault 0x0344 d
           (domWord d) byp)) ∧
       ((s.domAt d).ext = true → exec (.domInrushHold p byp t) s = .next ((s.at t).inrushAbort d byp))) ∧
     ((groupDoms p).find? (fun d => (s.domAt d).st == 3) = some d →
       exec (.sagRecovery p t) s = .next ((s.at t).updDom d (fun x => { x with st := 2 }))))

/-- A frame for this panel that passes the checks of R348 on a port that is up is counted, remembered, and its request carried
out: reads are answered from the objects, a write and a grant act, a heartbeat is answered with the summary (R343, R348, R352
to R354, R356 to R359). A frame that fails them is counted as invalid and journalled once a tick; on a port that is not up it
is lost. -/
def Obligations.WaggleRequests : Prop :=
  ∀ (s u : State) (fr : WglFrame) (leaves : Bool) (t : Nat) (h : WglHdr), h = frameHdr (fr.bytes.map BitVec.toNat) →
    u = ((s.at t).bump rGLB_WGL_CNT_RX) →
    (s.wglPort fr.port = 1 → fr.port ≤ 1 → frameBad (fr.bytes.map BitVec.toNat) = 9 → h.dst = s.link 2 ∨ h.dst = 255 →
      s.ringCopy fr.mac h t = false →
      ∀ v : State, v = { u with wgl := { u.wgl with
        seen := ⟨fr.mac, fr.port, h.msg, h.seq, h.node, t, none, false, [], [], none⟩ ::
          u.wgl.seen.filter (fun x => decide (t ≤ x.time + 2000000)) } } →
      (h.msg = 1 → exec (.wglRead fr leaves t) s = .next (v.readRequest fr leaves t h)) ∧
      (h.msg = 3 → exec (.wglReadMulti fr leaves t) s = .next (v.readRequest fr leaves t h)) ∧
      (h.msg = 2 → exec (.wglWrite fr leaves t) s = .next (v.writeRequest fr leaves t h)) ∧
      (h.msg = 5 → exec (.wglGrant fr leaves t) s = .next (v.grantRequest fr leaves h)) ∧
      (h.msg = 6 → exec (.wglHeartbeat fr leaves t) s = .next (v.fastAnswer fr h leaves v.summary))) ∧
    (s.wglPort fr.port = 1 → fr.port ≤ 1 → frameBad (fr.bytes.map BitVec.toNat) ≠ 9 →
      exec (.wglRead fr leaves t) s = .next (((u.bump rGLB_WGL_CNT_INVALID).sticky rGLB_WGL_STAT 13).wglOnce 0x0382 (wglHub fr.port)
        (frameBad (fr.bytes.map BitVec.toNat) + fr.port * 16) (fr.mac % 2 ^ 32))) ∧
    (s.wglPort fr.port ≠ 1 → exec (.wglRead fr leaves t) s = .next (s.at t))

/-- A GRANT of the panel's node from its manager is clamped into 1200 to 18000 W and waits for the next tick edge (R303, R353);
one from another station changes nothing of the power state, and the grant that waits stays (R359). -/
def Obligations.GrantIsClamped : Prop :=
  ∀ (s : State) (fr : WglFrame) (leaves : Bool) (t w : Nat) (h : WglHdr), h = frameHdr (fr.bytes.map BitVec.toNat) →
    s.wglPort fr.port = 1 → fr.port ≤ 1 → frameBad (fr.bytes.map BitVec.toNat) = 9 → h.msg = 5 → h.dst = s.link 2 →
    s.ringCopy fr.mac h t = false → (grantEntries (h.pay.headD 0) (h.pay.drop 4)).2.find? (fun e => e.1 == s.link 2) = some (s.link 2, w) →
    (s.link 5 = fr.mac → Completes (.wglGrant fr leaves t) s (fun u => u.pwr.grant = some (max 1200 (min 18000 w)))) ∧
    (s.link 5 ≠ 0 → s.link 5 ≠ fr.mac → Completes (.wglGrant fr leaves t) s (fun u => u.pwr = s.pwr))

/-- The panel's own frames (R342, R354, R355, R357): a standard answer takes the oldest request; a frame for another station is
forwarded between ports that are up and counted; a heartbeat goes out once for a tick number that is a multiple of HB_TICKS,
and a NOTIFY leaves its queue and is counted; an answer that is late is counted and flagged. Ports, time synchronisation and
the mailbox (R341, R345, R364): a port that changes state shows it and is journalled; the eighth good Sync in succession
synchronises the panel; a Sync off by more than 1000 ns, three intervals without one, or its port down, lose it; a mailbox
command with reserved bits, or while one runs, only sets its error; the answer of a request comes out of the mailbox. -/
def Obligations.WaggleFramesAndMailbox : Prop :=
  (∀ (s : State) (t : Nat),
     (s.wgl.queue = [] → ∀ late, exec (.standardAnswer late t) s = .next s) ∧
     (∀ r rest, s.wgl.queue = r :: rest → r.keys = none → exec (.standardAnswer false t) s =
       .next ((({ s.at t with wgl := { s.wgl with queue := rest } } : State).wglSend r.port r.mac
         (({ s.at t with wgl := { s.wgl with queue := rest } } : State).link 8) r.msg 1 (b2n r.clamped) r.seq r.node
         r.body).applyLink r.link r.gcl)) ∧
     (∀ port src dst body, port ≤ 1 → dst ≠ moduleMac ∨ s.laterCopy src (body.map BitVec.toNat) t = true →
       s.wglPort 0 = 1 → s.wglPort 1 = 1 →
       exec (.wglForward port src dst body true false t) s =
         .next (((s.at t).emit (.waggle (1 - port) 0 dst (body.map BitVec.toNat))).bump rGLB_WGL_CNT_FWD)) ∧
     (∀ port src dst body gptp, exec (.wglForward port src dst body false gptp t) s = .next s) ∧
     (s.link 12 ≠ 0 → s.tick.started = true → s.tick.number.toNat % s.link 12 = 0 → t ≤ s.tick.last + s.ingestNs →
       s.marked 0 16 0 = false → exec (.heartbeatSend t) s = .next (((s.at t).mark 0 16 0).wglGroup 6 s.summary)) ∧
     (s.marked 0 16 0 = true → exec (.heartbeatSend t) s = .next s) ∧
     (∀ n rest, s.wgl.notes = n :: rest → s.wglPort 0 = 1 → exec .notifySend s =
       .next ((({ s with wgl := { s.wgl with notes := rest } } : State).wglGroup 4 (bigBytes 4 (n.nseq % 2 ^ 32) ++ [n.kind, 0] ++
         bigBytes 2 n.index ++ [n.sub, 0, 0, 0] ++ bigBytes 8 n.time ++ bigBytes 32 n.data)).bump rGLB_WGL_CNT_NOTIFY)) ∧
     (∀ msg port seq, Completes (.wglAnswerLate msg port seq t) s (fun u =>
       u.wgl.lateCnt = s.wgl.lateCnt + 1 ∧ u = { s.at t with wgl := u.wgl, regs := u.regs, hot := u.hot } ∧
       (∀ b, b ≠ rGLB_WGL_CNT_LATE → b ≠ rGLB_WGL_STAT → u.reg b = s.reg b)))) ∧
  (∀ (s : State) (t : Nat),
     (∀ port st, port ≤ 1 → st ≤ 2 → s.wglPort port ≠ st → bit s.boot.hubLost (3 * port) = false →
       exec (.wglPortChange port st) s = .next ((s.setFld rGLB_WGL_STAT (2 * port) 2 st).wglFault 0x0385 (wglHub port) (port + st * 2) 0)) ∧
     (∀ (ofs : Int) (v : State), s.flag rGLB_WGL_STAT 4 = false → -200 ≤ ofs → ofs ≤ 200 →
       v = { s.at t with wgl := { s.wgl with gpOfs := ofs, gpGood := min 8 (s.wgl.gpGood + 1), gpLast := t } } →
       (s.wgl.gpGood < 7 → exec (.gptpSync ofs true t) s = .next v) ∧
       (7 ≤ s.wgl.gpGood → exec (.gptpSync ofs true t) s = .next (v.gptpState true))) ∧
     (∀ (ofs : Int) (cap : Bool), s.flag rGLB_WGL_STAT 4 = true → 1000 < ofs → exec (.gptpSync ofs cap t) s =
       .next (({ s.at t with wgl := { s.wgl with gpOfs := ofs, gpGood := 0, gpLast := t } } : State).timeLost 1)) ∧
     (exec (.wglTimeLost 2 t) s = .next ((s.at t).timeLost 2)) ∧
     (s.wgl.gpLast + 3 * (10 ^ 9 / 2 ^ (-(signed 16 (s.link 9))).toNat) ≤ t → exec (.wglTimeLost 0 t) s = .next ((s.at t).timeLost 0)) ∧
     (∀ w : BitVec 32, s.ready = true → bits w.toNat 1 31 ≠ 0 ∨ (bit w.toNat 0 = true ∧ s.flag rGLB_OD_STAT 31 = true) →
       exec (.mailboxGo w t) s = .next ((s.at t).sticky rGLB_OD_STAT 29)) ∧
     (s.ready = true → s.flag rGLB_OD_STAT 31 = false → ∀ (v : State) (b : List Nat), v = (s.at t).sticky rGLB_OD_STAT 31 →
       b = v.odBuf (12 + min 1488 (bigNat ((v.odBuf 8).drop 6))) → frameBad b = 9 → (frameHdr b).msg = 1 →
       exec (.mailboxGo 1 t) s = .next { v with wgl := { v.wgl with
         mbox := some ⟨0, 2, 1, (frameHdr b).seq, (frameHdr b).node, t,
           some (readKeys ((frameHdr b).pay.headD 0) ((frameHdr b).pay.drop 4)).2, false, [], [], none⟩ } }) ∧
     (∀ (r : WglReq) (v : State) (m : List Nat), s.wgl.mbox = some r → r.keys = none → r.body ≠ [] →
       v = { s.at t with wgl := { s.wgl with mbox := none } } →
       m = v.wglHeader r.msg 1 (b2n r.clamped) r.seq r.node r.body.length ++ r.body →
       exec (.mailboxDone t) s = .next (((((v.setOdBuf 0 m).setFld rGLB_OD_STAT 0 11 m.length).setFld rGLB_OD_STAT 31 1 0).sticky
         rGLB_OD_STAT 30).applyLink r.link r.gcl)) ∧
     (s.wgl.mbox = none → exec (.mailboxDone t) s = .next s))

/-- A panel reset (R368, R414): the panel is as after reset, its registers too but for the journal's and the life cycle's, except
for its fuses, repair maps, hub domains, self-test results, time, input and, except at a power-up, the last 32 journal entries
and the last-ditch file. The commands that reset do so through J4 or from READY on; power-good resets the panel when charging
is complete. -/
def Obligations.PanelResets : Prop :=
  ∀ (s : State) (cause t : Nat),
    (∀ u : State, u = s.panelReset cause →
      u = { State.reset with
        regs := u.regs, time := s.time, free := s.free, out := s.out, pending := s.pending, boot := u.boot, inp := s.inp, jrnl := u.jrnl,
        bist := { s.bist with pos := [], latch := [] }, comb := { State.reset.comb with repair := s.comb.repair },
        dom := { State.reset.dom with
          doms := if cause = 0 then [] else s.dom.doms.filter (fun e => decide (408 ≤ e.1) && decide (e.1 < 420)) } } ∧
      (∀ b, b ≠ rFLT_STBY_STAT → b ≠ rFLT_JRNL_STAT → b ≠ rSEC_LC → u.reg b = State.reset.reg b) ∧
      u.boot = { State.reset.boot with
        lcFuse := s.boot.lcFuse, svnMin := s.boot.svnMin, revoked := s.boot.revoked, lcNow := s.boot.lcFuse, keys := u.boot.keys } ∧
      (cause = 0 → u.jrnl = State.reset.jrnl) ∧
      (cause ≠ 0 → u.jrnl = { State.reset.jrnl with
        ditch := s.jrnl.ditch, ditch15 := s.jrnl.ditch15, standby := s.jrnl.held.drop (s.jrnl.held.length - 32), cause := cause })) ∧
    (∀ port, s.secOpen port = true → exec (.panelReset port) s = .next (s.panelReset 2)) ∧
    (∀ port, s.secOpen port = false → exec (.panelReset port) s = .next (s.sticky rSEC_BOOT_STAT 31)) ∧
    (s.inp.good = true → exec (.resetPin t) s = .next { (s.at t).panelReset 1 with inp := { s.inp with resetLow := true } }) ∧
    (s.inp.good = false → exec (.resetPin t) s = .next { s.at t with inp := { s.inp with resetLow := true } }) ∧
    (exec .resetRelease s = .next { s with inp := { s.inp with resetLow := false } }) ∧
    (s.inp.good = false → s.inp.failing = false → s.inp.stage = 1 → exec (.powerGood t) s =
      .next { (s.at t).panelReset 0 with inp := { s.inp with stage := 3, standby := true, good := true } })

/-- The start of a load (R369, R371, R373): ROM_INIT ends in WAIT_IMAGE with the ports up; the interface level is requested
through J4 in WAIT_IMAGE; LOAD_BOOT in WAIT_IMAGE with a level accepted enters its header phase, LOAD_PART in READY sets its
partition loading; while a load runs both are refused with result 1. A stack whose training ends is trained. -/
def Obligations.BootCommands : Prop :=
  ∀ (s : State) (port n t : Nat),
    (∀ (ports hubs : Nat) (u v : State), s.phase = 0 → s.inp.resetLow = false → s.inp.good = true → s.boot.clear = none →
      u = (setBitsOf 4 hubs).foldl (fun (w : State) h => (List.range 3).foldl (fun (w : State) d =>
        w.setDom (408 + 3 * h + d) { Dom.init with st := 4 }) w) (s.at t) →
      v = (setBitsOf 4 ports).foldl (fun (w : State) p => w.portUp p) { u with boot := { u.boot with badHubs := 15 - hubs % 16 } } →
      exec (.romInitComplete ports hubs t) s = .next ((List.range 68).foldl (fun (w : State) k => w.domRequest (6 * k + 5)) v).enterWait) ∧
    (∀ p, isHub p = false → p ≤ 71 → s.phase ≤ 5 → exec (.hbmTrainingComplete p none t) s =
      .next { s.at t with boot := { s.boot with trained := p :: s.boot.trained.filter (fun x => x != p) } }) ∧
    (s.phase = 1 → exec (.iflevelRequest 1 0) s = .next ((s.setFld rSEC_IFLEVEL 0 4 1).setFld rSEC_IFLEVEL 8 4 1)) ∧
    (s.phase ≠ 1 → exec (.iflevelRequest 1 0) s = .next (s.sticky rSEC_BOOT_STAT 31)) ∧
    (s.phase = 1 → s.loadBusy = false → s.boot.badHubs = 0 → s.fld rSEC_IFLEVEL 8 4 ≠ 0 → exec (.loadBoot 0) s =
      .next ((((({ s with boot := { s.boot with cmd := some 16, image := none } } : State).secResult 0 0).setPhase 2)).setReg
        rSEC_LOAD_BYTES 0)) ∧
    (s.phase ≠ 8 → s.loadBusy = true → exec (.loadBoot 0) s = .next (s.secResult 1 0) ∧
      exec (.loadPart n 0) s = .next (s.secResult 1 n)) ∧
    (∀ v : State, v = (({ s with boot := { s.boot with cmd := some n, image := none } } : State).secResult 0 n).setFld rSEC_BOOT_STAT 16
        4 n →
      s.phase = 6 → s.loadBusy = false → (s.part n).st = .configured → n < 16 → exec (.loadPart n port) s =
      .next (((v.setReg rSEC_LOAD_BYTES 0).updPart n (fun p => { p with lib := none, loadFailed := false, loadDone := false })).setPState
        n .loading))

/-- What is received of an image (R374 to R382): a header that passes its checks opens the image, of the whole panel in phase 3;
one that fails them, a header that cannot be read, and a section of the wrong length or digest reject it with the reason of
Table 14.5; a section is taken once; when every part of the image is there the panel is READY, or its partition waits for the
edge to run. -/
def Obligations.ImagesAreChecked : Prop :=
  ∀ (s : State) (port t c : Nat) (h : List (BitVec 32)),
    (s.boot.cmd = some c → s.boot.image = none →
      exec (.imageHeaderReceived none port t) s = .next ((s.at t).rejectImage 9 0xFF port 0) ∧
      (((s.at t).bumpBy rSEC_LOAD_BYTES 0x4000).headerReason h c ≠ 0 → exec (.imageHeaderReceived (some h) port t) s =
        .next (((s.at t).bumpBy rSEC_LOAD_BYTES 0x4000).rejectImage (((s.at t).bumpBy rSEC_LOAD_BYTES 0x4000).headerReason h c) 0xFF port
          (hdrWordAt h 20))) ∧
      (bits (hdrWordAt h 8) 0 8 ≠ 3 → 16 ≤ c → Completes (.imageHeaderReceived (some h) port t) s (fun u =>
        ((s.at t).bumpBy rSEC_LOAD_BYTES 0x4000).headerReason h c = 0 → u.boot.loading = true ∧
          (u.boot.image.map (fun x => x.version)) = some (hdrWordAt h 20) ∧ (u.boot.image.map (fun x => x.got)) = some [] ∧
          u = { s.at t with boot := u.boot, regs := u.regs }))) ∧
    (∀ (img : Image) (i : Nat) (e : ImgSect) (b : List (BitVec 8)) (plans : List (List SectPlan)), s.boot.image = some img → i ∉ img.got →
      img.via.getD i 0 = port → img.sects[i]? = some e → img.ready i = true → (b.length ≠ e.len ∨ Config.digest b ≠ e.digest) →
      exec (.sectionReceived i (some b) plans port t) s =
        .next (((s.at t).bumpBy rSEC_LOAD_BYTES b.length).rejectImage 4 i port img.version)) ∧
    (∀ (img : Image) (i : Nat) (b : List (BitVec 8)) (plans : List (List SectPlan)), s.boot.image = some img → i ∈ img.got →
      exec (.sectionReceived i (some b) plans port t) s = .next (s.at t)) ∧
    (∀ (img : Image) (i : Nat) (e : ImgSect) (b : List (BitVec 8)) (plans : List (List SectPlan)), s.boot.image = some img → i ∉ img.got →
      img.via.getD i 0 = port → img.sects[i]? = some e → img.ready i = true → b.length = e.len → Config.digest b = e.digest → e.ty < 3 →
      (∀ n ∈ img.parts, (s.part n).loadFailed = false) → img.got.length + 1 ≠ img.sects.length →
      ((List.range img.sects.length).zip img.sects).all (fun y => !(decide (y.2.ty < 3)) || (i :: img.got).contains y.1) = false →
      exec (.sectionReceived i (some b) plans port t) s = .next { (s.at t).bumpBy rSEC_LOAD_BYTES b.length with
        boot := { s.boot with image := some { img with got := i :: img.got } } }) ∧
    (∀ img : Image, s.boot.image = some img → s.phase = 5 → (∀ p, p < 72 → isHub p = true ∨ p ∈ s.boot.trained) →
      (∀ n ∈ img.parts, s.checking n = false ∧ (s.part n).loadFailed = false ∧ ∀ p ∈ s.partSites n, mget false s.fab.siteOut p = false) →
      Completes (.bootReady t) s (fun u => u.phase = 6 ∧ u.boot.version = img.version ∧ u.boot.cmd = none ∧ u.boot.image = none ∧
        u.boot.loading = false)) ∧
    (∀ img : Image, s.boot.image = some img → s.phase = 5 → (∀ p, p < 72 → isHub p = true ∨ p ∈ s.boot.trained) →
      (∀ n ∈ img.parts, s.checking n = false ∧ (s.part n).loadFailed = true) → img.parts ≠ [] →
      exec (.bootReady t) s = .next ((s.at t).rejectImage 12 0xFF 0 img.version)) ∧
    (∀ (img : Image) (n m ms : Nat), s.boot.image = some img → img.target = some n → img.got.length = img.sects.length →
      s.checking n = false → (s.part n).loadFailed = false → (∀ p ∈ s.partSites n, mget false s.fab.siteOut p = false) →
      Completes (.partLoadComplete n m ms t) s (fun u => (u.part n).loadDone = true ∧ u.boot.image = none ∧ u.boot.cmd = none ∧
        u = { s.at t with boot := u.boot, regs := u.regs, parts := u.parts }))

/-- Life cycle and test access (R384 to R387): a request of test access resets the panel, unless secrets are being cleared; an
advance that is allowed is kept as the goal, one to SCRAPPED clears the secrets first; when the fuses are programmed the goal
is the life cycle that they hold; when the secrets are cleared the scratchpads, stacks, combs, streams and queues are as after
reset and keys are gone. -/
def Obligations.LifeCycle : Prop :=
  ∀ (s : State) (t ms : Nat),
    (s.boot.lcGoal = none → s.phase = 1 → s.loadBusy = false → s.lifeCycle = 1 → exec (.lcAdvance 2 0 t) s =
      .next (({ s.at t with boot := { s.boot with lcGoal := some 2, lcDue := true } } : State).secResult 0 0)) ∧
    (s.boot.lcGoal = none → s.phase = 1 → s.loadBusy = false → exec (.lcAdvance 4 0 t) s =
      .next ((({ s.at t with boot := { s.boot with lcGoal := some 4, clear := some (2, t) } } : State).setPhase 7).secResult 0 0)) ∧
    (∀ g, s.boot.lcGoal ≠ none → exec (.lcAdvance g 0 t) s = .next ((s.at t).secResult 1 0)) ∧
    (∀ g, s.boot.lcGoal = some g → s.boot.lcDue = true → Completes (.lifecycleFusesProgrammed t) s (fun u =>
      u.boot.lcFuse = some g ∧ u.boot.lcDue = false)) ∧
    (s.phase = 7 → s.boot.clear ≠ none → Completes (.secretsCleared ms t) s (fun u =>
      u.spad = State.reset.spad ∧ u.kv = State.reset.kv ∧ u.rq = State.reset.rq ∧ u.host.streams = [] ∧ u.host.qps = [] ∧
      u.comb = { State.reset.comb with repair := s.comb.repair } ∧ u.boot.keys = false ∧ u.boot.clear = none)) ∧
    (s.phase = 7 → exec (.tapEnable 0 t) s = .next ((s.at t).secResult 1 0)) ∧
    (s.phase ≠ 7 → s.flag rSEC_LC 30 = false → exec (.tapEnable 0 t) s =
      .next { (s.at t).panelReset 3 with boot := { ((s.at t).panelReset 3).boot with clear := some (0, t) } })

/-- An event is journalled under the next sequence number and appended to copy A while that is in service (R410 to R413); copy B
takes the oldest entry it lacks; a command that tests the journal does so, and a test in which no copy passes leaves it lost. -/
def Obligations.JournalWrites : Prop :=
  ∀ s : State,
    (∀ e, s.jrnl.queue = [e] → s.jrnl.lost = false → s.jrnl.okA = true → Completes (.journalWrite false) s (fun t =>
      t.jrnl.queue = [] ∧ t.jrnl.seq = s.jrnl.seq + 1 ∧ t.jrnl.copyA = ringAdd s.jrnl.copyA ⟨e, s.jrnl.seq.toNat⟩ ∧
      t = { s with jrnl := t.jrnl, regs := t.regs, wgl := t.wgl })) ∧
    (∀ e rest, s.jrnl.toCopy = e :: rest → exec (.journalCopy false) s =
      .next { s with jrnl := { s.jrnl with toCopy := rest, copyB := ringAdd s.jrnl.copyB e } }) ∧
    (s.ready = true → exec (.clearLost 1) s = .next { s with jrnl := { s.jrnl with testing := true } }) ∧
    (∀ w : BitVec 32, s.ready = true → bits w.toNat 1 31 ≠ 0 → exec (.clearLost w) s = .next (s.sticky rFLT_JRNL_STAT 30)) ∧
    (s.jrnl.testing = true → exec (.journalRecoveryComplete false false) s =
      .next (({ s with jrnl := { s.jrnl with testing := false } } : State).sticky rFLT_JRNL_STAT 30)) ∧
    (s.jrnl.testing = true → s.jrnl.lost = true → s.jrnl.ditch = [] → s.jrnl.ditch15 = none →
      Completes (.journalRecoveryComplete true false) s (fun t => t.jrnl.lost = false ∧ t.jrnl.okA = true ∧ t.jrnl.okB = false ∧
        t.jrnl.copyA = s.jrnl.copyA ∧ t.jrnl.copyB = [] ∧ t.jrnl.testing = false))

/-- Self-test (R391, R394, R399, R407): a slice outside its window is skipped and counted, and with self-test off nothing runs, but
for the restoring of a scratchpad region that has been begun; one that does run tests the steps within its budget, after a
scratchpad region left redirected has been repaired; an analog check that passes is a result; one of a supply that fails
breaks its domain; and the hours of an ageing update are kept. -/
def Obligations.SelfTests : Prop :=
  ∀ (s : State) (p t : Nat),
    (∀ unit len steps leaves, s.flag rBIST_CTL 0 = false →
      (unit ≠ 4 → exec (.selfTestSlice p unit len steps leaves t) s = .next (s.at t)) ∧
      exec (.selfTestSlice p 4 len steps leaves t) s =
        .next ((s.at t).testSteps p 4 (steps.filter (fun x => x.stage == .restore)) 0)) ∧
    (∀ unit len steps leaves, s.flag rBIST_CTL 0 = true → s.flag rBIST_CTL 1 = false → isHub p = false →
      (s.at t).inGuard = false → (s.at t).inWindow p = false →
      (unit ≤ 6 → unit ≠ 4 → exec (.selfTestSlice p unit len steps leaves t) s = .next ((s.at t).bump rBIST_CNT_SKIP)) ∧
      exec (.selfTestSlice p 4 len steps leaves t) s =
        .next (((s.at t).bump rBIST_CNT_SKIP).testSteps p 4 (steps.filter (fun x => x.stage == .restore)) 0)) ∧
    (∀ unit len steps, s.flag rBIST_CTL 0 = true → s.flag rBIST_CTL 1 = false → isHub p = false → (s.at t).inGuard = false →
      (s.at t).inWindow p = true →
      (unit ≤ 6 → unit ≠ 4 → exec (.selfTestSlice p unit len steps false t) s =
        .next (((s.at t).bump rBIST_CNT_SLICE).testSteps p unit steps len)) ∧
      ∀ v : State, v = (s.at t).bump rBIST_CNT_SLICE → exec (.selfTestSlice p 4 len steps false t) s =
        .next ((v.spadRepair p (v.fld (rBIST_RESULT + 4) 0 20)).testSteps p 4 steps len)) ∧
    (∀ q, isHub p = false → q ≤ 3 → exec (.selfTestYield p q) s = .next (s.bump rBIST_CNT_YIELD)) ∧
    (∀ order inst err aux, exec (.analogCheck order p inst true err aux) s =
      .next ((s.bump rBIST_CNT_ANALOG).result p 8 0 false (order % 16 + inst % 2 ^ 12 * 2 ^ 4) 0 0)) ∧
    (∀ inst (err : BitVec 32) aux, exec (.analogCheck 6 p inst false err aux) s =
      .next (((s.bump rBIST_CNT_ANALOG).result p 8 3 false (6 + inst % 2 ^ 12 * 2 ^ 4) err.toNat 0).domBreak inst 0x3341 (domWord inst)
        err.toNat)) ∧
    (∀ hours therm valve sites mons, Completes (.ageingUpdate hours therm valve sites mons) s (fun u =>
      u.bist.hours = some hours ∧ u.bist.therm = some therm ∧ u.bist.valve = some valve))

/-- A pair frame is accepted when its header and CRC are good and its TYPE that of the command, its SEQ is the one expected on its
lane-group, its SERIAL the partner's and its EPOCH the panel's own, and it is the last of its message; the expected SEQ then
moves on (R420, R421, R422), as it does for a frame before the last, which has no effect yet. One out of order is refused, and
asked for again by a NAK; one whose header or CRC fails is too. -/
def Obligations.PairFramesInOrder : Prop :=
  ∀ (s : State) (type : Nat) (h : PairHdr) (t : Nat),
    (h.good = true → h.type = type → h.seq = mget 0 s.pair.rxSeq h.lane → h.serial = (s.reg rPAIR_PARTNER).toNat → h.epoch = s.epoch →
      (h.last = true → h.panel = false → (s.pairRx type h t).1 = true) ∧ (h.last = false → (s.pairRx type h t).1 = false) ∧
      (h.panel = false → (s.pairRx type h t).2.pair.rxSeq = mset 0 s.pair.rxSeq h.lane ((h.seq + 1) % 65536)) ∧
      (s.pairRx type h t).2 = { s.at t with pair := (s.pairRx type h t).2.pair }) ∧
    (h.good = true → h.type = type → h.seq ≠ mget 0 s.pair.rxSeq h.lane → (h.seq + 65536 - mget 0 s.pair.rxSeq h.lane) % 65536 < 32768 →
      s.pairRx type h t = (false, ((s.at t).ackFrames h.lane h.ack).sendNak h.lane (mget 0 s.pair.rxSeq h.lane))) ∧
    (h.good = false → s.pairRx type h t = (false, (s.at t).sendNak h.lane h.seq))

/-- Lane-groups (R418, R421): one comes up with its SEQs at 0 when its domain is on and its hub is there; a NAK replays the frames
it asks for; the oldest frame that is not acknowledged is sent again and counted, and the eighth time takes the lane-group
down. A hub that is lost takes its partitions, port and journal copy, its waggle port and its lane-group with it; a second
loss of the same hub does nothing (R405, R418). -/
def Obligations.PairLanesAndHubs : Prop :=
  (∀ (s : State) (lane t : Nat),
     (∀ cause, exec (.pairLaneDown lane cause t) s = .next ((s.at t).laneDown lane cause)) ∧
     (lane ≤ 3 → lane ∉ s.lanesUp → s.domOn (420 + lane) = true → bit s.boot.hubLost lane = false →
       Completes (.pairLaneUp lane t) s (fun u => u.pair.txSeq = mset 0 s.pair.txSeq lane 0 ∧
         u.pair.rxSeq = mset 0 s.pair.rxSeq lane 0 ∧ (∀ b, b ≠ rPAIR_STATUS → u.reg b = s.reg b) ∧
         u = { s.at t with regs := u.regs, pair := u.pair })) ∧
     (lane ∈ s.lanesUp → exec (.pairLaneUp lane t) s = .next (s.at t)) ∧
     (∀ (h : PairHdr) (seq : Nat) (u : State), s.pairRx 10 h t = (true, u) →
       exec (.pairNak h seq t) s = .next (u.replayFrom h.lane seq)) ∧
     (∀ f v, s.pair.frames.find? (fun f => f.lane == lane) = some f → lane ∈ s.lanesUp →
       v = ({ ((s.at t).emit (.pair lane f.type f.body)).bump rPAIR_CNT_REPLAY with
         pair := { s.pair with replays := mset 0 s.pair.replays lane (mget 0 s.pair.replays lane + 1) } } : State) →
       (mget 0 s.pair.replays lane < 7 → exec (.pairReplayTimeout lane t) s = .next v) ∧
       (7 ≤ mget 0 s.pair.replays lane → exec (.pairReplayTimeout lane t) s = .next (v.laneDown lane 1)))) ∧
  (∀ (s : State) (h cause d t : Nat), cause ≤ 1 →
     (bit s.boot.hubLost h = true → exec (.hubLost h cause d t) s = .next (s.at t)) ∧
     (h = 1 ∨ h = 2 → bit s.boot.hubLost h = false →
       exec (.hubLost h cause d t) s = .next (((s.at t).hubLost h cause d).laneDown h 3)) ∧
     (h = 0 → bit s.boot.hubLost h = false → ((s.at t).hubLost h cause d).wglPort 0 ≠ 0 →
       exec (.hubLost h cause d t) s = .next (((((s.at t).hubLost 0 cause d).setFld rGLB_WGL_STAT 0 2 0).wglFault 0x0385 (hubSite 0) 0
         0).laneDown 0 3)))

/-- Frames of a coupled pair that are accepted, as `u` (R424 to R442): HELLO meets a panel that sends it; HEARTBEAT shows the
partner's quadrants and the skew; INGEST forms the demand of the MIRROR secondary; PACE lowers and holds; END may finish the
stroke; DELTA is applied and acknowledged in a standby partition, its acknowledgement may finish the server's stroke; VECTOR
goes out to its site. -/
def Obligations.PairFramesAct : Prop :=
  ∀ (s u : State) (h : PairHdr) (t : Nat),
    (∀ b, s.pairRx 1 h t = (true, u) → u.sendsHello = true → exec (.pairHello h b t) s = .next (u.meetHello h b)) ∧
    (∀ role quads (skew : Int), s.pairRx 2 h t = (true, u) → role < 4 → skew.natAbs ≤ 20000 →
      exec (.pairHeartbeat h role quads skew t) s = .next (({ u with
        pair := { u.pair with
          seen := u.pair.seen || h.epoch == u.epoch,
          quads := (List.range 16).foldl (fun (m : SMap Nat) n => mset 0 m n (quads.getD n 0)) u.pair.quads } } : State).setReg rPAIR_SKEW
        (BitVec.ofNat 64 (unsigned 32 skew)))) ∧
    (∀ a, s.pairRx 3 h t = (true, u) → u.mirrored = true → u.role = 2 → (u.part h.part).inStroke = true → (u.part h.part).phase = 0 →
      (u.part h.part).formed = false → (u.part h.part).stroke.toNat = h.stroke → u.inp.failing = false →
      exec (.pairIngest h a t) s = .next (u.applyIngest h.part a)) ∧
    (∀ e hold, s.pairRx 4 h t = (true, u) → u.mirrored = true → exec (.pairPace h e hold t) s =
      .next (((u.updPp h.part (fun x => { x with pace := some (e, hold), paceNow := true })).lowerTo h.part e).holdWith h.part hold)) ∧
    (∀ a, s.pairRx 5 h t = (true, u) → u.mirrored = true → exec (.pairEnd h a t) s =
      .next ((u.updPp h.part (fun x => { x with peerEnd := some (h.stroke, a) })).tryFinish h.part)) ∧
    (∀ a, s.pairRx 6 h t = (true, u) → u.shared = true → u.standbyPart h.part = true → (u.part h.part).st ≠ .unconfigured →
      exec (.pairDelta h a t) s = .next ((u.applyDelta h.part a).1.pairSend 7 (some h.part)
        (bigBytes 8 h.stroke ++ bigBytes 4 (u.applyDelta h.part a).2.length ++ (u.applyDelta h.part a).2.flatMap (bigBytes 4)))) ∧
    (s.pairRx 7 h t = (true, u) → u.shared = true → u.servesPart h.part = true → exec (.pairDeltaAck h [] t) s =
      .next ((u.updPp h.part (fun x => { x with acked := some h.stroke, unprot := [] })).tryFinish h.part)) ∧
    (∀ (v : BitVec 256) planes len, s.pairRx 11 h t = (true, u) →
      (hdrFail v.toNat planes len = none → exec (.pairVector h v planes len t) s =
        .next (u.emit (.vector (hubSite h.lane) v.toNat planes))) ∧
      (∀ f, hdrFail v.toNat planes len = some f → exec (.pairVector h v planes len t) s =
        .next (u.badVector h.part (hubSite h.lane) v.toNat 4 f)))

/-- CONTROL frames and the resynchronisation (R422, R426, R432, R435, R440, R442): a reset of the partner's is due here too in
MIRROR; QUARANTINE and LEAVE end the membership; an update is remembered; the joiner takes the items of a phase, and with DONE
is secondary and in step. A frame that is not accepted has no such effect. Time limits and commands of the pair (R425, R428,
R430, R431, R442): a partner that has missed its heartbeats is declared dead, one that has not is not; the secondary whose
INGEST is 9 µs from its close without the primary's frame waits a tick, counted; a PACE that does not come lowers the entry by
one; REJOIN in quarantine says hello again, and is an error elsewhere; LEAVE leaves; PAIR_CTL is locked, refused while a
partition is busy, or written. -/
def Obligations.PairControlAndCommands : Prop :=
  (∀ (s u : State) (h : PairHdr) (t : Nat),
     (s.pairRx 8 h t = (true, u) →
       ((u.recControl 1 h).mirrored = true → ((u.recControl 1 h).part h.part).st = .running → exec (.controlReset h t) s =
         .next (((u.recControl 1 h).resetPart h.part 0).updPp h.part (fun x => { x with told := true }))) ∧
       exec (.controlQuarantine h t) s = .next ((u.recControl 2 h).quarantine h.epoch) ∧
       exec (.controlLeave h t) s = .next (((u.recControl 3 h).setEpoch (u.epoch + 1)).leavePair) ∧
       (∀ banks sets, Completes (.controlUpdate h banks sets t) s (fun v => (h.part, banks, sets) ∈ v.pair.want))) ∧
     (s.pairRx 8 h t = (false, u) → exec (.controlQuarantine h t) s = .next u ∧ exec (.controlLeave h t) s = .next u ∧
       exec (.controlReset h t) s = .next u) ∧
     (∀ phase items, s.role ≠ 1 → s.pairRx 9 h t = (true, u) → u.pair.joiner = true → 2 ≤ phase → phase ≤ 4 →
       exec (.pairResync h phase items t) s =
         .next (items.foldl (fun (v : State) x => v.putItem x) (u.setFld rPAIR_STATUS 12 3 phase))) ∧
     (∀ phase items, s.role = 1 → s.resyncing ≠ 0 → s.resyncing ≤ phase → phase ≤ 3 →
       exec (.pairResync h phase items t) s = .next ((s.at t).sendPhase phase [])) ∧
     (∀ strokes, s.role = 1 → s.resyncing = 2 ∨ s.resyncing = 3 → exec (.pairResyncDone h strokes t) s =
       .next (((s.at t).sendPhase 4 ((s.at t).suppliedParts.length :: (s.at t).suppliedParts.flatMap
         (fun n => n :: bigBytes 8 (s.part n).stroke.toNat))).lockStep)) ∧
     (s.role ≠ 1 → s.pairRx 9 h t = (true, u) → u.pair.joiner = true → u.resyncing ≠ 0 → u.modeNow ≠ 1 →
       exec (.pairResyncDone h [] t) s = .next (((u.setRole 2).lockStep).pairFault 0x0441
         (2 + ((u.setRole 2).lockStep).modeNow * 4) ((u.setRole 2).lockStep).epoch))) ∧
  (∀ (s : State) (n t : Nat),
     (s.partnerMissed = true → exec (.pairPartnerDead t) s = .next (s.at t).partnerDead) ∧
     (s.partnerMissed = false → exec (.pairPartnerDead t) s = .next (s.at t)) ∧
     (s.mirrored = true → s.role = 2 → (s.part n).inStroke = true → (s.part n).phase = 0 → (s.part n).formed = false →
       s.ingestNs ≤ (s.at t).sinceEdge + 9000 → exec (.ingestWait n t) s =
         .next ((((s.at t).updPart n (fun p => { p with
           stroke := p.stroke - 1, inStroke := false, phase := 4, slipDepth := p.slipDepth + 1, waits := p.waits + 1 }))).bump
           rPAIR_CNT_PWAIT)) ∧
     (∀ x, s.mirrored = true → (s.part n).inStroke = true → (s.part n).phase = 0 → (s.pp n).paceNow = false → (s.pp n).pace = some x →
       exec (.paceTimeout n t) s = .next (((s.at t).lowerTo n (x.1 - 1)).updPp n (fun z => { z with paceNow := true }))) ∧
     (s.ready = true →
       (s.role = 3 → exec (.pairRejoin 0x01000000 t) s = .next { s.at t with pair := { s.pair with hello := true } }) ∧
       (s.role ≠ 3 → exec (.pairRejoin 0x01000000 t) s = .next ((s.at t).sticky rPAIR_STATUS 31)) ∧
       (s.role ≠ 3 → exec (.pairLeave 0x02000000 t) s = .next ((s.at t).sendControl none 3 []).leavePair) ∧
       (s.role = 3 → exec (.pairLeave 0x02000000 t) s = .next (s.at t).leavePair) ∧
       (∀ w : BitVec 32, (s.locked = true → exec (.pairCtlWrite w t) s = .next (s.at t).lockViol) ∧
         (s.locked = false → s.allIdle = false → exec (.pairCtlWrite w t) s = .next ((s.at t).sticky rPAIR_STATUS 30)) ∧
         (s.locked = false → s.allIdle = true → exec (.pairCtlWrite w t) s = .next ((s.at t).writeSettings rPAIR_CTL w.toNat)))))

/-- Recording and replay (R449 to R456): the word's MODE starts recording or replay, or stops it; HEAD is the host's to write
while the partition does not replay, TAIL while it does not record; the entries of a stroke are taken
when the ring holds them whole, and not before, nor by a partition whose replay has diverged. -/
def Obligations.RecordAndReplay : Prop :=
  ∀ (s : State) (n t : Nat) (w : BitVec 32), s.ready = true →
    (bits w.toNat 0 2 = 1 → exec (.recordStart n w) s = .next (s.writeRplCtl n w.toNat)) ∧
    (bits w.toNat 0 2 = 2 → exec (.replayStart n w) s = .next (s.writeRplCtl n w.toNat)) ∧
    (bits w.toNat 0 2 = 0 ∨ bits w.toNat 0 2 = 3 → exec (.recordStop n w) s = .next (s.writeRplCtl n w.toNat)) ∧
    ((s.recOf n).mode = 2 → exec (.rplHeadWrite n w) s = .next s) ∧
    ((s.recOf n).mode ≠ 2 → (s.recOf n).waiting = false → exec (.rplHeadWrite n w) s =
      .next (s.setFld (rplReg n rRPL_HEAD) 0 25 (bits w.toNat 0 25))) ∧
    ((s.recOf n).mode = 1 → exec (.rplTailWrite n w) s = .next s) ∧
    ((s.recOf n).mode ≠ 1 → exec (.rplTailWrite n w) s = .next (s.setFld (rplReg n rRPL_TAIL) 0 25 (bits w.toNat 0 25))) ∧
    (∀ es : List RecEntry, (s.recOf n).diverged = true ∨
      (s.fld (rplReg n rRPL_TAIL) 0 25 + s.ringUnits n - s.fld (rplReg n rRPL_HEAD) 0 25 % s.ringUnits n) % s.ringUnits n <
        (es.map RecEntry.units).foldl (· + ·) 0 → exec (.replayStroke n es t) s = .next (s.at t)) ∧
    (∀ e : RecEntry, (s.recOf n).mode = 2 → (s.recOf n).req = none → (s.recOf n).seq ≠ 0 → (s.recOf n).diverged = false →
      (s.recOf n).rStroke = none → e.kind = 2 → entryFails e = none →
      e.units ≤ (s.fld (rplReg n rRPL_TAIL) 0 25 + s.ringUnits n - s.fld (rplReg n rRPL_HEAD) 0 25 % s.ringUnits n) % s.ringUnits n →
      exec (.replayStroke n [e] t) s = .next ((((s.at t).setFld (rplReg n rRPL_HEAD) 0 25
        ((s.fld (rplReg n rRPL_HEAD) 0 25 + e.units) % s.ringUnits n)).bumpBy rRPL_CNT_ENTRY 1).updRec n
          (fun r => { r with seq := if r.req = some 2 then r.seq else r.seq + 1 })|>.updRec n (fun r => r.take e)))

/-- Test access (R458, R459): BYPASS, IDCODE and SAMPLE/PRELOAD are always there; the other instructions are loaded when TAP_EN is
set, and otherwise act as BYPASS and set GATED. -/
def Obligations.TestAccess : Prop :=
  ∀ (s : State) (t : Nat),
    (exec (.bypass 0xFF) s = .next (s.setIr 0xFF 0)) ∧
    (exec .idcode s = .next ((s.setIr 1 0).emit (.value rRPL_TAP_STAT 0x24B321CB))) ∧
    (∀ pins load, Completes (.samplePreload pins load) s (fun u => u.rcd.bsr = load.getD pins ∧ u.rcd.ir = 2 ∧ u.rcd.outs = 0)) ∧
    (s.tapEn = true →
      exec .extest s = .next (s.setIr 3 1) ∧ exec .clamp s = .next (s.setIr 4 2) ∧ exec .highz s = .next (s.setIr 5 3) ∧
      (∀ hubs, Completes (.scan hubs) s (fun u => u.rcd.scanned = s.rcd.scanned ||| hubs % 16 ∧ u.rcd.ir = 0x20)) ∧
      (∀ core, Completes (.debug core false t) s (fun u => core ∉ u.rcd.halted ∧ u.rcd.ir = 0x10)) ∧
      (∀ core, exec (.debug core true t) s = .next (({ (s.at t).setIr 0x10 0 with
        rcd := { ((s.at t).setIr 0x10 0).rcd with halted := core :: s.rcd.halted.filter (fun k => k != core) } }.setFld rRPL_TAP_STAT 9 1
          1).debugTouch (core / 8) 0x10 (core % 8))) ∧
      (∀ (a : BitVec 48) (len : Nat) (d : BitVec 512) (e : MemErr) (v u : State), v = (s.at t).setIr 0x11 0 →
        v.rangeBad a.toNat len false = false → (addrSpace a.toNat = 0 → addrOfs a.toNat + len ≤ 2 ^ 26) →
        u = v.memErrs (v.owner (addrSite a.toNat)) (addrSite a.toNat) 0x3FFF e →
        exec (.mem true a len d e t) s = .next (u.memWrite a.toNat len (d.toNat % 2 ^ (8 * len))) ∧
        exec (.mem false a len d e t) s = .next (u.memRead a.toNat len)) ∧
      (∀ b : BitVec 8, exec (.uartRx b) s = .next { s with rcd := { s.rcd with uart := b.toNat :: s.rcd.uart } })) ∧
    (s.tapEn = false → (∀ c ∈ [Instr.extest, .clamp, .highz, .scan 0], exec c s = .next ((s.sticky rRPL_TAP_STAT 8).setIr 0xFF 0)) ∧
      (∀ b : BitVec 8, exec (.uartRx b) s = .next s))

/-- The input stage (R465, R467, R470): charging starts, stops at its limit and is tried again; a failure of the input gates the
quadrants and KV engines, journals 0x42CC and marks the panel failing, once; when the hold-up ends the panel is reset and off,
but keeps the journal's standby parts; the loss of the standby rail clears those. -/
def Obligations.InputPower : Prop :=
  ∀ (s : State) (t : Nat),
    (s.inp.good = false → s.inp.stage = 0 → exec (.inputChargeStart t) s =
      .next { s.at t with inp := { s.inp with stage := 1, standby := true, cut := false } }) ∧
    (s.inp.stage = 1 → exec (.chargeTimeout t) s = .next { s.at t with inp := { s.inp with stage := 2 } }) ∧
    (s.inp.stage = 2 → exec (.chargeRetry t) s = .next { s.at t with inp := { s.inp with stage := 1 } }) ∧
    (∀ cause v w, s.inp.good = true → s.inp.failing = false → Completes (.inputPowerFail cause v w t) s (fun u =>
      u.inp = { s.inp with failing := true, cut := cause == 1 } ∧ u.parts = s.parts)) ∧
    (∀ cause v w, s.inp.failing = true → exec (.inputPowerFail cause v w t) s = .next (s.at t)) ∧
    (s.inp.failing = true → Completes (.holdupExpiry t) s (fun u => u.inp.good = false ∧ u.inp.failing = false ∧ u.inp.stage = 0 ∧
      u.jrnl.ditch = s.jrnl.ditch ∧ u.jrnl.standby = s.jrnl.standby ∧ u.parts = [] ∧ u.pending = s.pending)) ∧
    (Completes (.standbyRailLoss t) s (fun u => u.jrnl.ditch = [] ∧ u.jrnl.ditch15 = none ∧ u.jrnl.standby = [] ∧
      u.inp = { s.inp with standby := false } ∧ u = { s.at t with regs := u.regs, jrnl := u.jrnl, inp := u.inp }))
end

