-- ==== Sys2Proof/Laws/Map.lean ====
section
/-! SUPPORT. Reading back what was written to a sparse array, and that a write keeps the canonical form. -/

namespace Sys2Proof.Machine

theorem mRising_mset {α : Type} [DecidableEq α] (d : α) (m : SMap α) (b k : Nat) (v : α) (hb : b ≤ k) (h : mRising b m = true) :
    mRising b (mset d m k v) = true := by
  induction m generalizing b with
  | nil => unfold mset; split <;> simp [mRising, hb]
  | cons e t ih =>
    obtain ⟨k', v'⟩ := e
    simp only [mRising, Bool.and_eq_true, decide_eq_true_eq] at h
    unfold mset
    split
    · split
      · simp [mRising, h]
      · rename_i h1 _
        simp [mRising, hb, h.2]; omega
    · split
      · rename_i h1 h2
        subst h2
        split
        · have weak : ∀ (m : SMap α) (a c : Nat), a ≤ c → mRising c m = true → mRising a m = true := by
            intro m a c hac hm
            cases m with
            | nil => rfl
            | cons e t =>
              obtain ⟨q, w⟩ := e
              simp only [mRising, Bool.and_eq_true, decide_eq_true_eq] at hm ⊢
              exact ⟨by omega, hm.2⟩
          exact weak t b (k + 1) (by omega) h.2
        · simp [mRising, hb, h.2]
      · simp only [mRising, Bool.and_eq_true, decide_eq_true_eq]
        exact ⟨h.1, ih (k' + 1) (by omega) h.2⟩

theorem mNoDefault_mset {α : Type} [DecidableEq α] (d : Nat → α) (m : SMap α) (k : Nat) (v : α) (h : mNoDefault d m = true) :
    mNoDefault d (mset (d k) m k v) = true := by
  induction m with
  | nil => unfold mset; split <;> simp_all [mNoDefault]
  | cons e t ih =>
    obtain ⟨k', v'⟩ := e
    simp only [mNoDefault, List.all_cons, Bool.and_eq_true, decide_eq_true_eq] at h ih
    unfold mset
    split
    · split <;> simp_all [mNoDefault]
    · split
      · split <;> simp_all [mNoDefault]
      · simp only [mNoDefault, List.all_cons, Bool.and_eq_true, decide_eq_true_eq]
        exact ⟨h.1, ih h.2⟩

theorem mwf_mset {α : Type} [DecidableEq α] (d : Nat → α) (m : SMap α) (k : Nat) (v : α) (h : mwf d m = true) :
    mwf d (mset (d k) m k v) = true := by
  simp only [mwf, Bool.and_eq_true] at h ⊢
  exact ⟨mRising_mset _ _ _ _ _ (Nat.zero_le _) h.1, mNoDefault_mset _ _ _ _ h.2⟩

theorem mget_mset_ne {α : Type} [DecidableEq α] (d e : α) (m : SMap α) (k j : Nat) (v : α) (h : j ≠ k) :
    mget e (mset d m k v) j = mget e m j := by
  induction m with
  | nil => unfold mset; split <;> simp [mget, h]
  | cons x t ih =>
    obtain ⟨k', v'⟩ := x
    unfold mset
    split
    · split <;> simp [mget, h]
    · split
      · rename_i _ h2; subst h2
        split <;> simp [mget, h]
      · simp only [mget, ih]

theorem mget_default {α : Type} (e : α) (m : SMap α) (b j : Nat) (hb : mRising b m = true) (hj : j < b) : mget e m j = e := by
  induction m generalizing b with
  | nil => rfl
  | cons x t ih =>
    obtain ⟨k', v'⟩ := x
    simp only [mRising, Bool.and_eq_true, decide_eq_true_eq] at hb
    have : ¬ j = k' := by omega
    simp only [mget, this, if_false]
    exact ih _ hb.2 (by omega)

theorem mget_mset {α : Type} [DecidableEq α] (d : α) (m : SMap α) (b k : Nat) (v : α) (hm : mRising b m = true) :
    mget d (mset d m k v) k = v := by
  induction m generalizing b with
  | nil => unfold mset; split <;> simp_all [mget]
  | cons x t ih =>
    obtain ⟨k', v'⟩ := x
    have hm' := hm
    simp only [mRising, Bool.and_eq_true, decide_eq_true_eq] at hm
    unfold mset
    split
    · rename_i h1
      split
      · rename_i h2
        have : ¬ k = k' := by omega
        simp only [mget, this, if_false]
        rw [h2]; exact mget_default _ _ _ _ hm.2 (by omega)
      · simp [mget]
    · split
      · rename_i h1 h2
        split
        · rename_i h3
          rw [h3]; exact mget_default _ _ _ _ hm.2 (by omega)
        · simp [mget]
      · rename_i h1 h2
        simp only [mget, h2, if_false]
        exact ih _ hm.2

theorem mget_mset_nd {α : Type} [DecidableEq α] (d : α) (m : SMap α) (k : Nat) (v : α) (h : v ≠ d) : mget d (mset d m k v) k = v := by
  induction m with
  | nil => simp [mset, h, mget]
  | cons x t ih =>
    obtain ⟨k', v'⟩ := x
    unfold mset
    split
    · simp [mget]
    · split
      · simp [mget]
      · rename_i h1 h2; simp only [mget, h2, if_false, ih]

theorem mget_mset_wf {α : Type} [DecidableEq α] (d : Nat → α) (m : SMap α) (k : Nat) (v : α) (h : mwf d m = true) :
    mget (d k) (mset (d k) m k v) k = v := by
  simp only [mwf, Bool.and_eq_true] at h
  exact mget_mset _ _ 0 _ _ h.1

theorem mset_fst_filter {α : Type} [DecidableEq α] (d : α) (m : SMap α) (k : Nat) (v : α) (f : Nat → Bool) (hf : f k = false) :
    ((mset d m k v).map Prod.fst).filter f = (m.map Prod.fst).filter f := by
  induction m with
  | nil => unfold mset; split <;> simp [hf]
  | cons x t ih =>
    obtain ⟨k', v'⟩ := x
    unfold mset
    split
    · split <;> simp [hf]
    · split
      · rename_i h2; subst h2
        split <;> simp [hf]
      · simp only [List.map_cons, List.filter_cons, ih]

theorem mem_mset {α : Type} [DecidableEq α] (d : α) (m : SMap α) (k : Nat) (v : α) (e : Nat × α) (h : e ∈ mset d m k v) :
    e = (k, v) ∨ e ∈ m := by
  induction m with
  | nil => unfold mset at h; split at h <;> simp_all
  | cons x t ih =>
    obtain ⟨k', v'⟩ := x
    unfold mset at h
    repeat' split at h
    all_goals simp_all
    all_goals tauto

theorem mget_mem {α : Type} (d : α) (m : SMap α) (k : Nat) : mget d m k = d ∨ (k, mget d m k) ∈ m := by
  induction m with
  | nil => exact .inl rfl
  | cons x t ih =>
    obtain ⟨k', v'⟩ := x
    unfold mget
    split
    · rename_i h; exact .inr (by simp [h])
    · rcases ih with h | h
      · exact .inl h
      · exact .inr (List.mem_cons_of_mem _ h)

/-- Of two writes to the same place the second stands. -/
theorem mset_mset {α : Type} [DecidableEq α] (d : α) (m : SMap α) (k : Nat) (v w : α) (hv : v ≠ d) :
    mset d (mset d m k v) k w = mset d m k w := by
  induction m with
  | nil => simp [mset, hv]
  | cons x t ih =>
    obtain ⟨k', v'⟩ := x
    by_cases h1 : k < k'
    · simp [mset, h1, hv]
    · by_cases h2 : k = k'
      · simp [mset, h2, hv]
      · simp [mset, h1, h2, ih]

end Sys2Proof.Machine
end

