-- ==== Sys2Proof/Laws/Kept.lean ====
section
/-! SUPPORT. What every operation keeps: the queue, the canonical form of the register file and of the memories, GLB_ID, and,
unless it resets the panel, the configuration lock. -/

namespace Sys2Proof.Machine

/-- What an operation may do beyond the common: nothing, make the tick edge, or reset the panel. -/
inductive Lic where
  | none | edge | reset
  deriving DecidableEq, Repr

/-- What only goes forward: panel time, the fuses, and (but for a licence) the core of the tick generator. -/
structure Onward (r : Lic) (s t : State) : Prop where
  time : s.time ≤ t.time
  svn  : s.svnMin ≤ t.svnMin
  rev  : ∀ k, bit s.boot.revoked k = true → bit t.boot.revoked k = true
  core : r = .none → tickCore t.tick = tickCore s.tick

/-- `t` follows from `s` by an operation that keeps all this; `r`: what it may do beyond. -/
structure Kept (r : Lic) (s t : State) : Prop where
  queue : t.pending = s.pending
  good  : Good s → Good t
  lock  : r ≠ .reset → Good s → s.locked = true → t.locked = true
  on    : Onward r s t

/-- Setting a bit keeps every bit that is set. -/
theorem bit_orBit (x i k : Nat) (h : bit x k = true) : bit (orBit x i) k = true := by
  have e : orBit x i = x - x / 2 ^ i % 2 * 2 ^ i + 2 ^ i := by simp [orBit, setBits, bits]
  have hp : 0 < 2 ^ i := Nat.two_pow_pos i
  rcases Nat.mod_two_eq_zero_or_one (x / 2 ^ i) with hi | hi
  · have e2 : orBit x i = x + 2 ^ i := by rw [e, hi]; omega
    have hk : k ≠ i := by rintro rfl; simp [bit, hi] at h
    simp only [bit, beq_iff_eq, e2] at h ⊢
    rcases Nat.lt_or_gt_of_ne hk with hlt | hgt
    · have : 2 ^ i = 2 ^ k * (2 * 2 ^ (i - k - 1)) := by rw [← pow_succ', ← pow_add]; congr 1; omega
      rw [this, Nat.add_mul_div_left _ _ (Nat.two_pow_pos k)]; omega
    · have h2 : (x + 2 ^ i) / 2 ^ (i + 1) = x / 2 ^ (i + 1) := by
        rw [pow_succ, ← Nat.div_div_eq_div_mul, ← Nat.div_div_eq_div_mul, Nat.add_div_right _ hp]; omega
      have hpk : 2 ^ k = 2 ^ (i + 1) * 2 ^ (k - i - 1) := by rw [← pow_add]; congr 1; omega
      rw [hpk, ← Nat.div_div_eq_div_mul] at h ⊢
      rw [h2]; exact h
  · have e2 : orBit x i = x := by
      rw [e, hi]
      have : 2 ^ i ≤ x := by
        by_contra hc
        rw [Nat.div_eq_of_lt (by omega)] at hi; cases hi
      omega
    rw [e2]; exact h

theorem Onward.same {r : Lic} {s u t : State} (h : Onward r s u) (h1 : u.time ≤ t.time) (h2 : t.boot.svnMin = u.boot.svnMin)
    (h3 : t.boot.revoked = u.boot.revoked) (h4 : tickCore t.tick = tickCore u.tick) : Onward r s t :=
  ⟨h.time.trans h1, by simpa [State.svnMin, h2] using h.svn, by rw [h3]; exact h.rev, fun hr => h4.trans (h.core hr)⟩

theorem Kept.refl (r : Lic) (s : State) : Kept r s s :=
  ⟨rfl, id, fun _ _ h => h, ⟨Nat.le_refl _, Nat.le_refl _, fun _ h => h, fun _ => rfl⟩⟩

theorem Kept.cut {r : Lic} {s0 x : State} {P : Prop} (h1 : Kept r s0 x) (h2 : Kept r s0 x → P) : P := h2 h1

theorem Kept.same {r : Lic} {s0 u t : State} (h : Kept r s0 u) (h1 : t.pending = u.pending) (h2 : t.regs = u.regs)
    (h3 : t.spad.mem = u.spad.mem) (h4 : t.kv.hbm = u.kv.hbm) (h5 : t.staged = u.staged) (h6 : t.clt.staged = u.clt.staged)
    (h7 : u.time ≤ t.time) (h8 : t.boot.svnMin = u.boot.svnMin) (h9 : t.boot.revoked = u.boot.revoked)
    (h10 : tickCore t.tick = tickCore u.tick) : Kept r s0 t := by
  have e (a : Nat) : t.reg a = u.reg a := by simp [State.reg, h2]
  refine ⟨h1.trans h.queue, fun g => ?_, fun hr g l => ?_, h.on.same h7 h8 h9 h10⟩
  · have := h.good g
    exact ⟨h2 ▸ this.regs, h3 ▸ this.spad, h4 ▸ this.hbm, (e _).trans this.id, h5 ▸ this.st, h6 ▸ this.cst⟩
  · have := h.lock hr g l
    simpa [State.locked, State.flag, e] using this

theorem Kept.mk' {r : Lic} {s0 u : State} {x_latch : List (Nat × Nat × Nat)} {x_hot : List (Nat × Nat)} {x_free : Nat} {x_out : List OutMsg} {x_tick : TickSt} {x_parts : SMap Part} {x_host : HostSt} {x_comb : CombSt} {x_rq : RqSt} {x_sparse : SparseSt} {x_desc : DescSt} {x_kv : KvSt} {x_spad : SpadSt} {x_fab : FabSt} {x_pwr : PwrSt} {x_dom : DomSt} {x_clt : CltSt} {x_boot : BootSt} {x_inp : InpSt} {x_bist : BistSt} {x_wgl : WaggleSt} {x_sls : SealSt} {x_rcd : RecSt} {x_pair : PairSt} {x_jrnl : JrnlSt}
    (h : Kept r s0 u) (h3 : x_spad.mem = u.spad.mem) (h4 : x_kv.hbm = u.kv.hbm) (h6 : x_clt.staged = u.clt.staged)
    (h8 : x_boot.svnMin = u.boot.svnMin) (h9 : x_boot.revoked = u.boot.revoked) (h10 : tickCore x_tick = tickCore u.tick) :
    Kept r s0 (State.mk u.regs u.time x_latch x_hot x_free x_out u.staged x_tick x_parts x_host x_comb x_rq x_sparse x_desc x_kv x_spad x_fab x_pwr x_dom x_clt x_boot x_inp x_bist x_wgl x_sls x_rcd x_pair x_jrnl u.pending) :=
  Kept.same h rfl rfl h3 h4 rfl h6 (Nat.le_refl _) h8 h9 h10

theorem Kept.foldl {α : Type} {r : Lic} {s0 u : State} {g : State → α → State} {l : List α} (h : Kept r s0 u)
    (hg : ∀ v x, Kept r s0 v → Kept r s0 (g v x)) : Kept r s0 (l.foldl g u) := by
  induction l generalizing u with
  | nil => exact h
  | cons x t ih => exact ih (hg _ _ h)

theorem Kept.foldl1 {α β : Type} {r : Lic} {s0 : State} {u : (State × β)} {g : (State × β) → α → (State × β)} {l : List α}
    (h : Kept r s0 u.1) (hg : ∀ v x, Kept r s0 v.1 → Kept r s0 (g v x).1) : Kept r s0 (l.foldl g u).1 := by
  induction l generalizing u with
  | nil => exact h
  | cons x t ih => exact ih (hg _ _ h)
theorem Kept.foldl2 {α β : Type} {r : Lic} {s0 : State} {u : (β × State)} {g : (β × State) → α → (β × State)} {l : List α}
    (h : Kept r s0 u.2) (hg : ∀ v x, Kept r s0 v.2 → Kept r s0 (g v x).2) : Kept r s0 (l.foldl g u).2 := by
  induction l generalizing u with
  | nil => exact h
  | cons x t ih => exact ih (hg _ _ h)
theorem Kept.foldlWOut {α : Type} {r : Lic} {s0 : State} {u : WOut} {g : WOut → α → WOut} {l : List α}
    (h : Kept r s0 u.st) (hg : ∀ v x, Kept r s0 v.st → Kept r s0 (g v x).st) : Kept r s0 (l.foldl g u).st := by
  induction l generalizing u with
  | nil => exact h
  | cons x t ih => exact ih (hg _ _ h)
theorem Kept.foldlWalk {α : Type} {r : Lic} {s0 : State} {u : Walk} {g : Walk → α → Walk} {l : List α}
    (h : Kept r s0 u.st) (hg : ∀ v x, Kept r s0 v.st → Kept r s0 (g v x).st) : Kept r s0 (l.foldl g u).st := by
  induction l generalizing u with
  | nil => exact h
  | cons x t ih => exact ih (hg _ _ h)
theorem Kept.foldlPlace {α : Type} {r : Lic} {s0 : State} {u : Place} {g : Place → α → Place} {l : List α}
    (h : Kept r s0 u.st) (hg : ∀ v x, Kept r s0 v.st → Kept r s0 (g v x).st) : Kept r s0 (l.foldl g u).st := by
  induction l generalizing u with
  | nil => exact h
  | cons x t ih => exact ih (hg _ _ h)

/-- An outcome that is a next state which keeps all this. -/
def KeptR (r : Lic) (s0 : State) (x : Res) : Prop := ∃ t, x = .next t ∧ Kept r s0 t
theorem KeptR.next {r : Lic} {s0 t : State} (h : Kept r s0 t) : KeptR r s0 (.next t) := ⟨t, rfl, h⟩

/-- The same of an operation that may have no answer. -/
structure KeptO (r : Lic) (s0 : State) (x : Option State) : Prop where
  of : ∀ t, x = some t → Kept r s0 t
theorem KeptO.some {r : Lic} {s0 t : State} (h : Kept r s0 t) : KeptO r s0 (some t) := by
  constructor; intro u hu; cases hu; exact h
theorem KeptO.none {r : Lic} {s0 : State} : KeptO r s0 none := by constructor; intro u hu; cases hu
theorem KeptO.map {r : Lic} {s0 : State} {x : Option State} {f : State → State} (h : KeptO r s0 x)
    (hf : ∀ u, Kept r s0 u → Kept r s0 (f u)) : KeptO r s0 (x.map f) := by
  constructor
  intro t ht
  cases x with
  | none => cases ht
  | some u => cases ht; exact hf u (h.of u rfl)

theorem KeptO.map2 {α : Type} {r : Lic} {s0 : State} {x : Option α} {f : α → State}
    (h : ∀ z, x = Option.some z → Kept r s0 (f z)) : KeptO r s0 (x.map f) := by
  constructor
  intro t ht
  cases x with
  | none => cases ht
  | some u => cases ht; exact h u rfl
theorem KeptO.bind {α : Type} {r : Lic} {s0 : State} {x : Option α} {f : α → Option State}
    (h : ∀ z, x = Option.some z → KeptO r s0 (f z)) : KeptO r s0 (x.bind f) := by
  cases x with
  | none => exact KeptO.none
  | some z => exact h z rfl
theorem Kept.elim {α : Type} {r : Lic} {s0 a : State} {x : Option α} {f : α → State} (ha : Kept r s0 a)
    (hf : ∀ z, x = Option.some z → Kept r s0 (f z)) : Kept r s0 (x.elim a f) := by
  cases x with
  | none => exact ha
  | some z => exact hf z rfl
theorem KeptO.cut {r : Lic} {s0 : State} {x : Option State} {P : Prop} (h1 : KeptO r s0 x) (h2 : KeptO r s0 x → P) : P := h2 h1
theorem KeptO.get {r : Lic} {s0 t : State} {x : Option State} (h : KeptO r s0 x) (e : x = Option.some t) : Kept r s0 t := h.of t e

theorem lt_add_reg {a b : Nat} (h : 4 < a) : 4 < a + b := Nat.lt_of_lt_of_le h (Nat.le_add_right a b)
theorem lt_siteReg (p o : Nat) : 4 < siteReg p o := by unfold siteReg siteWindow0; omega

theorem State.setReg_kept {r : Lic} {s0 s : State} (h : Kept r s0 s) {a : Nat} {v : DWord} (ha : 4 < a) :
    Kept r s0 (s.setReg a v) := by
  have e (b : Nat) (hb : b ≤ 4) : (s.setReg a v).reg b = s.reg b := by
    simp only [State.reg, State.setReg]; exact mget_mset_ne _ _ _ _ _ _ (by omega)
  refine ⟨h.queue, fun g => ?_, fun hr g l => ?_, h.on.same (Nat.le_refl _) rfl rfl rfl⟩
  · have k := h.good g
    exact ⟨mwf_mset _ _ _ _ k.regs, k.spad, k.hbm, (e _ (by decide)).trans k.id, k.st, k.cst⟩
  · have k := h.lock hr g l
    simpa [State.locked, State.flag, e rGLB_CFG_LOCK (by decide)] using k

theorem State.setGranule_kept {r : Lic} {s0 s : State} (h : Kept r s0 s) {p g : Nat} {v : BitVec 512} :
    Kept r s0 (s.setGranule p g v) := by
  refine ⟨h.queue, fun k => ?_, h.lock, h.on.same (Nat.le_refl _) rfl rfl rfl⟩
  have k := h.good k
  refine ⟨k.regs, ?_, k.hbm, k.id, k.st, k.cst⟩
  simp only [State.setGranule]
  split_ifs <;> first | exact k.spad | exact mwf_mset (fun _ => 0) _ _ _ k.spad

theorem State.setHbmGran_kept {r : Lic} {s0 s : State} (h : Kept r s0 s) {p f g : Nat} {v : BitVec 512} :
    Kept r s0 (s.setHbmGran p f g v) := by
  refine ⟨h.queue, fun k => ?_, h.lock, h.on.same (Nat.le_refl _) rfl rfl rfl⟩
  have k := h.good k
  exact ⟨k.regs, k.spad, mwf_mset (fun _ => 0) _ _ _ k.hbm, k.id, k.st, k.cst⟩

theorem mRising_weaken {α : Type} {m : SMap α} {a b : Nat} (h : mRising b m = true) (hab : a ≤ b) : mRising a m = true := by
  cases m with
  | nil => rfl
  | cons e t =>
    obtain ⟨k, v⟩ := e
    simp only [mRising, Bool.and_eq_true, decide_eq_true_eq] at h ⊢
    exact ⟨by omega, h.2⟩

theorem mwf_filter {α : Type} [DecidableEq α] (d : Nat → α) (m : SMap α) (f : Nat × α → Bool) (h : mwf d m = true) :
    mwf d (m.filter f) = true := by
  simp only [mwf, Bool.and_eq_true] at h ⊢
  constructor
  · have main : ∀ (m : SMap α) (b : Nat), mRising b m = true → mRising b (m.filter f) = true := by
      intro m
      induction m with
      | nil => intro b _; rfl
      | cons e t ih =>
        obtain ⟨k, v⟩ := e
        intro b hb
        simp only [mRising, Bool.and_eq_true, decide_eq_true_eq] at hb
        simp only [List.filter_cons]
        split
        · simp only [mRising, Bool.and_eq_true, decide_eq_true_eq]
          exact ⟨hb.1, ih _ hb.2⟩
        · exact mRising_weaken (ih _ hb.2) (by omega)
    exact main m 0 h.1
  · simp only [mNoDefault, List.all_eq_true] at h ⊢
    exact fun x hx => h.2 x (List.mem_of_mem_filter hx)

theorem mwf_foldl_mset {α β : Type} [DecidableEq α] (d : α) (l : List β) (k : β → Nat) (v : β → α) (m : SMap α)
    (h : mwf (fun _ => d) m = true) : mwf (fun _ => d) (l.foldl (fun m i => mset d m (k i) (v i)) m) = true := by
  induction l generalizing m with
  | nil => exact h
  | cons x t ih => exact ih _ (mwf_mset (fun _ => d) _ _ _ h)

theorem Kept.whenGood {r : Lic} {s0 t : State} (hq : t.pending = s0.pending) (ho : Onward r s0 t) (h : Good s0 → Kept r s0 t) : Kept r s0 t :=
  ⟨hq, fun g => (h g).good g, fun hr g => (h g).lock hr g, ho⟩
theorem foldl_pending {α : Type} {g : State → α → State} {l : List α} {u : State} (h : ∀ v x, (g v x).pending = v.pending) :
    (l.foldl g u).pending = u.pending := by
  induction l generalizing u with
  | nil => rfl
  | cons x t ih => exact ih.trans (h _ _)
theorem foldl_onward {α : Type} {r : Lic} {s0 u : State} {g : State → α → State} {l : List α}
    (h : ∀ v x, Onward r s0 v → Onward r s0 (g v x)) (hu : Onward r s0 u) : Onward r s0 (l.foldl g u) := by
  induction l generalizing u with
  | nil => exact hu
  | cons x t ih => exact ih (h _ _ hu)
theorem Kept.foldlMem {α : Type} {r : Lic} {s0 u : State} {g : State → α → State} {l : List α} (h : Kept r s0 u)
    (hg : ∀ v, ∀ x ∈ l, Kept r s0 v → Kept r s0 (g v x)) : Kept r s0 (l.foldl g u) := by
  induction l generalizing u with
  | nil => exact h
  | cons x t ih => exact ih (hg _ _ (List.mem_cons_self ..) h) (fun v y hy => hg v y (List.mem_cons_of_mem _ hy))
theorem Kept.ite {c : Prop} [Decidable c] {r : Lic} {s0 a b : State} (ha : c → Kept r s0 a) (hb : ¬c → Kept r s0 b) :
    Kept r s0 (if c then a else b) := by
  split
  · exact ha ‹_›
  · exact hb ‹_›
theorem Kept.iteSt {c : Prop} [Decidable c] {r : Lic} {s0 : State} {a b : WOut} (ha : c → Kept r s0 a.st)
    (hb : ¬c → Kept r s0 b.st) : Kept r s0 (if c then a else b).st := by
  split
  · exact ha ‹_›
  · exact hb ‹_›
theorem foldl_inv {α β γ : Type} {g : α → β → α} {l : List β} {u : α} (π : α → γ) (h : ∀ y x, π (g y x) = π y) :
    π (l.foldl g u) = π u := by
  induction l generalizing u with
  | nil => rfl
  | cons x t ih => exact ih.trans (h _ _)
theorem Kept.withStaged {r : Lic} {s0 u : State} {l : List (Nat × DWord)} (h : Kept r s0 u)
    (hl : Good u → ∀ x ∈ l, 4 < x.1) : Kept r s0 { u with staged := l } :=
  ⟨h.queue, fun g => have k := h.good g; ⟨k.regs, k.spad, k.hbm, k.id, hl k, k.cst⟩, h.lock, h.on.same (Nat.le_refl _) rfl rfl rfl⟩
theorem Kept.withClt {r : Lic} {s0 u : State} {c : CltSt} (h : Kept r s0 u)
    (hl : Good u → ∀ x ∈ c.staged, 4 < x.1) : Kept r s0 { u with clt := c } :=
  ⟨h.queue, fun g => have k := h.good g; ⟨k.regs, k.spad, k.hbm, k.id, k.st, hl k⟩, h.lock, h.on.same (Nat.le_refl _) rfl rfl rfl⟩
theorem Kept.withKv {r : Lic} {s0 u : State} {c : KvSt} (h : Kept r s0 u)
    (hl : Good u → mwf (fun _ => 0) c.hbm = true) : Kept r s0 { u with kv := c } :=
  ⟨h.queue, fun g => have k := h.good g; ⟨k.regs, k.spad, hl k, k.id, k.st, k.cst⟩, h.lock, h.on.same (Nat.le_refl _) rfl rfl rfl⟩
theorem Kept.withSpad {r : Lic} {s0 u : State} {c : SpadSt} (h : Kept r s0 u)
    (hl : Good u → mwf (fun _ => 0) c.mem = true) : Kept r s0 { u with spad := c } :=
  ⟨h.queue, fun g => have k := h.good g; ⟨k.regs, hl k, k.hbm, k.id, k.st, k.cst⟩, h.lock, h.on.same (Nat.le_refl _) rfl rfl rfl⟩

theorem nextOf_kept {r : Lic} {s0 s : State} {x : Res} (_ : Kept r s0 s) (hx : KeptR r s0 x) : Kept r s0 (nextOf x s) := by
  obtain ⟨t, rfl, ht⟩ := hx
  exact ht

theorem lt_rplReg {n a : Nat} (h : 4 < a) : 4 < rplReg n a := by unfold rplReg; omega
theorem lt_leqReg (n : Nat) : 4 < leqReg n := lt_siteReg _ _

end Sys2Proof.Machine
end

