-- ==== Sys2Proof/Laws/KeptOps.lean ====
section
/-! SUPPORT. What the operations of Machine/Ops.lean keep (Laws/Kept.lean). -/

set_option linter.unusedTactic false
set_option linter.unreachableTactic false
set_option linter.unusedVariables false

namespace Sys2Proof.Machine

theorem State.setFld_kept {rK : Lic} {oK : State} {s : State} (hK : Kept rK oK s) {a : Nat} {lo : Nat} {n : Nat} {v : Nat} (hA_a : 4 < a) :
 Kept rK oK (State.setFld s a lo n v) := by
  unfold State.setFld
  repeat' first
    | with_reducible assumption
    | with_reducible apply State.setReg_kept

theorem State.heat_kept {rK : Lic} {oK : State} {s : State} (hK : Kept rK oK s) {a : Nat} {i : Nat} :
 Kept rK oK (State.heat s a i) := by
  unfold State.heat
  repeat' first
    | with_reducible assumption
    | split
    | (with_reducible refine Kept.mk' (r := rK) (s0 := oK) ?_ rfl rfl rfl rfl rfl rfl)
    | (dsimp only; split)

theorem State.sticky_kept {rK : Lic} {oK : State} {s : State} (hK : Kept rK oK s) {a : Nat} {i : Nat} (hA_a : 4 < a) :
 Kept rK oK (State.sticky s a i) := by
  unfold State.sticky
  repeat' first
    | with_reducible assumption
    | with_reducible apply State.heat_kept
    | with_reducible apply State.setFld_kept
    | exact lt_siteReg _ _
    | with_reducible refine lt_rplReg ?_
    | with_reducible exact lt_leqReg _
    | with_reducible refine lt_add_reg ?_
    | decide
    | (with_reducible refine Kept.mk' (r := rK) (s0 := oK) ?_ rfl rfl rfl rfl rfl rfl)
    | (dsimp only; split)

theorem State.bumpBy_kept {rK : Lic} {oK : State} {s : State} (hK : Kept rK oK s) {a : Nat} {k : Nat} (hA_a : 4 < a) :
 Kept rK oK (State.bumpBy s a k) := by
  unfold State.bumpBy
  repeat' first
    | with_reducible assumption
    | with_reducible apply State.setReg_kept

theorem State.bump_kept {rK : Lic} {oK : State} {s : State} (hK : Kept rK oK s) {a : Nat} (hA_a : 4 < a) :
 Kept rK oK (State.bump s a) := by
  unfold State.bump
  repeat' first
    | with_reducible assumption
    | with_reducible apply State.bumpBy_kept

theorem State.lockViol_kept {rK : Lic} {oK : State} {s : State} (hK : Kept rK oK s) :
 Kept rK oK (State.lockViol s) := by
  unfold State.lockViol
  repeat' first
    | with_reducible assumption
    | with_reducible apply State.bump_kept
    | with_reducible apply State.sticky_kept
    | decide

theorem State.satFld_kept {rK : Lic} {oK : State} {s : State} (hK : Kept rK oK s) {a : Nat} {lo : Nat} {n : Nat} {k : Nat} (hA_a : 4 < a) :
 Kept rK oK (State.satFld s a lo n k) := by
  unfold State.satFld
  repeat' first
    | with_reducible assumption
    | with_reducible apply State.setFld_kept

theorem State.at_kept {rK : Lic} {oK : State} {s : State} (hK : Kept rK oK s) {t : Nat} : Kept rK oK (State.at s t) :=
  hK.same rfl rfl rfl rfl rfl rfl (Nat.le_max_left _ _) rfl rfl rfl

theorem State.emit_kept {rK : Lic} {oK : State} {s : State} (hK : Kept rK oK s) {m : OutMsg} :
 Kept rK oK (State.emit s m) := by
  unfold State.emit
  repeat' first
    | with_reducible assumption
    | (with_reducible refine Kept.mk' (r := rK) (s0 := oK) ?_ rfl rfl rfl rfl rfl rfl)

theorem State.takeFree_kept {rK : Lic} {oK : State} {s : State} (hK : Kept rK oK s) :
 Kept rK oK (State.takeFree s).2 := by
  unfold State.takeFree
  repeat' first
    | with_reducible assumption
    | (with_reducible refine Kept.mk' (r := rK) (s0 := oK) ?_ rfl rfl rfl rfl rfl rfl)

theorem State.setPart_kept {rK : Lic} {oK : State} {s : State} (hK : Kept rK oK s) {n : Nat} {p : Part} :
 Kept rK oK (State.setPart s n p) := by
  unfold State.setPart
  repeat' first
    | with_reducible assumption
    | (with_reducible refine Kept.mk' (r := rK) (s0 := oK) ?_ rfl rfl rfl rfl rfl rfl)

theorem State.updPart_kept {rK : Lic} {oK : State} {s : State} (hK : Kept rK oK s) {n : Nat} {f : Part → Part} :
 Kept rK oK (State.updPart s n f) := by
  unfold State.updPart
  repeat' first
    | with_reducible assumption
    | with_reducible apply State.setPart_kept

theorem State.setStream_kept {rK : Lic} {oK : State} {s : State} (hK : Kept rK oK s) {i : Nat} {x : Stream} :
 Kept rK oK (State.setStream s i x) := by
  unfold State.setStream
  repeat' first
    | with_reducible assumption
    | (with_reducible refine Kept.mk' (r := rK) (s0 := oK) ?_ rfl rfl rfl rfl rfl rfl)

theorem State.updStream_kept {rK : Lic} {oK : State} {s : State} (hK : Kept rK oK s) {i : Nat} {f : Stream → Stream} :
 Kept rK oK (State.updStream s i f) := by
  unfold State.updStream
  repeat' first
    | with_reducible assumption
    | with_reducible apply State.setStream_kept

theorem State.queueEvent_kept {rK : Lic} {oK : State} {s : State} (hK : Kept rK oK s) {e : Event} :
 Kept rK oK (State.queueEvent s e) := by
  unfold State.queueEvent
  repeat' first
    | with_reducible assumption
    | split
    | with_reducible apply State.bump_kept
    | decide
    | (with_reducible refine Kept.mk' (r := rK) (s0 := oK) ?_ rfl rfl rfl rfl rfl rfl)

theorem State.journal_kept {rK : Lic} {oK : State} {s : State} (hK : Kept rK oK s) {code : Nat} {part : Nat} {sslot : Nat} {site : Nat} {d0 : Nat} {d1 : Nat} :
 Kept rK oK (State.journal s code part sslot site d0 d1) := by
  unfold State.journal
  repeat' first
    | with_reducible assumption
    | with_reducible apply State.queueEvent_kept

theorem State.mark_kept {rK : Lic} {oK : State} {s : State} (hK : Kept rK oK s) {code : Nat} {part : Nat} {item : Nat} :
 Kept rK oK (State.mark s code part item) := by
  unfold State.mark
  repeat' first
    | with_reducible assumption
    | split
    | (with_reducible refine Kept.mk' (r := rK) (s0 := oK) ?_ rfl rfl rfl rfl rfl rfl)

theorem State.clearMarks_kept {rK : Lic} {oK : State} {s : State} (hK : Kept rK oK s) {part : Nat} :
 Kept rK oK (State.clearMarks s part) := by
  unfold State.clearMarks
  repeat' first
    | with_reducible assumption
    | (with_reducible refine Kept.mk' (r := rK) (s0 := oK) ?_ rfl rfl rfl rfl rfl rfl)

theorem State.resetPart_kept {rK : Lic} {oK : State} {s : State} (hK : Kept rK oK s) {part : Nat} {code : Nat} :
 Kept rK oK (State.resetPart s part code) := by
  unfold State.resetPart
  repeat' first
    | with_reducible assumption
    | with_reducible apply State.updPart_kept

theorem State.endStream_kept {rK : Lic} {oK : State} {s : State} (hK : Kept rK oK s) {i : Nat} {code : Nat} :
 Kept rK oK (State.endStream s i code) := by
  unfold State.endStream
  repeat' first
    | with_reducible assumption
    | with_reducible apply State.updStream_kept

theorem State.respond_kept {rK : Lic} {oK : State} {s : State} (hK : Kept rK oK s) {code : Nat} {part : Nat} {sslot : Nat} :
 Kept rK oK (State.respond s code part sslot) := by
  unfold State.respond
  repeat' first
    | with_reducible assumption
    | split
    | with_reducible apply State.endStream_kept
    | with_reducible apply State.resetPart_kept
    | with_reducible apply State.updPart_kept
    | (with_reducible refine Kept.mk' (r := rK) (s0 := oK) ?_ rfl rfl rfl rfl rfl rfl)
    | (dsimp only; split)

theorem State.raise_kept {rK : Lic} {oK : State} {s : State} (hK : Kept rK oK s) {code : Nat} {part : Nat} {sslot : Nat} {site : Nat} {d0 : Nat} {d1 : Nat} :
 Kept rK oK (State.raise s code part sslot site d0 d1) := by
  unfold State.raise
  repeat' first
    | with_reducible assumption
    | with_reducible apply State.journal_kept
    | with_reducible apply State.respond_kept

theorem State.raiseOnce_kept {rK : Lic} {oK : State} {s : State} (hK : Kept rK oK s) {item : Nat} {code : Nat} {part : Nat} {sslot : Nat} {site : Nat} {d0 : Nat} {d1 : Nat} :
 Kept rK oK (State.raiseOnce s item code part sslot site d0 d1) := by
  unfold State.raiseOnce
  repeat' first
    | with_reducible assumption
    | split
    | with_reducible apply State.journal_kept
    | with_reducible apply State.mark_kept
    | with_reducible apply State.respond_kept

theorem State.notify_kept {rK : Lic} {oK : State} {s : State} (hK : Kept rK oK s) {kind : Nat} {index : Nat} {sub : Nat} {data : Nat} :
 Kept rK oK (State.notify s kind index sub data) := by
  unfold State.notify
  repeat' first
    | with_reducible assumption
    | with_reducible apply State.bump_kept
    | decide
    | (with_reducible refine Kept.mk' (r := rK) (s0 := oK) ?_ rfl rfl rfl rfl rfl rfl; first | with_reducible assumption | with_reducible apply State.bump_kept)
    | (dsimp only; split)

theorem State.clamped_kept {rK : Lic} {oK : State} {s : State} (hK : Kept rK oK s) {source : Nat} {es : List ClampEntry} :
 Kept rK oK (State.clamped s source es) := by
  unfold State.clamped
  repeat' first
    | with_reducible assumption
    | split
    | with_reducible apply State.notify_kept
    | with_reducible apply State.sticky_kept
    | decide
    | (with_reducible refine Kept.mk' (r := rK) (s0 := oK) ?_ rfl rfl rfl rfl rfl rfl)
    | (dsimp only; split)

theorem State.writeGran_kept {rK : Lic} {oK : State} {s : State} (hK : Kept rK oK s) {p : Nat} {g : Nat} {x : Nat} {aR0 : Nat} :
 Kept rK oK (State.writeGran s p g x aR0) := by
  induction aR0 generalizing s p g x with
  | zero =>
    unfold State.writeGran
    repeat' first
      | with_reducible assumption
      | with_reducible apply State.setGranule_kept
  | succ nR ihK =>
    unfold State.writeGran
    repeat' first
      | with_reducible assumption
      | with_reducible apply ihK
      | with_reducible apply State.setGranule_kept

theorem State.patchGranule_kept {rK : Lic} {oK : State} {s : State} (hK : Kept rK oK s) {p g : Nat} {v : BitVec 512} :
    Kept rK oK (State.patchGranule s p g v) := by
  unfold State.patchGranule
  split
  · exact Kept.withSpad hK (fun k => k.spad)
  · exact Kept.withSpad hK (fun k => mwf_mset (fun _ => 0) _ _ _ k.spad)

theorem State.writeBytes_kept {rK : Lic} {oK : State} {s : State} (hK : Kept rK oK s) {p : Nat} {g : Nat} {x : Nat} {lo : Nat} {hi : Nat} {aR0 : Nat} :
 Kept rK oK (State.writeBytes s p g x lo hi aR0) := by
  induction aR0 generalizing s p g x lo hi with
  | zero =>
    unfold State.writeBytes
    repeat' first
      | with_reducible assumption
      | (intro xK; first | (refine Kept.cut (r := rK) (s0 := oK) (x := xK) ?_ ?_; unfold xK) | (refine Kept.cut (r := rK) (s0 := oK) (x := xK.2) ?_ ?_; unfold xK) | (refine Kept.cut (r := rK) (s0 := oK) (x := xK.1) ?_ ?_; unfold xK) | (refine Kept.cut (r := rK) (s0 := oK) (x := xK.st) ?_ ?_; unfold xK) | (refine KeptO.cut (r := rK) (s0 := oK) (x := xK) ?_ ?_; unfold xK) | (have : (fun a => xK a) = xK := rfl; clear this; subst xK; beta_reduce) | skip)
      | lift_lets
      | split
      | with_reducible apply State.patchGranule_kept
      | with_reducible apply State.setGranule_kept
      | (with_reducible refine Kept.mk' (r := rK) (s0 := oK) ?_ rfl rfl rfl rfl rfl rfl)
      | (clear_value *; split)
      | (dsimp only; split)
  | succ nR ihK =>
    unfold State.writeBytes
    repeat' first
      | with_reducible assumption
      | (intro xK; first | (refine Kept.cut (r := rK) (s0 := oK) (x := xK) ?_ ?_; unfold xK) | (refine Kept.cut (r := rK) (s0 := oK) (x := xK.2) ?_ ?_; unfold xK) | (refine Kept.cut (r := rK) (s0 := oK) (x := xK.1) ?_ ?_; unfold xK) | (refine Kept.cut (r := rK) (s0 := oK) (x := xK.st) ?_ ?_; unfold xK) | (refine KeptO.cut (r := rK) (s0 := oK) (x := xK) ?_ ?_; unfold xK) | (have : (fun a => xK a) = xK := rfl; clear this; subst xK; beta_reduce) | skip)
      | lift_lets
      | split
      | with_reducible apply ihK
      | with_reducible apply State.patchGranule_kept
      | with_reducible apply State.setGranule_kept
      | (with_reducible refine Kept.mk' (r := rK) (s0 := oK) ?_ rfl rfl rfl rfl rfl rfl)
      | (clear_value *; split)
      | (dsimp only; split)

theorem State.setSpadBytes_kept {rK : Lic} {oK : State} {s : State} (hK : Kept rK oK s) {p : Nat} {off : Nat} {len : Nat} {x : Nat} :
 Kept rK oK (State.setSpadBytes s p off len x) := by
  unfold State.setSpadBytes
  repeat' first
    | with_reducible assumption
    | with_reducible apply State.writeBytes_kept
    | (with_reducible refine Kept.mk' (r := rK) (s0 := oK) ?_ rfl rfl rfl rfl rfl rfl)
    | (dsimp only; split)

theorem State.writeVec_kept {rK : Lic} {oK : State} {s : State} (hK : Kept rK oK s) {p : Nat} {off : Nat} {hdr : Nat} {payload : Nat} {len : Nat} :
 Kept rK oK (State.writeVec s p off hdr payload len) := by
  unfold State.writeVec
  repeat' first
    | with_reducible assumption
    | with_reducible apply State.writeGran_kept

theorem State.setHbmByte_kept {rK : Lic} {oK : State} {s : State} (hK : Kept rK oK s) {p : Nat} {f : Nat} {b : Nat} {v : Nat} :
 Kept rK oK (State.setHbmByte s p f b v) := by
  unfold State.setHbmByte
  repeat' first
    | with_reducible assumption
    | with_reducible apply State.setHbmGran_kept

theorem State.accessFault_kept {rK : Lic} {oK : State} {s : State} (hK : Kept rK oK s) {code : Nat} {part : Nat} {site : Nat} {addr : Nat} {master : Nat} :
 Kept rK oK (State.accessFault s code part site addr master) := by
  unfold State.accessFault
  repeat' first
    | with_reducible assumption
    | with_reducible apply State.raise_kept

theorem State.updRec_kept {rK : Lic} {oK : State} {s : State} (hK : Kept rK oK s) {n : Nat} {f : RecPart → RecPart} :
 Kept rK oK (State.updRec s n f) := by
  unfold State.updRec
  repeat' first
    | with_reducible assumption
    | (with_reducible refine Kept.mk' (r := rK) (s0 := oK) ?_ rfl rfl rfl rfl rfl rfl)

theorem State.record_kept {rK : Lic} {oK : State} {s : State} (hK : Kept rK oK s) {n : Nat} {kind : Nat} {words : List Nat} :
 Kept rK oK (State.record s n kind words) := by
  unfold State.record
  repeat' first
    | with_reducible assumption
    | split
    | with_reducible apply State.updRec_kept

theorem State.recordAll_kept {rK : Lic} {oK : State} {s : State} (hK : Kept rK oK s) {kind : Nat} {words : List Nat} :
 Kept rK oK (State.recordAll s kind words) := by
  unfold State.recordAll
  repeat' first
    | with_reducible assumption
    | (with_reducible refine Kept.foldl ?_ (fun vK eK hvK => ?_))
    | with_reducible apply State.record_kept

theorem State.setPState_kept {rK : Lic} {oK : State} {s : State} (hK : Kept rK oK s) {n : Nat} {st : PState} :
 Kept rK oK (State.setPState s n st) := by
  unfold State.setPState
  repeat' first
    | with_reducible assumption
    | with_reducible apply State.notify_kept
    | with_reducible apply State.updPart_kept
    | (dsimp only; split)

theorem State.updStat_kept {rK : Lic} {oK : State} {s : State} (hK : Kept rK oK s) {n : Nat} {f : PartStat → PartStat} :
 Kept rK oK (State.updStat s n f) := by
  unfold State.updStat
  repeat' first
    | with_reducible assumption
    | (with_reducible refine Kept.mk' (r := rK) (s0 := oK) ?_ rfl rfl rfl rfl rfl rfl)

theorem State.setMsixWord_kept {rK : Lic} {oK : State} {s : State} (hK : Kept rK oK s) {port : Nat} {fn : Nat} {vec : Nat} {w : Nat} {v : BitVec 32} :
 Kept rK oK (State.setMsixWord s port fn vec w v) := by
  unfold State.setMsixWord
  repeat' first
    | with_reducible assumption
    | (with_reducible refine Kept.mk' (r := rK) (s0 := oK) ?_ rfl rfl rfl rfl rfl rfl)

theorem State.setPendBit_kept {rK : Lic} {oK : State} {s : State} (hK : Kept rK oK s) {k : Nat} {b : Bool} :
 Kept rK oK (State.setPendBit s k b) := by
  unfold State.setPendBit
  repeat' first
    | with_reducible assumption
    | (with_reducible refine Kept.mk' (r := rK) (s0 := oK) ?_ rfl rfl rfl rfl rfl rfl)

theorem State.sendMsix_kept {rK : Lic} {oK : State} {s : State} (hK : Kept rK oK s) {port : Nat} {fn : Nat} {vec : Nat} :
 Kept rK oK (State.sendMsix s port fn vec) := by
  unfold State.sendMsix
  repeat' first
    | with_reducible assumption
    | with_reducible apply State.emit_kept

theorem State.raiseVec_kept {rK : Lic} {oK : State} {s : State} (hK : Kept rK oK s) {port : Nat} {fn : Nat} {vec : Nat} :
 Kept rK oK (State.raiseVec s port fn vec) := by
  unfold State.raiseVec
  repeat' first
    | with_reducible assumption
    | split
    | with_reducible apply State.sendMsix_kept
    | with_reducible apply State.setPendBit_kept

theorem State.raisePf_kept {rK : Lic} {oK : State} {s : State} (hK : Kept rK oK s) {vec : Nat} :
 Kept rK oK (State.raisePf s vec) := by
  unfold State.raisePf
  repeat' first
    | with_reducible assumption
    | split
    | (with_reducible refine Kept.foldl ?_ (fun vK eK hvK => ?_))
    | with_reducible apply State.raiseVec_kept

end Sys2Proof.Machine
end

