-- ==== Sys2Proof/Laws/KeptFlags.lean ====
section
/-! SUPPORT. What the operations of Machine/Flags.lean keep (Laws/Kept.lean). -/

set_option linter.unusedTactic false
set_option linter.unreachableTactic false
set_option linter.unusedVariables false

namespace Sys2Proof.Machine

theorem State.badVector_kept {rK : Lic} {oK : State} {s : State} (hK : Kept rK oK s) {part : Nat} {site : Nat} {h : Nat} {consumer : Nat} {field : Nat} :
 Kept rK oK (State.badVector s part site h consumer field) := by
  unfold State.badVector
  repeat' first
    | with_reducible assumption
    | with_reducible apply State.raise_kept

end Sys2Proof.Machine
end

