-- ==== Sys2Proof/Laws/KeptSpad.lean ====
section
/-! SUPPORT. What the operations of Machine/Spad.lean keep (Laws/Kept.lean). -/

set_option linter.unusedTactic false
set_option linter.unreachableTactic false
set_option linter.unusedVariables false

namespace Sys2Proof.Machine

theorem State.lateMark_kept {rK : Lic} {oK : State} {s : State} (hK : Kept rK oK s) {p : Nat} {g0 : Nat} {g1 : Nat} :
 Kept rK oK (State.lateMark s p g0 g1) := by
  unfold State.lateMark
  repeat' first
    | with_reducible assumption
    | split
    | (with_reducible refine Kept.mk' (r := rK) (s0 := oK) ?_ rfl rfl rfl rfl rfl rfl)

theorem State.spadUe_kept {rK : Lic} {oK : State} {s : State} (hK : Kept rK oK s) {part : Nat} {p : Nat} {slot : Nat} {master : Nat} {g : Nat} :
 Kept rK oK (State.spadUe s part p slot master g) := by
  unfold State.spadUe
  repeat' first
    | with_reducible assumption
    | split
    | with_reducible apply State.bump_kept
    | with_reducible apply State.journal_kept
    | with_reducible apply State.raise_kept
    | with_reducible apply State.sticky_kept
    | exact lt_siteReg _ _
    | with_reducible refine lt_rplReg ?_
    | with_reducible exact lt_leqReg _
    | with_reducible refine lt_add_reg ?_
    | decide
    | (with_reducible refine Kept.mk' (r := rK) (s0 := oK) ?_ rfl rfl rfl rfl rfl rfl)
    | (dsimp only; split)

theorem State.redirCount_kept {rK : Lic} {oK : State} {s : State} (hK : Kept rK oK s) {p : Nat} {g : Nat} :
 Kept rK oK (State.redirCount s p g) := by
  unfold State.redirCount
  repeat' first
    | with_reducible assumption
    | split
    | with_reducible apply State.bump_kept
    | exact lt_siteReg _ _

theorem State.spadReadG_kept {rK : Lic} {oK : State} {s : State} (hK : Kept rK oK s) {part : Nat} {p : Nat} {slot : Nat} {master : Nat} {g : Nat} {aR0 : Nat} :
 Kept rK oK (State.spadReadG s part p slot master g aR0).2 := by
  induction aR0 generalizing s part p slot master g with
  | zero =>
    unfold State.spadReadG
    repeat' first
      | with_reducible assumption
      | split
      | with_reducible apply State.redirCount_kept
      | with_reducible apply State.spadUe_kept
      | (with_reducible refine Kept.mk' (r := rK) (s0 := oK) ?_ rfl rfl rfl rfl rfl rfl)
      | (dsimp only; split)
  | succ nR ihK =>
    unfold State.spadReadG
    repeat' first
      | with_reducible assumption
      | split
      | with_reducible apply ihK
      | with_reducible apply State.redirCount_kept
      | with_reducible apply State.spadUe_kept
      | (with_reducible refine Kept.mk' (r := rK) (s0 := oK) ?_ rfl rfl rfl rfl rfl rfl)
      | (dsimp only; split)

theorem State.spadRead_kept {rK : Lic} {oK : State} {s : State} (hK : Kept rK oK s) {part : Nat} {p : Nat} {slot : Nat} {master : Nat} {off : Nat} {len : Nat} :
 Kept rK oK (State.spadRead s part p slot master off len).2 := by
  unfold State.spadRead
  repeat' first
    | with_reducible assumption
    | with_reducible apply State.spadReadG_kept
    | (with_reducible refine Kept.mk' (r := rK) (s0 := oK) ?_ rfl rfl rfl rfl rfl rfl)
    | (dsimp only; split)

theorem State.spadCe_kept {rK : Lic} {oK : State} {s : State} (hK : Kept rK oK s) {part : Nat} {p : Nat} {slot : Nat} {g : Nat} {b : Nat} :
 Kept rK oK (State.spadCe s part p slot g b) := by
  unfold State.spadCe
  repeat' first
    | with_reducible assumption
    | with_reducible apply State.bump_kept
    | with_reducible apply State.raiseOnce_kept
    | exact lt_siteReg _ _
    | with_reducible refine lt_rplReg ?_
    | with_reducible exact lt_leqReg _
    | with_reducible refine lt_add_reg ?_
    | decide
    | (with_reducible refine Kept.mk' (r := rK) (s0 := oK) ?_ rfl rfl rfl rfl rfl rfl)
    | (dsimp only; split)

theorem State.spadErrs_kept {rK : Lic} {oK : State} {s : State} (hK : Kept rK oK s) {part : Nat} {p : Nat} {slot : Nat} {ue : List Nat} {ce : List (Nat × Nat)} :
 Kept rK oK (State.spadErrs s part p slot ue ce) := by
  unfold State.spadErrs
  repeat' first
    | with_reducible assumption
    | split
    | (with_reducible refine Kept.foldl ?_ (fun vK eK hvK => ?_))
    | (with_reducible refine Kept.foldl1 ?_ (fun vK eK hvK => ?_))
    | (with_reducible refine Kept.foldl2 ?_ (fun vK eK hvK => ?_))
    | with_reducible apply State.spadCe_kept
    | (with_reducible refine Kept.mk' (r := rK) (s0 := oK) ?_ rfl rfl rfl rfl rfl rfl)
    | (dsimp only; split)

theorem State.readVec_kept {rK : Lic} {oK : State} {s : State} (hK : Kept rK oK s) {part : Nat} {p : Nat} {master : Nat} {off : Nat} :
 Kept rK oK (State.readVec s part p master off).2 := by
  unfold State.readVec
  repeat' first
    | with_reducible assumption
    | with_reducible apply State.spadRead_kept

theorem State.setTest_kept {rK : Lic} {oK : State} {s : State} (hK : Kept rK oK s) {p : Nat} {x : SpadTest} :
 Kept rK oK (State.setTest s p x) := by
  unfold State.setTest
  repeat' first
    | with_reducible assumption
    | (with_reducible refine Kept.mk' (r := rK) (s0 := oK) ?_ rfl rfl rfl rfl rfl rfl)
    | (dsimp only; split)

theorem State.spadRestore_kept {rK : Lic} {oK : State} {s : State} (hK : Kept rK oK s) {p : Nat} {m : BitVec 64} :
    Kept rK oK (State.spadRestore s p m) := by
  unfold State.spadRestore
  dsimp only
  split
  · exact hK
  · exact State.setTest_kept (Kept.withSpad hK (fun k => mwf_foldl_mset 0 _ _ _ _ k.spad))

theorem State.spadDone_kept {rK : Lic} {oK : State} {s : State} (hK : Kept rK oK s) {p : Nat} :
 Kept rK oK (State.spadDone s p) := by
  unfold State.spadDone
  repeat' first
    | with_reducible assumption
    | (with_reducible refine Kept.foldl ?_ (fun vK eK hvK => ?_))
    | (with_reducible refine Kept.foldl1 ?_ (fun vK eK hvK => ?_))
    | (with_reducible refine Kept.foldl2 ?_ (fun vK eK hvK => ?_))
    | with_reducible apply State.setTest_kept
    | (with_reducible refine Kept.mk' (r := rK) (s0 := oK) ?_ rfl rfl rfl rfl rfl rfl)
    | (dsimp only; split)

theorem State.finishRestore_kept {rK : Lic} {oK : State} {s : State} (hK : Kept rK oK s) {p : Nat} :
 Kept rK oK (State.finishRestore s p) := by
  unfold State.finishRestore
  repeat' first
    | with_reducible assumption
    | split
    | with_reducible apply State.spadDone_kept
    | with_reducible apply State.spadRestore_kept
    | (with_reducible refine Kept.mk' (r := rK) (s0 := oK) ?_ rfl rfl rfl rfl rfl rfl)
    | (dsimp only; split)

theorem State.setOutst_kept {rK : Lic} {oK : State} {s : State} (hK : Kept rK oK s) {site : Nat} {ds : Nat} {n : Nat} :
 Kept rK oK (State.setOutst s site ds n) := by
  unfold State.setOutst
  repeat' first
    | with_reducible assumption
    | (with_reducible refine Kept.mk' (r := rK) (s0 := oK) ?_ rfl rfl rfl rfl rfl rfl)

theorem State.lateEntry_kept {rK : Lic} {oK : State} {s : State} (hK : Kept rK oK s) {part : Nat} {src : Nat} {reason : Nat} {stream : Nat} {kind : Nat} {dst : Nat} {addr : Nat} {tag : Nat} {seq : Nat} :
 Kept rK oK (State.lateEntry s part src reason stream kind dst addr tag seq) := by
  unfold State.lateEntry
  repeat' first
    | with_reducible assumption
    | with_reducible apply State.setPart_kept
    | with_reducible apply State.sticky_kept
    | with_reducible exact lt_leqReg _
    | (dsimp only; split)

theorem State.failPkt_kept {rK : Lic} {oK : State} {s : State} (hK : Kept rK oK s) {o : OutPkt} {reason : Nat} :
 Kept rK oK (State.failPkt s o reason) := by
  unfold State.failPkt
  repeat' first
    | with_reducible assumption
    | with_reducible apply State.lateEntry_kept
    | (with_reducible refine Kept.mk' (r := rK) (s0 := oK) ?_ rfl rfl rfl rfl rfl rfl)

theorem State.sendPkt_kept {rK : Lic} {oK : State} {s : State} (hK : Kept rK oK s) {type part vc src dst len ofs space err tag stream ds : Nat}
    {into : List (Nat × Nat × Nat)} {payload : List Nat} :
    Kept rK oK (State.sendPkt s type part vc src dst len ofs space err tag stream ds into payload) := by
  have fab (f : FabSt) : Kept rK oK { s with fab := f } := hK.same rfl rfl rfl rfl rfl rfl (Nat.le_refl _) rfl rfl rfl
  unfold State.sendPkt
  dsimp only
  split
  · exact State.lateEntry_kept (fab _)
  · split
    · exact State.bump_kept (State.emit_kept (fab _)) (lt_siteReg _ _)
    · exact fab _

theorem State.storeAt_kept {rK : Lic} {oK s : State} (hK : Kept rK oK s) {part : Nat} {src : Nat} {dst : Nat} {ds : Nat} {tag : Nat} {stream : Nat} {off : Nat} {x : Nat} {aR0 : Nat} {aR1 : Nat} :
    Kept rK oK (State.storeAt s part src dst ds tag stream off x aR0 aR1) := by
  induction aR0 generalizing s off x aR1 with
  | zero => simp only [State.storeAt]; exact hK
  | succ n ih =>
    cases aR1 with
    | zero => simp only [State.storeAt]; exact hK
    | succ m =>
      simp only [State.storeAt]
      refine ih ?_
      split
      · exact State.writeGran_kept hK
      · exact State.sendPkt_kept hK

theorem State.placeRow_kept {rK : Lic} {oK : State} {s : State} (hK : Kept rK oK s) {part : Nat} {src : Nat} {ds : Nat} {tag : Nat} {stream : Nat} {x : Nat} {n : Nat} {e : Nat × Nat × Nat} :
 Kept rK oK (State.placeRow s part src ds tag stream x n e) := by
  unfold State.placeRow
  repeat' first
    | with_reducible assumption
    | split
    | with_reducible apply State.storeAt_kept
    | (with_reducible refine Kept.mk' (r := rK) (s0 := oK) ?_ rfl rfl rfl rfl rfl rfl)
    | (dsimp only; split)

end Sys2Proof.Machine
end

