-- ==== Sys2Proof/Laws/KeptComb.lean ====
section
/-! SUPPORT. What the operations of Machine/Comb.lean keep (Laws/Kept.lean). -/

set_option linter.unusedTactic false
set_option linter.unreachableTactic false
set_option linter.unusedVariables false

namespace Sys2Proof.Machine

theorem State.setSlotHdr_kept {rK : Lic} {oK : State} {s : State} (hK : Kept rK oK s) {sk : Nat} {h : SlotHdr} :
 Kept rK oK (State.setSlotHdr s sk h) := by
  unfold State.setSlotHdr
  repeat' first
    | with_reducible assumption
    | (with_reducible refine Kept.mk' (r := rK) (s0 := oK) ?_ rfl rfl rfl rfl rfl rfl)

theorem State.setWeightRow_kept {rK : Lic} {oK : State} {s : State} (hK : Kept rK oK s) {sk : Nat} {r : Nat} {v : BitVec 256} :
 Kept rK oK (State.setWeightRow s sk r v) := by
  unfold State.setWeightRow
  repeat' first
    | with_reducible assumption
    | (with_reducible refine Kept.mk' (r := rK) (s0 := oK) ?_ rfl rfl rfl rfl rfl rfl)

theorem State.setMetaRow_kept {rK : Lic} {oK : State} {s : State} (hK : Kept rK oK s) {sk : Nat} {r : Nat} {v : BitVec 128} :
 Kept rK oK (State.setMetaRow s sk r v) := by
  unfold State.setMetaRow
  repeat' first
    | with_reducible assumption
    | (with_reducible refine Kept.mk' (r := rK) (s0 := oK) ?_ rfl rfl rfl rfl rfl rfl)

theorem State.setWzp_kept {rK : Lic} {oK : State} {s : State} (hK : Kept rK oK s) {sk : Nat} {c : Nat} {v : Nat} :
 Kept rK oK (State.setWzp s sk c v) := by
  unfold State.setWzp
  repeat' first
    | with_reducible assumption
    | (with_reducible refine Kept.mk' (r := rK) (s0 := oK) ?_ rfl rfl rfl rfl rfl rfl)

theorem State.setColsum_kept {rK : Lic} {oK : State} {s : State} (hK : Kept rK oK s) {sk : Nat} {c : Nat} {v : Int} :
 Kept rK oK (State.setColsum s sk c v) := by
  unfold State.setColsum
  repeat' first
    | with_reducible assumption
    | (with_reducible refine Kept.mk' (r := rK) (s0 := oK) ?_ rfl rfl rfl rfl rfl rfl)

theorem State.setShadow_kept {rK : Lic} {oK : State} {s : State} (hK : Kept rK oK s) {pc : Nat} {i : Nat} {x : Shadow} :
 Kept rK oK (State.setShadow s pc i x) := by
  unfold State.setShadow
  repeat' first
    | with_reducible assumption
    | (with_reducible refine Kept.mk' (r := rK) (s0 := oK) ?_ rfl rfl rfl rfl rfl rfl)

theorem State.shadowRefresh_kept {rK : Lic} {oK : State} {s : State} (hK : Kept rK oK s) {pc : Nat} {i : Nat} :
 Kept rK oK (State.shadowRefresh s pc i) := by
  unfold State.shadowRefresh
  repeat' first
    | with_reducible assumption
    | split
    | with_reducible apply State.setShadow_kept
    | (dsimp only; split)

theorem State.slotDirty_kept {rK : Lic} {oK : State} {s : State} (hK : Kept rK oK s) {pc : Nat} {slot : Nat} :
 Kept rK oK (State.slotDirty s pc slot) := by
  unfold State.slotDirty
  repeat' first
    | with_reducible assumption
    | with_reducible apply State.setSlotHdr_kept
    | with_reducible apply State.shadowRefresh_kept
    | (dsimp only; split)

theorem State.shadowWrote_kept {rK : Lic} {oK : State} {s : State} (hK : Kept rK oK s) {pc : Nat} {slot : Nat} {rows : BitVec 256} {metaW : BitVec 257} :
 Kept rK oK (State.shadowWrote s pc slot rows metaW) := by
  unfold State.shadowWrote
  repeat' first
    | with_reducible assumption
    | split
    | with_reducible apply State.setShadow_kept
    | (with_reducible refine Kept.mk' (r := rK) (s0 := oK) ?_ rfl rfl rfl rfl rfl rfl)
    | (dsimp only; split)

theorem State.loadFault_kept {rK : Lic} {oK : State} {s : State} (hK : Kept rK oK s) {shadow : Bool} {code : Nat} {part : Nat} {site : Nat} {d0 : Nat} {d1 : Nat} :
 Kept rK oK (State.loadFault s shadow code part site d0 d1) := by
  unfold State.loadFault
  repeat' first
    | with_reducible assumption
    | split
    | with_reducible apply State.journal_kept
    | with_reducible apply State.raise_kept
    | with_reducible apply State.updPart_kept
    | (with_reducible refine Kept.mk' (r := rK) (s0 := oK) ?_ rfl rfl rfl rfl rfl rfl)
    | (dsimp only; split)

theorem State.headerCheck_kept {rK : Lic} {oK : State} {s : State} (hK : Kept rK oK s) {p : Nat} {k : Nat} {bank : Nat} {shadow : Bool} {slot : Nat} :
 Kept rK oK (State.headerCheck s p k bank shadow slot) := by
  unfold State.headerCheck
  repeat' first
    | with_reducible assumption
    | split
    | (with_reducible refine Kept.foldl ?_ (fun vK eK hvK => ?_))
    | with_reducible apply State.loadFault_kept
    | with_reducible apply State.setColsum_kept
    | with_reducible apply State.setSlotHdr_kept
    | with_reducible apply State.shadowRefresh_kept
    | (dsimp only; split)

theorem State.setAccSet_kept {rK : Lic} {oK : State} {s : State} (hK : Kept rK oK s) {pc : Nat} {i : Nat} {x : AccSet} :
 Kept rK oK (State.setAccSet s pc i x) := by
  unfold State.setAccSet
  repeat' first
    | with_reducible assumption
    | (with_reducible refine Kept.mk' (r := rK) (s0 := oK) ?_ rfl rfl rfl rfl rfl rfl)

theorem State.setTile_kept {rK : Lic} {oK : State} {s : State} (hK : Kept rK oK s) {pc : Nat} {i : Nat} {wfmt : Nat} {t : Tile} :
 Kept rK oK (State.setTile s pc i wfmt t) := by
  unfold State.setTile
  repeat' first
    | with_reducible assumption
    | split
    | with_reducible apply State.setAccSet_kept

theorem State.markMetaBad_kept {rK : Lic} {oK : State} {s : State} (hK : Kept rK oK s) {p : Nat} {sk : Nat} :
 Kept rK oK (State.markMetaBad s p sk) := by
  unfold State.markMetaBad
  repeat' first
    | with_reducible assumption
    | with_reducible apply State.satFld_kept
    | with_reducible apply State.setSlotHdr_kept
    | with_reducible apply State.sticky_kept
    | exact lt_siteReg _ _
    | (dsimp only; split)

theorem State.metaRespond_kept {rK : Lic} {oK : State} {s : State} (hK : Kept rK oK s) {a : TileArgs} {part : Nat} {sk : Nat} {f : Nat × Nat × Nat} :
 Kept rK oK (State.metaRespond s a part sk f) := by
  unfold State.metaRespond
  repeat' first
    | with_reducible assumption
    | split
    | with_reducible apply State.bump_kept
    | with_reducible apply State.markMetaBad_kept
    | with_reducible apply State.raise_kept
    | with_reducible apply State.raiseOnce_kept
    | exact lt_siteReg _ _

theorem State.claim_kept {rK : Lic} {oK : State} {s : State} (hK : Kept rK oK s) {a : TileArgs} {pc : Nat} {partial0 : Option VecIn} :
 Kept rK oK (State.claim s a pc partial0) := by
  unfold State.claim
  repeat' first
    | with_reducible assumption
    | with_reducible apply State.setTile_kept
    | (with_reducible refine Kept.mk' (r := rK) (s0 := oK) ?_ rfl rfl rfl rfl rfl rfl)

theorem State.countIssue_kept {rK : Lic} {oK : State} {s : State} (hK : Kept rK oK s) {p : Nat} {afmt : Nat} {passes : Nat} {nz : Nat} {zero : Bool} {zskip : Bool} {pskip : Bool} {delayed : Bool} :
 Kept rK oK (State.countIssue s p afmt passes nz zero zskip pskip delayed) := by
  unfold State.countIssue
  repeat' first
    | with_reducible assumption
    | split
    | with_reducible apply State.bump_kept
    | with_reducible apply State.bumpBy_kept
    | exact lt_siteReg _ _

theorem State.consumeTell_kept {rK : Lic} {oK : State} {s : State} (hK : Kept rK oK s) {a : TileArgs} {part gc sk : Nat} {mis : Option Nat} {mf : Option (Nat × Nat × Nat)} :
 Kept rK oK (State.consumeTell s a part gc sk mis mf) := by
  unfold State.consumeTell
  cases mis <;> cases mf
  · exact hK
  · exact State.metaRespond_kept hK
  · exact State.raise_kept hK
  · exact State.metaRespond_kept (State.raise_kept hK)

theorem State.consumeDone_kept {rK : Lic} {oK : State} {s : State} (hK : Kept rK oK s) {a : TileArgs} {part : Nat} {pc : Nat} {gc : Nat} {i : Nat} {ps : List (Nat × Nat × Nat)} {nlive : Nat} {zero : Bool} {tainted : Bool} {delayed : Bool} {old : AccSet} {own : Option OwnOvf} {t : Tile} :
 Kept rK oK (State.consumeDone s a part pc gc i ps nlive zero tainted delayed old own t) := by
  unfold State.consumeDone
  repeat' first
    | with_reducible assumption
    | split
    | with_reducible apply State.bump_kept
    | with_reducible apply State.countIssue_kept
    | with_reducible apply State.raiseOnce_kept
    | with_reducible apply State.setTile_kept
    | exact lt_siteReg _ _
    | with_reducible refine lt_rplReg ?_
    | with_reducible exact lt_leqReg _
    | with_reducible refine lt_add_reg ?_
    | decide
    | (with_reducible refine Kept.mk' (r := rK) (s0 := oK) ?_ rfl rfl rfl rfl rfl rfl)
    | (dsimp only; split)

theorem State.consume_kept {rK : Lic} {oK : State} {s : State} (hK : Kept rK oK s) {a : TileArgs} {hdr : Nat} {late : Bool} {planes : List (BitVec 512)} {partial0 : Option VecIn} {delayed : Bool} :
 Kept rK oK (State.consume s a hdr late planes partial0 delayed) := by
  unfold State.consume
  repeat' first
    | with_reducible assumption
    | with_reducible apply State.consumeDone_kept
    | with_reducible apply State.consumeTell_kept
    | with_reducible apply State.claim_kept
    | with_reducible apply State.bumpBy_kept
    | exact lt_siteReg _ _
    | split
    | (dsimp only; split)

end Sys2Proof.Machine
end

