-- ==== Sys2Proof/Laws/KeptSparse.lean ====
section
/-! SUPPORT. What the operations of Machine/Sparse.lean keep (Laws/Kept.lean). -/

set_option linter.unusedTactic false
set_option linter.unreachableTactic false
set_option linter.unusedVariables false

namespace Sys2Proof.Machine

theorem State.packStore_kept {rK : Lic} {oK : State} {s : State} (hK : Kept rK oK s) {pc : Nat} {slot : Nat} {f : Nat} {dense : Bool} {rows : List (BitVec 256)} {md : Option (List (BitVec 128) × Nat)} {zp : List Nat} :
 Kept rK oK (State.packStore s pc slot f dense rows md zp) := by
  unfold State.packStore
  repeat' first
    | with_reducible assumption
    | split
    | (with_reducible refine Kept.foldl ?_ (fun vK eK hvK => ?_))
    | with_reducible apply State.setMetaRow_kept
    | with_reducible apply State.setSlotHdr_kept
    | with_reducible apply State.setWeightRow_kept
    | with_reducible apply State.setWzp_kept
    | with_reducible apply State.shadowWrote_kept
    | with_reducible apply State.slotDirty_kept

theorem State.packTile_kept {rK : Lic} {oK : State} {s : State} (hK : Kept rK oK s) {p : Nat} {e : Nat} {slot : Nat} {slot2 : Nat} {rows : List (BitVec 256)} {zp : List Nat} :
 Kept rK oK (State.packTile s p e slot slot2 rows zp) := by
  unfold State.packTile
  repeat' first
    | with_reducible assumption
    | split
    | (with_reducible refine Kept.foldl ?_ (fun vK eK hvK => ?_))
    | (with_reducible refine Kept.foldl1 ?_ (fun vK eK hvK => ?_))
    | (with_reducible refine Kept.foldl2 ?_ (fun vK eK hvK => ?_))
    | with_reducible apply State.bump_kept
    | with_reducible apply State.bumpBy_kept
    | with_reducible apply State.loadFault_kept
    | with_reducible apply State.packStore_kept
    | with_reducible apply State.setShadow_kept
    | exact lt_siteReg _ _
    | with_reducible refine lt_rplReg ?_
    | with_reducible exact lt_leqReg _
    | with_reducible refine lt_add_reg ?_
    | decide
    | (with_reducible refine Kept.mk' (r := rK) (s0 := oK) ?_ rfl rfl rfl rfl rfl rfl)
    | (dsimp only; split)

theorem State.setMergeCtx_kept {rK : Lic} {oK : State} {s : State} (hK : Kept rK oK s) {p : Nat} {m : Nat} {x : MergeCtx} :
 Kept rK oK (State.setMergeCtx s p m x) := by
  unfold State.setMergeCtx
  repeat' first
    | with_reducible assumption
    | (with_reducible refine Kept.mk' (r := rK) (s0 := oK) ?_ rfl rfl rfl rfl rfl rfl)

theorem State.withhold_kept {rK : Lic} {oK : State} {s : State} (hK : Kept rK oK s) {part : Nat} {slot : Nat} :
 Kept rK oK (State.withhold s part slot) := by
  unfold State.withhold
  repeat' first
    | with_reducible assumption
    | with_reducible apply State.updPart_kept

theorem State.mergeOpen_kept {rK : Lic} {oK : State} {s : State} (hK : Kept rK oK s) {p : Nat} {m : Nat} {x : MergeCtx} :
 Kept rK oK (State.mergeOpen s p m x) := by
  unfold State.mergeOpen
  repeat' first
    | with_reducible assumption
    | split
    | with_reducible apply State.raise_kept
    | with_reducible apply State.setFld_kept
    | with_reducible apply State.setMergeCtx_kept
    | with_reducible apply State.sticky_kept
    | exact lt_siteReg _ _

theorem State.mergeFree_kept {rK : Lic} {oK : State} {s : State} (hK : Kept rK oK s) {p : Nat} {m : Nat} :
 Kept rK oK (State.mergeFree s p m) := by
  unfold State.mergeFree
  repeat' first
    | with_reducible assumption
    | split
    | with_reducible apply State.setFld_kept
    | with_reducible apply State.setMergeCtx_kept
    | exact lt_siteReg _ _

theorem State.mergeArrive_kept {rK : Lic} {oK : State} {s : State} (hK : Kept rK oK s) {p : Nat} {hdr : Nat} {payload : Nat} {late : Bool} :
 Kept rK oK (State.mergeArrive s p hdr payload late) := by
  unfold State.mergeArrive
  repeat' first
    | with_reducible assumption
    | with_reducible apply State.bump_kept
    | with_reducible apply State.raiseOnce_kept
    | with_reducible apply State.setMergeCtx_kept
    | with_reducible apply State.sticky_kept
    | with_reducible apply State.writeGran_kept
    | exact lt_siteReg _ _
    | (dsimp only; split)

theorem State.mergeLost_kept {rK : Lic} {oK : State} {s : State} (hK : Kept rK oK s) {p : Nat} {m : Nat} {rk : Nat} :
 Kept rK oK (State.mergeLost s p m rk) := by
  unfold State.mergeLost
  repeat' first
    | with_reducible assumption
    | with_reducible apply State.setMergeCtx_kept
    | (dsimp only; split)

theorem State.mergeFinish_kept {rK : Lic} {oK : State} {s : State} (hK : Kept rK oK s) {p : Nat} {m : Nat} {incomplete : Bool} :
 Kept rK oK (State.mergeFinish s p m incomplete) := by
  unfold State.mergeFinish
  repeat' first
    | with_reducible assumption
    | split
    | (with_reducible refine Kept.foldl ?_ (fun vK eK hvK => ?_))
    | (with_reducible refine Kept.foldl1 ?_ (fun vK eK hvK => ?_))
    | (with_reducible refine Kept.foldl2 ?_ (fun vK eK hvK => ?_))
    | with_reducible apply State.bump_kept
    | with_reducible apply State.mergeFree_kept
    | with_reducible apply State.raiseOnce_kept
    | with_reducible apply State.spadRead_kept
    | with_reducible apply State.sticky_kept
    | with_reducible apply State.withhold_kept
    | with_reducible apply State.writeVec_kept
    | exact lt_siteReg _ _
    | with_reducible refine lt_rplReg ?_
    | with_reducible exact lt_leqReg _
    | with_reducible refine lt_add_reg ?_
    | decide
    | (with_reducible refine Kept.mk' (r := rK) (s0 := oK) ?_ rfl rfl rfl rfl rfl rfl)
    | (dsimp only; split)

theorem State.sendArrival_kept {rK : Lic} {oK : State} {s : State} (hK : Kept rK oK s) {part : Nat} {src : Nat} {home : Nat} {ds : Nat} {tag : Nat} {hdr : Nat} {payload : Nat} :
 Kept rK oK (State.sendArrival s part src home ds tag hdr payload) := by
  unfold State.sendArrival
  repeat' first
    | with_reducible assumption
    | split
    | with_reducible apply State.mergeArrive_kept
    | with_reducible apply State.sendPkt_kept
    | with_reducible apply State.takeFree_kept

end Sys2Proof.Machine
end

