-- ==== Sys2Proof/Laws/KeptQuant.lean ====
section
/-! SUPPORT. What the operations of Machine/Quant.lean keep (Laws/Kept.lean). -/

set_option linter.unusedTactic false
set_option linter.unreachableTactic false
set_option linter.unusedVariables false

namespace Sys2Proof.Machine

theorem State.setScaleSet_kept {rK : Lic} {oK : State} {s : State} (hK : Kept rK oK s) {k : Nat} {x : ScaleSet} :
 Kept rK oK (State.setScaleSet s k x) := by
  unfold State.setScaleSet
  repeat' first
    | with_reducible assumption
    | (with_reducible refine Kept.mk' (r := rK) (s0 := oK) ?_ rfl rfl rfl rfl rfl rfl)

theorem State.setChanEntry_kept {rK : Lic} {oK : State} {s : State} (hK : Kept rK oK s) {k : Nat} {c : Nat} {v : Nat} :
 Kept rK oK (State.setChanEntry s k c v) := by
  unfold State.setChanEntry
  repeat' first
    | with_reducible assumption
    | (with_reducible refine Kept.mk' (r := rK) (s0 := oK) ?_ rfl rfl rfl rfl rfl rfl)

theorem State.gainClamped_kept {rK : Lic} {oK : State} {s : State} (hK : Kept rK oK s) {p : Nat} {k : Nat} {set : Nat} {sslot : Nat} {n : Nat} {g : BitVec 32} :
 Kept rK oK (State.gainClamped s p k set sslot n g) := by
  unfold State.gainClamped
  repeat' first
    | with_reducible assumption
    | split
    | with_reducible apply State.bumpBy_kept
    | with_reducible apply State.raiseOnce_kept
    | exact lt_siteReg _ _
    | with_reducible refine lt_rplReg ?_
    | with_reducible exact lt_leqReg _
    | with_reducible refine lt_add_reg ?_
    | decide
    | (with_reducible refine Kept.mk' (r := rK) (s0 := oK) ?_ rfl rfl rfl rfl rfl rfl)
    | (dsimp only; split)

theorem State.countClamps_kept {rK : Lic} {oK : State} {s : State} (hK : Kept rK oK s) {a : TileArgs} {key : Nat} {g : BitVec 32} :
 Kept rK oK (State.countClamps s a key g) := by
  unfold State.countClamps
  with_reducible apply State.gainClamped_kept
  with_reducible assumption

theorem State.deriveSet_kept {rK : Lic} {oK : State} {s : State} (hK : Kept rK oK s) {p : Nat} {k : Nat} {pc : Nat} {set : Nat} {g : BitVec 32} :
 Kept rK oK (State.deriveSet s p k pc set g) := by
  unfold State.deriveSet
  repeat' first
    | with_reducible assumption
    | (with_reducible refine Kept.foldl1 ?_ (fun vK eK hvK => ?_))
    | with_reducible apply State.gainClamped_kept
    | with_reducible apply State.setChanEntry_kept

theorem State.putSet_kept {rK : Lic} {oK : State} {s : State} (hK : Kept rK oK s) {p : Nat} {k : Nat} {pc : Nat} {set : Nat} {w0 : Nat} {w1 : Nat} {chan : Nat → Nat} :
 Kept rK oK (State.putSet s p k pc set w0 w1 chan).1 := by
  unfold State.putSet
  repeat' first
    | with_reducible assumption
    | (with_reducible refine Kept.foldl1 ?_ (fun vK eK hvK => ?_))
    | with_reducible apply State.deriveSet_kept
    | with_reducible apply State.setChanEntry_kept
    | with_reducible apply State.setScaleSet_kept

theorem State.applyCommit_kept {rK : Lic} {oK : State} {s : State} (hK : Kept rK oK s) {p : Nat} {k : Nat} {pc : Nat} {set : Nat} :
 Kept rK oK (State.applyCommit s p k pc set) := by
  unfold State.applyCommit
  repeat' first
    | with_reducible assumption
    | with_reducible apply State.clamped_kept
    | with_reducible apply State.putSet_kept

theorem State.release_kept {rK : Lic} {oK : State} {s : State} (hK : Kept rK oK s) {a : TileArgs} {kind : Nat} {efmt : Nat} {taint : Bool} {late : Bool} {fb : Bool} {origin : Nat} {gain : BitVec 32} {vlen : Nat} {payload : Nat} :
 Kept rK oK (State.release s a kind efmt taint late fb origin gain vlen payload) := by
  unfold State.release
  repeat' first
    | with_reducible assumption
    | split
    | with_reducible apply State.sendArrival_kept
    | with_reducible apply State.withhold_kept
    | with_reducible apply State.writeVec_kept

theorem State.sseAdd_kept {rK : Lic} {oK : State} {s : State} (hK : Kept rK oK s) {p : Nat} {key : Nat} {l : List (Nat × Chan × (Nat × Nat) × AccVal × Int)} :
 Kept rK oK (State.sseAdd s p key l) := by
  unfold State.sseAdd
  repeat' first
    | with_reducible assumption
    | with_reducible apply State.bumpBy_kept
    | with_reducible apply State.setReg_kept
    | with_reducible apply State.setScaleSet_kept
    | exact lt_siteReg _ _

theorem State.releaseCode_kept {rK : Lic} {oK : State} {s : State} (hK : Kept rK oK s) {a : TileArgs} {key : Nat} {t : Tile} {cs : List (Chan × (Nat × Nat) × AccVal)} {g : BitVec 32} {fb : Bool} :
 Kept rK oK (State.releaseCode s a key t cs g fb) := by
  unfold State.releaseCode
  repeat' first
    | with_reducible assumption
    | split
    | with_reducible apply State.bumpBy_kept
    | with_reducible apply State.release_kept
    | with_reducible apply State.sseAdd_kept
    | exact lt_siteReg _ _

theorem State.freeSets_kept {rK : Lic} {oK : State} {s : State} (hK : Kept rK oK s) {pc : Nat} {i : Nat} {wfmt : Nat} :
 Kept rK oK (State.freeSets s pc i wfmt) := by
  unfold State.freeSets
  repeat' first
    | with_reducible assumption
    | split
    | with_reducible apply State.setAccSet_kept

theorem State.endRuns_kept {rK : Lic} {oK : State} {s : State} (hK : Kept rK oK s) {p : Nat} :
 Kept rK oK (State.endRuns s p) := by
  unfold State.endRuns
  repeat' first
    | with_reducible assumption
    | (with_reducible refine Kept.mk' (r := rK) (s0 := oK) ?_ rfl rfl rfl rfl rfl rfl)
    | (dsimp only; split)

theorem State.cutTails_kept {rK : Lic} {oK : State} {s : State} (hK : Kept rK oK s) {p : Nat} :
 Kept rK oK (State.cutTails s p) := by
  unfold State.cutTails
  repeat' first
    | with_reducible assumption
    | (with_reducible refine Kept.mk' (r := rK) (s0 := oK) ?_ rfl rfl rfl rfl rfl rfl)
    | (dsimp only; split)

theorem State.enterRun_kept {rK : Lic} {oK : State} {s : State} (hK : Kept rK oK s) {a : TileArgs} {pc : Nat} :
 Kept rK oK (State.enterRun s a pc) := by
  unfold State.enterRun
  repeat' first
    | with_reducible assumption
    | (with_reducible refine Kept.mk' (r := rK) (s0 := oK) ?_ rfl rfl rfl rfl rfl rfl; first | with_reducible assumption)
    | (dsimp only; split)

theorem State.joinWindow_kept {rK : Lic} {oK : State} {s : State} (hK : Kept rK oK s) {a : TileArgs} {part key : Nat} {x : ScaleSet} {late taint trig : Bool} {f : BitVec 32} :
 Kept rK oK (State.joinWindow s a part key x late taint trig f) := by
  unfold State.joinWindow
  repeat' first
    | with_reducible assumption
    | split
    | with_reducible apply State.raise_kept
    | with_reducible apply State.mark_kept
    | with_reducible apply State.setScaleSet_kept

theorem State.grantFallback_kept {rK : Lic} {oK : State} {s : State} (hK : Kept rK oK s) {a : TileArgs} {pc i cost : Nat} {run : RqRun} {t : Tile} {f : BitVec 32} :
 Kept rK oK (State.grantFallback s a pc i cost run t f) := by
  unfold State.grantFallback
  repeat' first
    | with_reducible assumption
    | split
    | with_reducible apply State.setTile_kept
    | with_reducible apply State.gainClamped_kept
    | with_reducible apply State.bump_kept
    | with_reducible apply State.bumpBy_kept
    | exact lt_siteReg _ _
    | (with_reducible refine Kept.mk' (r := rK) (s0 := oK) ?_ rfl rfl rfl rfl rfl rfl)
    | (dsimp only; split)

theorem State.denyFallback_kept {rK : Lic} {oK : State} {s : State} (hK : Kept rK oK s) {a : TileArgs} {part : Nat} {j : Judged} :
 Kept rK oK (State.denyFallback s a part j) := by
  unfold State.denyFallback
  repeat' first
    | with_reducible assumption
    | with_reducible apply State.raiseOnce_kept
    | with_reducible apply State.updPart_kept
    | with_reducible apply State.bump_kept
    | exact lt_siteReg _ _

theorem State.drainTile_kept {rK : Lic} {oK : State} {s : State} (hK : Kept rK oK s) {a : TileArgs} {i : Nat} :
 Kept rK oK (State.drainTile s a i) := by
  unfold State.drainTile
  repeat' first
    | with_reducible assumption
    | (intro xK; first | (refine Kept.cut (r := rK) (s0 := oK) (x := xK) ?_ ?_; unfold xK) | skip)
    | lift_lets
    | split
    | with_reducible apply State.bump_kept
    | with_reducible apply State.bumpBy_kept
    | with_reducible apply State.enterRun_kept
    | with_reducible apply State.freeSets_kept
    | with_reducible apply State.countClamps_kept
    | with_reducible apply State.joinWindow_kept
    | with_reducible apply State.grantFallback_kept
    | with_reducible apply State.denyFallback_kept
    | with_reducible apply State.release_kept
    | with_reducible apply State.releaseCode_kept
    | with_reducible apply State.setScaleSet_kept
    | with_reducible apply State.setTile_kept
    | with_reducible apply State.updPart_kept
    | exact lt_siteReg _ _
    | (with_reducible refine Kept.mk' (r := rK) (s0 := oK) ?_ rfl rfl rfl rfl rfl rfl)

theorem State.fallbackTile_kept {rK : Lic} {oK : State} {s : State} (hK : Kept rK oK s) {a : TileArgs} {i : Nat} {g : BitVec 32} :
 Kept rK oK (State.fallbackTile s a i g) := by
  unfold State.fallbackTile
  repeat' first
    | with_reducible assumption
    | with_reducible apply State.freeSets_kept
    | with_reducible apply State.countClamps_kept
    | with_reducible apply State.releaseCode_kept

theorem State.fillEnd_kept {rK : Lic} {oK : State} {s : State} (hK : Kept rK oK s) {a : TileArgs} {i : Nat} :
 Kept rK oK (State.fillEnd s a i) := by
  unfold State.fillEnd
  repeat' first
    | with_reducible assumption
    | split
    | with_reducible apply State.bump_kept
    | with_reducible apply State.bumpBy_kept
    | with_reducible apply State.freeSets_kept
    | with_reducible apply State.setTile_kept
    | with_reducible apply State.withhold_kept
    | with_reducible apply State.writeVec_kept
    | exact lt_siteReg _ _
    | with_reducible refine lt_rplReg ?_
    | with_reducible exact lt_leqReg _
    | with_reducible refine lt_add_reg ?_
    | decide
    | (with_reducible refine Kept.mk' (r := rK) (s0 := oK) ?_ rfl rfl rfl rfl rfl rfl)
    | (dsimp only; split)

theorem State.exactDrain_kept {rK : Lic} {oK : State} {s : State} (hK : Kept rK oK s) {a : TileArgs} {i : Nat} :
 Kept rK oK (State.exactDrain s a i) := by
  unfold State.exactDrain
  repeat' first
    | with_reducible assumption
    | with_reducible apply State.freeSets_kept
    | with_reducible apply State.writeVec_kept

theorem State.scaleUpdate_kept {rK : Lic} {oK : State} {s : State} (hK : Kept rK oK s) {p : Nat} :
 Kept rK oK (State.scaleUpdate s p) := by
  unfold State.scaleUpdate
  repeat' first
    | with_reducible assumption
    | split
    | (with_reducible refine Kept.foldl ?_ (fun vK eK hvK => ?_))
    | (with_reducible refine Kept.foldl1 ?_ (fun vK eK hvK => ?_))
    | (with_reducible refine Kept.foldl2 ?_ (fun vK eK hvK => ?_))
    | with_reducible apply State.cutTails_kept
    | with_reducible apply State.endRuns_kept
    | with_reducible apply State.gainClamped_kept
    | with_reducible apply State.setScaleSet_kept
    | (with_reducible refine Kept.mk' (r := rK) (s0 := oK) ?_ rfl rfl rfl rfl rfl rfl)
    | (dsimp only; split)

theorem State.gainsApply_kept {rK : Lic} {oK : State} {s : State} (hK : Kept rK oK s) {p : Nat} :
 Kept rK oK (State.gainsApply s p) := by
  unfold State.gainsApply
  repeat' first
    | with_reducible assumption
    | split
    | (with_reducible refine Kept.foldl ?_ (fun vK eK hvK => ?_))
    | with_reducible apply State.deriveSet_kept
    | with_reducible apply State.setScaleSet_kept
    | (dsimp only; split)

theorem State.freeBf_kept {rK : Lic} {oK : State} {s : State} (hK : Kept rK oK s) :
 Kept rK oK (State.freeBf s).2 := by
  unfold State.freeBf
  repeat' first
    | with_reducible assumption
    | with_reducible apply State.takeFree_kept

theorem State.ingress_kept {rK : Lic} {oK : State} {s : State} (hK : Kept rK oK s) {p : Nat} {slot : Nat} {chan0 : Nat} {hdr : Nat} {gc : Nat} {layer : Nat} {tag : Nat} {stream : Nat} {late : Bool} {xs : List (BitVec 16)} :
 Kept rK oK (State.ingress s p slot chan0 hdr gc layer tag stream late xs).2 := by
  unfold State.ingress
  repeat' first
    | with_reducible assumption
    | split
    | (with_reducible refine Kept.foldl ?_ (fun vK eK hvK => ?_))
    | (with_reducible refine Kept.foldl1 ?_ (fun vK eK hvK => ?_))
    | (with_reducible refine Kept.foldl2 ?_ (fun vK eK hvK => ?_))
    | with_reducible apply State.bumpBy_kept
    | with_reducible apply State.raiseOnce_kept
    | with_reducible apply State.spadRead_kept
    | exact lt_siteReg _ _
    | with_reducible refine lt_rplReg ?_
    | with_reducible exact lt_leqReg _
    | with_reducible refine lt_add_reg ?_
    | decide
    | (with_reducible refine Kept.mk' (r := rK) (s0 := oK) ?_ rfl rfl rfl rfl rfl rfl)
    | (dsimp only; split)

end Sys2Proof.Machine
end

