-- ==== Sys2Proof/Laws/KeptCombCmds.lean ====
section
/-! SUPPORT. What the operations of Machine/CombCmds.lean keep (Laws/Kept.lean). -/

set_option linter.unusedTactic false
set_option linter.unreachableTactic false
set_option linter.unusedVariables false

namespace Sys2Proof.Machine

theorem State.stallSet_kept {rK : Lic} {oK : State} {s : State} (hK : Kept rK oK s) {p : Nat} {pc : Nat} :
 Kept rK oK (State.stallSet s p pc) := by
  unfold State.stallSet
  repeat' first
    | with_reducible assumption
    | with_reducible apply State.bump_kept
    | exact lt_siteReg _ _
    | with_reducible refine lt_rplReg ?_
    | with_reducible exact lt_leqReg _
    | with_reducible refine lt_add_reg ?_
    | decide
    | (with_reducible refine Kept.mk' (r := rK) (s0 := oK) ?_ rfl rfl rfl rfl rfl rfl)
    | (dsimp only; split)

theorem State.vectorConsume_kept {rK : Lic} {oK : State} {s : State} (hK : Kept rK oK s) {a : TileArgs} {h : Nat} {planes : List (BitVec 512)} {late : Bool} {delayed : Bool} :
 Kept rK oK (State.vectorConsume s a h planes late delayed) := by
  unfold State.vectorConsume
  repeat' first
    | with_reducible assumption
    | split
    | with_reducible apply State.badVector_kept
    | with_reducible apply State.consume_kept
    | with_reducible apply State.readVec_kept
    | with_reducible apply State.stallSet_kept
    | (with_reducible refine Kept.mk' (r := rK) (s0 := oK) ?_ rfl rfl rfl rfl rfl rfl)
    | (dsimp only; split)

theorem execVectorConsume_kept {rK : Lic} {oK : State} {s : State} (hK : Kept rK oK s) {a : TileArgs} {hdr : BitVec 256} {planes : List (BitVec 512)} {late : Bool} {delayed : Bool} :
 KeptR rK oK (execVectorConsume a hdr planes late delayed s) := by
  unfold execVectorConsume
  repeat' first
    | with_reducible assumption
    | with_reducible apply KeptR.next
    | with_reducible apply State.vectorConsume_kept

theorem execTileFillEnd_kept {rK : Lic} {oK : State} {s : State} (hK : Kept rK oK s) {a : TileArgs} :
 KeptR rK oK (execTileFillEnd a s) := by
  unfold execTileFillEnd
  repeat' first
    | with_reducible assumption
    | split
    | with_reducible apply KeptR.next
    | with_reducible apply State.fillEnd_kept

theorem execDrainComplete_kept {rK : Lic} {oK : State} {s : State} (hK : Kept rK oK s) {a : TileArgs} :
 KeptR rK oK (execDrainComplete a s) := by
  unfold execDrainComplete
  repeat' first
    | with_reducible assumption
    | split
    | with_reducible apply KeptR.next
    | with_reducible apply State.drainTile_kept

theorem execFallbackComplete_kept {rK : Lic} {oK : State} {s : State} (hK : Kept rK oK s) {a : TileArgs} :
 KeptR rK oK (execFallbackComplete a s) := by
  unfold execFallbackComplete
  repeat' first
    | with_reducible assumption
    | split
    | with_reducible apply KeptR.next
    | with_reducible apply State.fallbackTile_kept

theorem execExactDrainComplete_kept {rK : Lic} {oK : State} {s : State} (hK : Kept rK oK s) {a : TileArgs} :
 KeptR rK oK (execExactDrainComplete a s) := by
  unfold execExactDrainComplete
  repeat' first
    | with_reducible assumption
    | split
    | with_reducible apply KeptR.next
    | with_reducible apply State.exactDrain_kept

theorem execIngressBlock_kept {rK : Lic} {oK : State} {s : State} (hK : Kept rK oK s) {site : Nat} {slot : Nat} {chan0 : Nat} {comb : Nat} {layer : Nat} {tag : Nat} {hdr : BitVec 256} {late : Bool} {xs : List (BitVec 16)} :
 KeptR rK oK (execIngressBlock site slot chan0 comb layer tag hdr late xs s) := by
  unfold execIngressBlock
  repeat' first
    | with_reducible assumption
    | split
    | with_reducible apply KeptR.next
    | with_reducible apply State.badVector_kept
    | with_reducible apply State.emit_kept
    | with_reducible apply State.ingress_kept

theorem State.slotByte_kept {rK : Lic} {oK : State} {s : State} (hK : Kept rK oK s) {pc : Nat} {slot : Nat} {rg : Nat} {o : Nat} {v : Nat} :
 Kept rK oK (State.slotByte s pc slot rg o v) := by
  unfold State.slotByte
  repeat' first
    | with_reducible assumption
    | split
    | with_reducible apply State.setMetaRow_kept
    | with_reducible apply State.setSlotHdr_kept
    | with_reducible apply State.setWeightRow_kept
    | with_reducible apply State.setWzp_kept
    | with_reducible apply State.shadowWrote_kept
    | (dsimp only; split)

theorem State.slotWrite_kept {rK : Lic} {oK : State} {s : State} (hK : Kept rK oK s) {pc : Nat} {slot : Nat} {rg : Nat} {o : Nat} {len : Nat} {x : Nat} :
 Kept rK oK (State.slotWrite s pc slot rg o len x) := by
  unfold State.slotWrite
  repeat' first
    | with_reducible assumption
    | (with_reducible refine Kept.foldl ?_ (fun vK eK hvK => ?_))
    | with_reducible apply State.setSlotHdr_kept
    | with_reducible apply State.slotByte_kept
    | with_reducible apply State.slotDirty_kept
    | (dsimp only; split)

theorem State.bankWrite_kept {rK : Lic} {oK : State} {s : State} (hK : Kept rK oK s) {part : Nat} {master : Nat} {mode : Nat} {a : Nat} {len : Nat} {x : Nat} :
 Kept rK oK (State.bankWrite s part master mode a len x) := by
  unfold State.bankWrite
  repeat' first
    | with_reducible assumption
    | split
    | with_reducible apply State.accessFault_kept
    | with_reducible apply State.slotWrite_kept
    | (with_reducible refine Kept.mk' (r := rK) (s0 := oK) ?_ rfl rfl rfl rfl rfl rfl)
    | (dsimp only; split)

theorem execSpace1Write_kept {rK : Lic} {oK : State} {s : State} (hK : Kept rK oK s) {part : Nat} {master : Nat} {mode : Nat} {addr : BitVec 48} {len : Nat} {data : BitVec 512} :
 KeptR rK oK (execSpace1Write part master mode addr len data s) := by
  unfold execSpace1Write
  repeat' first
    | with_reducible assumption
    | split
    | with_reducible apply KeptR.next
    | with_reducible apply State.accessFault_kept
    | with_reducible apply State.bankWrite_kept
    | (with_reducible refine Kept.mk' (r := rK) (s0 := oK) ?_ rfl rfl rfl rfl rfl rfl)
    | (dsimp only; split)

theorem execBankHeaderCheckComplete_kept {rK : Lic} {oK : State} {s : State} (hK : Kept rK oK s) {site : Nat} {comb : Nat} {bank : Nat} {shadow : Bool} :
 KeptR rK oK (execBankHeaderCheckComplete site comb bank shadow s) := by
  unfold execBankHeaderCheckComplete
  repeat' first
    | with_reducible assumption
    | split
    | with_reducible apply KeptR.next
    | with_reducible apply State.headerCheck_kept

theorem State.shadowStat_kept {rK : Lic} {oK : State} {s : State} (hK : Kept rK oK s) {p : Nat} {k : Nat} {bank : Nat} {result : Nat} :
 Kept rK oK (State.shadowStat s p k bank result) := by
  unfold State.shadowStat
  repeat' first
    | with_reducible assumption
    | split
    | with_reducible apply State.setFld_kept
    | with_reducible apply State.sticky_kept
    | exact lt_siteReg _ _

theorem State.shadowOk_kept {rK : Lic} {oK : State} {s : State} (hK : Kept rK oK s) {p : Nat} {k : Nat} {bank : Nat} {pc : Nat} {i : Nat} :
 Kept rK oK (State.shadowOk s p k bank pc i) := by
  unfold State.shadowOk
  repeat' first
    | with_reducible assumption
    | with_reducible apply State.shadowStat_kept
    | (with_reducible refine Kept.mk' (r := rK) (s0 := oK) ?_ rfl rfl rfl rfl rfl rfl)

theorem State.clearBad_kept {rK : Lic} {oK : State} {s : State} (hK : Kept rK oK s) {p : Nat} {sk : Nat} :
 Kept rK oK (State.clearBad s p sk) := by
  unfold State.clearBad
  repeat' first
    | with_reducible assumption
    | with_reducible apply State.setFld_kept
    | with_reducible apply State.setSlotHdr_kept
    | exact lt_siteReg _ _
    | (dsimp only; split)

theorem execShadowOpen_kept {rK : Lic} {oK : State} {s : State} (hK : Kept rK oK s) {site : Nat} {comb : Nat} {bank : Nat} :
 KeptR rK oK (execShadowOpen site comb bank s) := by
  unfold execShadowOpen
  repeat' first
    | with_reducible assumption
    | split
    | with_reducible apply KeptR.next
    | with_reducible apply State.clearBad_kept
    | with_reducible apply State.raise_kept
    | with_reducible apply State.setShadow_kept
    | with_reducible apply State.shadowOk_kept
    | with_reducible apply State.shadowStat_kept

theorem execShadowArm_kept {rK : Lic} {oK : State} {s : State} (hK : Kept rK oK s) {site : Nat} {comb : Nat} {bank : Nat} :
 KeptR rK oK (execShadowArm site comb bank s) := by
  unfold execShadowArm
  repeat' first
    | with_reducible assumption
    | split
    | with_reducible apply KeptR.next
    | with_reducible apply State.setShadow_kept
    | with_reducible apply State.shadowOk_kept
    | with_reducible apply State.shadowStat_kept

theorem execShadowCancel_kept {rK : Lic} {oK : State} {s : State} (hK : Kept rK oK s) {site : Nat} {comb : Nat} {bank : Nat} :
 KeptR rK oK (execShadowCancel site comb bank s) := by
  unfold execShadowCancel
  repeat' first
    | with_reducible assumption
    | split
    | with_reducible apply KeptR.next
    | with_reducible apply State.setShadow_kept
    | with_reducible apply State.shadowOk_kept
    | with_reducible apply State.shadowStat_kept

theorem execShadowCmdInvalid_kept {rK : Lic} {oK : State} {s : State} (hK : Kept rK oK s) {site : Nat} {w : BitVec 32} :
 KeptR rK oK (execShadowCmdInvalid site w s) := by
  unfold execShadowCmdInvalid
  repeat' first
    | with_reducible assumption
    | with_reducible apply KeptR.next
    | with_reducible apply State.shadowStat_kept

theorem State.stageStat_kept {rK : Lic} {oK : State} {s : State} (hK : Kept rK oK s) {p : Nat} {k : Nat} {set : Nat} {result : Nat} :
 Kept rK oK (State.stageStat s p k set result) := by
  unfold State.stageStat
  repeat' first
    | with_reducible assumption
    | split
    | with_reducible apply State.setFld_kept
    | with_reducible apply State.sticky_kept
    | exact lt_siteReg _ _
    | (with_reducible refine Kept.mk' (r := rK) (s0 := oK) ?_ rfl rfl rfl rfl rfl rfl)

theorem execRqCommit_kept {rK : Lic} {oK : State} {s : State} (hK : Kept rK oK s) {site : Nat} {comb : Nat} {set : Nat} :
 KeptR rK oK (execRqCommit site comb set s) := by
  unfold execRqCommit
  repeat' first
    | with_reducible assumption
    | split
    | with_reducible apply KeptR.next
    | with_reducible apply State.stageStat_kept
    | (with_reducible refine Kept.mk' (r := rK) (s0 := oK) ?_ rfl rfl rfl rfl rfl rfl)

theorem execRqCancel_kept {rK : Lic} {oK : State} {s : State} (hK : Kept rK oK s) {site : Nat} {comb : Nat} {set : Nat} :
 KeptR rK oK (execRqCancel site comb set s) := by
  unfold execRqCancel
  repeat' first
    | with_reducible assumption
    | split
    | with_reducible apply KeptR.next
    | with_reducible apply State.stageStat_kept
    | (with_reducible refine Kept.mk' (r := rK) (s0 := oK) ?_ rfl rfl rfl rfl rfl rfl)

theorem execRqStageCmdInvalid_kept {rK : Lic} {oK : State} {s : State} (hK : Kept rK oK s) {site : Nat} {w : BitVec 32} :
 KeptR rK oK (execRqStageCmdInvalid site w s) := by
  unfold execRqStageCmdInvalid
  repeat' first
    | with_reducible assumption
    | with_reducible apply KeptR.next
    | with_reducible apply State.stageStat_kept

theorem State.stagingWrite_kept {rK : Lic} {oK : State} {s : State} (hK : Kept rK oK s) {p : Nat} {k : Nat} {w : Nat} {v : BitVec 32} :
 Kept rK oK (State.stagingWrite s p k w v) := by
  unfold State.stagingWrite
  repeat' first
    | with_reducible assumption
    | split
    | with_reducible apply State.sticky_kept
    | exact lt_siteReg _ _
    | (with_reducible refine Kept.mk' (r := rK) (s0 := oK) ?_ rfl rfl rfl rfl rfl rfl)
    | (dsimp only; split)

theorem execStagingWrite_kept {rK : Lic} {oK : State} {s : State} (hK : Kept rK oK s) {site : Nat} {comb : Nat} {w : Nat} {v : BitVec 32} :
 KeptR rK oK (execStagingWrite site comb w v s) := by
  unfold execStagingWrite
  repeat' first
    | with_reducible assumption
    | with_reducible apply KeptR.next
    | with_reducible apply State.stagingWrite_kept

theorem execPackEntry_kept {rK : Lic} {oK : State} {s : State} (hK : Kept rK oK s) {site : Nat} {entry : BitVec 256} :
 KeptR rK oK (execPackEntry site entry s) := by
  unfold execPackEntry
  repeat' first
    | with_reducible assumption
    | split
    | with_reducible apply KeptR.next
    | with_reducible apply State.raise_kept
    | (with_reducible refine Kept.mk' (r := rK) (s0 := oK) ?_ rfl rfl rfl rfl rfl rfl)

theorem execPackTileComplete_kept {rK : Lic} {oK : State} {s : State} (hK : Kept rK oK s) {site : Nat} {rows : List (BitVec 256)} {zp : List (BitVec 8)} :
 KeptR rK oK (execPackTileComplete site rows zp s) := by
  unfold execPackTileComplete
  repeat' first
    | with_reducible assumption
    | with_reducible apply State.accessFault_kept
    | (dsimp only; split)
    | split
    | with_reducible apply KeptR.next
    | with_reducible apply State.packTile_kept
    | (with_reducible refine Kept.mk' (r := rK) (s0 := oK) ?_ rfl rfl rfl rfl rfl rfl)

theorem execMergeArrival_kept {rK : Lic} {oK : State} {s : State} (hK : Kept rK oK s) {site : Nat} {hdr : BitVec 256} {payload : List (BitVec 32)} {late : Bool} :
 KeptR rK oK (execMergeArrival site hdr payload late s) := by
  unfold execMergeArrival
  repeat' first
    | with_reducible assumption
    | split
    | with_reducible apply KeptR.next
    | with_reducible apply State.badVector_kept
    | with_reducible apply State.mergeArrive_kept

theorem execMergeResultWrite_kept {rK : Lic} {oK : State} {s : State} (hK : Kept rK oK s) {site : Nat} {mctx : Nat} :
 KeptR rK oK (execMergeResultWrite site mctx s) := by
  unfold execMergeResultWrite
  repeat' first
    | with_reducible assumption
    | split
    | with_reducible apply KeptR.next
    | with_reducible apply State.mergeFinish_kept

end Sys2Proof.Machine
end

