-- ==== Sys2Proof/Laws/KeptSeals.lean ====
section
/-! SUPPORT. What the operations of Machine/Seals.lean keep (Laws/Kept.lean). -/

set_option linter.unusedTactic false
set_option linter.unreachableTactic false
set_option linter.unusedVariables false

namespace Sys2Proof.Machine

theorem State.setSeal_kept {rK : Lic} {oK : State} {s : State} (hK : Kept rK oK s) {k : Nat} {x : Seal} :
 Kept rK oK (State.setSeal s k x) := by
  unfold State.setSeal
  repeat' first
    | with_reducible assumption
    | (with_reducible refine Kept.mk' (r := rK) (s0 := oK) ?_ rfl rfl rfl rfl rfl rfl)

theorem State.setXlat_kept {rK : Lic} {oK : State} {s : State} (hK : Kept rK oK s) {i : Nat} {e : Nat} :
 Kept rK oK (State.setXlat s i e) := by
  unfold State.setXlat
  repeat' first
    | with_reducible assumption
    | (with_reducible refine Kept.mk' (r := rK) (s0 := oK) ?_ rfl rfl rfl rfl rfl rfl)

theorem State.updWaits_kept {rK : Lic} {oK : State} {s : State} (hK : Kept rK oK s) {f : List SealWait → List SealWait} :
 Kept rK oK (State.updWaits s f) := by
  unfold State.updWaits
  repeat' first
    | with_reducible assumption
    | (with_reducible refine Kept.mk' (r := rK) (s0 := oK) ?_ rfl rfl rfl rfl rfl rfl)

theorem State.setCorePort_kept {rK : Lic} {oK : State} {s : State} (hK : Kept rK oK s) {k : Nat} {x : CorePort} :
 Kept rK oK (State.setCorePort s k x) := by
  unfold State.setCorePort
  repeat' first
    | with_reducible assumption
    | (with_reducible refine Kept.mk' (r := rK) (s0 := oK) ?_ rfl rfl rfl rfl rfl rfl)

theorem State.setDstream_kept {rK : Lic} {oK : State} {s : State} (hK : Kept rK oK s) {site : Nat} {st : Nat} {x : DStream} :
 Kept rK oK (State.setDstream s site st x) := by
  unfold State.setDstream
  repeat' first
    | with_reducible assumption
    | (with_reducible refine Kept.mk' (r := rK) (s0 := oK) ?_ rfl rfl rfl rfl rfl rfl)

theorem State.sealDone_kept {rK : Lic} {oK : State} {s : State} (hK : Kept rK oK s) {req : Nat} {result : Nat} {status : Nat} :
 Kept rK oK (State.sealDone s req result status) := by
  unfold State.sealDone
  repeat' first
    | with_reducible assumption
    | split
    | with_reducible apply State.emit_kept
    | with_reducible apply State.setCorePort_kept
    | with_reducible apply State.setDstream_kept
    | (with_reducible refine Kept.mk' (r := rK) (s0 := oK) ?_ rfl rfl rfl rfl rfl rfl)
    | (dsimp only; split)

theorem State.sealPkt_kept {rK : Lic} {oK : State} {s : State} (hK : Kept rK oK s) {part : Nat} {src : Nat} {dst : Nat} {tag : Nat} {body : Nat} :
 Kept rK oK (State.sealPkt s part src dst tag body) := by
  unfold State.sealPkt
  repeat' first
    | with_reducible assumption
    | with_reducible apply State.sendPkt_kept
    | (with_reducible refine Kept.mk' (r := rK) (s0 := oK) ?_ rfl rfl rfl rfl rfl rfl)
    | (dsimp only; split)

theorem State.sealAnswer_kept {rK : Lic} {oK : State} {s : State} (hK : Kept rK oK s) {k : Nat} {req : Nat} {op : Nat} {vseal : Nat} {result : Nat} {status : Nat} :
 Kept rK oK (State.sealAnswer s k req op vseal result status) := by
  unfold State.sealAnswer
  repeat' first
    | with_reducible assumption
    | with_reducible apply State.sealPkt_kept
    | split
    | with_reducible apply State.bump_kept
    | with_reducible apply State.sealDone_kept
    | with_reducible apply State.sendPkt_kept
    | decide
    | with_reducible exact lt_siteReg _ _
    | with_reducible refine lt_rplReg ?_
    | with_reducible exact lt_leqReg _
    | with_reducible refine lt_add_reg ?_
    | (with_reducible refine Kept.mk' (r := rK) (s0 := oK) ?_ rfl rfl rfl rfl rfl rfl)
    | (dsimp only; split)

theorem State.sealLandAck_kept {rK : Lic} {oK : State} {s : State} (hK : Kept rK oK s) {part : Nat} {site : Nat} {dst : Nat} :
 Kept rK oK (State.sealLandAck s part site dst) := by
  unfold State.sealLandAck
  repeat' first
    | with_reducible assumption
    | split
    | with_reducible apply State.bump_kept
    | with_reducible apply State.emit_kept
    | with_reducible apply State.takeFree_kept
    | with_reducible exact lt_siteReg _ _
    | with_reducible refine lt_rplReg ?_
    | with_reducible exact lt_leqReg _
    | with_reducible refine lt_add_reg ?_
    | decide
    | (with_reducible refine Kept.mk' (r := rK) (s0 := oK) ?_ rfl rfl rfl rfl rfl rfl)
    | (dsimp only; split)

theorem State.sealAck_kept {rK : Lic} {oK : State} {s : State} (hK : Kept rK oK s) {k : Nat} {req : Nat} :
 Kept rK oK (State.sealAck s k req) := by
  unfold State.sealAck
  repeat' first
    | with_reducible assumption
    | with_reducible apply State.sealLandAck_kept
    | split
    | with_reducible apply State.sendPkt_kept
    | (with_reducible refine Kept.mk' (r := rK) (s0 := oK) ?_ rfl rfl rfl rfl rfl rfl)
    | (dsimp only; split)

theorem State.sealJoin_kept {rK : Lic} {oK : State} {s : State} (hK : Kept rK oK s) {k : Nat} {req : Nat} {op : Nat} {value : Nat} {vseal : Nat} :
 Kept rK oK (State.sealJoin s k req op value vseal) := by
  unfold State.sealJoin
  repeat' first
    | with_reducible assumption
    | with_reducible apply State.setSeal_kept
    | (with_reducible refine Kept.mk' (r := rK) (s0 := oK) ?_ rfl rfl rfl rfl rfl rfl)

theorem State.sealTrim_kept {rK : Lic} {oK : State} {s : State} (hK : Kept rK oK s) {k : Nat} :
 Kept rK oK (State.sealTrim s k) := by
  unfold State.sealTrim
  repeat' first
    | with_reducible assumption
    | with_reducible apply State.setSeal_kept

theorem State.sealGrant_kept {rK : Lic} {oK : State} {s : State} (hK : Kept rK oK s) {k : Nat} :
 Kept rK oK (State.sealGrant s k) := by
  unfold State.sealGrant
  repeat' first
    | with_reducible assumption
    | split
    | with_reducible apply State.journal_kept
    | with_reducible apply State.sealAnswer_kept
    | with_reducible apply State.sealTrim_kept
    | with_reducible apply State.setSeal_kept
    | with_reducible apply State.sticky_kept
    | with_reducible apply State.updWaits_kept
    | decide
    | (dsimp only; split)

theorem State.sealAbandon_kept {rK : Lic} {oK : State} {s : State} (hK : Kept rK oK s) {k : Nat} {cause : Nat} :
 Kept rK oK (State.sealAbandon s k cause) := by
  unfold State.sealAbandon
  repeat' first
    | with_reducible assumption
    | with_reducible apply State.bump_kept
    | with_reducible apply State.journal_kept
    | with_reducible apply State.sealGrant_kept
    | with_reducible apply State.setSeal_kept
    | with_reducible apply State.sticky_kept
    | decide

theorem State.sealWakeAll_kept {rK : Lic} {oK : State} {s : State} (hK : Kept rK oK s) {k : Nat} :
 Kept rK oK (State.sealWakeAll s k) := by
  unfold State.sealWakeAll
  repeat' first
    | with_reducible assumption
    | split
    | (with_reducible refine Kept.foldl ?_ (fun vK eK hvK => ?_))
    | with_reducible apply State.bump_kept
    | with_reducible apply State.sealAnswer_kept
    | with_reducible apply State.sealDone_kept
    | with_reducible apply State.sealTrim_kept
    | with_reducible apply State.updWaits_kept
    | decide

theorem State.barrierRule_kept {rK : Lic} {oK : State} {s : State} (hK : Kept rK oK s) {k : Nat} :
 Kept rK oK (State.barrierRule s k) := by
  unfold State.barrierRule
  repeat' first
    | with_reducible assumption
    | with_reducible apply State.bump_kept
    | with_reducible apply State.sealTrim_kept
    | with_reducible apply State.setSeal_kept
    | with_reducible apply State.updWaits_kept
    | decide
    | (dsimp only; split)

theorem State.sealCount_kept {rK : Lic} {oK : State} {s : State} (hK : Kept rK oK s) :
 Kept rK oK (State.sealCount s) := by
  unfold State.sealCount
  repeat' first
    | with_reducible assumption
    | with_reducible apply State.bump_kept
    | with_reducible exact lt_siteReg _ _
    | with_reducible refine lt_rplReg ?_
    | with_reducible exact lt_leqReg _
    | with_reducible refine lt_add_reg ?_
    | decide
    | (with_reducible refine Kept.mk' (r := rK) (s0 := oK) ?_ rfl rfl rfl rfl rfl rfl)
    | (dsimp only; split)

theorem State.sealStale_kept {rK : Lic} {oK : State} {s : State} (hK : Kept rK oK s) {k : Nat} {epoch : Nat} {req : Nat} :
 Kept rK oK (State.sealStale s k epoch req) := by
  unfold State.sealStale
  repeat' first
    | with_reducible assumption
    | with_reducible apply State.bump_kept
    | with_reducible apply State.raiseOnce_kept
    | with_reducible apply State.sealAck_kept
    | with_reducible apply State.sticky_kept
    | decide

theorem State.sealInvalid_kept {rK : Lic} {oK : State} {s : State} (hK : Kept rK oK s) {k : Nat} {word : Nat} {req : Nat} :
 Kept rK oK (State.sealInvalid s k word req) := by
  unfold State.sealInvalid
  repeat' first
    | with_reducible assumption
    | with_reducible apply State.raise_kept
    | with_reducible apply State.sealAck_kept

theorem State.applySignal_kept {rK : Lic} {oK : State} {s : State} (hK : Kept rK oK s) {k : Nat} {word : Nat} {req : Nat} :
 Kept rK oK (State.applySignal s k word req) := by
  unfold State.applySignal
  repeat' first
    | with_reducible assumption
    | with_reducible apply State.sealCount_kept
    | split
    | with_reducible apply State.barrierRule_kept
    | with_reducible apply State.raise_kept
    | with_reducible apply State.sealAck_kept
    | with_reducible apply State.sealWakeAll_kept
    | with_reducible apply State.setSeal_kept
    | (with_reducible refine Kept.mk' (r := rK) (s0 := oK) ?_ rfl rfl rfl rfl rfl rfl)
    | (dsimp only; split)

theorem State.applyWait_kept {rK : Lic} {oK : State} {s : State} (hK : Kept rK oK s) {k : Nat} {word : Nat} {req : Nat} :
 Kept rK oK (State.applyWait s k word req) := by
  unfold State.applyWait
  repeat' first
    | with_reducible assumption
    | with_reducible apply State.sealCount_kept
    | with_reducible apply State.sealTrim_kept
    | with_reducible apply State.updWaits_kept
    | split
    | with_reducible apply State.sealAnswer_kept
    | with_reducible apply State.sealJoin_kept
    | (with_reducible refine Kept.mk' (r := rK) (s0 := oK) ?_ rfl rfl rfl rfl rfl rfl)
    | (dsimp only; split)

theorem State.applyAcquire_kept {rK : Lic} {oK : State} {s : State} (hK : Kept rK oK s) {k : Nat} {word : Nat} {req : Nat} :
 Kept rK oK (State.applyAcquire s k word req) := by
  unfold State.applyAcquire
  repeat' first
    | with_reducible assumption
    | with_reducible apply State.sealCount_kept
    | split
    | with_reducible apply State.raise_kept
    | with_reducible apply State.sealGrant_kept
    | with_reducible apply State.sealJoin_kept
    | (with_reducible refine Kept.mk' (r := rK) (s0 := oK) ?_ rfl rfl rfl rfl rfl rfl)
    | (dsimp only; split)

theorem State.applyRelease_kept {rK : Lic} {oK : State} {s : State} (hK : Kept rK oK s) {k : Nat} {word : Nat} {req : Nat} :
 Kept rK oK (State.applyRelease s k word req) := by
  unfold State.applyRelease
  repeat' first
    | with_reducible assumption
    | split
    | with_reducible apply State.sealCount_kept
    | with_reducible apply State.raise_kept
    | with_reducible apply State.sealAck_kept
    | with_reducible apply State.sealGrant_kept
    | with_reducible apply State.setSeal_kept
    | (with_reducible refine Kept.mk' (r := rK) (s0 := oK) ?_ rfl rfl rfl rfl rfl rfl)
    | (dsimp only; split)

theorem State.applyArm_kept {rK : Lic} {oK : State} {s : State} (hK : Kept rK oK s) {k : Nat} {word : Nat} {req : Nat} :
 Kept rK oK (State.applyArm s k word req) := by
  unfold State.applyArm
  repeat' first
    | with_reducible assumption
    | split
    | with_reducible apply State.sealCount_kept
    | with_reducible apply State.barrierRule_kept
    | with_reducible apply State.raise_kept
    | with_reducible apply State.sealAck_kept
    | with_reducible apply State.setSeal_kept
    | (with_reducible refine Kept.mk' (r := rK) (s0 := oK) ?_ rfl rfl rfl rfl rfl rfl)
    | (dsimp only; split)

theorem State.applyRead_kept {rK : Lic} {oK : State} {s : State} (hK : Kept rK oK s) {k : Nat} {word : Nat} {req : Nat} :
 Kept rK oK (State.applyRead s k word req) := by
  unfold State.applyRead
  repeat' first
    | with_reducible assumption
    | split
    | with_reducible apply State.sealCount_kept
    | with_reducible apply State.sealAnswer_kept
    | (with_reducible refine Kept.mk' (r := rK) (s0 := oK) ?_ rfl rfl rfl rfl rfl rfl)
    | (dsimp only; split)

theorem State.sealApply_kept {rK : Lic} {oK : State} {s : State} (hK : Kept rK oK s) {k : Nat} {epoch : Nat} {word : Nat} {req : Nat} {op : Nat} {f : State → State} (hF_f : ∀ (uK : State) , Kept rK oK uK → Kept rK oK (f uK)) :
 Kept rK oK (State.sealApply s k epoch word req op f) := by
  unfold State.sealApply
  repeat' first
    | with_reducible assumption
    | split
    | with_reducible apply State.bump_kept
    | with_reducible apply State.sealInvalid_kept
    | with_reducible apply State.sealStale_kept
    | with_reducible apply hF_f
    | decide
    | (dsimp only; split)

theorem State.sealOp_kept {rK : Lic} {oK : State} {s : State} (hK : Kept rK oK s) {k : Nat} {epoch : Nat} {word : Nat} {req : Nat} :
 Kept rK oK (State.sealOp s k epoch word req) := by
  unfold State.sealOp
  repeat' first
    | with_reducible assumption
    | intro xK
    | split
    | with_reducible apply State.applyAcquire_kept
    | with_reducible apply State.applyArm_kept
    | with_reducible apply State.applyRead_kept
    | with_reducible apply State.applyRelease_kept
    | with_reducible apply State.applySignal_kept
    | with_reducible apply State.applyWait_kept
    | with_reducible apply State.sealApply_kept

theorem State.sealCycle_kept {rK : Lic} {oK : State} {s : State} (hK : Kept rK oK s) {k : Nat} {arr : List SealArr} :
 Kept rK oK (State.sealCycle s k arr) := by
  unfold State.sealCycle
  repeat' first
    | with_reducible assumption
    | (with_reducible refine Kept.foldl ?_ (fun vK eK hvK => ?_))
    | (with_reducible refine Kept.foldl1 ?_ (fun vK eK hvK => ?_))
    | (with_reducible refine Kept.foldl2 ?_ (fun vK eK hvK => ?_))
    | with_reducible apply State.sealOp_kept
    | (with_reducible refine Kept.mk' (r := rK) (s0 := oK) ?_ rfl rfl rfl rfl rfl rfl)
    | (dsimp only; split)

theorem State.sendSeal_kept {rK : Lic} {oK : State} {s : State} (hK : Kept rK oK s) {h : HeldSeal} :
 Kept rK oK (State.sendSeal s h) := by
  unfold State.sendSeal
  repeat' first
    | with_reducible assumption
    | split
    | with_reducible apply State.sendPkt_kept
    | with_reducible apply State.setOutst_kept
    | (with_reducible refine Kept.mk' (r := rK) (s0 := oK) ?_ rfl rfl rfl rfl rfl rfl)
    | (dsimp only; split)

theorem State.queueSeal_kept {rK : Lic} {oK : State} {s : State} (hK : Kept rK oK s) {part : Nat} {src : Nat} {dst : Nat} {ds : Nat} {tag : Nat} {posted : Bool} {body : Nat} :
 Kept rK oK (State.queueSeal s part src dst ds tag posted body) := by
  unfold State.queueSeal
  repeat' first
    | with_reducible assumption
    | split
    | with_reducible apply State.sendSeal_kept
    | (with_reducible refine Kept.mk' (r := rK) (s0 := oK) ?_ rfl rfl rfl rfl rfl rfl)
    | (dsimp only; split)

theorem State.freeHeld_kept {rK : Lic} {oK : State} {s : State} (hK : Kept rK oK s) :
 Kept rK oK (State.freeHeld s) := by
  unfold State.freeHeld
  repeat' first
    | with_reducible assumption
    | split
    | (with_reducible refine Kept.foldl ?_ (fun vK eK hvK => ?_))
    | (with_reducible refine Kept.foldl1 ?_ (fun vK eK hvK => ?_))
    | (with_reducible refine Kept.foldl2 ?_ (fun vK eK hvK => ?_))
    | with_reducible apply State.sendSeal_kept
    | (with_reducible refine Kept.mk' (r := rK) (s0 := oK) ?_ rfl rfl rfl rfl rfl rfl)
    | (dsimp only; split)

theorem State.importForward_kept {rK : Lic} {oK : State} {s : State} (hK : Kept rK oK s) {w : Nat} {rq : Nat} :
 Kept rK oK (State.importForward s w rq) := by
  unfold State.importForward
  repeat' first
    | with_reducible assumption
    | split
    | with_reducible apply State.bump_kept
    | with_reducible apply State.raise_kept
    | with_reducible apply State.sealDone_kept
    | with_reducible apply State.sealPkt_kept
    | with_reducible apply State.sticky_kept
    | with_reducible exact lt_siteReg _ _
    | with_reducible refine lt_rplReg ?_
    | with_reducible exact lt_leqReg _
    | with_reducible refine lt_add_reg ?_
    | decide
    | (with_reducible refine Kept.mk' (r := rK) (s0 := oK) ?_ rfl rfl rfl rfl rfl rfl)
    | (with_reducible exact KeptO.get (by with_reducible assumption) (by with_reducible assumption))
    | (dsimp only; split)

theorem State.sealIssue_kept {rK : Lic} {oK : State} {s : State} (hK : Kept rK oK s) {part : Nat} {site : Nat} {master : Nat} {word : Nat} {ds : Nat} {tag : Nat} :
 Kept rK oK (State.sealIssue s part site master word ds tag) := by
  unfold State.sealIssue
  repeat' first
    | with_reducible assumption
    | split
    | with_reducible apply State.importForward_kept
    | with_reducible apply State.queueSeal_kept
    | with_reducible apply State.raise_kept
    | with_reducible apply State.sealDone_kept
    | with_reducible apply State.sealOp_kept
    | with_reducible apply State.setCorePort_kept
    | with_reducible apply State.updWaits_kept
    | (with_reducible refine Kept.mk' (r := rK) (s0 := oK) ?_ rfl rfl rfl rfl rfl rfl)
    | (dsimp only; split)

theorem State.portsGo_kept {rK : Lic} {oK : State} : ∀ (n : Nat) {s : State}, Kept rK oK s → Kept rK oK (State.portsGo n s)
  | 0, _, hK => hK
  | n + 1, s, hK => by
    unfold State.portsGo
    split
    · exact hK
    · exact State.portsGo_kept n (State.sealIssue_kept (State.setCorePort_kept hK))
theorem State.sealNext_kept {rK : Lic} {oK : State} {s : State} (hK : Kept rK oK s) : Kept rK oK (State.sealNext s) :=
  State.portsGo_kept _ hK

theorem State.sealStroke_kept {rK : Lic} {oK : State} {s : State} (hK : Kept rK oK s) {n : Nat} :
 Kept rK oK (State.sealStroke s n) := by
  unfold State.sealStroke
  repeat' first
    | with_reducible assumption
    | (with_reducible refine Kept.foldl ?_ (fun vK eK hvK => ?_))
    | with_reducible apply State.setSeal_kept

theorem State.sealHeldAtEnd_kept {rK : Lic} {oK : State} {s : State} (hK : Kept rK oK s) {n : Nat} :
 Kept rK oK (State.sealHeldAtEnd s n) := by
  unfold State.sealHeldAtEnd
  repeat' first
    | with_reducible assumption
    | split
    | with_reducible apply State.sealGrant_kept
    | (with_reducible refine Kept.foldl ?_ (fun vK eK hvK => ?_))
    | with_reducible apply State.raise_kept
    | with_reducible apply State.sealAbandon_kept
    | (with_reducible refine Kept.mk' (r := rK) (s0 := oK) ?_ rfl rfl rfl rfl rfl rfl)
    | (dsimp only; split)

theorem State.sealAbandonAll_kept {rK : Lic} {oK : State} {s : State} (hK : Kept rK oK s) {f : Nat → Bool} {cause : Nat} :
 Kept rK oK (State.sealAbandonAll s f cause) := by
  unfold State.sealAbandonAll
  repeat' first
    | with_reducible assumption
    | split
    | with_reducible apply State.sealGrant_kept
    | (with_reducible refine Kept.foldl ?_ (fun vK eK hvK => ?_))
    | with_reducible apply State.sealAbandon_kept
    | (with_reducible refine Kept.mk' (r := rK) (s0 := oK) ?_ rfl rfl rfl rfl rfl rfl)
    | (dsimp only; split)

theorem State.dropWaits_kept {rK : Lic} {oK : State} {s : State} (hK : Kept rK oK s) {f : Nat → Bool} :
 Kept rK oK (State.dropWaits s f) := by
  unfold State.dropWaits
  repeat' first
    | with_reducible assumption
    | split
    | (with_reducible refine Kept.foldl ?_ (fun vK eK hvK => ?_))
    | (with_reducible refine Kept.foldl1 ?_ (fun vK eK hvK => ?_))
    | (with_reducible refine Kept.foldl2 ?_ (fun vK eK hvK => ?_))
    | with_reducible apply State.sealTrim_kept
    | with_reducible apply State.updWaits_kept
    | (with_reducible refine Kept.mk' (r := rK) (s0 := oK) ?_ rfl rfl rfl rfl rfl rfl)
    | (dsimp only; split)

theorem State.sealReset_kept {rK : Lic} {oK : State} {s : State} (hK : Kept rK oK s) {n : Nat} :
 Kept rK oK (State.sealReset s n) := by
  unfold State.sealReset
  repeat' first
    | with_reducible assumption
    | split
    | with_reducible apply State.dropWaits_kept
    | with_reducible apply State.sealAbandon_kept
    | with_reducible apply State.sealGrant_kept
    | (with_reducible refine Kept.foldl ?_ (fun vK eK hvK => ?_))
    | with_reducible apply State.sealAbandonAll_kept
    | with_reducible apply State.sealTrim_kept
    | with_reducible apply State.setSeal_kept
    | with_reducible apply State.setXlat_kept
    | (with_reducible refine Kept.mk' (r := rK) (s0 := oK) ?_ rfl rfl rfl rfl rfl rfl)
    | (dsimp only; split)

theorem State.xlatFresh_kept {rK : Lic} {oK : State} {s : State} (hK : Kept rK oK s) {n : Nat} {v : Nat} :
 Kept rK oK (State.xlatFresh s n v) := by
  unfold State.xlatFresh
  repeat' first
    | with_reducible assumption
    | split
    | (with_reducible refine Kept.mk' (r := rK) (s0 := oK) ?_ rfl rfl rfl rfl rfl rfl)
    | (dsimp only; split)

theorem State.bindEntry_kept {rK : Lic} {oK : State} {s : State} (hK : Kept rK oK s) {n : Nat} {v : Nat} {raw : Nat} :
 Kept rK oK (State.bindEntry s n v raw).1 := by
  unfold State.bindEntry
  repeat' first
    | with_reducible assumption
    | with_reducible apply State.xlatFresh_kept
    | split
    | with_reducible apply State.setSeal_kept
    | with_reducible apply State.setXlat_kept
    | (with_reducible refine Kept.mk' (r := rK) (s0 := oK) ?_ rfl rfl rfl rfl rfl rfl)
    | (dsimp only; split)

theorem State.unbindRest_kept {rK : Lic} {oK : State} {s : State} (hK : Kept rK oK s) {n : Nat} :
 Kept rK oK (State.unbindRest s n) := by
  unfold State.unbindRest
  repeat' first
    | with_reducible assumption
    | split
    | (with_reducible refine Kept.foldl ?_ (fun vK eK hvK => ?_))
    | with_reducible apply State.setSeal_kept

theorem execSealNop_kept {rK : Lic} {oK : State} {s : State} (hK : Kept rK oK s) {word : BitVec 64} {req : BitVec 32} :
 KeptR rK oK (execSealNop word req s) := by
  unfold execSealNop
  repeat' first
    | with_reducible assumption
    | split
    | with_reducible apply KeptR.next
    | with_reducible apply State.raise_kept
    | with_reducible apply State.sealDone_kept
    | with_reducible apply State.sealNext_kept
    | (with_reducible refine Kept.mk' (r := rK) (s0 := oK) ?_ rfl rfl rfl rfl rfl rfl)
    | (dsimp only; split)

theorem State.sealArrive_kept {rK : Lic} {oK : State} {s : State} (hK : Kept rK oK s) {op : Nat} {sl : Nat} {epoch : Nat} {word : BitVec 64} {req : BitVec 32} {same : List SealArr} {t : Nat} :
 Kept rK oK (State.sealArrive s op sl epoch word req same t) := by
  unfold State.sealArrive
  repeat' first
    | with_reducible assumption
    | split
    | with_reducible apply State.at_kept
    | with_reducible apply State.sealCycle_kept
    | with_reducible apply State.sealInvalid_kept
    | with_reducible apply State.sealNext_kept
    | (with_reducible refine Kept.mk' (r := rK) (s0 := oK) ?_ rfl rfl rfl rfl rfl rfl)
    | (dsimp only; split)

theorem execSealSignal_kept {rK : Lic} {oK : State} {s : State} (hK : Kept rK oK s) {sl : Nat} {epoch : Nat} {word : BitVec 64} {req : BitVec 32} {same : List SealArr} {t : Nat} :
 KeptR rK oK (execSealSignal sl epoch word req same t s) := by
  unfold execSealSignal
  repeat' first
    | with_reducible assumption
    | with_reducible apply KeptR.next
    | with_reducible apply State.sealArrive_kept
    | (with_reducible refine Kept.mk' (r := rK) (s0 := oK) ?_ rfl rfl rfl rfl rfl rfl)
    | (dsimp only; split)

theorem execSealWait_kept {rK : Lic} {oK : State} {s : State} (hK : Kept rK oK s) {sl : Nat} {epoch : Nat} {word : BitVec 64} {req : BitVec 32} {same : List SealArr} {t : Nat} :
 KeptR rK oK (execSealWait sl epoch word req same t s) := by
  unfold execSealWait
  repeat' first
    | with_reducible assumption
    | with_reducible apply KeptR.next
    | with_reducible apply State.sealArrive_kept
    | (with_reducible refine Kept.mk' (r := rK) (s0 := oK) ?_ rfl rfl rfl rfl rfl rfl)
    | (dsimp only; split)

theorem execSealAcquire_kept {rK : Lic} {oK : State} {s : State} (hK : Kept rK oK s) {sl : Nat} {epoch : Nat} {word : BitVec 64} {req : BitVec 32} {same : List SealArr} {t : Nat} :
 KeptR rK oK (execSealAcquire sl epoch word req same t s) := by
  unfold execSealAcquire
  repeat' first
    | with_reducible assumption
    | with_reducible apply KeptR.next
    | with_reducible apply State.sealArrive_kept
    | (with_reducible refine Kept.mk' (r := rK) (s0 := oK) ?_ rfl rfl rfl rfl rfl rfl)
    | (dsimp only; split)

theorem execSealRelease_kept {rK : Lic} {oK : State} {s : State} (hK : Kept rK oK s) {sl : Nat} {epoch : Nat} {word : BitVec 64} {req : BitVec 32} {same : List SealArr} {t : Nat} :
 KeptR rK oK (execSealRelease sl epoch word req same t s) := by
  unfold execSealRelease
  repeat' first
    | with_reducible assumption
    | with_reducible apply KeptR.next
    | with_reducible apply State.sealArrive_kept
    | (with_reducible refine Kept.mk' (r := rK) (s0 := oK) ?_ rfl rfl rfl rfl rfl rfl)
    | (dsimp only; split)

theorem execArmBarrier_kept {rK : Lic} {oK : State} {s : State} (hK : Kept rK oK s) {sl : Nat} {epoch : Nat} {word : BitVec 64} {req : BitVec 32} {same : List SealArr} {t : Nat} :
 KeptR rK oK (execArmBarrier sl epoch word req same t s) := by
  unfold execArmBarrier
  repeat' first
    | with_reducible assumption
    | with_reducible apply KeptR.next
    | with_reducible apply State.sealArrive_kept
    | (with_reducible refine Kept.mk' (r := rK) (s0 := oK) ?_ rfl rfl rfl rfl rfl rfl)
    | (dsimp only; split)

theorem execSealRead_kept {rK : Lic} {oK : State} {s : State} (hK : Kept rK oK s) {sl : Nat} {epoch : Nat} {word : BitVec 64} {req : BitVec 32} {same : List SealArr} {t : Nat} :
 KeptR rK oK (execSealRead sl epoch word req same t s) := by
  unfold execSealRead
  repeat' first
    | with_reducible assumption
    | with_reducible apply KeptR.next
    | with_reducible apply State.sealArrive_kept
    | (with_reducible refine Kept.mk' (r := rK) (s0 := oK) ?_ rfl rfl rfl rfl rfl rfl)
    | (dsimp only; split)

theorem State.wakeSite_kept {rK : Lic} {oK : State} {s : State} (hK : Kept rK oK s) {site : Nat} {sl : Nat} {count : Nat} :
 Kept rK oK (State.wakeSite s site sl count) := by
  unfold State.wakeSite
  repeat' first
    | with_reducible assumption
    | (with_reducible refine Kept.foldl ?_ (fun vK eK hvK => ?_))
    | (with_reducible refine Kept.foldl1 ?_ (fun vK eK hvK => ?_))
    | (with_reducible refine Kept.foldl2 ?_ (fun vK eK hvK => ?_))
    | with_reducible apply State.sealDone_kept
    | (with_reducible refine Kept.mk' (r := rK) (s0 := oK) ?_ rfl rfl rfl rfl rfl rfl)
    | (dsimp only; split)

theorem State.grantSite_kept {rK : Lic} {oK : State} {s : State} (hK : Kept rK oK s) {req : Nat} {status : Nat} :
 Kept rK oK (State.grantSite s req status) := by
  unfold State.grantSite
  repeat' first
    | with_reducible assumption
    | split
    | with_reducible apply State.sealDone_kept
    | (with_reducible refine Kept.mk' (r := rK) (s0 := oK) ?_ rfl rfl rfl rfl rfl rfl)
    | (dsimp only; split)

theorem State.ackSite_kept {rK : Lic} {oK : State} {s : State} (hK : Kept rK oK s) {req : Nat} {result : Nat} {status : Nat} :
 Kept rK oK (State.ackSite s req result status) := by
  unfold State.ackSite
  repeat' first
    | with_reducible assumption
    | split
    | with_reducible apply State.sealDone_kept
    | (with_reducible refine Kept.mk' (r := rK) (s0 := oK) ?_ rfl rfl rfl rfl rfl rfl)
    | (dsimp only; split)

theorem State.sealLand_kept {rK : Lic} {oK : State} {s : State} (hK : Kept rK oK s) {site : Nat} {body : Nat} :
 Kept rK oK (State.sealLand s site body) := by
  unfold State.sealLand
  repeat' first
    | with_reducible assumption
    | split
    | with_reducible apply State.ackSite_kept
    | with_reducible apply State.grantSite_kept
    | with_reducible apply State.importForward_kept
    | with_reducible apply State.sealNext_kept
    | with_reducible apply State.sealOp_kept
    | with_reducible apply State.wakeSite_kept
    | (with_reducible refine Kept.mk' (r := rK) (s0 := oK) ?_ rfl rfl rfl rfl rfl rfl)
    | (dsimp only; split)

theorem execSealWake_kept {rK : Lic} {oK : State} {s : State} (hK : Kept rK oK s) {site : Nat} {sl : Nat} {count : Nat} :
 KeptR rK oK (execSealWake site sl count s) := by
  unfold execSealWake
  repeat' first
    | with_reducible assumption
    | split
    | with_reducible apply State.sealNext_kept
    | with_reducible apply State.wakeSite_kept
    | with_reducible apply KeptR.next
    | (with_reducible refine Kept.foldl ?_ (fun vK eK hvK => ?_))
    | with_reducible apply State.sealDone_kept
    | (with_reducible refine Kept.mk' (r := rK) (s0 := oK) ?_ rfl rfl rfl rfl rfl rfl)
    | (dsimp only; split)

theorem execSealGrant_kept {rK : Lic} {oK : State} {s : State} (hK : Kept rK oK s) {req : BitVec 32} {status : Nat} :
 KeptR rK oK (execSealGrant req status s) := by
  unfold execSealGrant
  repeat' first
    | with_reducible assumption
    | with_reducible apply State.grantSite_kept
    | with_reducible apply State.sealNext_kept
    | split
    | with_reducible apply KeptR.next
    | with_reducible apply State.sealDone_kept
    | (with_reducible refine Kept.mk' (r := rK) (s0 := oK) ?_ rfl rfl rfl rfl rfl rfl)
    | (dsimp only; split)

theorem execSealAck_kept {rK : Lic} {oK : State} {s : State} (hK : Kept rK oK s) {req : BitVec 32} {result : BitVec 32} {status : Nat} :
 KeptR rK oK (execSealAck req result status s) := by
  unfold execSealAck
  repeat' first
    | with_reducible assumption
    | with_reducible apply State.ackSite_kept
    | with_reducible apply State.sealNext_kept
    | split
    | with_reducible apply KeptR.next
    | with_reducible apply State.sealDone_kept
    | (with_reducible refine Kept.mk' (r := rK) (s0 := oK) ?_ rfl rfl rfl rfl rfl rfl)
    | (dsimp only; split)

theorem execBarrierWaveTime_kept {rK : Lic} {oK : State} {s : State} (hK : Kept rK oK s) {req : BitVec 32} {t : Nat} :
 KeptR rK oK (execBarrierWaveTime req t s) := by
  unfold execBarrierWaveTime
  repeat' first
    | with_reducible assumption
    | with_reducible apply State.sealNext_kept
    | split
    | with_reducible apply KeptR.next
    | with_reducible apply State.at_kept
    | with_reducible apply State.sealDone_kept
    | (with_reducible refine Kept.mk' (r := rK) (s0 := oK) ?_ rfl rfl rfl rfl rfl rfl)
    | (dsimp only; split)

theorem execSealImportForward_kept {rK : Lic} {oK : State} {s : State} (hK : Kept rK oK s) {word : BitVec 64} {req : BitVec 32} :
 KeptR rK oK (execSealImportForward word req s) := by
  unfold execSealImportForward
  repeat' first
    | with_reducible assumption
    | with_reducible apply State.importForward_kept
    | with_reducible apply State.sealNext_kept
    | split
    | with_reducible apply KeptR.next
    | with_reducible apply State.bump_kept
    | with_reducible apply State.raise_kept
    | with_reducible apply State.sendPkt_kept
    | with_reducible apply State.sticky_kept
    | decide
    | (with_reducible refine Kept.mk' (r := rK) (s0 := oK) ?_ rfl rfl rfl rfl rfl rfl)
    | (dsimp only; split)

theorem execSealResultLoad_kept {rK : Lic} {oK : State} {s : State} (hK : Kept rK oK s) {site : Nat} {core : Nat} :
 KeptR rK oK (execSealResultLoad site core s) := by
  unfold execSealResultLoad
  repeat' first
    | with_reducible assumption
    | split
    | with_reducible apply KeptR.next
    | with_reducible apply State.emit_kept
    | with_reducible apply State.setCorePort_kept

theorem execSealInspRead_kept {rK : Lic} {oK : State} {s : State} (hK : Kept rK oK s) :
 KeptR rK oK (execSealInspRead s) := by
  unfold execSealInspRead
  repeat' first
    | with_reducible assumption
    | split
    | with_reducible apply KeptR.next
    | with_reducible apply State.emit_kept
    | (with_reducible refine Kept.mk' (r := rK) (s0 := oK) ?_ rfl rfl rfl rfl rfl rfl)

end Sys2Proof.Machine
end

