-- ==== Sys2Proof/Laws/KeptStack.lean ====
section
/-! SUPPORT. What the operations of Machine/Stack.lean keep (Laws/Kept.lean). -/

set_option linter.unusedTactic false
set_option linter.unreachableTactic false
set_option linter.unusedVariables false

namespace Sys2Proof.Machine

theorem State.setFrame_kept {rK : Lic} {oK : State} {s : State} (hK : Kept rK oK s) {p : Nat} {f : Nat} {x : FrameEntry} :
 Kept rK oK (State.setFrame s p f x) := by
  unfold State.setFrame
  repeat' first
    | with_reducible assumption
    | (with_reducible refine Kept.mk' (r := rK) (s0 := oK) ?_ rfl rfl rfl rfl rfl rfl)
    | (dsimp only; split)

theorem State.takeFrame_kept {rK : Lic} {oK : State} {s : State} (hK : Kept rK oK s) {p st : Nat} :
    ∀ zK, State.takeFrame s p st = some zK → Kept rK oK zK.2 := by
  intro zK h
  simp only [State.takeFrame, Option.map_eq_some_iff] at h
  obtain ⟨f, _, rfl⟩ := h
  exact State.setFrame_kept hK

theorem State.releaseHeld_kept {rK : Lic} {oK : State} {s : State} (hK : Kept rK oK s) {p : Nat} :
 Kept rK oK (State.releaseHeld s p) := by
  unfold State.releaseHeld
  repeat' first
    | with_reducible assumption
    | split
    | (with_reducible refine Kept.mk' (r := rK) (s0 := oK) ?_ rfl rfl rfl rfl rfl rfl)
    | (dsimp only; split)

theorem State.dropFrame_kept {rK : Lic} {oK : State} {s : State} (hK : Kept rK oK s) {p : Nat} {f : Nat} :
 Kept rK oK (State.dropFrame s p f) := by
  unfold State.dropFrame
  repeat' first
    | with_reducible assumption
    | split
    | with_reducible apply State.setFrame_kept
    | (with_reducible refine Kept.mk' (r := rK) (s0 := oK) ?_ rfl rfl rfl rfl rfl rfl)
    | (dsimp only; split)

theorem State.setSvc_kept {rK : Lic} {oK : State} {s : State} (hK : Kept rK oK s) {p : Nat} {x : PageSvc} :
 Kept rK oK (State.setSvc s p x) := by
  unfold State.setSvc
  repeat' first
    | with_reducible assumption
    | (with_reducible refine Kept.mk' (r := rK) (s0 := oK) ?_ rfl rfl rfl rfl rfl rfl)
    | (dsimp only; split)

theorem State.setDirRaw_kept {rK : Lic} {oK : State} {s : State} (hK : Kept rK oK s) {p : Nat} {i : Nat} {e : DirEntry} :
 Kept rK oK (State.setDirRaw s p i e) := by
  unfold State.setDirRaw
  repeat' first
    | with_reducible assumption
    | (with_reducible refine Kept.mk' (r := rK) (s0 := oK) ?_ rfl rfl rfl rfl rfl rfl)
    | (dsimp only; split)

theorem State.setLeaf_kept {rK : Lic} {oK : State} {s : State} (hK : Kept rK oK s) {p : Nat} {e : DirEntry} {i : Nat} {x : PageEntry} :
 Kept rK oK (State.setLeaf s p e i x) := by
  unfold State.setLeaf
  repeat' first
    | with_reducible assumption
    | (with_reducible refine Kept.mk' (r := rK) (s0 := oK) ?_ rfl rfl rfl rfl rfl rfl)
    | (dsimp only; split)

theorem State.copyEntry_kept {rK : Lic} {oK : State} {s : State} (hK : Kept rK oK s) {p : Nat} {i : Nat} {e : DirEntry} {b : Nat} :
 Kept rK oK (State.copyEntry s p i e b) := by
  unfold State.copyEntry
  repeat' first
    | with_reducible assumption
    | split
    | (with_reducible refine Kept.foldl ?_ (fun vK eK hvK => ?_))
    | (with_reducible refine Kept.foldl1 ?_ (fun vK eK hvK => ?_))
    | (with_reducible refine Kept.foldl2 ?_ (fun vK eK hvK => ?_))
    | (with_reducible refine Kept.mk' (r := rK) (s0 := oK) ?_ rfl rfl rfl rfl rfl rfl)
    | (dsimp only; split)

theorem State.copyGen_kept {rK : Lic} {oK : State} {s : State} (hK : Kept rK oK s) {p : Nat} :
 Kept rK oK (State.copyGen s p) := by
  unfold State.copyGen
  repeat' first
    | with_reducible assumption
    | split
    | (with_reducible refine Kept.foldl ?_ (fun vK eK hvK => ?_))
    | (with_reducible refine Kept.foldl1 ?_ (fun vK eK hvK => ?_))
    | (with_reducible refine Kept.foldl2 ?_ (fun vK eK hvK => ?_))
    | with_reducible apply State.copyEntry_kept
    | with_reducible apply State.setSvc_kept
    | (with_reducible refine Kept.mk' (r := rK) (s0 := oK) ?_ rfl rfl rfl rfl rfl rfl)
    | (dsimp only; split)

theorem State.replayChange_kept {rK : Lic} {oK : State} {s : State} (hK : Kept rK oK s) {p : Nat} {c : KvChange} :
 Kept rK oK (State.replayChange s p c) := by
  unfold State.replayChange
  repeat' first
    | with_reducible assumption
    | split
    | with_reducible apply State.copyEntry_kept
    | with_reducible apply State.setSvc_kept
    | (with_reducible refine Kept.mk' (r := rK) (s0 := oK) ?_ rfl rfl rfl rfl rfl rfl)
    | (dsimp only; split)

theorem State.kvChange_kept {rK : Lic} {oK : State} {s : State} (hK : Kept rK oK s) {p : Nat} {c : KvChange} :
 Kept rK oK (State.kvChange s p c) := by
  unfold State.kvChange
  repeat' first
    | with_reducible assumption
    | split
    | with_reducible apply State.bump_kept
    | with_reducible apply State.journal_kept
    | with_reducible apply State.replayChange_kept
    | with_reducible apply State.setSvc_kept
    | exact lt_siteReg _ _
    | with_reducible refine lt_rplReg ?_
    | with_reducible exact lt_leqReg _
    | with_reducible refine lt_add_reg ?_
    | decide
    | (with_reducible refine Kept.mk' (r := rK) (s0 := oK) ?_ rfl rfl rfl rfl rfl rfl)
    | (dsimp only; split)

theorem State.setDir_kept {rK : Lic} {oK : State} {s : State} (hK : Kept rK oK s) {p : Nat} {i : Nat} {e : DirEntry} {moved : Bool} :
 Kept rK oK (State.setDir s p i e moved) := by
  unfold State.setDir
  repeat' first
    | with_reducible assumption
    | with_reducible apply State.kvChange_kept
    | with_reducible apply State.setDirRaw_kept
    | (with_reducible refine Kept.mk' (r := rK) (s0 := oK) ?_ rfl rfl rfl rfl rfl rfl)
    | (dsimp only; split)

theorem State.ensureLeaf_kept {rK : Lic} {oK : State} {s : State} (hK : Kept rK oK s) {p : Nat} {i : Nat} {pages : Nat} :
 KeptO rK oK (State.ensureLeaf s p i pages) := by
  unfold State.ensureLeaf
  repeat' first
    | with_reducible assumption
    | split
    | (with_reducible refine Kept.foldl ?_ (fun vK eK hvK => ?_))
    | (with_reducible refine Kept.foldl1 ?_ (fun vK eK hvK => ?_))
    | (with_reducible refine Kept.foldl2 ?_ (fun vK eK hvK => ?_))
    | with_reducible apply State.setDir_kept
    | with_reducible apply State.setLeaf_kept
    | with_reducible apply State.setSvc_kept
    | (with_reducible refine Kept.mk' (r := rK) (s0 := oK) ?_ rfl rfl rfl rfl rfl rfl)
    | (with_reducible exact KeptO.get (by with_reducible assumption) (by with_reducible assumption))
    | (dsimp only; split)
    | with_reducible apply KeptO.some
    | with_reducible exact KeptO.none
    | with_reducible refine KeptO.map ?_ (fun uK hvK => ?_)

theorem State.addPage_kept {rK : Lic} {oK : State} {s : State} (hK : Kept rK oK s) {p : Nat} {i : Nat} {f : Nat} {shr : Bool} :
 Kept rK oK (State.addPage s p i f shr) := by
  unfold State.addPage
  repeat' first
    | with_reducible assumption
    | split
    | with_reducible apply State.setDir_kept
    | with_reducible apply State.setLeaf_kept
    | (with_reducible refine Kept.mk' (r := rK) (s0 := oK) ?_ rfl rfl rfl rfl rfl rfl)
    | (dsimp only; split)

theorem State.freeLog_kept {rK : Lic} {oK : State} {s : State} (hK : Kept rK oK s) {p : Nat} {i : Nat} :
 Kept rK oK (State.freeLog s p i) := by
  unfold State.freeLog
  repeat' first
    | with_reducible assumption
    | split
    | (with_reducible refine Kept.foldl ?_ (fun vK eK hvK => ?_))
    | (with_reducible refine Kept.foldl1 ?_ (fun vK eK hvK => ?_))
    | (with_reducible refine Kept.foldl2 ?_ (fun vK eK hvK => ?_))
    | with_reducible apply State.dropFrame_kept
    | with_reducible apply State.setDir_kept
    | with_reducible apply State.setLeaf_kept
    | with_reducible apply State.setSvc_kept
    | (with_reducible refine Kept.mk' (r := rK) (s0 := oK) ?_ rfl rfl rfl rfl rfl rfl)
    | (dsimp only; split)

theorem State.freeStream_kept {rK : Lic} {oK : State} {s : State} (hK : Kept rK oK s) {n : Nat} {sid : Nat} :
 Kept rK oK (State.freeStream s n sid) := by
  unfold State.freeStream
  repeat' first
    | with_reducible assumption
    | split
    | (with_reducible refine Kept.foldl ?_ (fun vK eK hvK => ?_))
    | (with_reducible refine Kept.foldl1 ?_ (fun vK eK hvK => ?_))
    | (with_reducible refine Kept.foldl2 ?_ (fun vK eK hvK => ?_))
    | with_reducible apply State.freeLog_kept
    | (with_reducible refine Kept.mk' (r := rK) (s0 := oK) ?_ rfl rfl rfl rfl rfl rfl)
    | (dsimp only; split)

theorem State.setLog_kept {rK : Lic} {oK : State} {s : State} (hK : Kept rK oK s) {p : Nat} {i : Nat} {b : Nat} {aR0 : List Nat} :
 Kept rK oK (State.setLog s p i b aR0) := by
  induction aR0 generalizing s p i b with
  | nil =>
    unfold State.setLog
    repeat' first
      | with_reducible assumption
      | with_reducible apply State.setHbmByte_kept
      | (with_reducible refine Kept.mk' (r := rK) (s0 := oK) ?_ rfl rfl rfl rfl rfl rfl)
      | (dsimp only; split)
  | cons xR tR ihK =>
    unfold State.setLog
    repeat' first
      | with_reducible assumption
      | with_reducible apply ihK
      | with_reducible apply State.setHbmByte_kept
      | (with_reducible refine Kept.mk' (r := rK) (s0 := oK) ?_ rfl rfl rfl rfl rfl rfl)
      | (dsimp only; split)

theorem State.hbmErrs_kept {rK : Lic} {oK : State} {s : State} (hK : Kept rK oK s) {part : Nat} {p : Nat} {e : MemErr} :
 Kept rK oK (State.hbmErrs s part p e) := by
  unfold State.hbmErrs
  repeat' first
    | with_reducible assumption
    | split
    | (with_reducible refine Kept.foldl ?_ (fun vK eK hvK => ?_))
    | (with_reducible refine Kept.foldl1 ?_ (fun vK eK hvK => ?_))
    | (with_reducible refine Kept.foldl2 ?_ (fun vK eK hvK => ?_))
    | with_reducible apply State.bump_kept
    | with_reducible apply State.bumpBy_kept
    | with_reducible apply State.mark_kept
    | with_reducible apply State.raiseOnce_kept
    | with_reducible apply State.setFrame_kept
    | exact lt_siteReg _ _
    | with_reducible refine lt_rplReg ?_
    | with_reducible exact lt_leqReg _
    | with_reducible refine lt_add_reg ?_
    | decide
    | (with_reducible refine Kept.mk' (r := rK) (s0 := oK) ?_ rfl rfl rfl rfl rfl rfl)
    | (dsimp only; split)

theorem State.memErrs_kept {rK : Lic} {oK : State} {s : State} (hK : Kept rK oK s) {part : Nat} {p : Nat} {slot : Nat} {e : MemErr} :
 Kept rK oK (State.memErrs s part p slot e) := by
  unfold State.memErrs
  repeat' first
    | with_reducible assumption
    | with_reducible apply State.hbmErrs_kept
    | with_reducible apply State.spadErrs_kept
    | (with_reducible refine Kept.mk' (r := rK) (s0 := oK) ?_ rfl rfl rfl rfl rfl rfl)
    | (dsimp only; split)

theorem State.stackUe_kept {rK : Lic} {oK : State} {s : State} (hK : Kept rK oK s) {p : Nat} {g : Nat × Nat} :
 Kept rK oK (State.stackUe s p g) := by
  unfold State.stackUe
  repeat' first
    | with_reducible assumption
    | with_reducible apply State.bump_kept
    | with_reducible apply State.setFrame_kept
    | exact lt_siteReg _ _
    | with_reducible refine lt_rplReg ?_
    | with_reducible exact lt_leqReg _
    | with_reducible refine lt_add_reg ?_
    | decide
    | (with_reducible refine Kept.mk' (r := rK) (s0 := oK) ?_ rfl rfl rfl rfl rfl rfl)
    | (dsimp only; split)

theorem State.stackUnit_kept {rK : Lic} {oK : State} {s : State} (hK : Kept rK oK s) {p : Nat} {f : Nat} {u : Nat} :
 Kept rK oK (State.stackUnit s p f u).2 := by
  unfold State.stackUnit
  repeat' first
    | with_reducible assumption
    | split
    | (with_reducible refine Kept.mk' (r := rK) (s0 := oK) ?_ rfl rfl rfl rfl rfl rfl)

theorem State.stackUnits_kept {rK : Lic} {oK : State} {s : State} (hK : Kept rK oK s) {p : Nat} {f : Nat} {u : Nat} {n : Nat} :
 Kept rK oK (State.stackUnits s p f u n).2 := by
  induction n generalizing s u with
  | zero => exact hK
  | succ n ih => exact ih (State.stackUnit_kept hK)

theorem State.kvUe_kept {rK : Lic} {oK : State} {s : State} (hK : Kept rK oK s) {part : Nat} {p : Nat} {slot : Nat} {layer : Nat} {tag : Nat} {g : Nat × Nat} :
 Kept rK oK (State.kvUe s part p slot layer tag g) := by
  unfold State.kvUe
  repeat' first
    | with_reducible assumption
    | with_reducible apply State.raise_kept
    | with_reducible apply State.stackUe_kept
    | with_reducible apply State.sticky_kept
    | exact lt_siteReg _ _
    | with_reducible refine lt_rplReg ?_
    | with_reducible exact lt_leqReg _
    | with_reducible refine lt_add_reg ?_
    | decide
    | (with_reducible refine Kept.mk' (r := rK) (s0 := oK) ?_ rfl rfl rfl rfl rfl rfl)
    | (dsimp only; split)

theorem State.copyFrame_kept {rK : Lic} {oK : State} {s : State} (hK : Kept rK oK s) {p : Nat} {f : Nat} {f' : Nat} :
 Kept rK oK (State.copyFrame s p f f') := by
  unfold State.copyFrame
  repeat' first
    | with_reducible assumption
    | (with_reducible refine Kept.foldl ?_ (fun vK eK hvK => ?_))
    | (with_reducible refine Kept.foldl1 ?_ (fun vK eK hvK => ?_))
    | (with_reducible refine Kept.foldl2 ?_ (fun vK eK hvK => ?_))
    | with_reducible apply State.setHbmGran_kept
    | (with_reducible refine Kept.mk' (r := rK) (s0 := oK) ?_ rfl rfl rfl rfl rfl rfl)
    | (dsimp only; split)

theorem State.parkLayer_kept {rK : Lic} {oK : State} {s : State} (hK : Kept rK oK s) {p : Nat} {i : Nat} {l : Nat} {d : Nat} {m : Nat} :
 Kept rK oK (State.parkLayer s p i l d m) := by
  unfold State.parkLayer
  repeat' first
    | with_reducible assumption
    | split
    | (with_reducible refine Kept.foldl ?_ (fun vK eK hvK => ?_))
    | (with_reducible refine Kept.foldl1 ?_ (fun vK eK hvK => ?_))
    | (with_reducible refine Kept.foldl2 ?_ (fun vK eK hvK => ?_))
    | with_reducible apply State.copyFrame_kept
    | with_reducible apply State.freeLog_kept
    | (with_reducible refine Kept.mk' (r := rK) (s0 := oK) ?_ rfl rfl rfl rfl rfl rfl)
    | (dsimp only; split)

end Sys2Proof.Machine
end

