-- ==== Sys2Proof/Laws/KeptFabric.lean ====
section
/-! SUPPORT. What the operations of Machine/Fabric.lean keep (Laws/Kept.lean). -/

set_option linter.unusedTactic false
set_option linter.unreachableTactic false
set_option linter.unusedVariables false

namespace Sys2Proof.Machine

theorem State.reply_kept {rK : Lic} {oK : State} {s : State} (hK : Kept rK oK s) {p : Nat} {h : Nat} {type : Nat} {len : Nat} :
 Kept rK oK (State.reply s p h type len) := by
  unfold State.reply
  repeat' first
    | with_reducible assumption
    | with_reducible apply State.bump_kept
    | with_reducible apply State.emit_kept
    | with_reducible exact lt_siteReg _ _
    | with_reducible refine lt_rplReg ?_
    | with_reducible exact lt_leqReg _
    | with_reducible refine lt_add_reg ?_
    | decide
    | (with_reducible refine Kept.mk' (r := rK) (s0 := oK) ?_ rfl rfl rfl rfl rfl rfl)
    | (dsimp only; split)

theorem State.judged_kept {rK : Lic} {oK : State} {s : State} (hK : Kept rK oK s) {p : Nat} {h : Nat} {failed : Bool} :
 Kept rK oK (State.judged s p h failed) := by
  unfold State.judged
  repeat' first
    | with_reducible assumption
    | split
    | (with_reducible refine Kept.mk' (r := rK) (s0 := oK) ?_ rfl rfl rfl rfl rfl rfl)
    | (dsimp only; split)

theorem State.acked_kept {rK : Lic} {oK : State} {s : State} (hK : Kept rK oK s) {o : OutPkt} :
 Kept rK oK (State.acked s o) := by
  unfold State.acked
  repeat' first
    | with_reducible assumption
    | (with_reducible refine Kept.mk' (r := rK) (s0 := oK) ?_ rfl rfl rfl rfl rfl rfl)

theorem State.replyRead_kept {rK : Lic} {oK : State} {s : State} (hK : Kept rK oK s) {p : Nat} {h : Nat} {err : Nat} {len : Nat} {payload : List Nat} :
 Kept rK oK (State.replyRead s p h err len payload) := by
  unfold State.replyRead
  repeat' first
    | with_reducible assumption
    | split
    | with_reducible apply State.bump_kept
    | with_reducible apply State.emit_kept
    | with_reducible apply State.judged_kept
    | with_reducible exact lt_siteReg _ _
    | with_reducible refine lt_rplReg ?_
    | with_reducible exact lt_leqReg _
    | with_reducible refine lt_add_reg ?_
    | decide
    | (with_reducible refine Kept.mk' (r := rK) (s0 := oK) ?_ rfl rfl rfl rfl rfl rfl)
    | (dsimp only; split)

theorem State.received_kept {rK : Lic} {oK : State} {s : State} (hK : Kept rK oK s) {p : Nat} {h : Nat} {n : Nat} :
 Kept rK oK (State.received s p h n).2 := by
  unfold State.received
  repeat' first
    | with_reducible assumption
    | split
    | with_reducible apply State.bump_kept
    | with_reducible apply State.sticky_kept
    | exact lt_siteReg _ _

theorem State.lateReply_kept {rK : Lic} {oK : State} {s : State} (hK : Kept rK oK s) {p : Nat} {h : Nat} {reason : Nat} :
 Kept rK oK (State.lateReply s p h reason) := by
  unfold State.lateReply
  repeat' first
    | with_reducible assumption
    | split
    | with_reducible apply State.judged_kept
    | with_reducible apply State.bump_kept
    | with_reducible apply State.reply_kept
    | with_reducible exact lt_siteReg _ _
    | (with_reducible refine Kept.mk' (r := rK) (s0 := oK) ?_ rfl rfl rfl rfl rfl rfl)
    | with_reducible exact lt_siteReg _ _
    | with_reducible refine lt_rplReg ?_
    | with_reducible exact lt_leqReg _
    | with_reducible refine lt_add_reg ?_
    | decide
    | (dsimp only; split)

theorem State.staleDrop_kept {rK : Lic} {oK : State} {s : State} (hK : Kept rK oK s) {p : Nat} {h : Nat} :
 Kept rK oK (State.staleDrop s p h) := by
  unfold State.staleDrop
  repeat' first
    | with_reducible assumption
    | split
    | with_reducible apply State.judged_kept
    | with_reducible apply State.bump_kept
    | with_reducible apply State.raiseOnce_kept
    | with_reducible apply State.sticky_kept
    | with_reducible exact lt_siteReg _ _
    | with_reducible exact lt_siteReg _ _
    | with_reducible refine lt_rplReg ?_
    | with_reducible exact lt_leqReg _
    | with_reducible refine lt_add_reg ?_
    | decide
    | (with_reducible refine Kept.mk' (r := rK) (s0 := oK) ?_ rfl rfl rfl rfl rfl rfl)
    | (dsimp only; split)

theorem State.inboundDenied_kept {rK : Lic} {oK : State} {s : State} (hK : Kept rK oK s) {p : Nat} {h : Nat} {reason : Nat} :
 Kept rK oK (State.inboundDenied s p h reason) := by
  unfold State.inboundDenied
  repeat' first
    | with_reducible assumption
    | split
    | with_reducible apply State.raiseOnce_kept
    | with_reducible apply State.sticky_kept
    | exact lt_siteReg _ _

theorem State.arrivalLand_kept {rK : Lic} {oK : State} {s : State} (hK : Kept rK oK s) {site : Nat} {h : Nat} {data : Nat} {n : Nat} :
 Kept rK oK (State.arrivalLand s site h data n) := by
  unfold State.arrivalLand
  repeat' first
    | with_reducible assumption
    | split
    | with_reducible apply State.badVector_kept
    | with_reducible apply State.mergeArrive_kept
    | (with_reducible refine Kept.mk' (r := rK) (s0 := oK) ?_ rfl rfl rfl rfl rfl rfl)
    | (dsimp only; split)

theorem State.sendAck_kept {rK : Lic} {oK : State} {s : State} (hK : Kept rK oK s) {p : Nat} {src : Nat} {vc : Nat} :
 Kept rK oK (State.sendAck s p src vc) := by
  unfold State.sendAck
  repeat' first
    | with_reducible assumption
    | with_reducible apply State.reply_kept
    | (with_reducible refine Kept.mk' (r := rK) (s0 := oK) ?_ rfl rfl rfl rfl rfl rfl; first | with_reducible assumption | with_reducible apply State.reply_kept)
    | (dsimp only; split)

theorem State.holdAck_kept {rK : Lic} {oK : State} {s : State} (hK : Kept rK oK s) {p : Nat} {h : Nat} :
 Kept rK oK (State.holdAck s p h) := by
  unfold State.holdAck
  repeat' first
    | with_reducible assumption
    | with_reducible apply State.sendAck_kept
    | (with_reducible refine Kept.mk' (r := rK) (s0 := oK) ?_ rfl rfl rfl rfl rfl rfl; first | with_reducible assumption | with_reducible apply State.sendAck_kept)
    | (dsimp only; split)

theorem execPwriteLand_kept {rK : Lic} {oK : State} {s : State} (hK : Kept rK oK s) {site : Nat} {hdr : BitVec 128} {payload : List (BitVec 512)} {badFirst : Bool} {bad : Bool} :
 KeptR rK oK (execPwriteLand site hdr payload badFirst bad s) := by
  unfold execPwriteLand
  repeat' first
    | with_reducible assumption
    | with_reducible apply State.arrivalLand_kept
    | with_reducible apply State.judged_kept
    | with_reducible apply State.sealLand_kept
    | split
    | with_reducible apply KeptR.next
    | with_reducible apply State.holdAck_kept
    | with_reducible apply State.inboundDenied_kept
    | with_reducible apply State.lateMark_kept
    | with_reducible apply State.lateReply_kept
    | with_reducible apply State.mergeArrive_kept
    | with_reducible apply State.mergeLost_kept
    | with_reducible apply State.received_kept
    | with_reducible apply State.reply_kept
    | with_reducible apply State.staleDrop_kept
    | with_reducible apply State.writeGran_kept
    | (with_reducible refine Kept.mk' (r := rK) (s0 := oK) ?_ rfl rfl rfl rfl rfl rfl)
    | (dsimp only; split)

theorem execLandAckGatherExpiry_kept {rK : Lic} {oK : State} {s : State} (hK : Kept rK oK s) {site : Nat} {src : Nat} {vc : Nat} {t : Nat} :
 KeptR rK oK (execLandAckGatherExpiry site src vc t s) := by
  unfold execLandAckGatherExpiry
  repeat' first
    | with_reducible assumption
    | split
    | with_reducible apply KeptR.next
    | with_reducible apply State.at_kept
    | with_reducible apply State.sendAck_kept

theorem execReadReq_kept {rK : Lic} {oK : State} {s : State} (hK : Kept rK oK s) {site : Nat} {hdr : BitVec 128} {e : MemErr} :
 KeptR rK oK (execReadReq site hdr e s) := by
  unfold execReadReq
  repeat' first
    | with_reducible assumption
    | split
    | with_reducible apply KeptR.next
    | (with_reducible refine Kept.foldl ?_ (fun vK eK hvK => ?_))
    | (with_reducible refine Kept.foldl1 ?_ (fun vK eK hvK => ?_))
    | (with_reducible refine Kept.foldl2 ?_ (fun vK eK hvK => ?_))
    | with_reducible apply State.bump_kept
    | with_reducible apply State.inboundDenied_kept
    | with_reducible apply State.lateEntry_kept
    | with_reducible apply State.lateReply_kept
    | with_reducible apply State.memErrs_kept
    | with_reducible apply State.received_kept
    | with_reducible apply State.replyRead_kept
    | with_reducible apply State.spadReadG_kept
    | with_reducible apply State.stackUe_kept
    | with_reducible apply State.staleDrop_kept
    | with_reducible exact lt_siteReg _ _
    | with_reducible refine lt_rplReg ?_
    | with_reducible exact lt_leqReg _
    | with_reducible refine lt_add_reg ?_
    | decide
    | (with_reducible refine Kept.mk' (r := rK) (s0 := oK) ?_ rfl rfl rfl rfl rfl rfl)
    | (dsimp only; split)

theorem State.badReply_kept {rK : Lic} {oK : State} {s : State} (hK : Kept rK oK s) {site : Nat} {h : Nat} {kind : Nat} :
 Kept rK oK (State.badReply s site h kind) := by
  unfold State.badReply
  repeat' first
    | with_reducible assumption
    | split
    | with_reducible apply State.failPkt_kept

theorem execReadCpl_kept {rK : Lic} {oK : State} {s : State} (hK : Kept rK oK s) {site : Nat} {hdr : BitVec 128} {payload : List (BitVec 512)} :
 KeptR rK oK (execReadCpl site hdr payload s) := by
  unfold execReadCpl
  repeat' first
    | with_reducible assumption
    | split
    | with_reducible apply KeptR.next
    | (with_reducible refine Kept.foldl ?_ (fun vK eK hvK => ?_))
    | (with_reducible refine Kept.foldl1 ?_ (fun vK eK hvK => ?_))
    | (with_reducible refine Kept.foldl2 ?_ (fun vK eK hvK => ?_))
    | with_reducible apply State.acked_kept
    | with_reducible apply State.badReply_kept
    | with_reducible apply State.emit_kept
    | with_reducible apply State.failPkt_kept
    | with_reducible apply State.freeHeld_kept
    | with_reducible apply State.placeRow_kept
    | with_reducible apply State.received_kept
    | (with_reducible refine Kept.mk' (r := rK) (s0 := oK) ?_ rfl rfl rfl rfl rfl rfl)
    | (dsimp only; split)

theorem execLandAck_kept {rK : Lic} {oK : State} {s : State} (hK : Kept rK oK s) {site : Nat} {hdr : BitVec 128} :
 KeptR rK oK (execLandAck site hdr s) := by
  unfold execLandAck
  repeat' first
    | with_reducible assumption
    | with_reducible apply State.freeHeld_kept
    | split
    | with_reducible apply KeptR.next
    | (with_reducible refine Kept.foldl ?_ (fun vK eK hvK => ?_))
    | with_reducible apply State.acked_kept
    | with_reducible apply State.badReply_kept
    | with_reducible apply State.received_kept
    | (with_reducible refine Kept.mk' (r := rK) (s0 := oK) ?_ rfl rfl rfl rfl rfl rfl)
    | (dsimp only; split)

theorem execLateErr_kept {rK : Lic} {oK : State} {s : State} (hK : Kept rK oK s) {site : Nat} {hdr : BitVec 128} :
 KeptR rK oK (execLateErr site hdr s) := by
  unfold execLateErr
  repeat' first
    | with_reducible assumption
    | with_reducible apply State.freeHeld_kept
    | split
    | with_reducible apply KeptR.next
    | with_reducible apply State.badReply_kept
    | with_reducible apply State.failPkt_kept
    | with_reducible apply State.received_kept
    | (with_reducible refine Kept.mk' (r := rK) (s0 := oK) ?_ rfl rfl rfl rfl rfl rfl)
    | (dsimp only; split)

theorem execFenceTimeout_kept {rK : Lic} {oK : State} {s : State} (hK : Kept rK oK s) {site : Nat} {dst : Nat} {kind : Nat} {seq : Nat} {t : Nat} :
 KeptR rK oK (execFenceTimeout site dst kind seq t s) := by
  unfold execFenceTimeout
  repeat' first
    | with_reducible assumption
    | with_reducible apply State.freeHeld_kept
    | split
    | with_reducible apply KeptR.next
    | with_reducible apply State.at_kept
    | with_reducible apply State.bump_kept
    | with_reducible apply State.failPkt_kept
    | with_reducible exact lt_siteReg _ _
    | with_reducible exact lt_siteReg _ _
    | with_reducible refine lt_rplReg ?_
    | with_reducible exact lt_leqReg _
    | with_reducible refine lt_add_reg ?_
    | decide
    | (with_reducible refine Kept.mk' (r := rK) (s0 := oK) ?_ rfl rfl rfl rfl rfl rfl)
    | (dsimp only; split)

theorem execNoSlot_kept {rK : Lic} {oK : State} {s : State} (hK : Kept rK oK s) {site : Nat} {dst : Nat} {kind : Nat} {seq : Nat} {t : Nat} :
 KeptR rK oK (execNoSlot site dst kind seq t s) := by
  unfold execNoSlot
  repeat' first
    | with_reducible assumption
    | split
    | with_reducible apply KeptR.next
    | with_reducible apply State.at_kept
    | with_reducible apply State.failPkt_kept
    | with_reducible apply State.freeHeld_kept
    | (with_reducible refine Kept.mk' (r := rK) (s0 := oK) ?_ rfl rfl rfl rfl rfl rfl)
    | (dsimp only; split)

theorem State.portOff_kept {rK : Lic} {oK : State} {s : State} (hK : Kept rK oK s) {site : Nat} {port : Nat} :
 Kept rK oK (State.portOff s site port) := by
  unfold State.portOff
  repeat' first
    | with_reducible assumption
    | split
    | with_reducible apply State.sticky_kept
    | with_reducible exact lt_siteReg _ _
    | with_reducible refine lt_rplReg ?_
    | with_reducible exact lt_leqReg _
    | with_reducible refine lt_add_reg ?_
    | decide
    | (with_reducible refine Kept.mk' (r := rK) (s0 := oK) ?_ rfl rfl rfl rfl rfl rfl)
    | (dsimp only; split)

theorem State.linkDown_kept {rK : Lic} {oK : State} {s : State} (hK : Kept rK oK s) {site : Nat} {port : Nat} {far : Nat} :
 Kept rK oK (State.linkDown s site port far) := by
  unfold State.linkDown
  repeat' first
    | with_reducible assumption
    | split
    | with_reducible apply State.portOff_kept
    | (with_reducible refine Kept.foldl ?_ (fun vK eK hvK => ?_))
    | with_reducible apply State.raise_kept
    | with_reducible apply State.sticky_kept
    | with_reducible exact lt_siteReg _ _
    | (with_reducible refine Kept.mk' (r := rK) (s0 := oK) ?_ rfl rfl rfl rfl rfl rfl; first | with_reducible assumption | with_reducible apply State.raise_kept | with_reducible apply State.sticky_kept)
    | (with_reducible refine Kept.mk' (r := rK) (s0 := oK) ?_ rfl rfl rfl rfl rfl rfl)
    | (dsimp only; split)

theorem execLinkReplay_kept {rK : Lic} {oK : State} {s : State} (hK : Kept rK oK s) {site : Nat} {port : Nat} {far : Nat} {first : Bool} :
 KeptR rK oK (execLinkReplay site port far first s) := by
  unfold execLinkReplay
  repeat' first
    | with_reducible assumption
    | split
    | with_reducible apply KeptR.next
    | with_reducible apply State.bump_kept
    | with_reducible apply State.linkDown_kept
    | exact lt_siteReg _ _
    | (with_reducible refine Kept.mk' (r := rK) (s0 := oK) ?_ rfl rfl rfl rfl rfl rfl)

theorem State.coreRemote_kept {rK : Lic} {oK : State} {s : State} (hK : Kept rK oK s) {part : Nat} {site : Nat} {core : Nat} {write : Bool} {a : Nat} {len : Nat} {d : Nat} :
 Kept rK oK (State.coreRemote s part site core write a len d) := by
  unfold State.coreRemote
  repeat' first
    | with_reducible assumption
    | split
    | with_reducible apply State.sendPkt_kept
    | (with_reducible refine Kept.mk' (r := rK) (s0 := oK) ?_ rfl rfl rfl rfl rfl rfl)
    | (dsimp only; split)

theorem State.corePortAccess_kept {rK : Lic} {oK : State} {s : State} (hK : Kept rK oK s) {part : Nat} {site : Nat} {core : Nat} {write : Bool} {a : Nat} {d : Nat} :
 Kept rK oK (State.corePortAccess s part site core write a d) := by
  unfold State.corePortAccess
  repeat' first
    | with_reducible assumption
    | split
    | with_reducible apply State.emit_kept
    | with_reducible apply State.sealIssue_kept
    | with_reducible apply State.sealNext_kept
    | with_reducible apply State.setCorePort_kept
    | (with_reducible refine Kept.mk' (r := rK) (s0 := oK) ?_ rfl rfl rfl rfl rfl rfl)
    | (dsimp only; split)

theorem execSiteCoreAccess_kept {rK : Lic} {oK : State} {s : State} (hK : Kept rK oK s) {site : Nat} {core : Nat} {pn : Nat} {write : Bool} {addr : BitVec 48} {len : Nat} {data : BitVec 512} {e : MemErr} :
 KeptR rK oK (execSiteCoreAccess site core pn write addr len data e s) := by
  unfold execSiteCoreAccess
  repeat' first
    | with_reducible assumption
    | split
    | with_reducible apply KeptR.next
    | (with_reducible refine Kept.foldl ?_ (fun vK eK hvK => ?_))
    | (with_reducible refine Kept.foldl1 ?_ (fun vK eK hvK => ?_))
    | (with_reducible refine Kept.foldl2 ?_ (fun vK eK hvK => ?_))
    | with_reducible apply State.accessFault_kept
    | with_reducible apply State.corePortAccess_kept
    | with_reducible apply State.coreRemote_kept
    | with_reducible apply State.emit_kept
    | with_reducible apply State.memErrs_kept
    | with_reducible apply State.raise_kept
    | with_reducible apply State.setSpadBytes_kept
    | with_reducible apply State.spadReadG_kept
    | with_reducible apply State.stagingWrite_kept
    | with_reducible apply State.sticky_kept
    | with_reducible exact lt_siteReg _ _
    | with_reducible refine lt_rplReg ?_
    | with_reducible exact lt_leqReg _
    | with_reducible refine lt_add_reg ?_
    | decide
    | (with_reducible refine Kept.mk' (r := rK) (s0 := oK) ?_ rfl rfl rfl rfl rfl rfl)
    | (dsimp only; split)

end Sys2Proof.Machine
end

