-- ==== Sys2Proof/Laws/KeptKv.lean ====
section
/-! SUPPORT. What the operations of Machine/Kv.lean keep (Laws/Kept.lean). -/

set_option linter.unusedTactic false
set_option linter.unreachableTactic false
set_option linter.unusedVariables false

namespace Sys2Proof.Machine

theorem State.updPlaced_kept {rK : Lic} {oK : State} {s : State} (hK : Kept rK oK s) {n : Nat} {slot : Nat} {f : Placed → Placed} :
 Kept rK oK (State.updPlaced s n slot f) := by
  unfold State.updPlaced
  repeat' first
    | with_reducible assumption
    | with_reducible apply State.updPart_kept

theorem State.scrubBf_kept {rK : Lic} {oK : State} {s : State} (hK : Kept rK oK s) {xs : List (BitVec 16)} :
 Kept rK oK (State.scrubBf s xs).2 := by
  unfold State.scrubBf
  repeat' first
    | with_reducible assumption
    | split
    | (with_reducible refine Kept.foldl2 ?_ (fun vK eK hvK => ?_))
    | with_reducible apply State.freeBf_kept

theorem State.openPages_kept {rK : Lic} {oK : State} {s : State} (hK : Kept rK oK s) {p : Nat} {i : Nat} {k : Nat} {aR0 : Nat} :
 Kept rK oK (State.openPages s p i k aR0).2 := by
  induction aR0 generalizing s p i k with
  | zero =>
    unfold State.openPages
    repeat' first
      | with_reducible assumption
      | split
      | with_reducible apply State.addPage_kept
      | (refine KeptO.get (State.ensureLeaf_kept ?_) (by with_reducible assumption))
      | with_reducible apply State.ensureLeaf_kept
      | with_reducible apply State.setFrame_kept
  | succ nR ihK =>
    unfold State.openPages
    repeat' first
      | with_reducible assumption
      | split
      | with_reducible apply ihK
      | with_reducible apply State.addPage_kept
      | (refine KeptO.get (State.ensureLeaf_kept ?_) (by with_reducible assumption))
      | with_reducible apply State.ensureLeaf_kept
      | with_reducible apply State.setFrame_kept

theorem State.hashItem_kept {rK : Lic} {oK : State} {s : State} (hK : Kept rK oK s) {part : Nat} {slot : Nat} {bytes : List Nat} :
 Kept rK oK (State.hashItem s part slot bytes) := by
  unfold State.hashItem
  repeat' first
    | with_reducible assumption
    | split
    | (with_reducible refine Kept.mk' (r := rK) (s0 := oK) ?_ rfl rfl rfl rfl rfl rfl)

theorem State.kvAppendPos_kept {rK : Lic} {oK : State} {s : State} (hK : Kept rK oK s) {p part layer ly : Nat} {lv : Live}
    {vs : List VecIn} : Kept rK oK (State.kvAppendPos s p part layer ly lv vs) := by
  unfold State.kvAppendPos
  extract_lets i rb b o n r s1 s2
  have ho : Kept rK oK o.2 := State.openPages_kept hK
  have hr : Kept rK oK r.2 := Kept.foldl2 ho (fun v e hv => State.scrubBf_kept hv)
  have h2 : Kept rK oK s2 := State.hashItem_kept (State.bump_kept (State.setLog_kept hr) (lt_siteReg _ _))
  split
  · exact State.raise_kept ho
  · split
    · exact State.updPlaced_kept (State.setDir_kept h2)
    · exact h2

theorem State.kvSamplePos_kept {rK : Lic} {oK : State} {s : State} (hK : Kept rK oK s) {p : Nat} {part : Nat} {tag : Nat} {cmax : Nat} {lscale : BitVec 32} {lv : Live} {inOff : Nat} {out : Nat} :
 Kept rK oK (State.kvSamplePos s p part tag cmax lscale lv inOff out) := by
  unfold State.kvSamplePos
  repeat' first
    | with_reducible assumption
    | split
    | with_reducible apply State.bump_kept
    | with_reducible apply State.journal_kept
    | with_reducible apply State.raiseOnce_kept
    | with_reducible apply State.setSpadBytes_kept
    | with_reducible apply State.spadRead_kept
    | with_reducible apply State.takeFree_kept
    | with_reducible apply State.updPlaced_kept
    | with_reducible apply State.withhold_kept
    | exact lt_siteReg _ _
    | (dsimp only; split)

theorem State.writeWide_kept {rK : Lic} {oK : State} {s : State} (hK : Kept rK oK s) {p : Nat} {off : Nat} {per : Nat} {tag : Nat} {stream : Nat} {token : Nat} {origin : Nat} {taint : Bool} {late : Bool} {aR0 : Nat} {aR1 : List (BitVec 16)} :
 Kept rK oK (State.writeWide s p off per tag stream token origin taint late aR0 aR1) := by
  induction aR0 generalizing s p off per tag stream token origin taint late aR1 with
  | zero =>
    unfold State.writeWide
    repeat' first
      | with_reducible assumption
      | split
      | with_reducible apply State.writeVec_kept
  | succ nR ihK =>
    unfold State.writeWide
    repeat' first
      | with_reducible assumption
      | split
      | with_reducible apply ihK
      | with_reducible apply State.writeVec_kept

end Sys2Proof.Machine
end

