-- ==== Sys2Proof/Laws/KeptDomains.lean ====
section
/-! SUPPORT. What the operations of Machine/Domains.lean keep (Laws/Kept.lean). -/

set_option linter.unusedTactic false
set_option linter.unreachableTactic false
set_option linter.unusedVariables false

namespace Sys2Proof.Machine

theorem State.setDom_kept {rK : Lic} {oK : State} {s : State} (hK : Kept rK oK s) {d : Nat} {x : Dom} :
 Kept rK oK (State.setDom s d x) := by
  unfold State.setDom
  repeat' first
    | with_reducible assumption
    | (with_reducible refine Kept.mk' (r := rK) (s0 := oK) ?_ rfl rfl rfl rfl rfl rfl)

theorem State.updDom_kept {rK : Lic} {oK : State} {s : State} (hK : Kept rK oK s) {d : Nat} {f : Dom → Dom} :
 Kept rK oK (State.updDom s d f) := by
  unfold State.updDom
  repeat' first
    | with_reducible assumption
    | with_reducible apply State.setDom_kept

theorem State.selfRefresh_kept {rK : Lic} {oK : State} {s : State} (hK : Kept rK oK s) {p : Nat} {b : Bool} :
 Kept rK oK (State.selfRefresh s p b) := by
  unfold State.selfRefresh
  repeat' first
    | with_reducible assumption
    | with_reducible apply State.setFld_kept
    | with_reducible apply State.setSvc_kept
    | exact lt_siteReg _ _

theorem State.loseStack_kept {rK : Lic} {oK s : State} (hK : Kept rK oK s) {p : Nat} : Kept rK oK (State.loseStack s p) :=
  Kept.withKv hK (fun g => mwf_filter _ _ _ g.hbm)

theorem State.loseSets_kept {rK : Lic} {oK : State} {s : State} (hK : Kept rK oK s) {p : Nat} {q : Nat} :
 Kept rK oK (State.loseSets s p q) := by
  unfold State.loseSets
  repeat' first
    | with_reducible assumption
    | split
    | (with_reducible refine Kept.mk' (r := rK) (s0 := oK) ?_ rfl rfl rfl rfl rfl rfl)
    | (dsimp only; split)

theorem State.powered_kept {rK : Lic} {oK : State} {s : State} (hK : Kept rK oK s) {d : Nat} {b : Bool} :
 Kept rK oK (State.powered s d b) := by
  unfold State.powered
  repeat' first
    | with_reducible assumption
    | with_reducible apply State.loseSets_kept
    | split
    | with_reducible apply State.loseStack_kept
    | with_reducible apply State.selfRefresh_kept
    | (with_reducible refine Kept.mk' (r := rK) (s0 := oK) ?_ rfl rfl rfl rfl rfl rfl)
    | (dsimp only; split)

theorem State.serveGroupAt_kept {rK : Lic} {oK : State} {s : State} (hK : Kept rK oK s) {p : Nat} {t : Nat} :
 Kept rK oK (State.serveGroupAt s p t) := by
  unfold State.serveGroupAt
  repeat' first
    | with_reducible assumption
    | split
    | with_reducible apply State.updDom_kept
    | (with_reducible refine Kept.mk' (r := rK) (s0 := oK) ?_ rfl rfl rfl rfl rfl rfl)
    | (dsimp only; split)

theorem State.serveGroup_kept {rK : Lic} {oK : State} {s : State} (hK : Kept rK oK s) {p : Nat} :
 Kept rK oK (State.serveGroup s p) := by
  unfold State.serveGroup
  repeat' first
    | with_reducible assumption
    | with_reducible apply State.serveGroupAt_kept
    | split
    | with_reducible apply State.updDom_kept
    | (with_reducible refine Kept.mk' (r := rK) (s0 := oK) ?_ rfl rfl rfl rfl rfl rfl)
    | (dsimp only; split)

theorem State.domRequestAt_kept {rK : Lic} {oK : State} {s : State} (hK : Kept rK oK s) {d : Nat} {t : Nat} :
 Kept rK oK (State.domRequestAt s d t) := by
  unfold State.domRequestAt
  repeat' first
    | with_reducible assumption
    | split
    | with_reducible apply State.serveGroupAt_kept
    | with_reducible apply State.updDom_kept
    | (with_reducible refine Kept.mk' (r := rK) (s0 := oK) ?_ rfl rfl rfl rfl rfl rfl)
    | (dsimp only; split)

theorem State.domRequest_kept {rK : Lic} {oK : State} {s : State} (hK : Kept rK oK s) {d : Nat} :
 Kept rK oK (State.domRequest s d) := by
  unfold State.domRequest
  repeat' first
    | with_reducible assumption
    | with_reducible apply State.domRequestAt_kept
    | split
    | with_reducible apply State.serveGroup_kept
    | with_reducible apply State.updDom_kept
    | (with_reducible refine Kept.mk' (r := rK) (s0 := oK) ?_ rfl rfl rfl rfl rfl rfl)
    | (dsimp only; split)

theorem State.domDown_kept {rK : Lic} {oK : State} {s : State} (hK : Kept rK oK s) {d : Nat} :
 Kept rK oK (State.domDown s d) := by
  unfold State.domDown
  repeat' first
    | with_reducible assumption
    | split
    | with_reducible apply State.powered_kept
    | with_reducible apply State.serveGroup_kept
    | with_reducible apply State.setDom_kept
    | (dsimp only; split)

theorem State.syncKv_kept {rK : Lic} {oK : State} {s : State} (hK : Kept rK oK s) {p : Nat} :
 Kept rK oK (State.syncKv s p) := by
  unfold State.syncKv
  repeat' first
    | with_reducible assumption
    | split
    | with_reducible apply State.domDown_kept
    | with_reducible apply State.domRequest_kept
    | (with_reducible refine Kept.mk' (r := rK) (s0 := oK) ?_ rfl rfl rfl rfl rfl rfl)
    | (dsimp only; split)

theorem State.tickFault_kept {rK : Lic} {oK : State} {s : State} (hK : Kept rK oK s) {code : Nat} {part : Nat} {site : Nat} {d0 : Nat} {d1 : Nat} :
 Kept rK oK (State.tickFault s code part site d0 d1) := by
  unfold State.tickFault
  repeat' first
    | with_reducible assumption
    | with_reducible apply State.queueEvent_kept
    | with_reducible apply State.respond_kept

theorem State.domFault_kept {rK : Lic} {oK : State} {s : State} (hK : Kept rK oK s) {code : Nat} {d : Nat} {d0 : Nat} {d1 : Nat} :
 Kept rK oK (State.domFault s code d d0 d1) := by
  unfold State.domFault
  repeat' first
    | with_reducible assumption
    | with_reducible apply State.tickFault_kept

theorem State.domBreak_kept {rK : Lic} {oK : State} {s : State} (hK : Kept rK oK s) {d : Nat} {code : Nat} {d0 : Nat} {d1 : Nat} :
 Kept rK oK (State.domBreak s d code d0 d1) := by
  unfold State.domBreak
  repeat' first
    | with_reducible assumption
    | split
    | with_reducible apply State.domFault_kept
    | with_reducible apply State.powered_kept
    | with_reducible apply State.serveGroup_kept
    | with_reducible apply State.setDom_kept
    | with_reducible apply State.setFld_kept
    | with_reducible apply State.sticky_kept
    | with_reducible refine lt_add_reg ?_
    | decide
    | (with_reducible refine Kept.mk' (r := rK) (s0 := oK) ?_ rfl rfl rfl rfl rfl rfl)

theorem State.domStat_kept {rK : Lic} {oK : State} {s : State} (hK : Kept rK oK s) {d : Nat} {res : Nat} :
 Kept rK oK (State.domStat s d res) := by
  unfold State.domStat
  repeat' first
    | with_reducible assumption
    | split
    | with_reducible apply State.setFld_kept
    | with_reducible apply State.sticky_kept
    | decide

theorem execDomOn_kept {rK : Lic} {oK : State} {s : State} (hK : Kept rK oK s) {d : Nat} :
 KeptR rK oK (execDomOn d s) := by
  unfold execDomOn
  repeat' first
    | with_reducible assumption
    | split
    | with_reducible apply KeptR.next
    | with_reducible apply State.domRequest_kept
    | with_reducible apply State.domStat_kept

theorem execDomOff_kept {rK : Lic} {oK : State} {s : State} (hK : Kept rK oK s) {d : Nat} :
 KeptR rK oK (execDomOff d s) := by
  unfold execDomOff
  repeat' first
    | with_reducible assumption
    | split
    | with_reducible apply KeptR.next
    | with_reducible apply State.domDown_kept
    | with_reducible apply State.domStat_kept

theorem execDomClear_kept {rK : Lic} {oK : State} {s : State} (hK : Kept rK oK s) {d : Nat} :
 KeptR rK oK (execDomClear d s) := by
  unfold execDomClear
  repeat' first
    | with_reducible assumption
    | split
    | with_reducible apply KeptR.next
    | with_reducible apply State.domStat_kept
    | with_reducible apply State.setFld_kept
    | with_reducible apply State.updDom_kept
    | with_reducible refine lt_add_reg ?_
    | decide

theorem execDomCmdInvalid_kept {rK : Lic} {oK : State} {s : State} (hK : Kept rK oK s) {w : BitVec 32} :
 KeptR rK oK (execDomCmdInvalid w s) := by
  unfold execDomCmdInvalid
  repeat' first
    | with_reducible assumption
    | split
    | with_reducible apply KeptR.next
    | with_reducible apply State.domStat_kept

theorem execDomDataRead_kept {rK : Lic} {oK : State} {s : State} (hK : Kept rK oK s) :
 KeptR rK oK (execDomDataRead s) := by
  unfold execDomDataRead
  repeat' first
    | with_reducible assumption
    | split
    | with_reducible apply KeptR.next
    | with_reducible apply State.emit_kept
    | (with_reducible refine Kept.mk' (r := rK) (s0 := oK) ?_ rfl rfl rfl rfl rfl rfl)

theorem execSoftstartComplete_kept {rK : Lic} {oK : State} {s : State} (hK : Kept rK oK s) {d : Nat} {t : Nat} :
 KeptR rK oK (execSoftstartComplete d t s) := by
  unfold execSoftstartComplete
  repeat' first
    | with_reducible assumption
    | split
    | with_reducible apply KeptR.next
    | with_reducible apply State.at_kept
    | with_reducible apply State.bump_kept
    | with_reducible apply State.powered_kept
    | with_reducible apply State.serveGroup_kept
    | with_reducible apply State.updDom_kept
    | decide

theorem State.inrushAbort_kept {rK : Lic} {oK : State} {s : State} (hK : Kept rK oK s) {d : Nat} {by' : Nat} :
 Kept rK oK (State.inrushAbort s d by') := by
  unfold State.inrushAbort
  repeat' first
    | with_reducible assumption
    | with_reducible apply State.bump_kept
    | with_reducible apply State.domFault_kept
    | with_reducible apply State.serveGroup_kept
    | with_reducible apply State.sticky_kept
    | with_reducible apply State.updDom_kept
    | decide

theorem execSoftstartWindowExpiry_kept {rK : Lic} {oK : State} {s : State} (hK : Kept rK oK s) {d : Nat} {t : Nat} :
 KeptR rK oK (execSoftstartWindowExpiry d t s) := by
  unfold execSoftstartWindowExpiry
  repeat' first
    | with_reducible assumption
    | split
    | with_reducible apply KeptR.next
    | with_reducible apply State.at_kept
    | with_reducible apply State.domBreak_kept
    | with_reducible apply State.inrushAbort_kept

theorem execDomShort_kept {rK : Lic} {oK : State} {s : State} (hK : Kept rK oK s) {d : Nat} {cur : Nat} {t : Nat} :
 KeptR rK oK (execDomShort d cur t s) := by
  unfold execDomShort
  repeat' first
    | with_reducible assumption
    | split
    | with_reducible apply KeptR.next
    | with_reducible apply State.at_kept
    | with_reducible apply State.bump_kept
    | with_reducible apply State.domBreak_kept
    | with_reducible apply State.setDom_kept
    | decide

theorem execDomInrushHold_kept {rK : Lic} {oK : State} {s : State} (hK : Kept rK oK s) {p : Nat} {by' : Nat} {t : Nat} :
 KeptR rK oK (execDomInrushHold p by' t s) := by
  unfold execDomInrushHold
  repeat' first
    | with_reducible assumption
    | split
    | with_reducible apply KeptR.next
    | with_reducible apply State.at_kept
    | with_reducible apply State.bump_kept
    | with_reducible apply State.domFault_kept
    | with_reducible apply State.inrushAbort_kept
    | with_reducible apply State.sticky_kept
    | with_reducible apply State.updDom_kept
    | decide

theorem execSagRecovery_kept {rK : Lic} {oK : State} {s : State} (hK : Kept rK oK s) {p : Nat} {t : Nat} :
 KeptR rK oK (execSagRecovery p t s) := by
  unfold execSagRecovery
  repeat' first
    | with_reducible assumption
    | split
    | with_reducible apply KeptR.next
    | with_reducible apply State.at_kept
    | with_reducible apply State.updDom_kept

theorem State.retryDoms_kept {rK : Lic} {oK : State} {s : State} (hK : Kept rK oK s) :
 Kept rK oK (State.retryDoms s) := by
  unfold State.retryDoms
  repeat' first
    | with_reducible assumption
    | (with_reducible refine Kept.foldl ?_ (fun vK eK hvK => ?_))
    | with_reducible apply State.domRequest_kept

end Sys2Proof.Machine
end

