-- ==== Sys2Proof/Laws/KeptHost.lean ====
section
/-! SUPPORT. What the operations of Machine/Host.lean keep (Laws/Kept.lean). -/

set_option linter.unusedTactic false
set_option linter.unreachableTactic false
set_option linter.unusedVariables false

namespace Sys2Proof.Machine

theorem State.partResult_kept {rK : Lic} {oK : State} {s : State} (hK : Kept rK oK s) {cmd : Nat} {n : Nat} {res : Nat} :
 Kept rK oK (State.partResult s cmd n res) := by
  unfold State.partResult
  repeat' first
    | with_reducible assumption
    | split
    | with_reducible apply State.setFld_kept
    | with_reducible apply State.sticky_kept
    | decide
    | (with_reducible refine Kept.mk' (r := rK) (s0 := oK) ?_ rfl rfl rfl rfl rfl rfl)

theorem State.configure_kept {rK : Lic} {oK : State} {s : State} (hK : Kept rK oK s) {n : Nat} {source : Nat} {c : Nat} :
 Kept rK oK (State.configure s n source c).2 := by
  unfold State.configure
  repeat' first
    | with_reducible assumption
    | with_reducible apply State.clamped_kept
    | with_reducible apply State.updPart_kept
    | (with_reducible refine Kept.mk' (r := rK) (s0 := oK) ?_ rfl rfl rfl rfl rfl rfl; first | with_reducible assumption | with_reducible apply State.clamped_kept | with_reducible apply State.updPart_kept)
    | (dsimp only; split)

theorem execPartConfigure_kept {rK : Lic} {oK : State} {s : State} (hK : Kept rK oK s) {n : Nat} {cfg : Option (BitVec 1024)} :
 KeptR rK oK (execPartConfigure n cfg s) := by
  unfold execPartConfigure
  repeat' first
    | with_reducible assumption
    | split
    | with_reducible apply KeptR.next
    | with_reducible apply State.configure_kept
    | with_reducible apply State.partResult_kept

theorem execPartRelease_kept {rK : Lic} {oK : State} {s : State} (hK : Kept rK oK s) {n : Nat} :
 KeptR rK oK (execPartRelease n s) := by
  unfold execPartRelease
  repeat' first
    | with_reducible assumption
    | split
    | with_reducible apply KeptR.next
    | with_reducible apply State.partResult_kept
    | with_reducible apply State.release_kept
    | with_reducible apply State.updPart_kept

theorem execPartReset_kept {rK : Lic} {oK : State} {s : State} (hK : Kept rK oK s) {n : Nat} :
 KeptR rK oK (execPartReset n s) := by
  unfold execPartReset
  repeat' first
    | with_reducible assumption
    | split
    | with_reducible apply KeptR.next
    | with_reducible apply State.partResult_kept
    | with_reducible apply State.resetPart_kept
    | with_reducible apply State.updPart_kept

theorem execPartCmdInvalid_kept {rK : Lic} {oK : State} {s : State} (hK : Kept rK oK s) {w : BitVec 32} :
 KeptR rK oK (execPartCmdInvalid w s) := by
  unfold execPartCmdInvalid
  repeat' first
    | with_reducible assumption
    | split
    | with_reducible apply KeptR.next
    | with_reducible apply State.partResult_kept

theorem State.setQp_kept {rK : Lic} {oK : State} {s : State} (hK : Kept rK oK s) {n : Nat} {q : Nat} {x : QPair} :
 Kept rK oK (State.setQp s n q x) := by
  unfold State.setQp
  repeat' first
    | with_reducible assumption
    | (with_reducible refine Kept.mk' (r := rK) (s0 := oK) ?_ rfl rfl rfl rfl rfl rfl)

theorem State.updQp_kept {rK : Lic} {oK : State} {s : State} (hK : Kept rK oK s) {n : Nat} {q : Nat} {f : QPair → QPair} :
 Kept rK oK (State.updQp s n q f) := by
  unfold State.updQp
  repeat' first
    | with_reducible assumption
    | with_reducible apply State.setQp_kept

theorem State.resetQps_kept {rK : Lic} {oK : State} {s : State} (hK : Kept rK oK s) {n : Nat} :
 Kept rK oK (State.resetQps s n) := by
  unfold State.resetQps
  repeat' first
    | with_reducible assumption
    | (with_reducible refine Kept.mk' (r := rK) (s0 := oK) ?_ rfl rfl rfl rfl rfl rfl)

theorem State.qpErr_kept {rK : Lic} {oK : State} {s : State} (hK : Kept rK oK s) {n : Nat} {q : Nat} {b : Nat} :
 Kept rK oK (State.qpErr s n q b) := by
  unfold State.qpErr
  repeat' first
    | with_reducible assumption
    | with_reducible apply State.heat_kept
    | with_reducible apply State.setQp_kept
    | (with_reducible refine Kept.mk' (r := rK) (s0 := oK) ?_ rfl rfl rfl rfl rfl rfl)
    | (dsimp only; split)

theorem execQueCfgWrite_kept {rK : Lic} {oK : State} {s : State} (hK : Kept rK oK s) {port : Nat} {vf : Nat} {q : Nat} {sq : Bool} {w : BitVec 32} :
 KeptR rK oK (execQueCfgWrite port vf q sq w s) := by
  unfold execQueCfgWrite
  repeat' first
    | with_reducible assumption
    | with_reducible apply State.qpErr_kept
    | split
    | with_reducible apply KeptR.next
    | with_reducible apply State.clamped_kept
    | with_reducible apply State.setQp_kept
    | (with_reducible refine Kept.mk' (r := rK) (s0 := oK) ?_ rfl rfl rfl rfl rfl rfl)
    | (dsimp only; split)

theorem execQueBaseWrite_kept {rK : Lic} {oK : State} {s : State} (hK : Kept rK oK s) {port : Nat} {vf : Nat} {q : Nat} {sq : Bool} {half : Nat} {v : BitVec 64} :
 KeptR rK oK (execQueBaseWrite port vf q sq half v s) := by
  unfold execQueBaseWrite
  repeat' first
    | with_reducible assumption
    | with_reducible apply State.qpErr_kept
    | split
    | with_reducible apply KeptR.next
    | with_reducible apply State.clamped_kept
    | with_reducible apply State.setQp_kept
    | (with_reducible refine Kept.mk' (r := rK) (s0 := oK) ?_ rfl rfl rfl rfl rfl rfl)
    | (dsimp only; split)

theorem State.badDoorbell_kept {rK : Lic} {oK : State} {s : State} (hK : Kept rK oK s) {port : Nat} {n : Nat} {q : Nat} {kind : Nat} {v : Nat} :
 Kept rK oK (State.badDoorbell s port n q kind v) := by
  unfold State.badDoorbell
  repeat' first
    | with_reducible assumption
    | split
    | with_reducible apply State.qpErr_kept
    | with_reducible apply State.raiseOnce_kept
    | with_reducible apply State.updQp_kept
    | (with_reducible refine Kept.mk' (r := rK) (s0 := oK) ?_ rfl rfl rfl rfl rfl rfl)
    | (dsimp only; split)

theorem execSqTailDoorbell_kept {rK : Lic} {oK : State} {s : State} (hK : Kept rK oK s) {port : Nat} {vf : Nat} {q : Nat} {w : BitVec 32} {t : Nat} :
 KeptR rK oK (execSqTailDoorbell port vf q w t s) := by
  unfold execSqTailDoorbell
  repeat' first
    | with_reducible assumption
    | split
    | with_reducible apply KeptR.next
    | with_reducible apply State.at_kept
    | with_reducible apply State.badDoorbell_kept
    | with_reducible apply State.updQp_kept

theorem execCqHeadDoorbell_kept {rK : Lic} {oK : State} {s : State} (hK : Kept rK oK s) {port : Nat} {vf : Nat} {q : Nat} {w : BitVec 32} {t : Nat} :
 KeptR rK oK (execCqHeadDoorbell port vf q w t s) := by
  unfold execCqHeadDoorbell
  repeat' first
    | with_reducible assumption
    | split
    | with_reducible apply KeptR.next
    | with_reducible apply State.at_kept
    | with_reducible apply State.badDoorbell_kept
    | with_reducible apply State.updQp_kept

theorem State.unmaskVec_kept {rK : Lic} {oK : State} {s : State} (hK : Kept rK oK s) {port : Nat} {fn : Nat} {vec : Nat} :
 Kept rK oK (State.unmaskVec s port fn vec) := by
  unfold State.unmaskVec
  repeat' first
    | with_reducible assumption
    | with_reducible apply State.sendMsix_kept
    | with_reducible apply State.setPendBit_kept
    | (dsimp only; split)

theorem execMsixUnmask_kept {rK : Lic} {oK : State} {s : State} (hK : Kept rK oK s) {port : Nat} {fn : Nat} {vec : Option Nat} {enable : Bool} {mask : Bool} :
 KeptR rK oK (execMsixUnmask port fn vec enable mask s) := by
  unfold execMsixUnmask
  repeat' first
    | with_reducible assumption
    | split
    | with_reducible apply KeptR.next
    | (with_reducible refine Kept.foldl ?_ (fun vK eK hvK => ?_))
    | (with_reducible refine Kept.foldl1 ?_ (fun vK eK hvK => ?_))
    | (with_reducible refine Kept.foldl2 ?_ (fun vK eK hvK => ?_))
    | with_reducible apply State.setMsixWord_kept
    | with_reducible apply State.unmaskVec_kept
    | (with_reducible refine Kept.mk' (r := rK) (s0 := oK) ?_ rfl rfl rfl rfl rfl rfl)
    | (dsimp only; split)

theorem State.complete_kept {rK : Lic} {oK : State} {s : State} (hK : Kept rK oK s) {n : Nat} {c : Completion} :
 Kept rK oK (State.complete s n c) := by
  unfold State.complete
  repeat' first
    | with_reducible assumption
    | with_reducible apply State.updPart_kept

theorem State.finalOp_kept {rK : Lic} {oK : State} {s : State} (hK : Kept rK oK s) {n : Nat} {i : Nat} {o : AdmOp} {status : List Nat} {fault : Nat} {pos : Nat} {tnt : Option Nat} {recomp : Bool} :
 Kept rK oK (State.finalOp s n i o status fault pos tnt recomp) := by
  unfold State.finalOp
  repeat' first
    | with_reducible assumption
    | with_reducible apply State.complete_kept

theorem State.unreserve_kept {rK : Lic} {oK : State} {s : State} (hK : Kept rK oK s) {n : Nat} {q : Nat} :
 Kept rK oK (State.unreserve s n q) := by
  unfold State.unreserve
  repeat' first
    | with_reducible assumption
    | with_reducible apply State.updQp_kept

theorem State.writeCompl_kept {rK : Lic} {oK : State} {s : State} (hK : Kept rK oK s) {n : Nat} {c : Completion} :
 Kept rK oK (State.writeCompl s n c) := by
  unfold State.writeCompl
  repeat' first
    | with_reducible assumption
    | with_reducible apply State.emit_kept
    | with_reducible apply State.setQp_kept

theorem State.writeCompls_kept {rK : Lic} {oK : State} {s : State} (hK : Kept rK oK s) {n : Nat} {cap : Nat} :
 Kept rK oK (State.writeCompls s n cap) := by
  unfold State.writeCompls
  repeat' first
    | with_reducible assumption
    | (with_reducible refine Kept.foldl ?_ (fun vK eK hvK => ?_))
    | with_reducible apply State.raiseVec_kept
    | with_reducible apply State.updPart_kept
    | with_reducible apply State.writeCompl_kept
    | (dsimp only; split)

theorem State.popOp_kept {rK : Lic} {oK : State} {s : State} (hK : Kept rK oK s) {i : Nat} :
 Kept rK oK (State.popOp s i) := by
  unfold State.popOp
  repeat' first
    | with_reducible assumption
    | with_reducible apply State.updStream_kept

theorem State.parkFill_kept {rK : Lic} {oK : State} {s : State} (hK : Kept rK oK s) {n : Nat} {i : Nat} :
 Kept rK oK (State.parkFill s n i) := by
  unfold State.parkFill
  repeat' first
    | with_reducible assumption
    | split
    | (with_reducible refine Kept.foldl ?_ (fun vK eK hvK => ?_))
    | (with_reducible refine Kept.foldl1 ?_ (fun vK eK hvK => ?_))
    | (with_reducible refine Kept.foldl2 ?_ (fun vK eK hvK => ?_))
    | with_reducible apply State.parkLayer_kept
    | (with_reducible refine Kept.mk' (r := rK) (s0 := oK) ?_ rfl rfl rfl rfl rfl rfl)
    | (dsimp only; split)

theorem State.parkRetry_kept {rK : Lic} {oK : State} {s : State} (hK : Kept rK oK s) {n : Nat} :
 Kept rK oK (State.parkRetry s n) := by
  unfold State.parkRetry
  repeat' first
    | with_reducible assumption
    | (with_reducible refine Kept.foldl ?_ (fun vK eK hvK => ?_))
    | (with_reducible refine Kept.foldl1 ?_ (fun vK eK hvK => ?_))
    | (with_reducible refine Kept.foldl2 ?_ (fun vK eK hvK => ?_))
    | with_reducible apply State.parkFill_kept
    | (with_reducible refine Kept.mk' (r := rK) (s0 := oK) ?_ rfl rfl rfl rfl rfl rfl)
    | (dsimp only; split)

theorem State.dropChild_kept {rK : Lic} {oK : State} {s : State} (hK : Kept rK oK s) {n : Nat} {i : Nat} :
 Kept rK oK (State.dropChild s n i) := by
  unfold State.dropChild
  repeat' first
    | with_reducible assumption
    | (with_reducible refine Kept.foldl ?_ (fun vK eK hvK => ?_))
    | with_reducible apply State.finalOp_kept
    | with_reducible apply State.setStream_kept

theorem State.startOps_kept {rK : Lic} {oK : State} {s : State} (hK : Kept rK oK s) {n : Nat} {i : Nat} {aR0 : Nat} :
 Kept rK oK (State.startOps s n i aR0) := by
  induction aR0 generalizing s n i with
  | zero =>
    unfold State.startOps
    repeat' first
      | with_reducible assumption
      | with_reducible apply State.parkFill_kept
      | split
      | with_reducible apply State.dropChild_kept
      | with_reducible apply State.finalOp_kept
      | with_reducible apply State.popOp_kept
      | with_reducible apply State.setStream_kept
      | (with_reducible refine Kept.mk' (r := rK) (s0 := oK) ?_ rfl rfl rfl rfl rfl rfl)
      | (dsimp only; split)
  | succ nR ihK =>
    unfold State.startOps
    repeat' first
      | with_reducible assumption
      | with_reducible apply State.parkFill_kept
      | split
      | with_reducible apply ihK
      | with_reducible apply State.dropChild_kept
      | with_reducible apply State.finalOp_kept
      | with_reducible apply State.popOp_kept
      | with_reducible apply State.setStream_kept
      | (with_reducible refine Kept.mk' (r := rK) (s0 := oK) ?_ rfl rfl rfl rfl rfl rfl)
      | (dsimp only; split)

theorem State.rejectEntry_kept {rK : Lic} {oK : State} {s : State} (hK : Kept rK oK s) {n : Nat} {q : Nat} {e : Nat} {status : Nat} {row : Nat} :
 Kept rK oK (State.rejectEntry s n q e status row) := by
  unfold State.rejectEntry
  repeat' first
    | with_reducible assumption
    | with_reducible apply State.bump_kept
    | with_reducible apply State.finalOp_kept
    | with_reducible apply State.raiseOnce_kept
    | with_reducible apply State.sticky_kept
    | decide

theorem State.queueOp_kept {rK : Lic} {oK : State} {s : State} (hK : Kept rK oK s) {n : Nat} {q : Nat} {e : Nat} :
 Kept rK oK (State.queueOp s n q e) := by
  unfold State.queueOp
  repeat' first
    | with_reducible assumption
    | with_reducible apply State.setStream_kept
    | with_reducible apply State.startOps_kept

theorem State.opOpen_kept {rK : Lic} {oK : State} {s : State} (hK : Kept rK oK s) {n : Nat} {q : Nat} {e : Nat} :
 Kept rK oK (State.opOpen s n q e) := by
  unfold State.opOpen
  repeat' first
    | with_reducible assumption
    | with_reducible apply State.finalOp_kept
    | with_reducible apply State.setStream_kept

theorem State.opFork_kept {rK : Lic} {oK : State} {s : State} (hK : Kept rK oK s) {n : Nat} {q : Nat} {e : Nat} :
 Kept rK oK (State.opFork s n q e) := by
  unfold State.opFork
  repeat' first
    | with_reducible assumption
    | with_reducible apply State.queueOp_kept
    | with_reducible apply State.setStream_kept

theorem State.opClose_kept {rK : Lic} {oK : State} {s : State} (hK : Kept rK oK s) {n : Nat} {q : Nat} {e : Nat} :
 Kept rK oK (State.opClose s n q e) := by
  unfold State.opClose
  repeat' first
    | with_reducible assumption
    | split
    | with_reducible apply State.finalOp_kept
    | with_reducible apply State.setStream_kept
    | (dsimp only; split)

theorem State.noteSub_kept {rK : Lic} {oK : State} {s : State} (hK : Kept rK oK s) {n : Nat} {q : Nat} {e : Nat} :
 Kept rK oK (State.noteSub s n q e) := by
  unfold State.noteSub
  repeat' first
    | with_reducible assumption
    | split
    | (with_reducible refine Kept.mk' (r := rK) (s0 := oK) ?_ rfl rfl rfl rfl rfl rfl)

theorem State.admitOp_kept {rK : Lic} {oK : State} {s : State} (hK : Kept rK oK s) {n : Nat} {q : Nat} {e : Nat} :
 Kept rK oK (State.admitOp s n q e) := by
  unfold State.admitOp
  repeat' first
    | with_reducible assumption
    | split
    | with_reducible apply State.bump_kept
    | with_reducible apply State.noteSub_kept
    | with_reducible apply State.opClose_kept
    | with_reducible apply State.opFork_kept
    | with_reducible apply State.opOpen_kept
    | with_reducible apply State.queueOp_kept
    | with_reducible apply State.record_kept
    | with_reducible apply State.rejectEntry_kept
    | with_reducible apply State.updQp_kept
    | decide
    | (dsimp only; split)

theorem State.admitAs_kept {rK : Lic} {oK : State} {s : State} (hK : Kept rK oK s) {opc : Nat} {n : Nat} {q : Nat} {e : Nat} :
 Kept rK oK (State.admitAs s opc n q e) := by
  unfold State.admitAs
  repeat' first
    | with_reducible assumption
    | split
    | with_reducible apply State.admitOp_kept

theorem execOpen_kept {rK : Lic} {oK : State} {s : State} (hK : Kept rK oK s) {n : Nat} {q : Nat} {e : BitVec 512} :
 KeptR rK oK (execOpen n q e s) := by
  unfold execOpen
  repeat' first
    | with_reducible assumption
    | with_reducible apply KeptR.next
    | with_reducible apply State.admitAs_kept

theorem execAppend_kept {rK : Lic} {oK : State} {s : State} (hK : Kept rK oK s) {n : Nat} {q : Nat} {e : BitVec 512} :
 KeptR rK oK (execAppend n q e s) := by
  unfold execAppend
  repeat' first
    | with_reducible assumption
    | with_reducible apply KeptR.next
    | with_reducible apply State.admitAs_kept

theorem execGenerate_kept {rK : Lic} {oK : State} {s : State} (hK : Kept rK oK s) {n : Nat} {q : Nat} {e : BitVec 512} :
 KeptR rK oK (execGenerate n q e s) := by
  unfold execGenerate
  repeat' first
    | with_reducible assumption
    | with_reducible apply KeptR.next
    | with_reducible apply State.admitAs_kept

theorem execFork_kept {rK : Lic} {oK : State} {s : State} (hK : Kept rK oK s) {n : Nat} {q : Nat} {e : BitVec 512} :
 KeptR rK oK (execFork n q e s) := by
  unfold execFork
  repeat' first
    | with_reducible assumption
    | with_reducible apply KeptR.next
    | with_reducible apply State.admitAs_kept

theorem execPark_kept {rK : Lic} {oK : State} {s : State} (hK : Kept rK oK s) {n : Nat} {q : Nat} {e : BitVec 512} :
 KeptR rK oK (execPark n q e s) := by
  unfold execPark
  repeat' first
    | with_reducible assumption
    | with_reducible apply KeptR.next
    | with_reducible apply State.admitAs_kept

theorem execResume_kept {rK : Lic} {oK : State} {s : State} (hK : Kept rK oK s) {n : Nat} {q : Nat} {e : BitVec 512} :
 KeptR rK oK (execResume n q e s) := by
  unfold execResume
  repeat' first
    | with_reducible assumption
    | with_reducible apply KeptR.next
    | with_reducible apply State.admitAs_kept

theorem execClose_kept {rK : Lic} {oK : State} {s : State} (hK : Kept rK oK s) {n : Nat} {q : Nat} {e : BitVec 512} :
 KeptR rK oK (execClose n q e s) := by
  unfold execClose
  repeat' first
    | with_reducible assumption
    | with_reducible apply KeptR.next
    | with_reducible apply State.admitAs_kept

theorem State.queueDmaError_kept {rK : Lic} {oK : State} {s : State} (hK : Kept rK oK s) {n : Nat} {q : Nat} {kind : Nat} :
 Kept rK oK (State.queueDmaError s n q kind) := by
  unfold State.queueDmaError
  repeat' first
    | with_reducible assumption
    | split
    | with_reducible apply State.qpErr_kept
    | with_reducible apply State.raise_kept
    | with_reducible apply State.sticky_kept
    | with_reducible apply State.updQp_kept
    | decide
    | with_reducible exact lt_siteReg _ _
    | with_reducible refine lt_rplReg ?_
    | with_reducible exact lt_leqReg _
    | with_reducible refine lt_add_reg ?_
    | (with_reducible refine Kept.mk' (r := rK) (s0 := oK) ?_ rfl rfl rfl rfl rfl rfl)
    | (dsimp only; split)

theorem State.admitAll_kept {rK : Lic} {oK : State} {s : State} (hK : Kept rK oK s) {n : Nat} {aR0 : List (Nat × Option (BitVec 512))} :
 Kept rK oK (State.admitAll s n aR0) := by
  induction aR0 generalizing s n with
  | nil =>
    unfold State.admitAll
    repeat' first
      | with_reducible assumption
      | split
      | with_reducible apply State.admitOp_kept
      | with_reducible apply State.queueDmaError_kept
  | cons xR tR ihK =>
    unfold State.admitAll
    repeat' first
      | with_reducible assumption
      | split
      | with_reducible apply ihK
      | with_reducible apply State.admitOp_kept
      | with_reducible apply State.queueDmaError_kept

theorem execIngestAdmission_kept {rK : Lic} {oK : State} {s : State} (hK : Kept rK oK s) {n : Nat} {es : List (Nat × Option (BitVec 512))} {t : Nat} :
 KeptR rK oK (execIngestAdmission n es t s) := by
  unfold execIngestAdmission
  repeat' first
    | with_reducible assumption
    | split
    | with_reducible apply KeptR.next
    | with_reducible apply State.admitAll_kept
    | with_reducible apply State.at_kept
    | with_reducible apply State.bumpBy_kept
    | decide

theorem State.closeIngest_kept {rK : Lic} {oK : State} {s : State} (hK : Kept rK oK s) {n : Nat} :
 Kept rK oK (State.closeIngest s n) := by
  unfold State.closeIngest
  repeat' first
    | with_reducible assumption
    | (with_reducible refine Kept.foldl ?_ (fun vK eK hvK => ?_))
    | (with_reducible refine Kept.foldl1 ?_ (fun vK eK hvK => ?_))
    | (with_reducible refine Kept.foldl2 ?_ (fun vK eK hvK => ?_))
    | with_reducible apply State.bumpBy_kept
    | with_reducible exact lt_siteReg _ _
    | with_reducible refine lt_rplReg ?_
    | with_reducible exact lt_leqReg _
    | with_reducible refine lt_add_reg ?_
    | decide
    | (with_reducible refine Kept.mk' (r := rK) (s0 := oK) ?_ rfl rfl rfl rfl rfl rfl)
    | (dsimp only; split)

theorem State.bgDone_kept {rK : Lic} {oK : State} {s : State} (hK : Kept rK oK s) {n : Nat} {i : Nat} {opc : Nat} {status : Nat} :
 Kept rK oK (State.bgDone s n i opc status) := by
  unfold State.bgDone
  repeat' first
    | with_reducible assumption
    | with_reducible apply State.record_kept
    | with_reducible apply State.updRec_kept

theorem State.forkPage_kept {rK : Lic} {oK : State} {s : State} (hK : Kept rK oK s) {n : Nat} {p : Nat} {i : Nat} {j : Nat} {l : Nat} {k : Nat} {whole : Bool} :
 Kept rK oK (State.forkPage s n p i j l k whole) := by
  unfold State.forkPage
  repeat' first
    | with_reducible assumption
    | with_reducible apply State.kvChange_kept
    | split
    | with_reducible apply State.addPage_kept
    | with_reducible apply State.copyFrame_kept
    | with_reducible apply State.endStream_kept
    | with_reducible apply State.journal_kept
    | with_reducible apply State.setFrame_kept
    | with_reducible apply State.setLeaf_kept
    | (refine State.takeFrame_kept ?_ _ (by with_reducible assumption))
    | (with_reducible refine Kept.mk' (r := rK) (s0 := oK) ?_ rfl rfl rfl rfl rfl rfl)
    | (dsimp only; split)

theorem State.noteTaint_kept {rK : Lic} {oK : State} {s : State} (hK : Kept rK oK s) {n : Nat} {p : Nat} {d : Nat} {k : Nat} :
 Kept rK oK (State.noteTaint s n p d k) := by
  unfold State.noteTaint
  repeat' first
    | with_reducible assumption
    | split
    | with_reducible apply State.setDir_kept
    | (with_reducible refine Kept.mk' (r := rK) (s0 := oK) ?_ rfl rfl rfl rfl rfl rfl)
    | (dsimp only; split)

theorem State.forkLayer_kept {rK : Lic} {oK : State} {s : State} (hK : Kept rK oK s) {n : Nat} {i : Nat} {j : Nat} {k : Nat} {l : Nat} :
 Kept rK oK (State.forkLayer s n i j k l) := by
  unfold State.forkLayer
  repeat' first
    | with_reducible assumption
    | split
    | with_reducible apply State.noteTaint_kept
    | (with_reducible refine Kept.foldl ?_ (fun vK eK hvK => ?_))
    | with_reducible apply State.endStream_kept
    | (refine KeptO.get (State.ensureLeaf_kept ?_) (by with_reducible assumption))
    | with_reducible apply State.ensureLeaf_kept
    | with_reducible apply State.forkPage_kept
    | with_reducible apply State.journal_kept
    | (with_reducible refine Kept.mk' (r := rK) (s0 := oK) ?_ rfl rfl rfl rfl rfl rfl)
    | (dsimp only; split)

theorem execForkComplete_kept {rK : Lic} {oK : State} {s : State} (hK : Kept rK oK s) {i : Nat} :
 KeptR rK oK (execForkComplete i s) := by
  unfold execForkComplete
  repeat' first
    | with_reducible assumption
    | split
    | with_reducible apply KeptR.next
    | (with_reducible refine Kept.foldl ?_ (fun vK eK hvK => ?_))
    | with_reducible apply State.bgDone_kept
    | with_reducible apply State.finalOp_kept
    | with_reducible apply State.forkLayer_kept
    | with_reducible apply State.popOp_kept
    | with_reducible apply State.startOps_kept
    | with_reducible apply State.takeFree_kept
    | with_reducible apply State.updStream_kept

theorem State.hostDmaError_kept {rK : Lic} {oK : State} {s : State} (hK : Kept rK oK s) {n : Nat} {i : Nat} {port : Nat} {kind : Nat} {addr : Nat} :
 Kept rK oK (State.hostDmaError s n i port kind addr) := by
  unfold State.hostDmaError
  repeat' first
    | with_reducible assumption
    | with_reducible apply State.endStream_kept
    | with_reducible apply State.journal_kept
    | with_reducible apply State.sticky_kept
    | decide

theorem State.sendImage_kept {rK : Lic} {oK : State} {s : State} (hK : Kept rK oK s) {n : Nat} {a : Nat} {hdr : List Nat} {pages : List (List (BitVec 512))} :
 Kept rK oK (State.sendImage s n a hdr pages) := by
  unfold State.sendImage
  repeat' first
    | with_reducible assumption
    | split
    | (with_reducible refine Kept.foldl ?_ (fun vK eK hvK => ?_))
    | (with_reducible refine Kept.foldl1 ?_ (fun vK eK hvK => ?_))
    | (with_reducible refine Kept.foldl2 ?_ (fun vK eK hvK => ?_))
    | with_reducible apply State.emit_kept
    | (with_reducible refine Kept.mk' (r := rK) (s0 := oK) ?_ rfl rfl rfl rfl rfl rfl)
    | (dsimp only; split)

theorem execParkComplete_kept {rK : Lic} {oK : State} {s : State} (hK : Kept rK oK s) {i : Nat} {failed : Option Nat} :
 KeptR rK oK (execParkComplete i failed s) := by
  unfold execParkComplete
  repeat' first
    | with_reducible assumption
    | split
    | with_reducible apply KeptR.next
    | (with_reducible refine Kept.foldl ?_ (fun vK eK hvK => ?_))
    | (with_reducible refine Kept.foldl1 ?_ (fun vK eK hvK => ?_))
    | (with_reducible refine Kept.foldl2 ?_ (fun vK eK hvK => ?_))
    | with_reducible apply State.bgDone_kept
    | with_reducible apply State.bumpBy_kept
    | with_reducible apply State.finalOp_kept
    | with_reducible apply State.freeStream_kept
    | with_reducible apply State.hostDmaError_kept
    | with_reducible apply State.parkRetry_kept
    | with_reducible apply State.popOp_kept
    | with_reducible apply State.sendImage_kept
    | with_reducible apply State.startOps_kept
    | with_reducible apply State.updStream_kept
    | with_reducible exact lt_siteReg _ _
    | with_reducible refine lt_rplReg ?_
    | with_reducible exact lt_leqReg _
    | with_reducible refine lt_add_reg ?_
    | decide
    | (with_reducible refine Kept.mk' (r := rK) (s0 := oK) ?_ rfl rfl rfl rfl rfl rfl)
    | (dsimp only; split)

theorem State.resumePage_kept {rK : Lic} {oK : State} {s : State} (hK : Kept rK oK s) {n i l : Nat} {g : List (BitVec 512)} :
    Kept rK oK (State.resumePage s n i l g) := by
  unfold State.resumePage
  refine Kept.elim (State.endStream_kept (State.journal_kept hK)) (fun z hz => ?_)
  have h1 := State.takeFrame_kept hK _ hz
  refine Kept.elim (State.endStream_kept (State.journal_kept h1)) (fun u hu => ?_)
  have h2 := KeptO.get (State.ensureLeaf_kept h1) hu
  exact State.addPage_kept (Kept.foldl1 h2 (fun _ _ h => State.setHbmGran_kept h))

theorem State.unpark_kept {rK : Lic} {oK : State} {s : State} (hK : Kept rK oK s) {n : Nat} {i : Nat} :
 Kept rK oK (State.unpark s n i) := by
  unfold State.unpark
  repeat' first
    | with_reducible assumption
    | split
    | (with_reducible refine Kept.foldl ?_ (fun vK eK hvK => ?_))
    | (with_reducible refine Kept.foldl1 ?_ (fun vK eK hvK => ?_))
    | (with_reducible refine Kept.foldl2 ?_ (fun vK eK hvK => ?_))
    | with_reducible apply State.noteTaint_kept
    | with_reducible apply State.parkRetry_kept
    | with_reducible apply State.resumePage_kept
    | (with_reducible refine Kept.mk' (r := rK) (s0 := oK) ?_ rfl rfl rfl rfl rfl rfl)
    | (dsimp only; split)

theorem execResumeComplete_kept {rK : Lic} {oK : State} {s : State} (hK : Kept rK oK s) {i : Nat} {port : Nat} {image : Option (List (BitVec 32) × List (List (BitVec 512)))} :
 KeptR rK oK (execResumeComplete i port image s) := by
  unfold execResumeComplete
  repeat' first
    | with_reducible assumption
    | split
    | with_reducible apply KeptR.next
    | (with_reducible refine Kept.foldl ?_ (fun vK eK hvK => ?_))
    | (with_reducible refine Kept.foldl1 ?_ (fun vK eK hvK => ?_))
    | (with_reducible refine Kept.foldl2 ?_ (fun vK eK hvK => ?_))
    | with_reducible apply State.bgDone_kept
    | with_reducible apply State.bump_kept
    | with_reducible apply State.endStream_kept
    | with_reducible apply State.finalOp_kept
    | with_reducible apply State.hostDmaError_kept
    | with_reducible apply State.journal_kept
    | with_reducible apply State.noteTaint_kept
    | with_reducible apply State.popOp_kept
    | with_reducible apply State.resumePage_kept
    | with_reducible apply State.startOps_kept
    | with_reducible apply State.updStream_kept
    | with_reducible exact lt_siteReg _ _
    | with_reducible refine lt_rplReg ?_
    | with_reducible exact lt_leqReg _
    | with_reducible refine lt_add_reg ?_
    | decide
    | (with_reducible refine Kept.mk' (r := rK) (s0 := oK) ?_ rfl rfl rfl rfl rfl rfl)
    | (dsimp only; split)

theorem execStreamDrainComplete_kept {rK : Lic} {oK : State} {s : State} (hK : Kept rK oK s) {i : Nat} :
 KeptR rK oK (execStreamDrainComplete i s) := by
  unfold execStreamDrainComplete
  repeat' first
    | with_reducible assumption
    | split
    | with_reducible apply KeptR.next
    | (with_reducible refine Kept.foldl ?_ (fun vK eK hvK => ?_))
    | with_reducible apply State.bgDone_kept
    | with_reducible apply State.finalOp_kept
    | with_reducible apply State.freeStream_kept
    | with_reducible apply State.setStream_kept

theorem execStrmInspRead_kept {rK : Lic} {oK : State} {s : State} (hK : Kept rK oK s) :
 KeptR rK oK (execStrmInspRead s) := by
  unfold execStrmInspRead
  repeat' first
    | with_reducible assumption
    | split
    | with_reducible apply KeptR.next
    | with_reducible apply State.emit_kept
    | (with_reducible refine Kept.mk' (r := rK) (s0 := oK) ?_ rfl rfl rfl rfl rfl rfl)

theorem execCompactionStart_kept {rK : Lic} {oK : State} {s : State} (hK : Kept rK oK s) {site : Nat} :
 KeptR rK oK (execCompactionStart site s) := by
  unfold execCompactionStart
  repeat' first
    | with_reducible assumption
    | with_reducible apply State.copyGen_kept
    | split
    | with_reducible apply KeptR.next
    | with_reducible apply State.setSvc_kept
    | (with_reducible refine Kept.mk' (r := rK) (s0 := oK) ?_ rfl rfl rfl rfl rfl rfl)
    | (dsimp only; split)

theorem execCompactionComplete_kept {rK : Lic} {oK : State} {s : State} (hK : Kept rK oK s) {site : Nat} :
 KeptR rK oK (execCompactionComplete site s) := by
  unfold execCompactionComplete
  repeat' first
    | with_reducible assumption
    | split
    | with_reducible apply KeptR.next
    | (with_reducible refine Kept.foldl ?_ (fun vK eK hvK => ?_))
    | (with_reducible refine Kept.foldl1 ?_ (fun vK eK hvK => ?_))
    | (with_reducible refine Kept.foldl2 ?_ (fun vK eK hvK => ?_))
    | with_reducible apply State.replayChange_kept
    | with_reducible apply State.setSvc_kept
    | (with_reducible refine Kept.mk' (r := rK) (s0 := oK) ?_ rfl rfl rfl rfl rfl rfl)
    | (dsimp only; split)

theorem State.abortPair_kept {rK : Lic} {oK : State} {s : State} (hK : Kept rK oK s) {n : Nat} {q : Nat} :
 Kept rK oK (State.abortPair s n q) := by
  unfold State.abortPair
  repeat' first
    | with_reducible assumption
    | with_reducible apply State.unpark_kept
    | split
    | (with_reducible refine Kept.foldl ?_ (fun vK eK hvK => ?_))
    | with_reducible apply State.setStream_kept
    | with_reducible apply State.startOps_kept
    | with_reducible apply State.updPart_kept
    | (with_reducible refine Kept.mk' (r := rK) (s0 := oK) ?_ rfl rfl rfl rfl rfl rfl)
    | (dsimp only; split)

theorem State.resetPortQps_kept {rK : Lic} {oK : State} {s : State} (hK : Kept rK oK s) {n : Nat} {port : Nat} :
 Kept rK oK (State.resetPortQps s n port) := by
  unfold State.resetPortQps
  repeat' first
    | with_reducible assumption
    | (with_reducible refine Kept.foldl ?_ (fun vK eK hvK => ?_))
    | with_reducible apply State.abortPair_kept
    | with_reducible apply State.setQp_kept

theorem execFlr_kept {rK : Lic} {oK : State} {s : State} (hK : Kept rK oK s) {port : Nat} {vf : Nat} :
 KeptR rK oK (execFlr port vf s) := by
  unfold execFlr
  repeat' first
    | with_reducible assumption
    | split
    | with_reducible apply KeptR.next
    | with_reducible apply State.journal_kept
    | with_reducible apply State.resetPortQps_kept
    | (with_reducible refine Kept.mk' (r := rK) (s0 := oK) ?_ rfl rfl rfl rfl rfl rfl)

theorem State.portDown_kept {rK : Lic} {oK : State} {s : State} (hK : Kept rK oK s) {port : Nat} {cause : Nat} :
 Kept rK oK (State.portDown s port cause) := by
  unfold State.portDown
  repeat' first
    | with_reducible assumption
    | (with_reducible refine Kept.foldl ?_ (fun vK eK hvK => ?_))
    | with_reducible apply State.journal_kept
    | with_reducible apply State.raise_kept
    | with_reducible apply State.resetPortQps_kept
    | with_reducible apply State.updPart_kept
    | (with_reducible refine Kept.mk' (r := rK) (s0 := oK) ?_ rfl rfl rfl rfl rfl rfl; first | with_reducible assumption | with_reducible apply State.journal_kept | with_reducible apply State.raise_kept | with_reducible apply State.resetPortQps_kept | with_reducible apply State.updPart_kept)
    | (dsimp only; split)

end Sys2Proof.Machine
end

