-- ==== Sys2Proof/Laws/KeptPower.lean ====
section
/-! SUPPORT. What the operations of Machine/Power.lean keep (Laws/Kept.lean). -/

set_option linter.unusedTactic false
set_option linter.unreachableTactic false
set_option linter.unusedVariables false

namespace Sys2Proof.Machine

theorem State.setPwr1_kept {rK : Lic} {oK : State} {s : State} (hK : Kept rK oK s) {p : Nat} {x : SitePwr} :
 Kept rK oK (State.setPwr1 s p x) := by
  unfold State.setPwr1
  repeat' first
    | with_reducible assumption
    | (with_reducible refine Kept.mk' (r := rK) (s0 := oK) ?_ rfl rfl rfl rfl rfl rfl)

theorem State.setPpwr_kept {rK : Lic} {oK : State} {s : State} (hK : Kept rK oK s) {n : Nat} {x : PartPwr} :
 Kept rK oK (State.setPpwr s n x) := by
  unfold State.setPpwr
  repeat' first
    | with_reducible assumption
    | (with_reducible refine Kept.mk' (r := rK) (s0 := oK) ?_ rfl rfl rfl rfl rfl rfl)

theorem State.pwrFault_kept {rK : Lic} {oK : State} {s : State} (hK : Kept rK oK s) {code : Nat} {site : Nat} {d0 : Nat} {d1 : Nat} :
 Kept rK oK (State.pwrFault s code site d0 d1) := by
  unfold State.pwrFault
  repeat' first
    | with_reducible assumption
    | with_reducible apply State.raise_kept

theorem State.droopClose_kept {rK : Lic} {oK : State} {s : State} (hK : Kept rK oK s) {p : Nat} :
 Kept rK oK (State.droopClose s p) := by
  unfold State.droopClose
  repeat' first
    | with_reducible assumption
    | with_reducible apply State.setPwr1_kept
    | (dsimp only; split)

theorem State.droopPersist_kept {rK : Lic} {oK : State} {s : State} (hK : Kept rK oK s) {p : Nat} :
 Kept rK oK (State.droopPersist s p) := by
  unfold State.droopPersist
  repeat' first
    | with_reducible assumption
    | with_reducible apply State.mark_kept
    | with_reducible apply State.pwrFault_kept
    | with_reducible apply State.setPwr1_kept
    | (dsimp only; split)

theorem State.siteWindow_kept {rK : Lic} {oK : State} {s : State} (hK : Kept rK oK s) {p : Nat} {counts : List Nat} {tj : Nat} :
 Kept rK oK (State.siteWindow s p counts tj) := by
  unfold State.siteWindow
  repeat' first
    | with_reducible assumption
    | with_reducible apply State.droopClose_kept
    | with_reducible apply State.droopPersist_kept
    | with_reducible apply State.setPwr1_kept
    | (with_reducible refine Kept.mk' (r := rK) (s0 := oK) ?_ rfl rfl rfl rfl rfl rfl)

theorem State.budgetGuard_kept {rK : Lic} {oK : State} {s : State} (hK : Kept rK oK s) :
 Kept rK oK (State.budgetGuard s) := by
  unfold State.budgetGuard
  repeat' first
    | with_reducible assumption
    | with_reducible apply State.bump_kept
    | with_reducible apply State.setFld_kept
    | decide
    | (with_reducible refine Kept.mk' (r := rK) (s0 := oK) ?_ rfl rfl rfl rfl rfl rfl; first | with_reducible assumption | with_reducible apply State.bump_kept | with_reducible apply State.setFld_kept)
    | (dsimp only; split)

theorem State.countReasons_kept {rK : Lic} {oK : State} {s : State} (hK : Kept rK oK s) :
 Kept rK oK (State.countReasons s) := by
  unfold State.countReasons
  repeat' first
    | with_reducible assumption
    | (intro xK; first | (refine Kept.cut (r := rK) (s0 := oK) (x := xK) ?_ ?_; unfold xK) | skip)
    | lift_lets
    | split
    | (with_reducible refine Kept.foldl ?_ (fun vK eK hvK => ?_))
    | with_reducible apply State.bump_kept
    | with_reducible apply State.bumpBy_kept
    | with_reducible apply State.setFld_kept
    | with_reducible apply State.setPwr1_kept
    | with_reducible refine lt_add_reg ?_
    | decide
    | (with_reducible refine Kept.mk' (r := rK) (s0 := oK) ?_ rfl rfl rfl rfl rfl rfl)

theorem execPowerWindow_kept {rK : Lic} {oK : State} {s : State} (hK : Kept rK oK s) {ws : List (Nat × List Nat × Nat)} {t : Nat} :
 KeptR rK oK (execPowerWindow ws t s) := by
  unfold execPowerWindow
  repeat' first
    | with_reducible assumption
    | with_reducible apply KeptR.next
    | (with_reducible refine Kept.foldl ?_ (fun vK eK hvK => ?_))
    | with_reducible apply State.at_kept
    | with_reducible apply State.budgetGuard_kept
    | with_reducible apply State.countReasons_kept
    | with_reducible apply State.siteWindow_kept

theorem execDroopEvent_kept {rK : Lic} {oK : State} {s : State} (hK : Kept rK oK s) {p : Nat} {quads : Nat} {t : Nat} :
 KeptR rK oK (execDroopEvent p quads t s) := by
  unfold execDroopEvent
  repeat' first
    | with_reducible assumption
    | split
    | with_reducible apply KeptR.next
    | with_reducible apply State.at_kept
    | with_reducible apply State.bump_kept
    | with_reducible apply State.mark_kept
    | with_reducible apply State.pwrFault_kept
    | with_reducible apply State.setPwr1_kept
    | with_reducible apply State.sticky_kept
    | decide

theorem execDroopRestore_kept {rK : Lic} {oK : State} {s : State} (hK : Kept rK oK s) {p : Nat} {t : Nat} :
 KeptR rK oK (execDroopRestore p t s) := by
  unfold execDroopRestore
  repeat' first
    | with_reducible assumption
    | with_reducible apply KeptR.next
    | with_reducible apply State.at_kept
    | with_reducible apply State.droopClose_kept
    | with_reducible apply State.droopPersist_kept
    | with_reducible apply State.setPwr1_kept

theorem execThermalTrip_kept {rK : Lic} {oK : State} {s : State} (hK : Kept rK oK s) {p : Nat} {sensor : Nat} {tj : Nat} {t : Nat} :
 KeptR rK oK (execThermalTrip p sensor tj t s) := by
  unfold execThermalTrip
  repeat' first
    | with_reducible assumption
    | with_reducible apply KeptR.next
    | (with_reducible refine Kept.foldl ?_ (fun vK eK hvK => ?_))
    | with_reducible apply State.at_kept
    | with_reducible apply State.domDown_kept
    | with_reducible apply State.pwrFault_kept
    | with_reducible apply State.resetPart_kept
    | with_reducible apply State.setFld_kept
    | with_reducible apply State.sticky_kept
    | decide

theorem execTripClr_kept {rK : Lic} {oK : State} {s : State} (hK : Kept rK oK s) {hot : Nat} :
 KeptR rK oK (execTripClr hot s) := by
  unfold execTripClr
  repeat' first
    | with_reducible assumption
    | split
    | with_reducible apply KeptR.next
    | (with_reducible refine Kept.foldl ?_ (fun vK eK hvK => ?_))
    | (with_reducible refine Kept.foldl1 ?_ (fun vK eK hvK => ?_))
    | (with_reducible refine Kept.foldl2 ?_ (fun vK eK hvK => ?_))
    | with_reducible apply State.setFld_kept
    | with_reducible apply State.syncKv_kept
    | with_reducible exact lt_siteReg _ _
    | with_reducible refine lt_rplReg ?_
    | with_reducible exact lt_leqReg _
    | with_reducible refine lt_add_reg ?_
    | decide
    | (with_reducible refine Kept.mk' (r := rK) (s0 := oK) ?_ rfl rfl rfl rfl rfl rfl)
    | (dsimp only; split)

theorem State.floorIfLost_kept {rK : Lic} {oK : State} {s : State} (hK : Kept rK oK s) :
 Kept rK oK (State.floorIfLost s) := by
  unfold State.floorIfLost
  repeat' first
    | with_reducible assumption
    | split
    | with_reducible apply State.pwrFault_kept
    | with_reducible apply State.setFld_kept
    | with_reducible apply State.sticky_kept
    | decide
    | (dsimp only; split)

theorem State.latchGrant_kept {rK : Lic} {oK : State} {s : State} (hK : Kept rK oK s) :
 Kept rK oK (State.latchGrant s) := by
  unfold State.latchGrant
  repeat' first
    | with_reducible assumption
    | split
    | with_reducible apply State.bump_kept
    | with_reducible apply State.floorIfLost_kept
    | with_reducible apply State.satFld_kept
    | with_reducible apply State.setFld_kept
    | with_reducible apply State.setReg_kept
    | decide
    | (with_reducible refine Kept.mk' (r := rK) (s0 := oK) ?_ rfl rfl rfl rfl rfl rfl)

theorem execPwrGrantLost_kept {rK : Lic} {oK : State} {s : State} (hK : Kept rK oK s) :
 KeptR rK oK (execPwrGrantLost s) := by
  unfold execPwrGrantLost
  repeat' first
    | with_reducible assumption
    | with_reducible apply KeptR.next
    | with_reducible apply State.floorIfLost_kept

theorem State.formBudget_kept {rK : Lic} {oK : State} {s : State} (hK : Kept rK oK s) :
 Kept rK oK (State.formBudget s) := by
  unfold State.formBudget
  repeat' first
    | with_reducible assumption
    | with_reducible apply State.setFld_kept
    | decide

theorem State.limitExceeded_kept {rK : Lic} {oK : State} {s : State} (hK : Kept rK oK s) {kind : Nat} {excess : Nat} :
 Kept rK oK (State.limitExceeded s kind excess) := by
  unfold State.limitExceeded
  repeat' first
    | with_reducible assumption
    | with_reducible apply State.pwrFault_kept
    | with_reducible apply State.sticky_kept
    | decide
    | (with_reducible refine Kept.mk' (r := rK) (s0 := oK) ?_ rfl rfl rfl rfl rfl rfl)

theorem State.attribute_kept {rK : Lic} {oK : State} {s : State} (hK : Kept rK oK s) {em : Nat} :
 Kept rK oK (State.attribute s em) := by
  unfold State.attribute
  repeat' first
    | with_reducible assumption
    | (intro xK; first | (refine Kept.cut (r := rK) (s0 := oK) (x := xK) ?_ ?_; unfold xK) | skip)
    | lift_lets
    | split
    | (with_reducible refine Kept.foldl ?_ (fun vK eK hvK => ?_))
    | with_reducible apply State.bumpBy_kept
    | with_reducible apply State.droopClose_kept
    | with_reducible apply State.limitExceeded_kept
    | with_reducible apply State.setFld_kept
    | with_reducible apply State.setPpwr_kept
    | with_reducible apply State.setPwr1_kept
    | with_reducible apply State.setReg_kept
    | with_reducible refine lt_add_reg ?_
    | decide
    | (with_reducible refine Kept.mk' (r := rK) (s0 := oK) ?_ rfl rfl rfl rfl rfl rfl)

theorem State.openPeriod_kept {rK : Lic} {oK : State} {s : State} (hK : Kept rK oK s) {first : Bool} :
 Kept rK oK (State.openPeriod s first) := by
  unfold State.openPeriod
  repeat' first
    | with_reducible assumption
    | split
    | (with_reducible refine Kept.foldl ?_ (fun vK eK hvK => ?_))
    | with_reducible apply State.setPwr1_kept
    | with_reducible apply State.setFld_kept
    | decide
    | (with_reducible refine Kept.mk' (r := rK) (s0 := oK) ?_ rfl rfl rfl rfl rfl rfl; with_reducible assumption)
    | with_reducible exact lt_siteReg _ _
    | with_reducible refine lt_rplReg ?_
    | with_reducible exact lt_leqReg _
    | with_reducible refine lt_add_reg ?_
    | (with_reducible refine Kept.mk' (r := rK) (s0 := oK) ?_ rfl rfl rfl rfl rfl rfl)
    | (dsimp only; split)

theorem State.openOwners_kept {rK : Lic} {oK : State} {s : State} (hK : Kept rK oK s) :
 Kept rK oK (State.openOwners s) := by
  unfold State.openOwners
  repeat' first
    | with_reducible assumption
    | split
    | (with_reducible refine Kept.foldl ?_ (fun vK eK hvK => ?_))
    | with_reducible apply State.setPwr1_kept

theorem State.secondStats_kept {rK : Lic} {oK : State} {s : State} (hK : Kept rK oK s) :
 Kept rK oK (State.secondStats s) := by
  unfold State.secondStats
  repeat' first
    | with_reducible assumption
    | split
    | (with_reducible refine Kept.foldl ?_ (fun vK eK hvK => ?_))
    | with_reducible apply State.updStat_kept

theorem execCalibration_kept {rK : Lic} {oK : State} {s : State} (hK : Kept rK oK s) {check : Option Nat} {t : Nat} :
 KeptR rK oK (execCalibration check t s) := by
  unfold execCalibration
  repeat' first
    | with_reducible assumption
    | (intro xK; first | (refine Kept.cut (r := rK) (s0 := oK) (x := xK) ?_ ?_; unfold xK) | (refine Kept.cut (r := rK) (s0 := oK) (x := xK.2) ?_ ?_; unfold xK) | (refine Kept.cut (r := rK) (s0 := oK) (x := xK.1) ?_ ?_; unfold xK) | (refine Kept.cut (r := rK) (s0 := oK) (x := xK.st) ?_ ?_; unfold xK) | (refine KeptO.cut (r := rK) (s0 := oK) (x := xK) ?_ ?_; unfold xK) | (have : (fun a => xK a) = xK := rfl; clear this; subst xK; beta_reduce) | skip)
    | lift_lets
    | split
    | with_reducible apply KeptR.next
    | (with_reducible refine Kept.foldl ?_ (fun vK eK hvK => ?_))
    | (with_reducible refine Kept.foldl1 ?_ (fun vK eK hvK => ?_))
    | (with_reducible refine Kept.foldl2 ?_ (fun vK eK hvK => ?_))
    | with_reducible apply State.at_kept
    | with_reducible apply State.bump_kept
    | with_reducible apply State.limitExceeded_kept
    | with_reducible apply State.pwrFault_kept
    | with_reducible apply State.secondStats_kept
    | with_reducible apply State.setFld_kept
    | with_reducible apply State.setPpwr_kept
    | with_reducible apply State.setPwr1_kept
    | with_reducible apply State.sticky_kept
    | with_reducible exact lt_siteReg _ _
    | with_reducible refine lt_rplReg ?_
    | with_reducible exact lt_leqReg _
    | with_reducible refine lt_add_reg ?_
    | decide
    | (with_reducible refine Kept.mk' (r := rK) (s0 := oK) ?_ rfl rfl rfl rfl rfl rfl)
    | (clear_value *; split)
    | (dsimp only; split)

theorem State.thermStep_kept {rK : Lic} {oK : State} {s : State} (hK : Kept rK oK s) {p : Nat} :
 Kept rK oK (State.thermStep s p) := by
  unfold State.thermStep
  repeat' first
    | with_reducible assumption
    | split
    | with_reducible apply State.pwrFault_kept
    | with_reducible apply State.setPwr1_kept
    | (dsimp only; split)

theorem State.hold_kept {rK : Lic} {oK : State} {s : State} (hK : Kept rK oK s) {n : Nat} :
 Kept rK oK (State.hold s n) := by
  unfold State.hold
  repeat' first
    | with_reducible assumption
    | with_reducible apply State.pwrFault_kept
    | with_reducible apply State.setFld_kept
    | with_reducible apply State.setPpwr_kept
    | with_reducible apply State.updPart_kept
    | with_reducible refine lt_add_reg ?_
    | decide

theorem State.unhold_kept {rK : Lic} {oK : State} {s : State} (hK : Kept rK oK s) {n : Nat} :
 Kept rK oK (State.unhold s n) := by
  unfold State.unhold
  repeat' first
    | with_reducible assumption
    | with_reducible apply State.setFld_kept
    | with_reducible apply State.setPpwr_kept
    | with_reducible refine lt_add_reg ?_
    | decide

theorem State.releaseHold_kept {rK : Lic} {oK : State} {s : State} (hK : Kept rK oK s) {ps : List Plan} {k : Nat} {old held : List Nat} :
 Kept rK oK (State.releaseHold s ps k old held) := by
  unfold State.releaseHold
  repeat' first
    | with_reducible assumption
    | split
    | with_reducible apply State.setPwr1_kept
    | with_reducible apply State.unhold_kept
    | (dsimp only; split)

theorem State.applyAge_kept {rK : Lic} {oK : State} {s : State} (hK : Kept rK oK s) :
 Kept rK oK (State.applyAge s) := by
  unfold State.applyAge
  repeat' first
    | with_reducible assumption
    | split
    | (with_reducible refine Kept.foldl ?_ (fun vK eK hvK => ?_))
    | with_reducible apply State.raise_kept
    | with_reducible apply State.setPwr1_kept
    | (with_reducible refine Kept.mk' (r := rK) (s0 := oK) ?_ rfl rfl rfl rfl rfl rfl)
    | (dsimp only; split)

theorem State.plan_kept {rK : Lic} {oK : State} {s : State} (hK : Kept rK oK s) {began : List Nat} {mirror : Bool} :
 Kept rK oK (State.plan s began mirror) := by
  unfold State.plan
  repeat' first
    | with_reducible assumption
    | (intro xK; first | (refine Kept.cut (r := rK) (s0 := oK) (x := xK) ?_ ?_; unfold xK) | skip)
    | lift_lets
    | split
    | (with_reducible refine Kept.foldl ?_ (fun vK eK hvK => ?_))
    | with_reducible apply State.applyAge_kept
    | with_reducible apply State.hold_kept
    | with_reducible apply State.releaseHold_kept
    | with_reducible apply State.setFld_kept
    | with_reducible apply State.setPpwr_kept
    | with_reducible apply State.setPwr1_kept
    | with_reducible apply State.thermStep_kept
    | decide
    | (with_reducible refine Kept.mk' (r := rK) (s0 := oK) ?_ rfl rfl rfl rfl rfl rfl)

theorem execPwrSiteDataRead_kept {rK : Lic} {oK : State} {s : State} (hK : Kept rK oK s) :
 KeptR rK oK (execPwrSiteDataRead s) := by
  unfold execPwrSiteDataRead
  repeat' first
    | with_reducible assumption
    | split
    | with_reducible apply KeptR.next
    | with_reducible apply State.emit_kept
    | (with_reducible refine Kept.mk' (r := rK) (s0 := oK) ?_ rfl rfl rfl rfl rfl rfl)

end Sys2Proof.Machine
end

