-- ==== Sys2Proof/Laws/KeptCoolant.lean ====
section
/-! SUPPORT. What the operations of Machine/Coolant.lean keep (Laws/Kept.lean). -/

set_option linter.unusedTactic false
set_option linter.unreachableTactic false
set_option linter.unusedVariables false

namespace Sys2Proof.Machine

theorem State.setSensor_kept {rK : Lic} {oK : State} {s : State} (hK : Kept rK oK s) {i : Nat} {x : Sensor} :
 Kept rK oK (State.setSensor s i x) := by
  unfold State.setSensor
  repeat' first
    | with_reducible assumption
    | (with_reducible refine Kept.mk' (r := rK) (s0 := oK) ?_ rfl rfl rfl rfl rfl rfl)

theorem State.setCltMark_kept {rK : Lic} {oK : State} {s : State} (hK : Kept rK oK s) {b : Nat} {v : Bool} :
 Kept rK oK (State.setCltMark s b v) := by
  unfold State.setCltMark
  repeat' first
    | with_reducible assumption
    | (with_reducible refine Kept.mk' (r := rK) (s0 := oK) ?_ rfl rfl rfl rfl rfl rfl)

theorem State.setI_kept {rK : Lic} {oK : State} {s : State} (hK : Kept rK oK s) {q : Q} :
 Kept rK oK (State.setI s q) := by
  unfold State.setI
  repeat' first
    | with_reducible assumption
    | (with_reducible refine Kept.mk' (r := rK) (s0 := oK) ?_ rfl rfl rfl rfl rfl rfl)

theorem State.setBridge_kept {rK : Lic} {oK : State} {s : State} (hK : Kept rK oK s) {b : Nat} :
 Kept rK oK (State.setBridge s b) := by
  unfold State.setBridge
  repeat' first
    | with_reducible assumption
    | with_reducible apply State.setFld_kept
    | decide

theorem State.setEnc_kept {rK : Lic} {oK : State} {s : State} (hK : Kept rK oK s) {enc : Nat} :
 Kept rK oK (State.setEnc s enc) := by
  unfold State.setEnc
  repeat' first
    | with_reducible assumption
    | with_reducible apply State.setFld_kept
    | decide
    | (with_reducible refine Kept.mk' (r := rK) (s0 := oK) ?_ rfl rfl rfl rfl rfl rfl)

theorem execCoolantSensorSample_kept {rK : Lic} {oK : State} {s : State} (hK : Kept rK oK s) {vs : List (Option Int)} {t : Nat} :
 KeptR rK oK (execCoolantSensorSample vs t s) := by
  unfold execCoolantSensorSample
  repeat' first
    | with_reducible assumption
    | split
    | with_reducible apply KeptR.next
    | (with_reducible refine Kept.foldl ?_ (fun vK eK hvK => ?_))
    | with_reducible apply State.at_kept
    | with_reducible apply State.setSensor_kept

theorem State.cltFault_kept {rK : Lic} {oK : State} {s : State} (hK : Kept rK oK s) {code : Nat} {d0 : Nat} {d1 : Nat} {bitNo : Option Nat} :
 Kept rK oK (State.cltFault s code d0 d1 bitNo) := by
  unfold State.cltFault
  repeat' first
    | with_reducible assumption
    | split
    | with_reducible apply State.sticky_kept
    | with_reducible apply State.tickFault_kept
    | decide

theorem State.sensorState_kept {rK : Lic} {oK : State} {s : State} (hK : Kept rK oK s) {i : Nat} {bad : Bool} :
 Kept rK oK (State.sensorState s i bad) := by
  unfold State.sensorState
  repeat' first
    | with_reducible assumption
    | with_reducible apply State.cltFault_kept
    | with_reducible apply State.setSensor_kept
    | (dsimp only; split)

theorem State.onceEvent_kept {rK : Lic} {oK : State} {s : State} (hK : Kept rK oK s) {b : Nat} {cond : Bool} {f : State → State} (hF_f : ∀ (uK : State) , Kept rK oK uK → Kept rK oK (f uK)) :
 Kept rK oK (State.onceEvent s b cond f) := by
  unfold State.onceEvent
  repeat' first
    | with_reducible assumption
    | split
    | with_reducible apply State.setCltMark_kept
    | with_reducible apply hF_f

theorem State.cltApply_kept {rK : Lic} {oK s : State} (hK : Kept rK oK s) : Kept rK oK (State.cltApply s) := by
  refine Kept.whenGood (Eq.trans (foldl_pending fun v x => rfl) hK.queue) ?_ (fun g => ?_)
  · exact foldl_onward (fun v x hv => hv.same (Nat.le_refl _) rfl rfl rfl) (hK.on.same (Nat.le_refl _) rfl rfl rfl)
  have gs := hK.good g
  exact Kept.foldlMem (Kept.withClt hK (fun _ x hx => absurd hx List.not_mem_nil)) fun v x hx hv =>
    State.setReg_kept hv (gs.cst x hx)

theorem State.piStep_kept {rK : Lic} {oK : State} {s : State} (hK : Kept rK oK s) {x : LoopIn} :
 Kept rK oK (State.piStep s x) := by
  unfold State.piStep
  repeat' first
    | with_reducible assumption
    | split
    | with_reducible apply State.hold_kept
    | with_reducible apply State.setFld_kept
    | with_reducible apply State.setI_kept
    | decide
    | (dsimp only; split)

theorem State.coolCaps_kept {rK : Lic} {oK : State} {s : State} (hK : Kept rK oK s) {x : LoopIn} :
 Kept rK oK (State.coolCaps s x) := by
  unfold State.coolCaps
  repeat' first
    | with_reducible assumption
    | split
    | with_reducible apply State.bump_kept
    | with_reducible apply State.cltFault_kept
    | with_reducible apply State.setFld_kept
    | decide
    | (dsimp only; split)

theorem State.loopRun_kept {rK : Lic} {oK : State} {s : State} (hK : Kept rK oK s) {pulses : Nat} {enc : Nat} :
 Kept rK oK (State.loopRun s pulses enc) := by
  unfold State.loopRun
  repeat' first
    | with_reducible assumption
    | (intro xK; first | (refine Kept.cut (r := rK) (s0 := oK) (x := xK) ?_ ?_; unfold xK) | skip)
    | lift_lets
    | split
    | (with_reducible refine Kept.foldl ?_ (fun vK eK hvK => ?_))
    | with_reducible apply State.bump_kept
    | with_reducible apply State.bumpBy_kept
    | with_reducible apply State.cltApply_kept
    | with_reducible apply State.cltFault_kept
    | with_reducible apply State.coolCaps_kept
    | with_reducible apply State.onceEvent_kept
    | with_reducible apply State.piStep_kept
    | with_reducible apply State.sensorState_kept
    | with_reducible apply State.setBridge_kept
    | with_reducible apply State.setEnc_kept
    | with_reducible apply State.setFld_kept
    | with_reducible apply State.setI_kept
    | with_reducible apply State.setReg_kept
    | with_reducible apply State.setSensor_kept
    | decide
    | (with_reducible refine Kept.mk' (r := rK) (s0 := oK) ?_ rfl rfl rfl rfl rfl rfl)

theorem execCoolantLoopRun_kept {rK : Lic} {oK : State} {s : State} (hK : Kept rK oK s) {pulses : Nat} {enc : Nat} {t : Nat} :
 KeptR rK oK (execCoolantLoopRun pulses enc t s) := by
  unfold execCoolantLoopRun
  repeat' first
    | with_reducible assumption
    | split
    | with_reducible apply KeptR.next
    | with_reducible apply State.at_kept
    | with_reducible apply State.loopRun_kept

theorem execValveSoftstartDone_kept {rK : Lic} {oK : State} {s : State} (hK : Kept rK oK s) {enc : Nat} :
 KeptR rK oK (execValveSoftstartDone enc s) := by
  unfold execValveSoftstartDone
  repeat' first
    | with_reducible assumption
    | split
    | with_reducible apply KeptR.next
    | with_reducible apply State.setBridge_kept
    | with_reducible apply State.setEnc_kept
    | with_reducible apply State.setI_kept

theorem State.valveFault_kept {rK : Lic} {oK : State} {s : State} (hK : Kept rK oK s) {code : Nat} {d0 : Nat} {bitNo : Nat} {enc : Nat} :
 Kept rK oK (State.valveFault s code d0 bitNo enc) := by
  unfold State.valveFault
  repeat' first
    | with_reducible assumption
    | with_reducible apply State.cltFault_kept
    | with_reducible apply State.setBridge_kept
    | with_reducible apply State.setEnc_kept
    | with_reducible apply State.setFld_kept
    | with_reducible apply State.setI_kept
    | decide

theorem execValveShort_kept {rK : Lic} {oK : State} {s : State} (hK : Kept rK oK s) {enc : Nat} :
 KeptR rK oK (execValveShort enc s) := by
  unfold execValveShort
  repeat' first
    | with_reducible assumption
    | split
    | with_reducible apply KeptR.next
    | with_reducible apply State.valveFault_kept

theorem execValveStall_kept {rK : Lic} {oK : State} {s : State} (hK : Kept rK oK s) {enc : Nat} :
 KeptR rK oK (execValveStall enc s) := by
  unfold execValveStall
  repeat' first
    | with_reducible assumption
    | split
    | with_reducible apply KeptR.next
    | with_reducible apply State.valveFault_kept

theorem execValveClr_kept {rK : Lic} {oK : State} {s : State} (hK : Kept rK oK s) :
 KeptR rK oK (execValveClr s) := by
  unfold execValveClr
  repeat' first
    | with_reducible assumption
    | split
    | with_reducible apply KeptR.next
    | with_reducible apply State.setBridge_kept

theorem State.loopOff_kept {rK : Lic} {oK s : State} (hK : Kept rK oK s) : Kept rK oK (State.loopOff s) := by
  have h1 : Kept rK oK (s.setFld rCLT_CTL 0 1 0) := State.setFld_kept hK (by decide)
  have h2 : Kept rK oK { s.setFld rCLT_CTL 0 1 0 with clt := { (s.setFld rCLT_CTL 0 1 0).clt with
      staged := (s.setFld rCLT_CTL 0 1 0).clt.staged.map (fun x =>
        if x.1 = rCLT_CTL then (x.1, BitVec.ofNat 64 (clrBit x.2.toNat 0)) else x) } } :=
    Kept.withClt h1 (fun g x hx => by
      obtain ⟨y, hy, rfl⟩ := List.mem_map.1 hx
      have := g.cst y hy
      split <;> exact this)
  unfold State.loopOff
  dsimp only
  split
  · exact State.setI_kept (State.setBridge_kept h2)
  · exact h2

theorem execLoopDisable_kept {rK : Lic} {oK : State} {s : State} (hK : Kept rK oK s) :
 KeptR rK oK (execLoopDisable s) := by
  unfold execLoopDisable
  repeat' first
    | with_reducible assumption
    | split
    | with_reducible apply KeptR.next
    | with_reducible apply State.lockViol_kept
    | with_reducible apply State.loopOff_kept

end Sys2Proof.Machine
end

