-- ==== Sys2Proof/Laws/KeptJournal.lean ====
section
/-! SUPPORT. What the operations of Machine/Journal.lean keep (Laws/Kept.lean). -/

set_option linter.unusedTactic false
set_option linter.unreachableTactic false
set_option linter.unusedVariables false

namespace Sys2Proof.Machine

theorem State.setOd_kept {rK : Lic} {oK : State} {s : State} (hK : Kept rK oK s) {d : Nat} {i : Nat} {sub : Nat} {v : Nat} :
 Kept rK oK (State.setOd s d i sub v) := by
  unfold State.setOd
  repeat' first
    | with_reducible assumption
    | (with_reducible refine Kept.mk' (r := rK) (s0 := oK) ?_ rfl rfl rfl rfl rfl rfl)

theorem State.setJ_kept {rK : Lic} {oK : State} {s : State} (hK : Kept rK oK s) {j : JrnlSt} :
 Kept rK oK (State.setJ s j) := by
  unfold State.setJ
  repeat' first
    | with_reducible assumption
    | (with_reducible refine Kept.mk' (r := rK) (s0 := oK) ?_ rfl rfl rfl rfl rfl rfl)

theorem State.jrnlStat_kept {rK : Lic} {oK : State} {s : State} (hK : Kept rK oK s) :
 Kept rK oK (State.jrnlStat s) := by
  unfold State.jrnlStat
  repeat' first
    | with_reducible assumption
    | with_reducible apply State.setFld_kept
    | decide

theorem State.copyOne_kept {rK : Lic} {oK : State} {s : State} (hK : Kept rK oK s) :
 Kept rK oK (State.copyOne s) := by
  unfold State.copyOne
  repeat' first
    | with_reducible assumption
    | split
    | with_reducible apply State.setJ_kept

theorem State.jrnlPut_kept {rK : Lic} {oK : State} {s : State} (hK : Kept rK oK s) {e : JEntry} :
 Kept rK oK (State.jrnlPut s e) := by
  unfold State.jrnlPut
  repeat' first
    | with_reducible assumption
    | split
    | with_reducible apply State.bump_kept
    | with_reducible apply State.copyOne_kept
    | with_reducible apply State.jrnlStat_kept
    | with_reducible apply State.notify_kept
    | with_reducible apply State.setJ_kept
    | decide
    | (dsimp only; split)

theorem State.ditchPut_kept {rK : Lic} {oK : State} {s : State} (hK : Kept rK oK s) {e : JEntry} :
 Kept rK oK (State.ditchPut s e) := by
  unfold State.ditchPut
  repeat' first
    | with_reducible assumption
    | split
    | with_reducible apply State.jrnlStat_kept
    | with_reducible apply State.satFld_kept
    | with_reducible apply State.setJ_kept
    | decide

theorem State.jrnlWrite_kept {rK : Lic} {oK : State} {s : State} (hK : Kept rK oK s) {e : Event} :
 Kept rK oK (State.jrnlWrite s e) := by
  unfold State.jrnlWrite
  repeat' first
    | with_reducible assumption
    | with_reducible apply State.ditchPut_kept
    | with_reducible apply State.jrnlPut_kept
    | with_reducible apply State.setJ_kept
    | (dsimp only; split)

theorem State.copyFail_kept {rK : Lic} {oK : State} {s : State} (hK : Kept rK oK s) {c : Nat} {cause : Nat} :
 Kept rK oK (State.copyFail s c cause) := by
  unfold State.copyFail
  repeat' first
    | with_reducible assumption
    | split
    | with_reducible apply State.journal_kept
    | with_reducible apply State.jrnlStat_kept
    | with_reducible apply State.jrnlWrite_kept
    | with_reducible apply State.notify_kept
    | with_reducible apply State.raisePf_kept
    | with_reducible apply State.setFld_kept
    | with_reducible apply State.setJ_kept
    | with_reducible apply State.sticky_kept
    | decide
    | (dsimp only; split)

theorem execJournalWrite_kept {rK : Lic} {oK : State} {s : State} (hK : Kept rK oK s) {bad : Bool} :
 KeptR rK oK (execJournalWrite bad s) := by
  unfold execJournalWrite
  repeat' first
    | with_reducible assumption
    | split
    | with_reducible apply KeptR.next
    | with_reducible apply State.copyFail_kept
    | with_reducible apply State.jrnlWrite_kept
    | with_reducible apply State.setJ_kept
    | (dsimp only; split)

theorem execJournalCopy_kept {rK : Lic} {oK : State} {s : State} (hK : Kept rK oK s) {bad : Bool} :
 KeptR rK oK (execJournalCopy bad s) := by
  unfold execJournalCopy
  repeat' first
    | with_reducible assumption
    | split
    | with_reducible apply KeptR.next
    | with_reducible apply State.copyFail_kept
    | with_reducible apply State.copyOne_kept

theorem execClearLost_kept {rK : Lic} {oK : State} {s : State} (hK : Kept rK oK s) {w : BitVec 32} :
 KeptR rK oK (execClearLost w s) := by
  unfold execClearLost
  repeat' first
    | with_reducible assumption
    | split
    | with_reducible apply KeptR.next
    | with_reducible apply State.setJ_kept
    | with_reducible apply State.sticky_kept
    | decide

theorem execJournalRecoveryComplete_kept {rK : Lic} {oK : State} {s : State} (hK : Kept rK oK s) {passA : Bool} {passB : Bool} :
 KeptR rK oK (execJournalRecoveryComplete passA passB s) := by
  unfold execJournalRecoveryComplete
  repeat' first
    | with_reducible assumption
    | split
    | with_reducible apply KeptR.next
    | (with_reducible refine Kept.foldl ?_ (fun vK eK hvK => ?_))
    | with_reducible apply State.jrnlPut_kept
    | with_reducible apply State.jrnlStat_kept
    | with_reducible apply State.setJ_kept
    | with_reducible apply State.sticky_kept
    | decide
    | (dsimp only; split)

theorem State.showWords_kept {rK : Lic} {oK s : State} (hK : Kept rK oK s) {r : Nat} {ws : List Nat} (hA_r : 4 < r) :
    Kept rK oK (State.showWords s r ws) := by
  unfold State.showWords
  exact State.emit_kept (Kept.foldl hK fun v x hv => State.setReg_kept hv (lt_add_reg hA_r))

theorem State.freeWords_kept {rK : Lic} {oK : State} {s : State} (hK : Kept rK oK s) {aR0 : Nat} :
 Kept rK oK (State.freeWords s aR0).2 := by
  induction aR0 generalizing s with
  | zero =>
    unfold State.freeWords
    repeat' first
      | with_reducible assumption
      | with_reducible apply State.takeFree_kept
  | succ nR ihK =>
    unfold State.freeWords
    repeat' first
      | with_reducible assumption
      | with_reducible apply ihK
      | with_reducible apply State.takeFree_kept

theorem execFltJrnlDataRead_kept {rK : Lic} {oK : State} {s : State} (hK : Kept rK oK s) {stby : Bool} {ueA : Bool} {ueB : Bool} :
 KeptR rK oK (execFltJrnlDataRead stby ueA ueB s) := by
  unfold execFltJrnlDataRead
  repeat' first
    | with_reducible assumption
    | (intro xK; first | (refine Kept.cut (r := rK) (s0 := oK) (x := xK) ?_ ?_; unfold xK) | skip)
    | lift_lets
    | split
    | with_reducible apply KeptR.next
    | with_reducible apply State.bump_kept
    | with_reducible apply State.copyFail_kept
    | with_reducible apply State.emit_kept
    | with_reducible apply State.freeWords_kept
    | with_reducible apply State.setJ_kept
    | with_reducible apply State.showWords_kept
    | decide

end Sys2Proof.Machine
end

