-- ==== Sys2Proof/Laws/KeptSettings.lean ====
section
/-! SUPPORT. What the operations of Machine/Settings.lean keep (Laws/Kept.lean). -/

set_option linter.unusedTactic false
set_option linter.unreachableTactic false
set_option linter.unusedVariables false

namespace Sys2Proof.Machine

theorem State.applyStagedIf_kept {rK : Lic} {oK s : State} (hK : Kept rK oK s) {f : Nat → Bool} :
    Kept rK oK (State.applyStagedIf s f) := by
  refine Kept.whenGood (Eq.trans (foldl_pending fun v x => rfl) hK.queue) ?_ (fun g => ?_)
  · exact (foldl_onward (l := s.staged.filter (fun x => f x.1))
      (g := fun (s : State) x => s.setReg x.1 (overlay x.1 (s.reg x.1) x.2)) (u := s)
      (fun v x hv => hv.same (Nat.le_refl _) rfl rfl rfl) hK.on).same (Nat.le_refl _) rfl rfl rfl
  have gs := hK.good g
  exact Kept.withStaged (Kept.foldlMem hK fun v x hx hv => State.setReg_kept hv (gs.st x (List.mem_of_mem_filter hx)))
    (fun _ x hx => gs.st x (List.mem_of_mem_filter hx))

theorem State.applyStaged_kept {rK : Lic} {oK : State} {s : State} (hK : Kept rK oK s) :
 Kept rK oK (State.applyStaged s) := by
  unfold State.applyStaged
  repeat' first
    | with_reducible assumption
    | with_reducible apply State.applyStagedIf_kept

theorem State.stageReg_kept {rK : Lic} {oK s : State} (hK : Kept rK oK s) {a : Nat} {v : DWord} (hA_a : 4 < a) :
    Kept rK oK (State.stageReg s a v) := by
  have key (l : List (Nat × DWord)) (hl : ∀ x ∈ l, 4 < x.1) : ∀ x ∈ l.filter (fun x => x.1 != a) ++ [(a, v)], 4 < x.1 := by
    intro x hx
    rcases List.mem_append.1 hx with h | h
    · exact hl x (List.mem_of_mem_filter h)
    · rw [List.mem_singleton.1 h]; exact hA_a
  unfold State.stageReg
  split
  · exact Kept.withClt hK (fun g => key _ g.cst)
  · exact Kept.withStaged hK (fun g => key _ g.st)

theorem setRows_reg (t : Nat) : ∀ r ∈ setRows t, r.reg ≠ 0 → 4 < r.reg := by
  unfold setRows
  split <;> decide

theorem State.putSetting_kept {rK : Lic} {oK s : State} (hK : Kept rK oK s) {r : SetRow} {v : Nat} (hA : r.reg ≠ 0 → 4 < r.reg) :
    Kept rK oK (State.putSetting s r v) := by
  unfold State.putSetting
  split
  · exact hK
  · split
    · exact Kept.mk' hK rfl rfl rfl rfl rfl rfl
    · rename_i h; exact State.stageReg_kept hK (hA h)

theorem State.writeRows_kept {rK : Lic} {oK s : State} (hK : Kept rK oK s) {t : Nat} {req : List (Nat × Nat)} {id : Nat → Nat} :
    Kept rK oK (State.writeRows s t req id).st := by
  unfold State.writeRows
  refine Kept.foldl hK fun v x hv => ?_
  split
  · rename_i h
    exact State.putSetting_kept hv (setRows_reg t _ (List.mem_of_getElem? h))
  · exact hv

theorem State.mirrorIngest_kept {rK : Lic} {oK : State} {s : State} (hK : Kept rK oK s) {id : Nat → Nat} :
 Kept rK oK (State.mirrorIngest s id).st := by
  unfold State.mirrorIngest
  repeat' first
    | with_reducible assumption
    | split
    | with_reducible apply State.writeRows_kept
    | (with_reducible show Kept _ _ (id _) ; unfold id)

theorem State.writeSettings_kept {rK : Lic} {oK : State} {s : State} (hK : Kept rK oK s) {a : Nat} {w : Nat} :
 Kept rK oK (State.writeSettings s a w) := by
  unfold State.writeSettings
  repeat' first
    | with_reducible assumption
    | split
    | with_reducible apply State.clamped_kept
    | with_reducible apply State.mirrorIngest_kept
    | with_reducible apply State.writeRows_kept

end Sys2Proof.Machine
end

