-- ==== Sys2Proof/Laws/KeptSelftest.lean ====
section
/-! SUPPORT. What the operations of Machine/Selftest.lean keep (Laws/Kept.lean). -/

set_option linter.unusedTactic false
set_option linter.unreachableTactic false
set_option linter.unusedVariables false

namespace Sys2Proof.Machine

theorem State.setBsite_kept {rK : Lic} {oK : State} {s : State} (hK : Kept rK oK s) {p : Nat} {x : BistSite} :
 Kept rK oK (State.setBsite s p x) := by
  unfold State.setBsite
  repeat' first
    | with_reducible assumption
    | (with_reducible refine Kept.mk' (r := rK) (s0 := oK) ?_ rfl rfl rfl rfl rfl rfl)

theorem State.setFix_kept {rK : Lic} {oK : State} {s : State} (hK : Kept rK oK s) {sk : Nat} {x : SlotFix} :
 Kept rK oK (State.setFix s sk x) := by
  unfold State.setFix
  repeat' first
    | with_reducible assumption
    | (with_reducible refine Kept.mk' (r := rK) (s0 := oK) ?_ rfl rfl rfl rfl rfl rfl)

theorem State.result_kept {rK : Lic} {oK : State} {s : State} (hK : Kept rK oK s) {p : Nat} {unit : Nat} {res : Nat} {soft : Bool} {loc : Nat} {w2 : Nat} {w3 : Nat} :
 Kept rK oK (State.result s p unit res soft loc w2 w3) := by
  unfold State.result
  repeat' first
    | with_reducible assumption
    | (with_reducible refine Kept.foldl ?_ (fun vK eK hvK => ?_))
    | with_reducible apply State.setReg_kept
    | with_reducible refine lt_add_reg ?_
    | decide

theorem State.bistFault_kept {rK : Lic} {oK : State} {s : State} (hK : Kept rK oK s) {code : Nat} {part : Nat} {p : Nat} {d0 : Nat} {d1 : Nat} :
 Kept rK oK (State.bistFault s code part p d0 d1) := by
  unfold State.bistFault
  repeat' first
    | with_reducible assumption
    | with_reducible apply State.tickFault_kept

theorem State.siteFail_kept {rK : Lic} {oK : State} {s : State} (hK : Kept rK oK s) {p : Nat} :
 Kept rK oK (State.siteFail s p) := by
  unfold State.siteFail
  repeat' first
    | with_reducible assumption
    | split
    | (with_reducible refine Kept.mk' (r := rK) (s0 := oK) ?_ rfl rfl rfl rfl rfl rfl)

theorem State.exhausted_kept {rK : Lic} {oK : State} {s : State} (hK : Kept rK oK s) {p : Nat} {loc : Nat} {kind : Nat} :
 Kept rK oK (State.exhausted s p loc kind) := by
  unfold State.exhausted
  repeat' first
    | with_reducible assumption
    | with_reducible apply State.bistFault_kept
    | with_reducible apply State.siteFail_kept
    | with_reducible apply State.sticky_kept
    | decide

theorem State.confirm_kept {rK : Lic} {oK : State} {s : State} (hK : Kept rK oK s) {p : Nat} {unit : Nat} {loc : Nat} {x : TestStep} :
 Kept rK oK (State.confirm s p unit loc x) := by
  unfold State.confirm
  repeat' first
    | with_reducible assumption
    | with_reducible apply State.bistFault_kept
    | with_reducible apply State.bump_kept
    | with_reducible apply State.result_kept
    | with_reducible apply State.sticky_kept
    | decide

theorem State.needSpare_kept {rK : Lic} {oK : State} {s : State} (hK : Kept rK oK s) {pc : Nat} {loc : Nat} :
 Kept rK oK (State.needSpare s pc loc) := by
  unfold State.needSpare
  repeat' first
    | with_reducible assumption
    | split
    | with_reducible apply State.exhausted_kept
    | (with_reducible refine Kept.mk' (r := rK) (s0 := oK) ?_ rfl rfl rfl rfl rfl rfl)
    | (dsimp only; split)

theorem State.retireSlot_kept {rK : Lic} {oK : State} {s : State} (hK : Kept rK oK s) {pc : Nat} {slot : Nat} :
 Kept rK oK (State.retireSlot s pc slot) := by
  unfold State.retireSlot
  repeat' first
    | with_reducible assumption
    | with_reducible apply State.bistFault_kept
    | with_reducible apply State.bump_kept
    | with_reducible apply State.needSpare_kept
    | with_reducible apply State.setBsite_kept
    | with_reducible apply State.setSlotHdr_kept
    | decide
    | (dsimp only; split)

theorem State.mapSpares_kept {rK : Lic} {oK : State} {s : State} (hK : Kept rK oK s) {pc : Nat} {slot : Nat} :
 Kept rK oK (State.mapSpares s pc slot) := by
  unfold State.mapSpares
  repeat' first
    | with_reducible assumption
    | split
    | with_reducible apply State.retireSlot_kept
    | with_reducible apply State.setBsite_kept
    | with_reducible apply State.setFix_kept
    | (dsimp only; split)

theorem State.setTestPos_kept {rK : Lic} {oK : State} {s : State} (hK : Kept rK oK s) {p : Nat} {unit : Nat} {x : Nat} :
 Kept rK oK (State.setTestPos s p unit x) := by
  unfold State.setTestPos
  repeat' first
    | with_reducible assumption
    | (with_reducible refine Kept.mk' (r := rK) (s0 := oK) ?_ rfl rfl rfl rfl rfl rfl)

theorem State.combStep_kept {rK : Lic} {oK : State} {s : State} (hK : Kept rK oK s) {p : Nat} {q : Nat} {x : TestStep} {left : Nat} :
 Kept rK oK (State.combStep s p q x left).2 := by
  unfold State.combStep
  repeat' first
    | with_reducible assumption
    | split
    | with_reducible apply State.bistFault_kept
    | with_reducible apply State.bump_kept
    | with_reducible apply State.confirm_kept
    | with_reducible apply State.mapSpares_kept
    | with_reducible apply State.needSpare_kept
    | with_reducible apply State.result_kept
    | with_reducible apply State.setFix_kept
    | with_reducible apply State.setSlotHdr_kept
    | with_reducible apply State.setTestPos_kept
    | decide
    | (with_reducible refine Kept.mk' (r := rK) (s0 := oK) ?_ rfl rfl rfl rfl rfl rfl; first | with_reducible assumption | with_reducible apply State.bistFault_kept | with_reducible apply State.bump_kept | with_reducible apply State.confirm_kept | with_reducible apply State.mapSpares_kept | with_reducible apply State.needSpare_kept | with_reducible apply State.result_kept | with_reducible apply State.setFix_kept | with_reducible apply State.setSlotHdr_kept | with_reducible apply State.setTestPos_kept)
    | (dsimp only; split)

theorem State.spadSave_kept {rK : Lic} {oK : State} {s : State} (hK : Kept rK oK s) {p : Nat} {r : Nat} {z : SpadTest} {m : BitVec 64} :
 Kept rK oK (State.spadSave s p r z m) := by
  unfold State.spadSave
  repeat' first
    | with_reducible assumption
    | split
    | (with_reducible refine Kept.foldl ?_ (fun vK eK hvK => ?_))
    | (with_reducible refine Kept.foldl1 ?_ (fun vK eK hvK => ?_))
    | (with_reducible refine Kept.foldl2 ?_ (fun vK eK hvK => ?_))
    | with_reducible apply State.setTest_kept
    | (with_reducible refine Kept.mk' (r := rK) (s0 := oK) ?_ rfl rfl rfl rfl rfl rfl)
    | (dsimp only; split)

theorem State.verifyFails_kept {rK : Lic} {oK : State} {s : State} (hK : Kept rK oK s) {p : Nat} {z : SpadTest} :
 Kept rK oK (State.verifyFails s p z) := by
  unfold State.verifyFails
  repeat' first
    | with_reducible assumption
    | (with_reducible refine Kept.foldl ?_ (fun vK eK hvK => ?_))
    | (with_reducible refine Kept.foldl1 ?_ (fun vK eK hvK => ?_))
    | (with_reducible refine Kept.foldl2 ?_ (fun vK eK hvK => ?_))
    | with_reducible apply State.setTest_kept
    | (with_reducible refine Kept.mk' (r := rK) (s0 := oK) ?_ rfl rfl rfl rfl rfl rfl)
    | (dsimp only; split)

theorem State.spadStep_kept {rK : Lic} {oK : State} {s : State} (hK : Kept rK oK s) {p : Nat} {x : TestStep} {left : Nat} :
 Kept rK oK (State.spadStep s p x left).2 := by
  unfold State.spadStep
  repeat' first
    | with_reducible assumption
    | (intro xK; first | (refine Kept.cut (r := rK) (s0 := oK) (x := xK) ?_ ?_; unfold xK) | (refine Kept.cut (r := rK) (s0 := oK) (x := xK.2) ?_ ?_; unfold xK) | (refine Kept.cut (r := rK) (s0 := oK) (x := xK.1) ?_ ?_; unfold xK) | (refine Kept.cut (r := rK) (s0 := oK) (x := xK.st) ?_ ?_; unfold xK) | (refine KeptO.cut (r := rK) (s0 := oK) (x := xK) ?_ ?_; unfold xK) | (have : (fun a => xK a) = xK := rfl; clear this; subst xK; beta_reduce) | skip)
    | lift_lets
    | split
    | with_reducible apply State.bump_kept
    | with_reducible apply State.confirm_kept
    | with_reducible apply State.result_kept
    | with_reducible apply State.setTestPos_kept
    | with_reducible apply State.spadDone_kept
    | with_reducible apply State.spadRestore_kept
    | with_reducible apply State.spadSave_kept
    | with_reducible apply State.verifyFails_kept
    | with_reducible exact lt_siteReg _ _
    | with_reducible refine lt_rplReg ?_
    | with_reducible exact lt_leqReg _
    | with_reducible refine lt_add_reg ?_
    | decide
    | (with_reducible refine Kept.mk' (r := rK) (s0 := oK) ?_ rfl rfl rfl rfl rfl rfl)
    | (clear_value *; split)
    | (dsimp only; split)

theorem State.spadRepair_kept {rK : Lic} {oK : State} {s : State} (hK : Kept rK oK s) {p : Nat} {g : Nat} :
 Kept rK oK (State.spadRepair s p g) := by
  unfold State.spadRepair
  repeat' first
    | with_reducible assumption
    | split
    | with_reducible apply State.bistFault_kept
    | with_reducible apply State.bump_kept
    | with_reducible apply State.exhausted_kept
    | with_reducible apply State.setTest_kept
    | with_reducible apply State.spadDone_kept
    | with_reducible apply State.spadRestore_kept
    | with_reducible exact lt_siteReg _ _
    | with_reducible refine lt_rplReg ?_
    | with_reducible exact lt_leqReg _
    | with_reducible refine lt_add_reg ?_
    | decide
    | (with_reducible refine Kept.mk' (r := rK) (s0 := oK) ?_ rfl rfl rfl rfl rfl rfl)
    | (dsimp only; split)

theorem State.hbmStep_kept {rK : Lic} {oK : State} {s : State} (hK : Kept rK oK s) {p : Nat} {x : TestStep} :
 Kept rK oK (State.hbmStep s p x).2 := by
  unfold State.hbmStep
  repeat' first
    | with_reducible assumption
    | split
    | with_reducible apply State.bump_kept
    | with_reducible apply State.confirm_kept
    | with_reducible apply State.result_kept
    | with_reducible apply State.setFrame_kept
    | with_reducible apply State.setTestPos_kept
    | decide

theorem State.logicStep_kept {rK : Lic} {oK : State} {s : State} (hK : Kept rK oK s) {p : Nat} {x : TestStep} :
 Kept rK oK (State.logicStep s p x).2 := by
  unfold State.logicStep
  repeat' first
    | with_reducible assumption
    | split
    | with_reducible apply State.bistFault_kept
    | with_reducible apply State.bump_kept
    | with_reducible apply State.result_kept
    | with_reducible apply State.setBsite_kept
    | with_reducible apply State.siteFail_kept
    | with_reducible apply State.sticky_kept
    | decide

theorem State.testSteps_kept {rK : Lic} {oK : State} {s : State} (hK : Kept rK oK s) {p : Nat} {unit : Nat} {aR0 : List TestStep} {aR1 : Nat} :
 Kept rK oK (State.testSteps s p unit aR0 aR1) := by
  induction aR0 generalizing s p unit aR1 with
  | nil =>
    unfold State.testSteps
    repeat' first
      | with_reducible assumption
      | split
      | with_reducible apply State.combStep_kept
      | with_reducible apply State.hbmStep_kept
      | with_reducible apply State.logicStep_kept
      | with_reducible apply State.spadStep_kept
      | (dsimp only; split)
  | cons xR tR ihK =>
    unfold State.testSteps
    repeat' first
      | with_reducible assumption
      | split
      | with_reducible apply ihK
      | with_reducible apply State.combStep_kept
      | with_reducible apply State.hbmStep_kept
      | with_reducible apply State.logicStep_kept
      | with_reducible apply State.spadStep_kept
      | (dsimp only; split)

theorem execSelfTestSlice_kept {rK : Lic} {oK : State} {s : State} (hK : Kept rK oK s) {p : Nat} {unit : Nat} {len : Nat} {steps : List TestStep} {leaves : Bool} {t : Nat} :
 KeptR rK oK (execSelfTestSlice p unit len steps leaves t s) := by
  unfold execSelfTestSlice
  repeat' first
    | with_reducible assumption
    | split
    | with_reducible apply KeptR.next
    | with_reducible apply State.at_kept
    | with_reducible apply State.bump_kept
    | with_reducible apply State.spadRepair_kept
    | with_reducible apply State.testSteps_kept
    | decide

theorem execSelfTestYield_kept {rK : Lic} {oK : State} {s : State} (hK : Kept rK oK s) {p : Nat} {q : Nat} :
 KeptR rK oK (execSelfTestYield p q s) := by
  unfold execSelfTestYield
  repeat' first
    | with_reducible assumption
    | split
    | with_reducible apply KeptR.next
    | with_reducible apply State.bump_kept
    | decide

theorem execAnalogCheck_kept {rK : Lic} {oK : State} {s : State} (hK : Kept rK oK s) {order : Nat} {site : Nat} {inst : Nat} {pass : Bool} {err : BitVec 32} {aux : Nat} :
 KeptR rK oK (execAnalogCheck order site inst pass err aux s) := by
  unfold execAnalogCheck
  repeat' first
    | with_reducible assumption
    | split
    | with_reducible apply KeptR.next
    | with_reducible apply State.bistFault_kept
    | with_reducible apply State.bump_kept
    | with_reducible apply State.domBreak_kept
    | with_reducible apply State.linkDown_kept
    | with_reducible apply State.pwrFault_kept
    | with_reducible apply State.result_kept
    | with_reducible apply State.sensorState_kept
    | with_reducible apply State.setFld_kept
    | with_reducible apply State.setSensor_kept
    | with_reducible apply State.valveFault_kept
    | decide

theorem State.hubLost_kept {rK : Lic} {oK : State} {s : State} (hK : Kept rK oK s) {h cause d : Nat} :
    Kept rK oK (State.hubLost s h cause d) := by
  unfold State.hubLost
  split
  · exact hK
  extract_lets c s1 s2 s3 s4 core s5
  have h1 : Kept rK oK s1 := hK.same rfl rfl rfl rfl rfl rfl (Nat.le_refl _) rfl rfl rfl
  have h4 : Kept rK oK s4 := State.portDown_kept (Kept.foldl (State.tickFault_kept h1) (fun v n hv => State.resetPart_kept hv))
  have h5 : Kept rK oK s5 := State.dropWaits_kept (State.sealAbandonAll_kept h4)
  exact Kept.ite (fun _ => State.copyFail_kept h5) (fun _ => Kept.ite (fun _ => State.copyFail_kept h5) (fun _ => h5))

theorem State.ageSite_kept {rK : Lic} {oK : State} {s : State} (hK : Kept rK oK s) {hours : Nat} {x : Nat × Nat × Nat} :
 Kept rK oK (State.ageSite s hours x) := by
  unfold State.ageSite
  repeat' first
    | with_reducible assumption
    | with_reducible apply State.bistFault_kept
    | with_reducible apply State.setBsite_kept
    | with_reducible apply State.setPwr1_kept
    | (dsimp only; split)

theorem execAgeingUpdate_kept {rK : Lic} {oK : State} {s : State} (hK : Kept rK oK s) {hours : Nat} {therm : Nat} {valve : Nat} {sites : List (Nat × Nat × Nat)} {mons : List (Nat × Nat × Nat × Nat)} :
 KeptR rK oK (execAgeingUpdate hours therm valve sites mons s) := by
  unfold execAgeingUpdate
  repeat' first
    | with_reducible assumption
    | (intro xK; first | (refine Kept.cut (r := rK) (s0 := oK) (x := xK) ?_ ?_; unfold xK) | skip)
    | lift_lets
    | split
    | with_reducible apply KeptR.next
    | (with_reducible refine Kept.foldl ?_ (fun vK eK hvK => ?_))
    | with_reducible apply State.ageSite_kept
    | with_reducible apply State.bistFault_kept
    | with_reducible apply State.notify_kept
    | with_reducible apply State.takeFree_kept
    | (with_reducible refine Kept.mk' (r := rK) (s0 := oK) ?_ rfl rfl rfl rfl rfl rfl)

theorem execBistSiteDataRead_kept {rK : Lic} {oK : State} {s : State} (hK : Kept rK oK s) :
 KeptR rK oK (execBistSiteDataRead s) := by
  unfold execBistSiteDataRead
  repeat' first
    | with_reducible assumption
    | split
    | with_reducible apply KeptR.next
    | with_reducible apply State.emit_kept
    | with_reducible apply State.showWords_kept
    | decide
    | (with_reducible refine Kept.mk' (r := rK) (s0 := oK) ?_ rfl rfl rfl rfl rfl rfl)

theorem State.replaceComb_kept {rK : Lic} {oK : State} {s : State} (hK : Kept rK oK s) {n : Nat} {x : Nat × Nat × Nat} :
 Kept rK oK (State.replaceComb s n x) := by
  unfold State.replaceComb
  repeat' first
    | with_reducible assumption
    | with_reducible apply State.bistFault_kept
    | with_reducible apply State.bump_kept
    | with_reducible apply State.setBsite_kept
    | decide
    | (with_reducible refine Kept.mk' (r := rK) (s0 := oK) ?_ rfl rfl rfl rfl rfl rfl; first | with_reducible assumption | with_reducible apply State.bistFault_kept | with_reducible apply State.bump_kept | with_reducible apply State.setBsite_kept)
    | (dsimp only; split)

theorem State.replaceCombs_kept {rK : Lic} {oK : State} {s : State} (hK : Kept rK oK s) {n : Nat} :
 Kept rK oK (State.replaceCombs s n) := by
  unfold State.replaceCombs
  repeat' first
    | with_reducible assumption
    | (with_reducible refine Kept.foldl ?_ (fun vK eK hvK => ?_))
    | with_reducible apply State.replaceComb_kept

theorem State.rebind_kept {rK : Lic} {oK : State} {s : State} (hK : Kept rK oK s) {l : Nat} {p : Nat} {stroke : Nat} :
 Kept rK oK (State.rebind s l p stroke) := by
  unfold State.rebind
  repeat' first
    | with_reducible assumption
    | with_reducible apply State.setReg_kept
    | with_reducible refine lt_add_reg ?_
    | decide

end Sys2Proof.Machine
end

