-- ==== Sys2Proof/Laws/KeptObjects.lean ====
section
/-! SUPPORT. What the operations of Machine/Objects.lean keep (Laws/Kept.lean). -/

set_option linter.unusedTactic false
set_option linter.unreachableTactic false
set_option linter.unusedVariables false

namespace Sys2Proof.Machine

theorem State.readObj_kept {rK : Lic} {oK : State} {s : State} (hK : Kept rK oK s) {i : Nat} {sub : Nat} :
 Kept rK oK (State.readObj s i sub).2 := by
  unfold State.readObj
  repeat' first
    | with_reducible assumption
    | split
    | with_reducible apply State.setOd_kept

theorem State.readItems_kept {rK : Lic} {oK : State} {s : State} (hK : Kept rK oK s) {aR0 : List Nat} {aR1 : List Nat} :
 Kept rK oK (State.readItems s aR0 aR1).2 := by
  induction aR0 generalizing s aR1 with
  | nil =>
    unfold State.readItems
    repeat' first
      | with_reducible assumption
      | with_reducible apply State.readObj_kept
      | (dsimp only; split)
  | cons xR tR ihK =>
    unfold State.readItems
    repeat' first
      | with_reducible assumption
      | with_reducible apply ihK
      | with_reducible apply State.readObj_kept
      | (dsimp only; split)

theorem State.writeTable_kept {rK : Lic} {oK : State} {s : State} (hK : Kept rK oK s) {t : Nat} {l : List (Nat × WItem)} :
 Kept rK oK (State.writeTable s t l).1 := by
  unfold State.writeTable
  repeat' first
    | with_reducible assumption
    | split
    | with_reducible apply State.mirrorIngest_kept
    | with_reducible apply State.writeRows_kept

theorem State.writeOne_kept {rK : Lic} {oK s : State} {o : WOut} (hK : Kept rK oK s) (hO : Kept rK oK o.st) {k : Nat} {x : WItem} :
    Kept rK oK (State.writeOne s o k x).st := by
  unfold State.writeOne
  extract_lets v id fin
  have hf (u : State) (y why : Nat) (hu : Kept rK oK u) : Kept rK oK (fin u y why).st := hu
  clear_value fin
  refine Kept.iteSt (fun _ => hO) (fun _ => ?_)
  refine Kept.iteSt (fun _ => hf _ _ _ hK) (fun _ => ?_)
  refine Kept.iteSt (fun _ => ?_) (fun _ => ?_)
  · exact Kept.iteSt (fun _ => hf _ _ _ (State.setOd_kept (State.setOd_kept hK))) (fun _ => hf _ _ _ (State.setOd_kept hK))
  refine Kept.iteSt (fun _ => hf _ _ _ (State.setOd_kept hK)) (fun _ => ?_)
  refine Kept.iteSt (fun _ => hf _ _ _ (State.setOd_kept hK)) (fun _ => ?_)
  exact hf _ _ _ (Kept.ite (fun _ => State.setBridge_kept hK) (fun _ => hK))

theorem State.loopFollows_kept {rK : Lic} {oK : State} {s : State} (hK : Kept rK oK s) :
 Kept rK oK (State.loopFollows s) := by
  unfold State.loopFollows
  repeat' first
    | with_reducible assumption
    | split
    | with_reducible apply State.loopOff_kept

theorem State.writeItems_kept {rK : Lic} {oK : State} {s : State} (hK : Kept rK oK s) {mailbox : Bool} {items : List WItem} :
 Kept rK oK (State.writeItems s mailbox items).st := by
  unfold State.writeItems
  repeat' first
    | with_reducible assumption
    | split
    | (with_reducible refine Kept.foldlWOut ?_ (fun vK eK hvK => ?_))
    | with_reducible apply State.loopFollows_kept
    | with_reducible apply State.writeOne_kept
    | with_reducible apply State.writeTable_kept

theorem State.applyLink_kept {rK : Lic} {oK : State} {s : State} (hK : Kept rK oK s) {l : List (Nat × Nat)} {g : Option (List Nat)} :
 Kept rK oK (State.applyLink s l g) := by
  unfold State.applyLink
  repeat' first
    | with_reducible assumption
    | split
    | (with_reducible refine Kept.foldl ?_ (fun vK eK hvK => ?_))
    | with_reducible apply State.setFld_kept
    | with_reducible apply State.setOd_kept
    | decide
    | (with_reducible refine Kept.mk' (r := rK) (s0 := oK) ?_ rfl rfl rfl rfl rfl rfl)

end Sys2Proof.Machine
end

