-- ==== Sys2Proof/Laws/KeptWaggle.lean ====
section
/-! SUPPORT. What the operations of Machine/Waggle.lean keep (Laws/Kept.lean). -/

set_option linter.unusedTactic false
set_option linter.unreachableTactic false
set_option linter.unusedVariables false

namespace Sys2Proof.Machine

theorem State.wglFault_kept {rK : Lic} {oK : State} {s : State} (hK : Kept rK oK s) {code : Nat} {site : Nat} {d0 : Nat} {d1 : Nat} :
 Kept rK oK (State.wglFault s code site d0 d1) := by
  unfold State.wglFault
  repeat' first
    | with_reducible assumption
    | with_reducible apply State.tickFault_kept

theorem State.wglOnce_kept {rK : Lic} {oK : State} {s : State} (hK : Kept rK oK s) {code : Nat} {site : Nat} {d0 : Nat} {d1 : Nat} :
 Kept rK oK (State.wglOnce s code site d0 d1) := by
  unfold State.wglOnce
  repeat' first
    | with_reducible assumption
    | split
    | with_reducible apply State.mark_kept
    | with_reducible apply State.wglFault_kept

theorem State.wglSend_kept {rK : Lic} {oK : State} {s : State} (hK : Kept rK oK s) {port : Nat} {mac : Nat} {pcp : Nat} {msg : Nat} {resp : Nat} {clamped : Nat} {seq : Nat} {dst : Nat} {pay : List Nat} :
 Kept rK oK (State.wglSend s port mac pcp msg resp clamped seq dst pay) := by
  unfold State.wglSend
  repeat' first
    | with_reducible assumption
    | split
    | with_reducible apply State.bump_kept
    | with_reducible apply State.clamped_kept
    | with_reducible apply State.emit_kept
    | decide

theorem State.wglGroup_kept {rK : Lic} {oK : State} {s : State} (hK : Kept rK oK s) {msg : Nat} {pay : List Nat} :
 Kept rK oK (State.wglGroup s msg pay) := by
  unfold State.wglGroup
  repeat' first
    | with_reducible assumption
    | with_reducible apply State.wglSend_kept
    | (with_reducible refine Kept.mk' (r := rK) (s0 := oK) ?_ rfl rfl rfl rfl rfl rfl)

theorem State.wglRx_kept {rK : Lic} {oK : State} {s : State} (hK : Kept rK oK s) {msg : Nat} {fr : WglFrame} {t : Nat} {f : State → WglHdr → State} (hF_f : ∀ (uK : State) (u1 : WglHdr), Kept rK oK uK → Kept rK oK (f uK u1)) :
 Kept rK oK (State.wglRx s msg fr t f) := by
  unfold State.wglRx
  repeat' first
    | with_reducible assumption
    | split
    | with_reducible apply State.at_kept
    | with_reducible apply State.bump_kept
    | with_reducible apply State.sticky_kept
    | with_reducible apply State.wglOnce_kept
    | with_reducible apply hF_f
    | decide
    | (with_reducible refine Kept.mk' (r := rK) (s0 := oK) ?_ rfl rfl rfl rfl rfl rfl)
    | (dsimp only; split)

theorem State.fastAnswer_kept {rK : Lic} {oK : State} {s : State} (hK : Kept rK oK s) {fr : WglFrame} {h : WglHdr} {leaves : Bool} {pay : List Nat} :
 Kept rK oK (State.fastAnswer s fr h leaves pay) := by
  unfold State.fastAnswer
  repeat' first
    | with_reducible assumption
    | split
    | with_reducible apply State.wglSend_kept

theorem State.toFirmware_kept {rK : Lic} {oK : State} {s : State} (hK : Kept rK oK s) {fr : WglFrame} {h : WglHdr} {leaves : Bool} {keys : List Nat} {r : WglReq} :
 Kept rK oK (State.toFirmware s fr h leaves keys r) := by
  unfold State.toFirmware
  repeat' first
    | with_reducible assumption
    | split
    | with_reducible apply State.fastAnswer_kept
    | (with_reducible refine Kept.mk' (r := rK) (s0 := oK) ?_ rfl rfl rfl rfl rfl rfl)

theorem State.readRequest_kept {rK : Lic} {oK : State} {s : State} (hK : Kept rK oK s) {fr : WglFrame} {leaves : Bool} {t : Nat} {h : WglHdr} :
 Kept rK oK (State.readRequest s fr leaves t h) := by
  unfold State.readRequest
  repeat' first
    | with_reducible assumption
    | with_reducible apply State.fastAnswer_kept
    | with_reducible apply State.readItems_kept
    | with_reducible apply State.toFirmware_kept
    | (dsimp only; split)

theorem execWglRead_kept {rK : Lic} {oK : State} {s : State} (hK : Kept rK oK s) {fr : WglFrame} {leaves : Bool} {t : Nat} :
 KeptR rK oK (execWglRead fr leaves t s) := by
  unfold execWglRead
  repeat' first
    | with_reducible assumption
    | intro xK
    | with_reducible apply KeptR.next
    | with_reducible apply State.readRequest_kept
    | with_reducible apply State.wglRx_kept

theorem execWglReadMulti_kept {rK : Lic} {oK : State} {s : State} (hK : Kept rK oK s) {fr : WglFrame} {leaves : Bool} {t : Nat} :
 KeptR rK oK (execWglReadMulti fr leaves t s) := by
  unfold execWglReadMulti
  repeat' first
    | with_reducible assumption
    | intro xK
    | with_reducible apply KeptR.next
    | with_reducible apply State.readRequest_kept
    | with_reducible apply State.wglRx_kept

theorem execWglHeartbeat_kept {rK : Lic} {oK : State} {s : State} (hK : Kept rK oK s) {fr : WglFrame} {leaves : Bool} {t : Nat} :
 KeptR rK oK (execWglHeartbeat fr leaves t s) := by
  unfold execWglHeartbeat
  repeat' first
    | with_reducible assumption
    | intro xK
    | with_reducible apply KeptR.next
    | with_reducible apply State.fastAnswer_kept
    | with_reducible apply State.wglRx_kept

theorem State.denied_kept {rK : Lic} {oK : State} {s : State} (hK : Kept rK oK s) {fr : WglFrame} {h : WglHdr} :
 Kept rK oK (State.denied s fr h) := by
  unfold State.denied
  repeat' first
    | with_reducible assumption
    | with_reducible apply State.bump_kept
    | with_reducible apply State.wglOnce_kept
    | decide

theorem State.keepAnswer_kept {rK : Lic} {oK : State} {s : State} (hK : Kept rK oK s) {r : WglReq} :
 Kept rK oK (State.keepAnswer s r) := by
  unfold State.keepAnswer
  repeat' first
    | with_reducible assumption
    | (with_reducible refine Kept.mk' (r := rK) (s0 := oK) ?_ rfl rfl rfl rfl rfl rfl)

theorem State.writeRequest_kept {rK : Lic} {oK : State} {s : State} (hK : Kept rK oK s) {fr : WglFrame} {leaves : Bool} {t : Nat} {h : WglHdr} :
 Kept rK oK (State.writeRequest s fr leaves t h) := by
  unfold State.writeRequest
  repeat' first
    | with_reducible assumption
    | split
    | with_reducible apply State.clamped_kept
    | with_reducible apply State.denied_kept
    | with_reducible apply State.keepAnswer_kept
    | with_reducible apply State.toFirmware_kept
    | with_reducible apply State.writeItems_kept

theorem execWglWrite_kept {rK : Lic} {oK : State} {s : State} (hK : Kept rK oK s) {fr : WglFrame} {leaves : Bool} {t : Nat} :
 KeptR rK oK (execWglWrite fr leaves t s) := by
  unfold execWglWrite
  repeat' first
    | with_reducible assumption
    | intro xK
    | with_reducible apply KeptR.next
    | with_reducible apply State.wglRx_kept
    | with_reducible apply State.writeRequest_kept

theorem State.grantRequest_kept {rK : Lic} {oK : State} {s : State} (hK : Kept rK oK s) {fr : WglFrame} {leaves : Bool} {h : WglHdr} :
 Kept rK oK (State.grantRequest s fr leaves h) := by
  unfold State.grantRequest
  repeat' first
    | with_reducible assumption
    | split
    | with_reducible apply State.bump_kept
    | with_reducible apply State.clamped_kept
    | with_reducible apply State.denied_kept
    | with_reducible apply State.fastAnswer_kept
    | with_reducible apply State.setOd_kept
    | decide
    | (with_reducible refine Kept.mk' (r := rK) (s0 := oK) ?_ rfl rfl rfl rfl rfl rfl)
    | (dsimp only; split)

theorem execWglGrant_kept {rK : Lic} {oK : State} {s : State} (hK : Kept rK oK s) {fr : WglFrame} {leaves : Bool} {t : Nat} :
 KeptR rK oK (execWglGrant fr leaves t s) := by
  unfold execWglGrant
  repeat' first
    | with_reducible assumption
    | intro xK
    | with_reducible apply KeptR.next
    | with_reducible apply State.grantRequest_kept
    | with_reducible apply State.wglRx_kept

theorem execWglAnswerLate_kept {rK : Lic} {oK : State} {s : State} (hK : Kept rK oK s) {msg : Nat} {port : Nat} {seq : Nat} {t : Nat} :
 KeptR rK oK (execWglAnswerLate msg port seq t s) := by
  unfold execWglAnswerLate
  repeat' first
    | with_reducible assumption
    | with_reducible apply KeptR.next
    | with_reducible apply State.at_kept
    | with_reducible apply State.bump_kept
    | with_reducible apply State.sticky_kept
    | decide
    | (with_reducible refine Kept.mk' (r := rK) (s0 := oK) ?_ rfl rfl rfl rfl rfl rfl)

theorem execStandardAnswer_kept {rK : Lic} {oK : State} {s : State} (hK : Kept rK oK s) {late : Bool} {t : Nat} :
 KeptR rK oK (execStandardAnswer late t s) := by
  unfold execStandardAnswer
  repeat' first
    | with_reducible assumption
    | split
    | with_reducible apply KeptR.next
    | with_reducible apply State.applyLink_kept
    | with_reducible apply State.at_kept
    | with_reducible apply State.bump_kept
    | with_reducible apply State.clamped_kept
    | with_reducible apply State.readItems_kept
    | with_reducible apply State.wglSend_kept
    | decide
    | (with_reducible refine Kept.mk' (r := rK) (s0 := oK) ?_ rfl rfl rfl rfl rfl rfl)

theorem execWglForward_kept {rK : Lic} {oK : State} {s : State} (hK : Kept rK oK s) {port : Nat} {src : Nat} {dst : Nat} {body : List (BitVec 8)} {fcsOk : Bool} {gptp : Bool} {t : Nat} :
 KeptR rK oK (execWglForward port src dst body fcsOk gptp t s) := by
  unfold execWglForward
  repeat' first
    | with_reducible assumption
    | split
    | with_reducible apply KeptR.next
    | with_reducible apply State.at_kept
    | with_reducible apply State.bump_kept
    | with_reducible apply State.emit_kept
    | with_reducible exact lt_siteReg _ _
    | with_reducible refine lt_rplReg ?_
    | with_reducible exact lt_leqReg _
    | with_reducible refine lt_add_reg ?_
    | decide
    | (with_reducible refine Kept.mk' (r := rK) (s0 := oK) ?_ rfl rfl rfl rfl rfl rfl)
    | (dsimp only; split)

theorem execHeartbeatSend_kept {rK : Lic} {oK : State} {s : State} (hK : Kept rK oK s) {t : Nat} :
 KeptR rK oK (execHeartbeatSend t s) := by
  unfold execHeartbeatSend
  repeat' first
    | with_reducible assumption
    | with_reducible apply KeptR.next
    | with_reducible apply State.at_kept
    | with_reducible apply State.mark_kept
    | with_reducible apply State.wglGroup_kept
    | (dsimp only; split)

theorem execNotifySend_kept {rK : Lic} {oK : State} {s : State} (hK : Kept rK oK s) :
 KeptR rK oK (execNotifySend s) := by
  unfold execNotifySend
  repeat' first
    | with_reducible assumption
    | split
    | with_reducible apply KeptR.next
    | with_reducible apply State.bump_kept
    | with_reducible apply State.wglGroup_kept
    | decide
    | (with_reducible refine Kept.mk' (r := rK) (s0 := oK) ?_ rfl rfl rfl rfl rfl rfl)

theorem execWglPortChange_kept {rK : Lic} {oK : State} {s : State} (hK : Kept rK oK s) {port : Nat} {st : Nat} :
 KeptR rK oK (execWglPortChange port st s) := by
  unfold execWglPortChange
  repeat' first
    | with_reducible assumption
    | split
    | with_reducible apply KeptR.next
    | with_reducible apply State.hubLost_kept
    | with_reducible apply State.setFld_kept
    | with_reducible apply State.wglFault_kept
    | decide

theorem State.gptpState_kept {rK : Lic} {oK : State} {s : State} (hK : Kept rK oK s) {b : Bool} :
 Kept rK oK (State.gptpState s b) := by
  unfold State.gptpState
  repeat' first
    | with_reducible assumption
    | with_reducible apply State.notify_kept
    | with_reducible apply State.setFld_kept
    | decide

theorem State.timeLost_kept {rK : Lic} {oK : State} {s : State} (hK : Kept rK oK s) {reason : Nat} :
 Kept rK oK (State.timeLost s reason) := by
  unfold State.timeLost
  repeat' first
    | with_reducible assumption
    | split
    | with_reducible apply State.gptpState_kept
    | with_reducible apply State.sticky_kept
    | with_reducible apply State.wglFault_kept
    | decide
    | (with_reducible refine Kept.mk' (r := rK) (s0 := oK) ?_ rfl rfl rfl rfl rfl rfl)

theorem execGptpSync_kept {rK : Lic} {oK : State} {s : State} (hK : Kept rK oK s) {ofs : Int} {capable : Bool} {t : Nat} :
 KeptR rK oK (execGptpSync ofs capable t s) := by
  unfold execGptpSync
  repeat' first
    | with_reducible assumption
    | split
    | with_reducible apply KeptR.next
    | with_reducible apply State.at_kept
    | with_reducible apply State.gptpState_kept
    | with_reducible apply State.timeLost_kept
    | (with_reducible refine Kept.mk' (r := rK) (s0 := oK) ?_ rfl rfl rfl rfl rfl rfl)
    | (dsimp only; split)

theorem execWglTimeLost_kept {rK : Lic} {oK : State} {s : State} (hK : Kept rK oK s) {reason : Nat} {t : Nat} :
 KeptR rK oK (execWglTimeLost reason t s) := by
  unfold execWglTimeLost
  repeat' first
    | with_reducible assumption
    | split
    | with_reducible apply KeptR.next
    | with_reducible apply State.at_kept
    | with_reducible apply State.timeLost_kept
    | (dsimp only; split)

theorem State.setOdBuf_kept {rK : Lic} {oK : State} {s : State} (hK : Kept rK oK s) {aR0 : Nat} {aR1 : List Nat} :
 Kept rK oK (State.setOdBuf s aR0 aR1) := by
  induction aR1 generalizing s aR0 with
  | nil =>
    unfold State.setOdBuf
    repeat' first
      | with_reducible assumption
      | with_reducible apply State.setFld_kept
      | with_reducible refine lt_add_reg ?_
      | decide
  | cons xR tR ihK =>
    unfold State.setOdBuf
    repeat' first
      | with_reducible assumption
      | with_reducible apply ihK
      | with_reducible apply State.setFld_kept
      | with_reducible refine lt_add_reg ?_
      | decide

theorem execMailboxGo_kept {rK : Lic} {oK : State} {s : State} (hK : Kept rK oK s) {w : BitVec 32} {t : Nat} :
 KeptR rK oK (execMailboxGo w t s) := by
  unfold execMailboxGo
  repeat' first
    | with_reducible assumption
    | split
    | with_reducible apply KeptR.next
    | with_reducible apply State.at_kept
    | with_reducible apply State.clamped_kept
    | with_reducible apply State.lockViol_kept
    | with_reducible apply State.sticky_kept
    | with_reducible apply State.writeItems_kept
    | decide
    | (with_reducible refine Kept.mk' (r := rK) (s0 := oK) ?_ rfl rfl rfl rfl rfl rfl)
    | (dsimp only; split)

theorem execMailboxDone_kept {rK : Lic} {oK : State} {s : State} (hK : Kept rK oK s) {t : Nat} :
 KeptR rK oK (execMailboxDone t s) := by
  unfold execMailboxDone
  repeat' first
    | with_reducible assumption
    | split
    | with_reducible apply KeptR.next
    | with_reducible apply State.applyLink_kept
    | with_reducible apply State.at_kept
    | with_reducible apply State.clamped_kept
    | with_reducible apply State.readItems_kept
    | with_reducible apply State.setFld_kept
    | with_reducible apply State.setOdBuf_kept
    | with_reducible apply State.sticky_kept
    | decide
    | (with_reducible refine Kept.mk' (r := rK) (s0 := oK) ?_ rfl rfl rfl rfl rfl rfl)

end Sys2Proof.Machine
end

