-- ==== Sys2Proof/Laws/KeptParts.lean ====
section
/-! SUPPORT. What the operations of Machine/Parts.lean keep (Laws/Kept.lean). -/

set_option linter.unusedTactic false
set_option linter.unreachableTactic false
set_option linter.unusedVariables false

namespace Sys2Proof.Machine

theorem State.quadsDown_kept {rK : Lic} {oK : State} {s : State} (hK : Kept rK oK s) {p : Nat} :
 Kept rK oK (State.quadsDown s p) := by
  unfold State.quadsDown
  repeat' first
    | with_reducible assumption
    | (with_reducible refine Kept.foldl ?_ (fun vK eK hvK => ?_))
    | with_reducible apply State.domDown_kept

theorem State.quadsUp_kept {rK : Lic} {oK : State} {s : State} (hK : Kept rK oK s) {p : Nat} :
 Kept rK oK (State.quadsUp s p) := by
  unfold State.quadsUp
  repeat' first
    | with_reducible assumption
    | (with_reducible refine Kept.foldl ?_ (fun vK eK hvK => ?_))
    | with_reducible apply State.domRequest_kept

theorem State.applyWheel_kept {rK : Lic} {oK : State} {s : State} (hK : Kept rK oK s) :
 Kept rK oK (State.applyWheel s) := by
  unfold State.applyWheel
  repeat' first
    | with_reducible assumption
    | (intro xK; first | (refine Kept.cut (r := rK) (s0 := oK) (x := xK) ?_ ?_; unfold xK) | skip)
    | lift_lets
    | (with_reducible refine Kept.foldl ?_ (fun vK eK hvK => ?_))
    | with_reducible apply State.setFld_kept
    | exact lt_siteReg _ _
    | (with_reducible refine Kept.mk' (r := rK) (s0 := oK) ?_ rfl rfl rfl rfl rfl rfl)

theorem State.freeWheel_kept {rK : Lic} {oK : State} {s : State} (hK : Kept rK oK s) {n : Nat} :
 Kept rK oK (State.freeWheel s n) := by
  unfold State.freeWheel
  repeat' first
    | with_reducible assumption
    | (with_reducible refine Kept.foldl ?_ (fun vK eK hvK => ?_))
    | with_reducible apply State.setFld_kept
    | exact lt_siteReg _ _
    | (dsimp only; split)

theorem State.applyConfigure_kept {rK : Lic} {oK : State} {s : State} (hK : Kept rK oK s) {n : Nat} {g : Grants} :
 Kept rK oK (State.applyConfigure s n g) := by
  unfold State.applyConfigure
  repeat' first
    | with_reducible assumption
    | (with_reducible refine Kept.foldl ?_ (fun vK eK hvK => ?_))
    | with_reducible apply State.resetQps_kept
    | with_reducible apply State.setPState_kept
    | with_reducible apply State.syncKv_kept
    | with_reducible apply State.updPart_kept

theorem State.clearPmeas_kept {rK : Lic} {oK : State} {s : State} (hK : Kept rK oK s) {n : Nat} :
 Kept rK oK (State.clearPmeas s n) := by
  unfold State.clearPmeas
  repeat' first
    | with_reducible assumption
    | (with_reducible refine Kept.foldl ?_ (fun vK eK hvK => ?_))
    | with_reducible apply State.setReg_kept
    | with_reducible refine lt_add_reg ?_
    | decide

theorem State.freePartition_kept {rK : Lic} {oK : State} {s : State} (hK : Kept rK oK s) {n : Nat} :
    Kept rK oK (State.freePartition s n) := by
  unfold State.freePartition
  extract_lets ps ids s1 s2 s3 c s4 s5 s6
  have h2 : Kept rK oK s2 :=
    Kept.foldl (Kept.foldl hK (fun v i hv => State.freeStream_kept hv)) (fun v i hv => State.setStream_kept hv)
  clear_value s2
  have h3 : Kept rK oK s3 := State.clearPmeas_kept (State.freeWheel_kept (State.resetQps_kept h2))
  clear_value s3
  have h4 : Kept rK oK s4 := by
    refine State.unbindRest_kept ?_
    exact h3.same rfl rfl rfl rfl rfl rfl (Nat.le_refl _) rfl rfl rfl
  clear_value s4
  have h6 : Kept rK oK s6 := State.setPState_kept (State.updPart_kept h4)
  clear_value s6
  exact Kept.foldl h6 (fun v p hv => State.syncKv_kept (State.quadsDown_kept hv))

theorem State.freeContexts_kept {rK : Lic} {oK : State} {s : State} (hK : Kept rK oK s) {n : Nat} :
 Kept rK oK (State.freeContexts s n) := by
  unfold State.freeContexts
  repeat' first
    | with_reducible assumption
    | (with_reducible refine Kept.foldl ?_ (fun vK eK hvK => ?_))
    | (with_reducible refine Kept.foldl1 ?_ (fun vK eK hvK => ?_))
    | (with_reducible refine Kept.foldl2 ?_ (fun vK eK hvK => ?_))
    | (refine fun (uK : State) (hvK : Kept _ _ _) => ?_)
    | (refine fun (uK : State) _ (hvK : Kept _ _ _) => ?_)
    | (refine fun (uK : State) _ _ (hvK : Kept _ _ _) => ?_)
    | with_reducible apply State.mergeFree_kept
    | (with_reducible refine Kept.mk' (r := rK) (s0 := oK) ?_ rfl rfl rfl rfl rfl rfl)
    | (dsimp only; split)

theorem State.resetSite_kept {rK : Lic} {oK : State} {s : State} (hK : Kept rK oK s) {n p : Nat} :
    Kept rK oK (State.resetSite s n p) := by
  unfold State.resetSite
  extract_lets mine s1 c1 c2 c3 c4 c5 c6 c7 s2 keys s3 v c8 s4 s5
  have h2 : Kept rK oK s2 := (State.finishRestore_kept hK).same rfl rfl rfl rfl rfl rfl (Nat.le_refl _) rfl rfl rfl
  have h3 : Kept rK oK s3 := by
    refine Kept.foldl (State.freeContexts_kept h2) (fun v k hv => ?_)
    exact Kept.ite (fun _ => State.setScaleSet_kept hv) (fun _ => State.deriveSet_kept (State.setScaleSet_kept hv))
  have h4 : Kept rK oK s4 := h3.same rfl rfl rfl rfl rfl rfl (Nat.le_refl _) rfl rfl rfl
  refine State.releaseHeld_kept (Kept.ite (fun _ => ?_) (fun _ => h4))
  exact Kept.ite (fun _ => State.journal_kept (State.bump_kept (State.setSvc_kept h4) (lt_siteReg _ _))) (fun _ => State.setSvc_kept h4)

theorem State.resetStream_kept {rK : Lic} {oK : State} {s : State} (hK : Kept rK oK s) {n i code : Nat} :
    Kept rK oK (State.resetStream s n i code) := by
  unfold State.resetStream
  extract_lets x s1 s2 s3 s4
  have h1 : Kept rK oK s1 := Kept.ite (fun _ => hK) (fun _ => Kept.foldl hK (fun v o hv => State.finalOp_kept hv))
  have h2 : Kept rK oK s2 := Kept.ite (fun _ => State.unreserve_kept h1) (fun _ => h1)
  have h4 : Kept rK oK s4 :=
    State.updStat_kept (State.sticky_kept (State.bump_kept (State.freeStream_kept h2) (by decide)) (by decide))
  exact Kept.ite (fun _ => hK) (fun _ => State.setStream_kept h4)

theorem State.endReplay_kept {rK : Lic} {oK : State} {s : State} (hK : Kept rK oK s) {n : Nat} :
 Kept rK oK (State.endReplay s n) := by
  unfold State.endReplay
  repeat' first
    | with_reducible assumption
    | split
    | with_reducible apply State.setFld_kept
    | with_reducible apply State.updRec_kept
    | with_reducible refine lt_add_reg ?_
    | decide

theorem State.dropAborted_kept {rK : Lic} {oK : State} {s : State} (hK : Kept rK oK s) {n : Nat} :
 Kept rK oK (State.dropAborted s n) := by
  unfold State.dropAborted
  repeat' first
    | with_reducible assumption
    | with_reducible apply State.updRec_kept

theorem State.resetPartition_kept {rK : Lic} {oK : State} {s : State} (hK : Kept rK oK s) {n : Nat} {code : Nat} :
 Kept rK oK (State.resetPartition s n code) := by
  unfold State.resetPartition
  repeat' first
    | with_reducible assumption
    | (intro xK; first | (refine Kept.cut (r := rK) (s0 := oK) (x := xK) ?_ ?_; unfold xK) | skip)
    | lift_lets
    | split
    | (with_reducible refine Kept.foldl ?_ (fun vK eK hvK => ?_))
    | with_reducible apply State.clearMarks_kept
    | with_reducible apply State.dropAborted_kept
    | with_reducible apply State.endReplay_kept
    | with_reducible apply State.record_kept
    | with_reducible apply State.resetSite_kept
    | with_reducible apply State.resetStream_kept
    | with_reducible apply State.sealReset_kept
    | with_reducible apply State.setPState_kept
    | with_reducible apply State.unhold_kept
    | with_reducible apply State.unreserve_kept
    | with_reducible apply State.updPart_kept
    | with_reducible apply State.writeCompls_kept
    | (with_reducible refine Kept.mk' (r := rK) (s0 := oK) ?_ rfl rfl rfl rfl rfl rfl)

end Sys2Proof.Machine
end

