-- ==== Sys2Proof/Laws/KeptDuctus.lean ====
section
/-! SUPPORT. What the operations of Machine/Ductus.lean keep (Laws/Kept.lean). -/

set_option linter.unusedTactic false
set_option linter.unreachableTactic false
set_option linter.unusedVariables false

namespace Sys2Proof.Machine

theorem State.loadLibrary_kept {rK : Lic} {oK : State} {s : State} (hK : Kept rK oK s) {n : Nat} {l : Library} :
 Kept rK oK (State.loadLibrary s n l) := by
  unfold State.loadLibrary
  repeat' first
    | with_reducible assumption
    | split
    | with_reducible apply State.raise_kept
    | with_reducible apply State.takeFree_kept
    | with_reducible apply State.updPart_kept

end Sys2Proof.Machine
end

