-- ==== Sys2Proof/Laws/KeptBoot.lean ====
section
/-! SUPPORT. What the operations of Machine/Boot.lean keep (Laws/Kept.lean). -/

set_option linter.unusedTactic false
set_option linter.unreachableTactic false
set_option linter.unusedVariables false

namespace Sys2Proof.Machine

theorem State.setPhase_kept {rK : Lic} {oK : State} {s : State} (hK : Kept rK oK s) {p : Nat} :
 Kept rK oK (State.setPhase s p) := by
  unfold State.setPhase
  repeat' first
    | with_reducible assumption
    | with_reducible apply State.setFld_kept
    | decide

theorem State.secResult_kept {rK : Lic} {oK : State} {s : State} (hK : Kept rK oK s) {res : Nat} {part : Nat} :
 Kept rK oK (State.secResult s res part) := by
  unfold State.secResult
  repeat' first
    | with_reducible assumption
    | split
    | with_reducible apply State.setFld_kept
    | with_reducible apply State.sticky_kept
    | decide

theorem State.raiseBoot_kept {rK : Lic} {oK : State} {s : State} (hK : Kept rK oK s) :
 Kept rK oK (State.raiseBoot s) := by
  unfold State.raiseBoot
  repeat' first
    | with_reducible assumption
    | split
    | with_reducible apply State.raiseVec_kept

theorem State.enterWait_kept {rK : Lic} {oK : State} {s : State} (hK : Kept rK oK s) :
 Kept rK oK (State.enterWait s) := by
  unfold State.enterWait
  repeat' first
    | with_reducible assumption
    | split
    | with_reducible apply State.raiseBoot_kept
    | with_reducible apply State.setPhase_kept

theorem State.secCommand_kept {rK : Lic} {oK : State} {s : State} (hK : Kept rK oK s) {port : Nat} {f : State → State} (hF_f : ∀ (uK : State) , Kept rK oK uK → Kept rK oK (f uK)) :
 Kept rK oK (State.secCommand s port f) := by
  unfold State.secCommand
  repeat' first
    | with_reducible assumption
    | split
    | with_reducible apply State.sticky_kept
    | with_reducible apply hF_f
    | decide

theorem Good.reset : Good State.reset := ⟨by decide, by decide, by decide, by decide, by decide, by decide⟩

theorem State.panelReset_kept {oK s : State} (hK : Kept .reset oK s) {cause : Nat} : Kept .reset oK (State.panelReset s cause) := by
  have base (t : State) (h1 : t.pending = s.pending) (h2 : t.regs = State.reset.regs) (h3 : t.spad.mem = State.reset.spad.mem)
      (h4 : t.kv.hbm = State.reset.kv.hbm) (h5 : t.staged = State.reset.staged) (h6 : t.clt.staged = State.reset.clt.staged) (h7 : t.time = s.time)
      (h8 : t.boot.svnMin = s.boot.svnMin) (h9 : t.boot.revoked = s.boot.revoked) :
      Kept .reset oK t :=
    ⟨h1.trans hK.queue, fun _ => ⟨h2 ▸ Good.reset.regs, h3 ▸ Good.reset.spad, h4 ▸ Good.reset.hbm,
      by simp only [State.reg, h2]; exact Good.reset.id, h5 ▸ Good.reset.st, h6 ▸ Good.reset.cst⟩, fun h => absurd rfl h,
      ⟨h7 ▸ hK.on.time, by simpa [State.svnMin, h8] using hK.on.svn, by rw [h9]; exact hK.on.rev, fun h => by cases h⟩⟩
  have fin (n : State) (hn : Kept .reset oK n) : Kept .reset oK (if 2 ≤ cause ∧ s.flag rSEC_LC 31 then n.setFld rSEC_LC 31 1 1 else n) := by
    split
    · exact State.setFld_kept hn (by decide)
    · exact hn
  unfold State.panelReset
  refine fin _ ?_
  dsimp only
  split
  · exact base _ rfl rfl rfl rfl rfl rfl rfl rfl rfl
  · refine State.jrnlStat_kept (State.setFld_kept (State.setFld_kept (State.setFld_kept ?_ (by decide)) (by decide)) (by decide))
    exact base _ rfl rfl rfl rfl rfl rfl rfl rfl rfl

theorem execPowerGood_kept {oK : State} {s : State} (hK : Kept .reset oK s) {t : Nat} :
 KeptR .reset oK (execPowerGood t s) := by
  unfold execPowerGood
  repeat' first
    | with_reducible assumption
    | with_reducible apply KeptR.next
    | with_reducible apply State.at_kept
    | with_reducible apply State.panelReset_kept
    | (with_reducible refine Kept.mk' (r := .reset) (s0 := oK) ?_ rfl rfl rfl rfl rfl rfl; first | with_reducible assumption | with_reducible apply State.at_kept | with_reducible apply State.panelReset_kept)
    | (dsimp only; split)

theorem execResetPin_kept {oK : State} {s : State} (hK : Kept .reset oK s) {t : Nat} :
 KeptR .reset oK (execResetPin t s) := by
  unfold execResetPin
  repeat' first
    | with_reducible assumption
    | with_reducible apply KeptR.next
    | with_reducible apply State.at_kept
    | with_reducible apply State.panelReset_kept
    | (with_reducible refine Kept.mk' (r := .reset) (s0 := oK) ?_ rfl rfl rfl rfl rfl rfl; first | with_reducible assumption | with_reducible apply State.at_kept | with_reducible apply State.panelReset_kept)
    | (dsimp only; split)

theorem execResetRelease_kept {rK : Lic} {oK : State} {s : State} (hK : Kept rK oK s) :
 KeptR rK oK (execResetRelease s) := by
  unfold execResetRelease
  repeat' first
    | with_reducible assumption
    | with_reducible apply KeptR.next
    | (with_reducible refine Kept.mk' (r := rK) (s0 := oK) ?_ rfl rfl rfl rfl rfl rfl)

theorem execPanelReset_kept {oK : State} {s : State} (hK : Kept .reset oK s) {port : Nat} :
 KeptR .reset oK (execPanelReset port s) := by
  unfold execPanelReset
  repeat' first
    | with_reducible assumption
    | intro xK
    | with_reducible apply KeptR.next
    | with_reducible apply State.panelReset_kept
    | with_reducible apply State.secCommand_kept

theorem State.portUp_kept {rK : Lic} {oK : State} {s : State} (hK : Kept rK oK s) {port : Nat} :
 Kept rK oK (State.portUp s port) := by
  unfold State.portUp
  repeat' first
    | with_reducible assumption
    | (with_reducible refine Kept.mk' (r := rK) (s0 := oK) ?_ rfl rfl rfl rfl rfl rfl)

theorem execRomInitComplete_kept {rK : Lic} {oK : State} {s : State} (hK : Kept rK oK s) {ports : Nat} {hubs : Nat} {t : Nat} :
 KeptR rK oK (execRomInitComplete ports hubs t s) := by
  unfold execRomInitComplete
  repeat' first
    | with_reducible assumption
    | (intro xK; first | (refine Kept.cut (r := rK) (s0 := oK) (x := xK) ?_ ?_; unfold xK) | skip)
    | lift_lets
    | split
    | with_reducible apply KeptR.next
    | (with_reducible refine Kept.foldl ?_ (fun vK eK hvK => ?_))
    | with_reducible apply State.at_kept
    | with_reducible apply State.domRequest_kept
    | with_reducible apply State.enterWait_kept
    | with_reducible apply State.portUp_kept
    | with_reducible apply State.setDom_kept
    | with_reducible apply State.setPhase_kept
    | (with_reducible refine Kept.mk' (r := rK) (s0 := oK) ?_ rfl rfl rfl rfl rfl rfl)

theorem execHbmTrainingComplete_kept {rK : Lic} {oK : State} {s : State} (hK : Kept rK oK s) {p : Nat} {fail : Option Nat} {t : Nat} :
 KeptR rK oK (execHbmTrainingComplete p fail t s) := by
  unfold execHbmTrainingComplete
  repeat' first
    | with_reducible assumption
    | (intro xK; first | (refine Kept.cut (r := rK) (s0 := oK) (x := xK) ?_ ?_; unfold xK) | skip)
    | split
    | with_reducible apply KeptR.next
    | with_reducible apply State.at_kept
    | with_reducible apply State.rebind_kept
    | with_reducible apply State.tickFault_kept
    | (with_reducible refine Kept.mk' (r := rK) (s0 := oK) ?_ rfl rfl rfl rfl rfl rfl)
    | (dsimp only; split)

theorem execIflevelRequest_kept {rK : Lic} {oK : State} {s : State} (hK : Kept rK oK s) {req : Nat} {port : Nat} :
 KeptR rK oK (execIflevelRequest req port s) := by
  unfold execIflevelRequest
  repeat' first
    | with_reducible assumption
    | split
    | with_reducible apply KeptR.next
    | with_reducible apply State.clamped_kept
    | with_reducible apply State.setFld_kept
    | with_reducible apply State.sticky_kept
    | decide

theorem State.dropBanks_kept {rK : Lic} {oK : State} {s : State} (hK : Kept rK oK s) {n : Nat} :
 Kept rK oK (State.dropBanks s n) := by
  unfold State.dropBanks
  repeat' first
    | with_reducible assumption
    | (with_reducible refine Kept.mk' (r := rK) (s0 := oK) ?_ rfl rfl rfl rfl rfl rfl)

theorem State.rejectImage_kept {rK : Lic} {oK s : State} (hK : Kept rK oK s) {reason sec port version : Nat} :
    Kept rK oK (State.rejectImage s reason sec port version) := by
  have wipe (u : State) (hu : Kept rK oK u) (b : BootSt) (w : WaggleSt)
      (h1 : b.svnMin = u.boot.svnMin) (h2 : b.revoked = u.boot.revoked) :
      Kept rK oK { u with staged := [], clt := { u.clt with staged := [] }, boot := b, wgl := w } :=
    Kept.mk' (Kept.withClt (Kept.withStaged hu (l := []) (fun _ x hx => absurd hx List.not_mem_nil))
      (c := { u.clt with staged := [] }) (fun _ x hx => absurd hx List.not_mem_nil)) rfl rfl rfl h1 h2 rfl
  unfold State.rejectImage
  repeat' first
    | with_reducible assumption
    | split
    | (with_reducible refine Kept.foldl ?_ (fun vK eK hvK => ?_))
    | with_reducible apply State.raiseBoot_kept
    | with_reducible apply State.setPhase_kept
    | with_reducible apply State.setFld_kept
    | with_reducible apply State.queueEvent_kept
    | with_reducible apply State.setPState_kept
    | with_reducible apply State.updPart_kept
    | with_reducible apply State.dropBanks_kept
    | with_reducible apply State.freePartition_kept
    | with_reducible apply State.tickFault_kept
    | with_reducible apply State.sticky_kept
    | (refine wipe _ ?_ _ _ rfl rfl)
    | (decide)
    | (show 4 < rSEC_BOOT_STAT; decide)
    | (with_reducible refine Kept.mk' (r := rK) (s0 := oK) ?_ rfl rfl rfl rfl rfl rfl)
    | (dsimp only; split)

theorem execLoadBoot_kept {rK : Lic} {oK : State} {s : State} (hK : Kept rK oK s) {port : Nat} :
 KeptR rK oK (execLoadBoot port s) := by
  unfold execLoadBoot
  repeat' first
    | with_reducible assumption
    | intro xK
    | split
    | with_reducible apply KeptR.next
    | with_reducible apply State.rejectImage_kept
    | with_reducible apply State.secCommand_kept
    | with_reducible apply State.secResult_kept
    | with_reducible apply State.setPhase_kept
    | with_reducible apply State.setReg_kept
    | decide
    | (with_reducible refine Kept.mk' (r := rK) (s0 := oK) ?_ rfl rfl rfl rfl rfl rfl)

theorem execLoadPart_kept {rK : Lic} {oK : State} {s : State} (hK : Kept rK oK s) {n : Nat} {port : Nat} :
 KeptR rK oK (execLoadPart n port s) := by
  unfold execLoadPart
  repeat' first
    | with_reducible assumption
    | intro xK
    | split
    | with_reducible apply KeptR.next
    | with_reducible apply State.secCommand_kept
    | with_reducible apply State.secResult_kept
    | with_reducible apply State.setFld_kept
    | with_reducible apply State.setPState_kept
    | with_reducible apply State.setReg_kept
    | with_reducible apply State.updPart_kept
    | decide
    | (with_reducible refine Kept.mk' (r := rK) (s0 := oK) ?_ rfl rfl rfl rfl rfl rfl)

theorem execSecBootCmdInvalid_kept {rK : Lic} {oK : State} {s : State} (hK : Kept rK oK s) {w : BitVec 32} {port : Nat} :
 KeptR rK oK (execSecBootCmdInvalid w port s) := by
  unfold execSecBootCmdInvalid
  repeat' first
    | with_reducible assumption
    | intro xK
    | with_reducible apply KeptR.next
    | with_reducible apply State.secCommand_kept
    | with_reducible apply State.secResult_kept
    | (dsimp only; split)

theorem execImageHeaderReceived_kept {rK : Lic} {oK : State} {s : State} (hK : Kept rK oK s) {hdr : Option (List (BitVec 32))} {port : Nat} {t : Nat} :
 KeptR rK oK (execImageHeaderReceived hdr port t s) := by
  unfold execImageHeaderReceived
  repeat' first
    | with_reducible assumption
    | split
    | with_reducible apply KeptR.next
    | (with_reducible refine Kept.foldl ?_ (fun vK eK hvK => ?_))
    | with_reducible apply State.at_kept
    | with_reducible apply State.bumpBy_kept
    | with_reducible apply State.enterWait_kept
    | with_reducible apply State.quadsUp_kept
    | with_reducible apply State.rejectImage_kept
    | with_reducible apply State.setPhase_kept
    | decide
    | (with_reducible refine Kept.mk' (r := rK) (s0 := oK) ?_ rfl rfl rfl rfl rfl rfl)
    | (dsimp only; split)

theorem State.startFw_kept {rK : Lic} {oK : State} {s : State} (hK : Kept rK oK s) :
 Kept rK oK (State.startFw s) := by
  unfold State.startFw
  repeat' first
    | with_reducible assumption
    | (with_reducible refine Kept.foldl ?_ (fun vK eK hvK => ?_))
    | with_reducible apply State.queueEvent_kept
    | (with_reducible refine Kept.mk' (r := rK) (s0 := oK) ?_ rfl rfl rfl rfl rfl rfl)

theorem State.applySection_kept {rK : Lic} {oK : State} {s : State} (hK : Kept rK oK s) {img : Image} {e : ImgSect} {bytes : List Nat} {plans : List (List SectPlan)} :
 Kept rK oK (State.applySection s img e bytes plans).1 := by
  unfold State.applySection
  repeat' first
    | with_reducible assumption
    | (intro xK; first | (refine Kept.cut (r := rK) (s0 := oK) (x := xK) ?_ ?_; unfold xK) | (refine Kept.cut (r := rK) (s0 := oK) (x := xK.2) ?_ ?_; unfold xK) | (refine Kept.cut (r := rK) (s0 := oK) (x := xK.1) ?_ ?_; unfold xK) | (refine Kept.cut (r := rK) (s0 := oK) (x := xK.st) ?_ ?_; unfold xK) | (refine KeptO.cut (r := rK) (s0 := oK) (x := xK) ?_ ?_; unfold xK) | (have : (fun a => xK a) = xK := rfl; clear this; subst xK; beta_reduce) | skip)
    | lift_lets
    | split
    | (with_reducible refine Kept.foldl ?_ (fun vK eK hvK => ?_))
    | (with_reducible refine Kept.foldl1 ?_ (fun vK eK hvK => ?_))
    | (with_reducible refine Kept.foldl2 ?_ (fun vK eK hvK => ?_))
    | (with_reducible refine Kept.foldlWOut ?_ (fun vK eK hvK => ?_))
    | (with_reducible refine Kept.foldlWalk ?_ (fun vK eK hvK => ?_))
    | (with_reducible refine Kept.foldlPlace ?_ (fun vK eK hvK => ?_))
    | (refine fun (uK : State) (hvK : Kept _ _ _) => ?_)
    | (refine fun (uK : State) _ (hvK : Kept _ _ _) => ?_)
    | (refine fun (uK : State) _ _ (hvK : Kept _ _ _) => ?_)
    | with_reducible apply State.applyConfigure_kept
    | with_reducible apply State.applyLink_kept
    | with_reducible apply State.applyWheel_kept
    | with_reducible apply State.clamped_kept
    | with_reducible apply State.configure_kept
    | with_reducible apply State.loadLibrary_kept
    | with_reducible apply State.quadsUp_kept
    | with_reducible apply State.setPState_kept
    | with_reducible apply State.unbindRest_kept
    | with_reducible apply State.writeItems_kept
    | (with_reducible refine Kept.mk' (r := rK) (s0 := oK) ?_ rfl rfl rfl rfl rfl rfl)
    | (clear_value *; split)
    | (dsimp only; split)

theorem execSectionReceived_kept {rK : Lic} {oK : State} {s : State} (hK : Kept rK oK s) {i : Nat} {bytes : Option (List (BitVec 8))}
    {plans : List (List SectPlan)} {port t : Nat} : KeptR rK oK (execSectionReceived i bytes plans port t s) := by
  unfold execSectionReceived
  have ht : Kept rK oK (s.at t) := State.at_kept hK
  refine KeptR.next ?_
  extract_lets s0
  split
  · exact ht
  split
  · exact ht
  split
  · split
    · exact ht
    extract_lets s1 img' c s2 r bad all fwDone s3
    have h1 : Kept rK oK s1 := State.bumpBy_kept ht (by decide)
    clear_value s1
    split
    · exact State.rejectImage_kept h1
    have h2 : Kept rK oK s2 := h1.same rfl rfl rfl rfl rfl rfl (Nat.le_refl _) rfl rfl rfl
    have h3 : Kept rK oK r.1 := State.applySection_kept h2
    clear_value r
    split
    · exact State.rejectImage_kept h3
    have h4 : Kept rK oK s3 := Kept.ite (fun _ => State.setPhase_kept (State.startFw_kept h3)) (fun _ => h3)
    exact Kept.ite (fun _ => State.setPhase_kept h4) (fun _ => h4)
  · exact State.rejectImage_kept ht

theorem State.setMeas_kept {rK : Lic} {oK s : State} (hK : Kept rK oK s) {r x : Nat} (hA_r : 4 < r) :
    Kept rK oK (State.setMeas s r x) :=
  Kept.foldl hK fun v x hv => State.setReg_kept hv (lt_add_reg hA_r)

theorem State.fuseUpdates_kept {rK : Lic} {oK : State} {s : State} (hK : Kept rK oK s) {x : Image} :
    Kept rK oK (State.fuseUpdates s x) := by
  have burn (u : State) (hu : Kept rK oK u) (b : BootSt) (h1 : u.svnMin ≤ b.svnMin.getD (Config.fused 5 41 % 64))
      (h2 : ∀ k, bit u.boot.revoked k = true → bit b.revoked k = true) : Kept rK oK { u with boot := b } :=
    ⟨hu.queue, fun g => have k := hu.good g; ⟨k.regs, k.spad, k.hbm, k.id, k.st, k.cst⟩, hu.lock,
      ⟨hu.on.time, hu.on.svn.trans h1, fun k h => h2 k (hu.on.rev k h), hu.on.core⟩⟩
  unfold State.fuseUpdates
  split
  · exact hK
  · refine Kept.foldl ?_ (fun v k hv => State.tickFault_kept (burn v hv { v.boot with revoked := orBit v.boot.revoked k }
      (Nat.le_refl _) (fun j h => bit_orBit _ _ _ h)))
    exact Kept.ite (fun h => State.tickFault_kept (burn s hK { s.boot with svnMin := some x.svn } (Nat.le_of_lt h.2) (fun _ h => h)))
      (fun _ => hK)

theorem execBootReady_kept {rK : Lic} {oK : State} {s : State} (hK : Kept rK oK s) {t : Nat} :
 KeptR rK oK (execBootReady t s) := by
  unfold execBootReady
  repeat' first
    | with_reducible assumption
    | (intro xK; first | (refine Kept.cut (r := rK) (s0 := oK) (x := xK) ?_ ?_; unfold xK) | skip)
    | lift_lets
    | split
    | with_reducible apply KeptR.next
    | (with_reducible refine Kept.foldl ?_ (fun vK eK hvK => ?_))
    | with_reducible apply State.at_kept
    | with_reducible apply State.fuseUpdates_kept
    | with_reducible apply State.raiseBoot_kept
    | with_reducible apply State.rejectImage_kept
    | with_reducible apply State.setFld_kept
    | with_reducible apply State.setMeas_kept
    | with_reducible apply State.setPhase_kept
    | with_reducible apply State.updPart_kept
    | decide
    | (with_reducible refine Kept.mk' (r := rK) (s0 := oK) ?_ rfl rfl rfl rfl rfl rfl)

theorem execPartLoadComplete_kept {rK : Lic} {oK : State} {s : State} (hK : Kept rK oK s) {n : Nat} {measured : Nat} {ms : Nat} {t : Nat} :
 KeptR rK oK (execPartLoadComplete n measured ms t s) := by
  unfold execPartLoadComplete
  repeat' first
    | with_reducible assumption
    | split
    | with_reducible apply KeptR.next
    | (with_reducible refine Kept.foldl ?_ (fun vK eK hvK => ?_))
    | with_reducible apply State.at_kept
    | with_reducible apply State.queueEvent_kept
    | with_reducible apply State.rejectImage_kept
    | with_reducible apply State.setFld_kept
    | with_reducible apply State.setMeas_kept
    | with_reducible apply State.setPState_kept
    | with_reducible apply State.updPart_kept
    | with_reducible refine lt_add_reg ?_
    | decide
    | (with_reducible refine Kept.mk' (r := rK) (s0 := oK) ?_ rfl rfl rfl rfl rfl rfl)
    | (dsimp only; split)

theorem execTapEnable_kept {oK : State} {s : State} (hK : Kept .reset oK s) {port : Nat} {t : Nat} :
 KeptR .reset oK (execTapEnable port t s) := by
  unfold execTapEnable
  repeat' first
    | with_reducible assumption
    | intro xK
    | split
    | with_reducible apply KeptR.next
    | with_reducible apply State.at_kept
    | with_reducible apply State.panelReset_kept
    | with_reducible apply State.secCommand_kept
    | with_reducible apply State.secResult_kept
    | with_reducible apply State.setFld_kept
    | with_reducible apply State.tickFault_kept
    | decide
    | (with_reducible refine Kept.mk' (r := .reset) (s0 := oK) ?_ rfl rfl rfl rfl rfl rfl)
    | (dsimp only; split)

theorem execLcAdvance_kept {rK : Lic} {oK : State} {s : State} (hK : Kept rK oK s) {target : Nat} {port : Nat} {t : Nat} :
 KeptR rK oK (execLcAdvance target port t s) := by
  unfold execLcAdvance
  repeat' first
    | with_reducible assumption
    | intro xK
    | split
    | with_reducible apply KeptR.next
    | with_reducible apply State.at_kept
    | with_reducible apply State.secCommand_kept
    | with_reducible apply State.secResult_kept
    | with_reducible apply State.setPhase_kept
    | (with_reducible refine Kept.mk' (r := rK) (s0 := oK) ?_ rfl rfl rfl rfl rfl rfl)
    | (dsimp only; split)

theorem execSecretsCleared_kept {rK : Lic} {oK s : State} (hK : Kept rK oK s) {ms t : Nat} : KeptR rK oK (execSecretsCleared ms t s) := by
  have wipe (u : State) (hu : Kept rK oK u) (x_comb : CombSt) (x_rq : RqSt) (x_sparse : SparseSt) (x_desc : DescSt) (x_sls : SealSt)
      (x_parts : SMap Part) (x_host : HostSt) (x_boot : BootSt)
      (hb1 : x_boot.svnMin = u.boot.svnMin) (hb2 : x_boot.revoked = u.boot.revoked) :
      Kept rK oK { u with
        comb := x_comb, rq := x_rq, sparse := x_sparse, desc := x_desc, kv := State.reset.kv, spad := State.reset.spad,
        sls := x_sls, parts := x_parts, host := x_host, boot := x_boot } :=
    have h1 : Kept rK oK { u with kv := State.reset.kv } := Kept.withKv hu (fun _ => Good.reset.hbm)
    have h2 : Kept rK oK { u with kv := State.reset.kv, spad := State.reset.spad } := Kept.withSpad h1 (fun _ => Good.reset.spad)
    Kept.same h2 rfl rfl rfl rfl rfl rfl (Nat.le_refl _) hb1 hb2 rfl
  have hat : Kept rK oK (s.at t) := State.at_kept hK
  unfold execSecretsCleared
  refine KeptR.next ?_
  extract_lets u
  have hu : Kept rK oK u := hat
  clear_value u
  split
  · exact hu
  · refine Kept.ite (fun _ => hu) (fun _ => ?_)
    refine State.enterWait_kept (State.tickFault_kept ?_)
    refine Kept.ite (fun _ => State.setFld_kept ?_ (by decide)) (fun _ => ?_)
    · exact wipe u hu _ _ _ _ _ _ _ _ rfl rfl
    · exact wipe u hu _ _ _ _ _ _ _ _ rfl rfl

theorem execLifecycleFusesProgrammed_kept {rK : Lic} {oK : State} {s : State} (hK : Kept rK oK s) {t : Nat} :
 KeptR rK oK (execLifecycleFusesProgrammed t s) := by
  unfold execLifecycleFusesProgrammed
  repeat' first
    | with_reducible assumption
    | split
    | with_reducible apply KeptR.next
    | with_reducible apply State.at_kept
    | with_reducible apply State.setFld_kept
    | with_reducible apply State.tickFault_kept
    | decide
    | (with_reducible refine Kept.mk' (r := rK) (s0 := oK) ?_ rfl rfl rfl rfl rfl rfl)
    | (dsimp only; split)

end Sys2Proof.Machine
end

