-- ==== Sys2Proof/Laws/KeptBootCfg.lean ====
section
/-! SUPPORT. What the operations of Machine/BootCfg.lean keep (Laws/Kept.lean). -/

set_option linter.unusedTactic false
set_option linter.unreachableTactic false
set_option linter.unusedVariables false

namespace Sys2Proof.Machine

theorem State.writeRecord_kept {rK : Lic} {oK : State} {s : State} (hK : Kept rK oK s) {n : Nat} {p : Nat} {table : Nat} {idx : Nat} {ws : List (BitVec 32)} :
 Kept rK oK (State.writeRecord s n p table idx ws).1 := by
  unfold State.writeRecord
  repeat' first
    | with_reducible assumption
    | (intro xK; first | (refine Kept.cut (r := rK) (s0 := oK) (x := xK) ?_ ?_; unfold xK) | skip)
    | lift_lets
    | split
    | (with_reducible refine Kept.foldl ?_ (fun vK eK hvK => ?_))
    | (with_reducible refine Kept.foldl1 ?_ (fun vK eK hvK => ?_))
    | with_reducible apply State.bindEntry_kept
    | with_reducible apply State.ingress_kept
    | with_reducible apply State.putSet_kept
    | (with_reducible refine Kept.mk' (r := rK) (s0 := oK) ?_ rfl rfl rfl rfl rfl rfl)

theorem State.writeRecords_kept {rK : Lic} {oK : State} {s : State} (hK : Kept rK oK s) {n : Nat} {p : Nat} {table : Nat} {aR0 : Nat} {aR1 : List (List (BitVec 32))} :
 Kept rK oK (State.writeRecords s n p table aR0 aR1).1 := by
  induction aR1 generalizing s n p table aR0 with
  | nil =>
    unfold State.writeRecords
    repeat' first
      | with_reducible assumption
      | with_reducible apply State.writeRecord_kept
  | cons xR tR ihK =>
    unfold State.writeRecords
    repeat' first
      | with_reducible assumption
      | with_reducible apply ihK
      | with_reducible apply State.writeRecord_kept

theorem State.tableDenied_kept {rK : Lic} {oK : State} {s : State} (hK : Kept rK oK s) {n : Nat} {lsite : Nat} {table : Nat} {first : Nat} :
 Kept rK oK (State.tableDenied s n lsite table first) := by
  unfold State.tableDenied
  repeat' first
    | with_reducible assumption
    | split
    | with_reducible apply State.accessFault_kept
    | with_reducible apply State.takeFree_kept
    | (with_reducible refine Kept.mk' (r := rK) (s0 := oK) ?_ rfl rfl rfl rfl rfl rfl)
    | (dsimp only; split)

theorem execConfigRecordWrite_kept {rK : Lic} {oK : State} {s : State} (hK : Kept rK oK s) {n : Nat} {lsite : Nat} {table : Nat} {first : Nat} {entries : List (List (BitVec 32))} :
 KeptR rK oK (execConfigRecordWrite n lsite table first entries s) := by
  unfold execConfigRecordWrite
  repeat' first
    | with_reducible assumption
    | with_reducible apply State.tableDenied_kept
    | split
    | with_reducible apply KeptR.next
    | (with_reducible refine Kept.foldl1 ?_ (fun vK eK hvK => ?_))
    | with_reducible apply State.clamped_kept
    | with_reducible apply State.writeRecords_kept
    | (with_reducible refine Kept.mk' (r := rK) (s0 := oK) ?_ rfl rfl rfl rfl rfl rfl)
    | (dsimp only; split)
    | (with_reducible refine Kept.foldl ?_ (fun vK eK hvK => ?_))
    | (with_reducible refine Kept.foldl1 ?_ (fun vK eK hvK => ?_))
    | (with_reducible refine Kept.foldl2 ?_ (fun vK eK hvK => ?_))

end Sys2Proof.Machine
end

