-- ==== Sys2Proof/Laws/KeptPairOps.lean ====
section
/-! SUPPORT. What the operations of Machine/PairOps.lean keep (Laws/Kept.lean). -/

set_option linter.unusedTactic false
set_option linter.unreachableTactic false
set_option linter.unusedVariables false

namespace Sys2Proof.Machine

theorem State.updPp_kept {rK : Lic} {oK : State} {s : State} (hK : Kept rK oK s) {n : Nat} {f : PairPart → PairPart} :
 Kept rK oK (State.updPp s n f) := by
  unfold State.updPp
  repeat' first
    | with_reducible assumption
    | (with_reducible refine Kept.mk' (r := rK) (s0 := oK) ?_ rfl rfl rfl rfl rfl rfl)

theorem State.pairFault_kept {rK : Lic} {oK : State} {s : State} (hK : Kept rK oK s) {code : Nat} {d0 : Nat} {d1 : Nat} :
 Kept rK oK (State.pairFault s code d0 d1) := by
  unfold State.pairFault
  repeat' first
    | with_reducible assumption
    | with_reducible apply State.raise_kept

theorem State.setRole_kept {rK : Lic} {oK : State} {s : State} (hK : Kept rK oK s) {r : Nat} :
 Kept rK oK (State.setRole s r) := by
  unfold State.setRole
  repeat' first
    | with_reducible assumption
    | split
    | with_reducible apply State.raisePf_kept
    | with_reducible apply State.recordAll_kept
    | with_reducible apply State.setFld_kept
    | decide

theorem State.setEpoch_kept {rK : Lic} {oK : State} {s : State} (hK : Kept rK oK s) {e : Nat} :
 Kept rK oK (State.setEpoch s e) := by
  unfold State.setEpoch
  repeat' first
    | with_reducible assumption
    | split
    | with_reducible apply State.recordAll_kept
    | with_reducible apply State.setReg_kept
    | decide

theorem State.endResync_kept {rK : Lic} {oK : State} {s : State} (hK : Kept rK oK s) :
 Kept rK oK (State.endResync s) := by
  unfold State.endResync
  repeat' first
    | with_reducible assumption
    | with_reducible apply State.setFld_kept
    | decide
    | (with_reducible refine Kept.mk' (r := rK) (s0 := oK) ?_ rfl rfl rfl rfl rfl rfl)

theorem State.leaveStep_kept {rK : Lic} {oK : State} {s : State} (hK : Kept rK oK s) :
 Kept rK oK (State.leaveStep s) := by
  unfold State.leaveStep
  repeat' first
    | with_reducible assumption
    | (with_reducible refine Kept.mk' (r := rK) (s0 := oK) ?_ rfl rfl rfl rfl rfl rfl)

theorem State.quarantine_kept {rK : Lic} {oK : State} {s : State} (hK : Kept rK oK s) {fence : Nat} :
 Kept rK oK (State.quarantine s fence) := by
  unfold State.quarantine
  repeat' first
    | with_reducible assumption
    | (intro xK; first | (refine Kept.cut (r := rK) (s0 := oK) (x := xK) ?_ ?_; unfold xK) | skip)
    | lift_lets
    | split
    | (with_reducible refine Kept.foldl ?_ (fun vK eK hvK => ?_))
    | with_reducible apply State.endResync_kept
    | with_reducible apply State.leaveStep_kept
    | with_reducible apply State.pairFault_kept
    | with_reducible apply State.setRole_kept
    | with_reducible apply State.updPart_kept
    | (with_reducible refine Kept.mk' (r := rK) (s0 := oK) ?_ rfl rfl rfl rfl rfl rfl)

theorem State.pairFrame_kept {rK : Lic} {oK : State} {s : State} (hK : Kept rK oK s) {type : Nat} {lane : Nat} {part : Nat} {stroke : Nat} {last : Bool} {pay : List Nat} :
 Kept rK oK (State.pairFrame s type lane part stroke last pay) := by
  unfold State.pairFrame
  repeat' first
    | with_reducible assumption
    | split
    | with_reducible apply State.emit_kept
    | (with_reducible refine Kept.mk' (r := rK) (s0 := oK) ?_ rfl rfl rfl rfl rfl rfl)
    | (dsimp only; split)

theorem State.pairOnLane_kept {rK : Lic} {oK : State} {s : State} (hK : Kept rK oK s) {type : Nat} {lane : Nat} {part : Nat} {stroke : Nat} {body : List Nat} :
 Kept rK oK (State.pairOnLane s type lane part stroke body) := by
  unfold State.pairOnLane
  repeat' first
    | with_reducible assumption
    | split
    | (with_reducible refine Kept.foldl ?_ (fun vK eK hvK => ?_))
    | (with_reducible refine Kept.foldl1 ?_ (fun vK eK hvK => ?_))
    | (with_reducible refine Kept.foldl2 ?_ (fun vK eK hvK => ?_))
    | with_reducible apply State.pairFrame_kept
    | (with_reducible refine Kept.mk' (r := rK) (s0 := oK) ?_ rfl rfl rfl rfl rfl rfl)
    | (dsimp only; split)

theorem State.pairSend_kept {rK : Lic} {oK : State} {s : State} (hK : Kept rK oK s) {type : Nat} {part : Option Nat} {body : List Nat} :
 Kept rK oK (State.pairSend s type part body) := by
  unfold State.pairSend
  repeat' first
    | with_reducible assumption
    | split
    | (with_reducible refine Kept.foldl ?_ (fun vK eK hvK => ?_))
    | with_reducible apply State.pairOnLane_kept

theorem State.sendControl_kept {rK : Lic} {oK : State} {s : State} (hK : Kept rK oK s) {part : Option Nat} {kind : Nat} {args : List Nat} :
 Kept rK oK (State.sendControl s part kind args) := by
  unfold State.sendControl
  repeat' first
    | with_reducible assumption
    | with_reducible apply State.pairSend_kept

theorem State.sendNak_kept {rK : Lic} {oK : State} {s : State} (hK : Kept rK oK s) {lane : Nat} {seq : Nat} :
 Kept rK oK (State.sendNak s lane seq) := by
  unfold State.sendNak
  repeat' first
    | with_reducible assumption
    | split
    | with_reducible apply State.pairOnLane_kept

theorem State.replayFrom_kept {rK : Lic} {oK : State} {s : State} (hK : Kept rK oK s) {lane : Nat} {seq : Nat} :
 Kept rK oK (State.replayFrom s lane seq) := by
  unfold State.replayFrom
  repeat' first
    | with_reducible assumption
    | (with_reducible refine Kept.foldl ?_ (fun vK eK hvK => ?_))
    | with_reducible apply State.bump_kept
    | with_reducible apply State.emit_kept
    | decide

theorem State.ackFrames_kept {rK : Lic} {oK : State} {s : State} (hK : Kept rK oK s) {lane : Nat} {ack : Nat} :
 Kept rK oK (State.ackFrames s lane ack) := by
  unfold State.ackFrames
  repeat' first
    | with_reducible assumption
    | (with_reducible refine Kept.mk' (r := rK) (s0 := oK) ?_ rfl rfl rfl rfl rfl rfl; first | with_reducible assumption)
    | (dsimp only; split)

theorem State.staleFrame_kept {rK : Lic} {oK : State} {s : State} (hK : Kept rK oK s) {type : Nat} {h : PairHdr} :
 Kept rK oK (State.staleFrame s type h) := by
  unfold State.staleFrame
  repeat' first
    | with_reducible assumption
    | with_reducible apply State.bump_kept
    | with_reducible apply State.mark_kept
    | with_reducible apply State.pairFault_kept
    | decide
    | (dsimp only; split)

theorem State.pairRx_kept {rK : Lic} {oK : State} {s : State} (hK : Kept rK oK s) {type : Nat} {h : PairHdr} {t : Nat} :
 Kept rK oK (State.pairRx s type h t).2 := by
  unfold State.pairRx
  repeat' first
    | with_reducible assumption
    | (intro xK; first | (refine Kept.cut (r := rK) (s0 := oK) (x := xK) ?_ ?_; unfold xK) | (refine Kept.cut (r := rK) (s0 := oK) (x := xK.2) ?_ ?_; unfold xK) | (refine Kept.cut (r := rK) (s0 := oK) (x := xK.1) ?_ ?_; unfold xK) | (refine Kept.cut (r := rK) (s0 := oK) (x := xK.st) ?_ ?_; unfold xK) | (refine KeptO.cut (r := rK) (s0 := oK) (x := xK) ?_ ?_; unfold xK) | (have : (fun a => xK a) = xK := rfl; clear this; subst xK; beta_reduce) | skip)
    | lift_lets
    | split
    | with_reducible apply State.ackFrames_kept
    | with_reducible apply State.at_kept
    | with_reducible apply State.quarantine_kept
    | with_reducible apply State.sendControl_kept
    | with_reducible apply State.sendNak_kept
    | with_reducible apply State.staleFrame_kept
    | (with_reducible refine Kept.mk' (r := rK) (s0 := oK) ?_ rfl rfl rfl rfl rfl rfl)
    | (clear_value *; split)
    | (dsimp only; split)

end Sys2Proof.Machine
end

