-- ==== Sys2Proof/Laws/KeptRecord.lean ====
section
/-! SUPPORT. What the operations of Machine/Record.lean keep (Laws/Kept.lean). -/

set_option linter.unusedTactic false
set_option linter.unreachableTactic false
set_option linter.unusedVariables false

namespace Sys2Proof.Machine

theorem State.ringPut_kept {rK : Lic} {oK : State} {s : State} (hK : Kept rK oK s) {n : Nat} {x : RecItem} :
 Kept rK oK (State.ringPut s n x) := by
  unfold State.ringPut
  repeat' first
    | with_reducible assumption
    | with_reducible apply State.bump_kept
    | with_reducible apply State.emit_kept
    | with_reducible apply State.setFld_kept
    | with_reducible apply State.updRec_kept
    | with_reducible refine lt_rplReg ?_
    | decide

theorem State.ringWrite_kept {rK : Lic} {oK : State} {s : State} (hK : Kept rK oK s) {n : Nat} {x : RecItem} :
 Kept rK oK (State.ringWrite s n x) := by
  unfold State.ringWrite
  repeat' first
    | with_reducible assumption
    | split
    | with_reducible apply State.ringPut_kept

theorem State.writeRing_kept {rK : Lic} {oK : State} {s : State} (hK : Kept rK oK s) {n : Nat} :
 Kept rK oK (State.writeRing s n).2 := by
  unfold State.writeRing
  repeat' first
    | with_reducible assumption
    | split
    | (with_reducible refine Kept.foldl ?_ (fun vK eK hvK => ?_))
    | with_reducible apply State.bumpBy_kept
    | with_reducible apply State.ringWrite_kept
    | with_reducible apply State.sticky_kept
    | with_reducible apply State.updRec_kept
    | with_reducible refine lt_rplReg ?_
    | decide
    | (dsimp only; split)

theorem State.diverge_kept {rK : Lic} {oK : State} {s : State} (hK : Kept rK oK s) {n : Nat} {reason : Nat} {r : Nat} :
 Kept rK oK (State.diverge s n reason r) := by
  unfold State.diverge
  repeat' first
    | with_reducible assumption
    | split
    | with_reducible apply State.raisePf_kept
    | with_reducible apply State.setFld_kept
    | with_reducible apply State.setReg_kept
    | with_reducible apply State.updRec_kept
    | with_reducible refine lt_rplReg ?_
    | decide

theorem State.writeRplCtl_kept {rK : Lic} {oK : State} {s : State} (hK : Kept rK oK s) {n : Nat} {w : Nat} :
 Kept rK oK (State.writeRplCtl s n w) := by
  unfold State.writeRplCtl
  repeat' first
    | with_reducible assumption
    | split
    | with_reducible apply State.clamped_kept
    | with_reducible apply State.lockViol_kept
    | with_reducible apply State.setFld_kept
    | with_reducible apply State.stageReg_kept
    | with_reducible apply State.sticky_kept
    | with_reducible apply State.updRec_kept
    | with_reducible refine lt_rplReg ?_
    | decide

theorem execRecordStart_kept {rK : Lic} {oK : State} {s : State} (hK : Kept rK oK s) {n : Nat} {w : BitVec 32} :
 KeptR rK oK (execRecordStart n w s) := by
  unfold execRecordStart
  repeat' first
    | with_reducible assumption
    | split
    | with_reducible apply KeptR.next
    | with_reducible apply State.writeRplCtl_kept

theorem execReplayStart_kept {rK : Lic} {oK : State} {s : State} (hK : Kept rK oK s) {n : Nat} {w : BitVec 32} :
 KeptR rK oK (execReplayStart n w s) := by
  unfold execReplayStart
  repeat' first
    | with_reducible assumption
    | split
    | with_reducible apply KeptR.next
    | with_reducible apply State.writeRplCtl_kept

theorem execRecordStop_kept {rK : Lic} {oK : State} {s : State} (hK : Kept rK oK s) {n : Nat} {w : BitVec 32} :
 KeptR rK oK (execRecordStop n w s) := by
  unfold execRecordStop
  repeat' first
    | with_reducible assumption
    | split
    | with_reducible apply KeptR.next
    | with_reducible apply State.writeRplCtl_kept

theorem State.applyMode_kept {rK : Lic} {oK : State} {s : State} (hK : Kept rK oK s) {n : Nat} {fresh : Bool} :
 Kept rK oK (State.applyMode s n fresh) := by
  unfold State.applyMode
  repeat' first
    | with_reducible assumption
    | split
    | with_reducible apply State.record_kept
    | with_reducible apply State.updRec_kept
    | (dsimp only; split)

theorem execRplHeadWrite_kept {rK : Lic} {oK : State} {s : State} (hK : Kept rK oK s) {n : Nat} {w : BitVec 32} :
 KeptR rK oK (execRplHeadWrite n w s) := by
  unfold execRplHeadWrite
  repeat' first
    | with_reducible assumption
    | split
    | with_reducible apply KeptR.next
    | with_reducible apply State.setFld_kept
    | with_reducible apply State.updPart_kept
    | with_reducible apply State.updRec_kept
    | with_reducible refine lt_rplReg ?_
    | decide
    | (dsimp only; split)

theorem execRplTailWrite_kept {rK : Lic} {oK : State} {s : State} (hK : Kept rK oK s) {n : Nat} {w : BitVec 32} :
 KeptR rK oK (execRplTailWrite n w s) := by
  unfold execRplTailWrite
  repeat' first
    | with_reducible assumption
    | split
    | with_reducible apply KeptR.next
    | with_reducible apply State.setFld_kept
    | with_reducible refine lt_rplReg ?_
    | decide

theorem execReplayStroke_kept {rK : Lic} {oK : State} {s : State} (hK : Kept rK oK s) {n : Nat} {es : List RecEntry} {t : Nat} :
 KeptR rK oK (execReplayStroke n es t s) := by
  unfold execReplayStroke
  repeat' first
    | with_reducible assumption
    | split
    | with_reducible apply KeptR.next
    | with_reducible apply State.at_kept
    | with_reducible apply State.bumpBy_kept
    | with_reducible apply State.diverge_kept
    | with_reducible apply State.setFld_kept
    | with_reducible apply State.updRec_kept
    | with_reducible refine lt_rplReg ?_
    | decide
    | (dsimp only; split)

theorem State.replayWait_kept {rK : Lic} {oK : State} {s : State} (hK : Kept rK oK s) {n : Nat} :
 Kept rK oK (State.replayWait s n) := by
  unfold State.replayWait
  repeat' first
    | with_reducible assumption
    | with_reducible apply State.bump_kept
    | with_reducible apply State.diverge_kept
    | with_reducible apply State.setFld_kept
    | with_reducible apply State.updPart_kept
    | with_reducible apply State.updRec_kept
    | with_reducible refine lt_rplReg ?_
    | decide
    | (dsimp only; split)

end Sys2Proof.Machine
end

