-- ==== Sys2Proof/Laws/KeptDemand.lean ====
section
/-! SUPPORT. What the operations of Machine/Demand.lean keep (Laws/Kept.lean). -/

set_option linter.unusedTactic false
set_option linter.unreachableTactic false
set_option linter.unusedVariables false

namespace Sys2Proof.Machine

theorem State.readyOp_kept {rK : Lic} {oK : State} {s : State} (hK : Kept rK oK s) {n : Nat} {i : Nat} {aR0 : Nat} :
 Kept rK oK (State.readyOp s n i aR0) := by
  induction aR0 generalizing s n i with
  | zero =>
    unfold State.readyOp
    repeat' first
      | with_reducible assumption
      | split
      | with_reducible apply State.finalOp_kept
      | with_reducible apply State.popOp_kept
      | with_reducible apply State.startOps_kept
      | (dsimp only; split)
  | succ nR ihK =>
    unfold State.readyOp
    repeat' first
      | with_reducible assumption
      | split
      | with_reducible apply ihK
      | with_reducible apply State.finalOp_kept
      | with_reducible apply State.popOp_kept
      | with_reducible apply State.startOps_kept
      | (dsimp only; split)

theorem State.deferStream_kept {rK : Lic} {oK : State} {s : State} (hK : Kept rK oK s) {n : Nat} {i : Nat} {reason : Nat} :
 Kept rK oK (State.deferStream s n i reason) := by
  unfold State.deferStream
  repeat' first
    | with_reducible assumption
    | with_reducible apply State.bump_kept
    | with_reducible apply State.setStream_kept
    | with_reducible apply State.unreserve_kept
    | with_reducible apply State.updStat_kept
    | with_reducible refine lt_add_reg ?_
    | decide
    | (dsimp only; split)

theorem Walk.init_kept {rK : Lic} {oK : State} {s : State} (hK : Kept rK oK s) :
 Kept rK oK (Walk.init s).st := by
  unfold Walk.init
  repeat' first
    | with_reducible assumption

theorem Walk.defer_kept {rK : Lic} {oK : State} {w : Walk} (hK : Kept rK oK w.st) {n : Nat} {i : Nat} {r : Nat} :
 Kept rK oK (Walk.defer w n i r).st := by
  unfold Walk.defer
  repeat' first
    | with_reducible assumption
    | with_reducible apply State.deferStream_kept

theorem Walk.offerDecode_kept {rK : Lic} {oK : State} {w : Walk} (hK : Kept rK oK w.st) {n : Nat} {ref : Option (Nat × Bucket)} {i : Nat} :
 Kept rK oK (Walk.offerDecode n ref w i).st := by
  unfold Walk.offerDecode
  repeat' first
    | with_reducible assumption
    | (intro xK; first | (refine Kept.cut (r := rK) (s0 := oK) (x := xK) ?_ ?_; unfold xK) | skip)
    | lift_lets
    | split
    | with_reducible apply State.setStream_kept
    | with_reducible apply State.updQp_kept
    | with_reducible apply Walk.defer_kept
    | with_reducible apply Walk.init_kept

theorem Walk.offerChunk_kept {rK : Lic} {oK : State} {w : Walk} (hK : Kept rK oK w.st) {n : Nat} {cap : Nat} {ref : Option (Nat × Bucket)} {i : Nat} :
 Kept rK oK (Walk.offerChunk n cap ref w i).st := by
  unfold Walk.offerChunk
  repeat' first
    | with_reducible assumption
    | split
    | with_reducible apply State.bump_kept
    | with_reducible apply State.updStat_kept
    | with_reducible apply Walk.defer_kept
    | with_reducible apply Walk.init_kept
    | decide
    | (dsimp only; split)

theorem Place.decode_kept {rK : Lic} {oK : State} {w : Place} (hK : Kept rK oK w.st) {n : Nat} {b : Bucket} {x : Nat × Nat} :
 Kept rK oK (Place.decode n b w x).st := by
  unfold Place.decode
  repeat' first
    | with_reducible assumption
    | with_reducible apply State.deferStream_kept
    | (dsimp only; split)

theorem Place.chunk_kept {rK : Lic} {oK : State} {w : Place} (hK : Kept rK oK w.st) {n : Nat} {b : Bucket} {fetch : List (Nat × Option (List Nat))} {x : Nat × Nat} :
 Kept rK oK (Place.chunk n b fetch w x).st := by
  unfold Place.chunk
  repeat' first
    | with_reducible assumption
    | split
    | with_reducible apply State.deferStream_kept
    | with_reducible apply State.hostDmaError_kept
    | (dsimp only; split)

theorem State.holdLayer_kept {rK : Lic} {oK : State} {s : State} (hK : Kept rK oK s) {n : Nat} {i : Nat} {top : Nat} {l : Nat} :
 Kept rK oK (State.holdLayer s n i top l) := by
  unfold State.holdLayer
  repeat' first
    | with_reducible assumption
    | split
    | (with_reducible refine Kept.foldl ?_ (fun vK eK hvK => ?_))
    | with_reducible apply State.endStream_kept
    | (refine KeptO.get (State.ensureLeaf_kept ?_) (by with_reducible assumption))
    | with_reducible apply State.ensureLeaf_kept
    | with_reducible apply State.journal_kept
    | (refine State.takeFrame_kept ?_ _ (by with_reducible assumption))
    | (dsimp only; split)

theorem State.holdFrames_kept {rK : Lic} {oK : State} {s : State} (hK : Kept rK oK s) {n : Nat} {l : List Placed} :
 Kept rK oK (State.holdFrames s n l) := by
  unfold State.holdFrames
  repeat' first
    | with_reducible assumption
    | (with_reducible refine Kept.foldl ?_ (fun vK eK hvK => ?_))
    | with_reducible apply State.holdLayer_kept

theorem State.placeAll_kept {rK : Lic} {oK : State} {s : State} (hK : Kept rK oK s) {n : Nat} {i : Nat} {l : List Placed} :
 Kept rK oK (State.placeAll s n i l) := by
  unfold State.placeAll
  repeat' first
    | with_reducible assumption
    | split
    | (with_reducible refine Kept.foldl ?_ (fun vK eK hvK => ?_))
    | with_reducible apply State.holdFrames_kept
    | with_reducible apply State.record_kept
    | with_reducible apply State.setSpadBytes_kept
    | with_reducible apply State.updPart_kept
    | with_reducible apply State.updRec_kept
    | with_reducible apply State.updStream_kept
    | (dsimp only; split)

theorem State.idleStroke_kept {rK : Lic} {oK : State} {s : State} (hK : Kept rK oK s) {n : Nat} :
 Kept rK oK (State.idleStroke s n) := by
  unfold State.idleStroke
  repeat' first
    | with_reducible assumption
    | with_reducible apply State.updPart_kept

theorem State.bucketShort_kept {rK : Lic} {oK : State} {s : State} (hK : Kept rK oK s) {n : Nat} {d : Nat} {p : Nat} {was : Bool} :
 Kept rK oK (State.bucketShort s n d p was) := by
  unfold State.bucketShort
  repeat' first
    | with_reducible assumption
    | split
    | with_reducible apply State.bump_kept
    | with_reducible apply State.journal_kept
    | decide

theorem State.setGate_kept {rK : Lic} {oK : State} {s : State} (hK : Kept rK oK s) {n : Nat} :
 Kept rK oK (State.setGate s n) := by
  unfold State.setGate
  repeat' first
    | with_reducible assumption
    | with_reducible apply State.updPart_kept

theorem State.formDemand_kept {rK : Lic} {oK : State} {s : State} (hK : Kept rK oK s) {n : Nat} {fetch : List (Nat × Option (List Nat))} :
 Kept rK oK (State.formDemand s n fetch) := by
  unfold State.formDemand
  repeat' first
    | with_reducible assumption
    | split
    | (with_reducible refine Kept.foldl ?_ (fun vK eK hvK => ?_))
    | (with_reducible refine Kept.foldlWalk ?_ (fun vK eK hvK => ?_))
    | (with_reducible refine Kept.foldlPlace ?_ (fun vK eK hvK => ?_))
    | with_reducible apply Place.chunk_kept
    | with_reducible apply Place.decode_kept
    | with_reducible apply State.bucketShort_kept
    | with_reducible apply State.deferStream_kept
    | with_reducible apply State.idleStroke_kept
    | with_reducible apply State.placeAll_kept
    | with_reducible apply State.readyOp_kept
    | with_reducible apply State.updPart_kept
    | with_reducible apply Walk.init_kept
    | with_reducible apply Walk.offerChunk_kept
    | with_reducible apply Walk.offerDecode_kept
    | (dsimp only; split)

theorem State.checkPdig_kept {rK : Lic} {oK : State} {s : State} (hK : Kept rK oK s) {n : Nat} :
 Kept rK oK (State.checkPdig s n) := by
  unfold State.checkPdig
  repeat' first
    | with_reducible assumption
    | split
    | with_reducible apply State.diverge_kept
    | (dsimp only; split)

theorem State.sendIngest_kept {rK : Lic} {oK : State} {s : State} (hK : Kept rK oK s) {n : Nat} :
 Kept rK oK (State.sendIngest s n) := by
  unfold State.sendIngest
  repeat' first
    | with_reducible assumption
    | split
    | with_reducible apply State.pairSend_kept

theorem State.formPart_kept {rK : Lic} {oK : State} {s : State} (hK : Kept rK oK s) {n : Nat} {fetch : List (Nat × Option (List Nat))} :
 Kept rK oK (State.formPart s n fetch) := by
  unfold State.formPart
  repeat' first
    | with_reducible assumption
    | with_reducible apply State.closeIngest_kept
    | split
    | (with_reducible refine Kept.foldl ?_ (fun vK eK hvK => ?_))
    | with_reducible apply State.bump_kept
    | with_reducible apply State.checkPdig_kept
    | with_reducible apply State.formDemand_kept
    | with_reducible apply State.idleStroke_kept
    | with_reducible apply State.readyOp_kept
    | with_reducible apply State.sendIngest_kept
    | with_reducible apply State.setGate_kept
    | with_reducible apply State.setPpwr_kept
    | with_reducible apply State.updPp_kept
    | with_reducible apply State.updRec_kept
    | decide
    | with_reducible exact lt_siteReg _ _
    | with_reducible refine lt_rplReg ?_
    | with_reducible exact lt_leqReg _
    | with_reducible refine lt_add_reg ?_
    | (with_reducible refine Kept.mk' (r := rK) (s0 := oK) ?_ rfl rfl rfl rfl rfl rfl)
    | (dsimp only; split)

theorem State.sendPace_kept {rK : Lic} {oK : State} {s : State} (hK : Kept rK oK s) :
 Kept rK oK (State.sendPace s) := by
  unfold State.sendPace
  repeat' first
    | with_reducible assumption
    | split
    | (with_reducible refine Kept.foldl ?_ (fun vK eK hvK => ?_))
    | with_reducible apply State.pairSend_kept

theorem execDemandFormation_kept {rK : Lic} {oK : State} {s : State} (hK : Kept rK oK s) {fetch : List (Nat × Option (List Nat))} {t : Nat} :
 KeptR rK oK (execDemandFormation fetch t s) := by
  unfold execDemandFormation
  repeat' first
    | with_reducible assumption
    | split
    | with_reducible apply KeptR.next
    | (with_reducible refine Kept.foldl ?_ (fun vK eK hvK => ?_))
    | with_reducible apply State.at_kept
    | with_reducible apply State.formPart_kept
    | with_reducible apply State.plan_kept
    | with_reducible apply State.sendPace_kept
    | with_reducible apply State.updPart_kept

end Sys2Proof.Machine
end

