-- ==== Sys2Proof/Laws/KeptDesc.lean ====
section
/-! SUPPORT. What the operations of Machine/Desc.lean keep (Laws/Kept.lean). -/

set_option linter.unusedTactic false
set_option linter.unreachableTactic false
set_option linter.unusedVariables false

namespace Sys2Proof.Machine

theorem State.takeGranule_kept {rK : Lic} {oK : State} {s : State} (hK : Kept rK oK s) {part : Nat} {p : Nat} {m : Nat} {off : Nat} :
 Kept rK oK (State.takeGranule s part p m off).2 := by
  unfold State.takeGranule
  repeat' first
    | with_reducible assumption
    | with_reducible apply State.setSpadBytes_kept
    | with_reducible apply State.spadRead_kept

theorem State.identAt_kept {rK : Lic} {oK s : State} (hK : Kept rK oK s) {part p m d : Nat} {pt : List (Nat × Nat)} {inAddr : Nat} :
    Kept rK oK (State.identAt s part p m d pt inAddr).2 := by
  have hg : Kept rK oK (s.takeGranule part p m (inAddr - 64)).2 := State.takeGranule_kept hK
  unfold State.identAt
  dsimp only
  by_cases hm : dMrgout d = true
  · simp only [hm, if_true, Option.map_some, Option.getD_some]
    split <;> exact hg
  · simp only [hm, Bool.false_eq_true, if_false, Option.map_none, Option.getD_none]
    split <;> exact hK

theorem State.inputs_kept {rK : Lic} {oK : State} {s : State} (hK : Kept rK oK s) {part : Nat} {p : Nat} {m : Nat} {d : Nat} {inAddr : Nat} {gc : Nat} {id : Ident} :
 Kept rK oK (State.inputs s part p m d inAddr gc id).2 := by
  unfold State.inputs
  repeat' first
    | with_reducible assumption
    | exact false
    | (with_reducible refine Kept.foldl2 ?_ (fun vK eK hvK => ?_))
    | with_reducible apply State.badVector_kept
    | with_reducible apply State.ingress_kept
    | with_reducible apply State.readVec_kept
    | (dsimp only; split)

theorem State.feed_kept {rK : Lic} {oK s : State} (hK : Kept rK oK s) {a : TileArgs} {d : Nat} {aR0 : List Nat}
    {aR1 : List (Option (ZrVec × Bool))} {aR2 : Nat} : Kept rK oK (State.feed s a d aR0 aR1 aR2) := by
  induction aR0 generalizing s aR1 aR2 with
  | nil => unfold State.feed; exact hK
  | cons b bs ih =>
    cases aR1 with
    | nil => unfold State.feed; exact hK
    | cons v vs =>
      simp only [State.feed]
      refine ih ?_
      split
      · exact State.vectorConsume_kept hK
      · exact hK

theorem State.finishTile_kept {rK : Lic} {oK : State} {s : State} (hK : Kept rK oK s) {a : TileArgs} :
 Kept rK oK (State.finishTile s a) := by
  unfold State.finishTile
  repeat' first
    | with_reducible assumption
    | split
    | with_reducible apply State.drainTile_kept
    | with_reducible apply State.exactDrain_kept
    | with_reducible apply State.fallbackTile_kept
    | with_reducible apply State.fillEnd_kept
    | (dsimp only; split)

theorem State.setOpenTile_kept {rK : Lic} {oK : State} {s : State} (hK : Kept rK oK s) {pc v : Nat} :
 Kept rK oK (State.setOpenTile s pc v) := by
  unfold State.setOpenTile
  with_reducible refine Kept.mk' (r := rK) (s0 := oK) ?_ rfl rfl rfl rfl rfl rfl
  with_reducible assumption

theorem State.maskedTile_kept {rK : Lic} {oK : State} {s : State} (hK : Kept rK oK s) {p d k : Nat} {firstPt isLast : Bool} :
 Kept rK oK (State.maskedTile s p d k firstPt isLast) := by
  unfold State.maskedTile
  repeat' first
    | with_reducible assumption
    | split
    | with_reducible apply State.setOpenTile_kept
    | with_reducible apply State.freeSets_kept
    | with_reducible apply State.bumpBy_kept
    | with_reducible exact lt_siteReg _ _
    | with_reducible exact lt_siteReg _ _
    | with_reducible refine lt_rplReg ?_
    | with_reducible exact lt_leqReg _
    | with_reducible refine lt_add_reg ?_
    | decide
    | (with_reducible refine Kept.mk' (r := rK) (s0 := oK) ?_ rfl rfl rfl rfl rfl rfl)
    | (with_reducible refine Kept.foldl ?_ (fun vK eK hvK => ?_))
    | (with_reducible refine Kept.foldl1 ?_ (fun vK eK hvK => ?_))
    | (with_reducible refine Kept.foldl2 ?_ (fun vK eK hvK => ?_))
    | (dsimp only; split)

theorem State.liveTile_kept {rK : Lic} {oK : State} {s : State} (hK : Kept rK oK s) {a : TileArgs} {d : Nat} {vs : List (Option (ZrVec × Bool))} {isLast : Bool} :
 Kept rK oK (State.liveTile s a d vs isLast) := by
  unfold State.liveTile
  repeat' first
    | with_reducible assumption
    | split
    | with_reducible apply State.setOpenTile_kept
    | with_reducible apply State.finishTile_kept
    | with_reducible apply State.feed_kept
    | (dsimp only; split)

theorem State.runPoint_kept {rK : Lic} {oK : State} {s : State} (hK : Kept rK oK s) {part : Nat} {p : Nat} {st : Nat} {d : Nat} {pt : List (Nat × Nat)} {inAddr : Nat} {id : Ident} {out : Nat → Nat → Nat} {firstPt : Bool} {isLast : Bool} {thr : Option Nat} :
 Kept rK oK (State.runPoint s part p st d pt inAddr id out firstPt isLast thr) := by
  unfold State.runPoint
  repeat' first
    | with_reducible assumption
    | split
    | (with_reducible refine Kept.foldl ?_ (fun vK eK hvK => ?_))
    | (with_reducible refine Kept.foldl1 ?_ (fun vK eK hvK => ?_))
    | (with_reducible refine Kept.foldl2 ?_ (fun vK eK hvK => ?_))
    | (refine fun (uK : State) (hvK : Kept _ _ _) => ?_)
    | (refine fun (uK : State) _ (hvK : Kept _ _ _) => ?_)
    | (refine fun (uK : State) _ _ (hvK : Kept _ _ _) => ?_)
    | with_reducible apply State.inputs_kept
    | with_reducible apply State.liveTile_kept
    | with_reducible apply State.maskedTile_kept
    | (with_reducible refine Kept.mk' (r := rK) (s0 := oK) ?_ rfl rfl rfl rfl rfl rfl)
    | (dsimp only; split)
    | (with_reducible show Kept _ _ (id _) ; unfold id)

theorem State.runProduct_kept {rK : Lic} {oK : State} {s : State} (hK : Kept rK oK s) {part : Nat} {p : Nat} {st : Nat} {d : Nat} {thr : Option Nat} :
 Kept rK oK (State.runProduct s part p st d thr) := by
  unfold State.runProduct
  repeat' first
    | with_reducible assumption
    | split
    | with_reducible apply State.endRuns_kept
    | (with_reducible refine Kept.foldl ?_ (fun vK eK hvK => ?_))
    | with_reducible apply State.identAt_kept
    | with_reducible apply State.runPoint_kept
    | (with_reducible refine Kept.mk' (r := rK) (s0 := oK) ?_ rfl rfl rfl rfl rfl rfl)
    | (dsimp only; split)

theorem State.stagedVals_kept {rK : Lic} {oK : State} {s : State} (hK : Kept rK oK s) {part : Nat} {p : Nat} {m : Nat} {aR0 : Nat} {aR1 : Nat} {aR2 : Nat} {aR3 : Staged} :
 Kept rK oK (State.stagedVals s part p m aR0 aR1 aR2 aR3).2 := by
  induction aR0 generalizing s part p m aR1 aR2 aR3 with
  | zero =>
    unfold State.stagedVals
    repeat' first
      | with_reducible assumption
      | split
      | with_reducible apply State.badVector_kept
      | with_reducible apply State.readVec_kept
      | (dsimp only; split)
  | succ nR ihK =>
    unfold State.stagedVals
    repeat' first
      | with_reducible assumption
      | split
      | with_reducible apply ihK
      | with_reducible apply State.badVector_kept
      | with_reducible apply State.readVec_kept
      | (dsimp only; split)

theorem State.readRow_kept {rK : Lic} {oK : State} {s : State} (hK : Kept rK oK s) {part : Nat} {p : Nat} {slot : Nat} {m : Nat} {off : Nat} {n : Nat} :
 Kept rK oK (State.readRow s part p slot m off n).2 := by
  unfold State.readRow
  repeat' first
    | with_reducible assumption
    | split
    | with_reducible apply State.spadRead_kept
    | (with_reducible refine Kept.mk' (r := rK) (s0 := oK) ?_ rfl rfl rfl rfl rfl rfl)
    | (dsimp only; split)

theorem State.programStep_kept {rK : Lic} {oK : State} {s : State} (hK : Kept rK oK s) {part : Nat} {p : Nat} {slot : Nat} {m : Nat} {staged : List (BitVec 16)} {acc : RowAcc} {e : Nat} {i : Nat} :
 Kept rK oK (State.programStep s part p slot m staged acc e i).2 := by
  unfold State.programStep
  repeat' first
    | with_reducible assumption
    | split
    | with_reducible apply State.readRow_kept
    | (with_reducible refine Kept.mk' (r := rK) (s0 := oK) ?_ rfl rfl rfl rfl rfl rfl)
    | (dsimp only; split)

theorem State.runProgram_kept {rK : Lic} {oK : State} {s : State} (hK : Kept rK oK s) {part : Nat} {p : Nat} {st : Nat} {d : Nat} {stage : Nat} {out : Nat} {id : Ident} :
 Kept rK oK (State.runProgram s part p st d stage out id) := by
  unfold State.runProgram
  repeat' first
    | with_reducible assumption
    | split
    | (with_reducible refine Kept.foldl ?_ (fun vK eK hvK => ?_))
    | (with_reducible refine Kept.foldl1 ?_ (fun vK eK hvK => ?_))
    | (with_reducible refine Kept.foldl2 ?_ (fun vK eK hvK => ?_))
    | (with_reducible refine Kept.foldlWOut ?_ (fun vK eK hvK => ?_))
    | (with_reducible refine Kept.foldlWalk ?_ (fun vK eK hvK => ?_))
    | (with_reducible refine Kept.foldlPlace ?_ (fun vK eK hvK => ?_))
    | with_reducible apply State.programStep_kept
    | with_reducible apply State.raiseOnce_kept
    | with_reducible apply State.stagedVals_kept
    | with_reducible apply State.withhold_kept
    | with_reducible apply State.writeWide_kept
    | with_reducible apply Walk.init_kept
    | (with_reducible refine Kept.mk' (r := rK) (s0 := oK) ?_ rfl rfl rfl rfl rfl rfl)
    | (dsimp only; split)

theorem State.runRowfn_kept {rK : Lic} {oK : State} {s : State} (hK : Kept rK oK s) {part : Nat} {p : Nat} {st : Nat} {d : Nat} :
 Kept rK oK (State.runRowfn s part p st d) := by
  unfold State.runRowfn
  repeat' first
    | with_reducible assumption
    | split
    | (with_reducible refine Kept.foldl ?_ (fun vK eK hvK => ?_))
    | with_reducible apply State.identAt_kept
    | with_reducible apply State.runProgram_kept
    | (with_reducible refine Kept.mk' (r := rK) (s0 := oK) ?_ rfl rfl rfl rfl rfl rfl)
    | (dsimp only; split)

theorem State.runFused_kept {rK : Lic} {oK : State} {s : State} (hK : Kept rK oK s) {part : Nat} {p : Nat} {st : Nat} {d1 : Nat} {d2 : Nat} :
 Kept rK oK (State.runFused s part p st d1 d2) := by
  unfold State.runFused
  repeat' first
    | with_reducible assumption
    | split
    | (with_reducible refine Kept.foldl ?_ (fun vK eK hvK => ?_))
    | with_reducible apply State.identAt_kept
    | with_reducible apply State.runPoint_kept
    | with_reducible apply State.runProgram_kept
    | (with_reducible refine Kept.mk' (r := rK) (s0 := oK) ?_ rfl rfl rfl rfl rfl rfl)
    | (dsimp only; split)

theorem State.moverFault_kept {rK : Lic} {oK : State} {s : State} (hK : Kept rK oK s) {code : Nat} {part : Nat} {p : Nat} {a : Nat} :
 Kept rK oK (State.moverFault s code part p a) := by
  unfold State.moverFault
  repeat' first
    | with_reducible assumption
    | with_reducible apply State.accessFault_kept

theorem State.moveRow_kept {rK : Lic} {oK : State} {s : State} (hK : Kept rK oK s) {part : Nat} {p : Nat} {src : Nat} {n : Nat} {slot : Nat} {tag : Nat} {mark : Bool} {dsts : List (Nat × Nat × Nat)} :
 Kept rK oK (State.moveRow s part p src n slot tag mark dsts) := by
  unfold State.moveRow
  repeat' first
    | with_reducible assumption
    | split
    | (with_reducible refine Kept.foldl ?_ (fun vK eK hvK => ?_))
    | (with_reducible refine Kept.foldl1 ?_ (fun vK eK hvK => ?_))
    | (with_reducible refine Kept.foldl2 ?_ (fun vK eK hvK => ?_))
    | (refine fun (uK : State) (hvK : Kept _ _ _) => ?_)
    | (refine fun (uK : State) _ (hvK : Kept _ _ _) => ?_)
    | (refine fun (uK : State) _ _ (hvK : Kept _ _ _) => ?_)
    | with_reducible apply State.lateEntry_kept
    | with_reducible apply State.mark_kept
    | with_reducible apply State.moverFault_kept
    | with_reducible apply State.placeRow_kept
    | with_reducible apply State.sendPkt_kept
    | with_reducible apply State.spadReadG_kept
    | with_reducible apply State.stackUnits_kept
    | with_reducible apply State.stackUe_kept
    | (with_reducible refine Kept.mk' (r := rK) (s0 := oK) ?_ rfl rfl rfl rfl rfl rfl)
    | (dsimp only; split)

theorem State.runCopy_kept {rK : Lic} {oK : State} {s : State} (hK : Kept rK oK s) {part : Nat} {p : Nat} {d : Nat} :
 Kept rK oK (State.runCopy s part p d) := by
  unfold State.runCopy
  repeat' first
    | with_reducible assumption
    | split
    | (with_reducible refine Kept.foldl ?_ (fun vK eK hvK => ?_))
    | with_reducible apply State.moveRow_kept

theorem State.runGather_kept {rK : Lic} {oK : State} {s : State} (hK : Kept rK oK s) {part : Nat} {p : Nat} {d : Nat} :
 Kept rK oK (State.runGather s part p d) := by
  unfold State.runGather
  repeat' first
    | with_reducible assumption
    | with_reducible apply State.spadRead_kept
    | split
    | (with_reducible refine Kept.foldl ?_ (fun vK eK hvK => ?_))
    | with_reducible apply State.moveRow_kept
    | with_reducible apply State.raise_kept
    | (with_reducible refine Kept.mk' (r := rK) (s0 := oK) ?_ rfl rfl rfl rfl rfl rfl)
    | (dsimp only; split)

theorem State.scatterRec_kept {rK : Lic} {oK : State} {s : State} (hK : Kept rK oK s) {part : Nat} {p : Nat} {d : Nat} {off : Nat} {src : Nat} :
 Kept rK oK (State.scatterRec s part p d off src) := by
  unfold State.scatterRec
  repeat' first
    | with_reducible assumption
    | with_reducible apply State.moveRow_kept
    | with_reducible apply State.spadRead_kept
    | split
    | (with_reducible refine Kept.foldl ?_ (fun vK eK hvK => ?_))
    | with_reducible apply State.lateEntry_kept
    | with_reducible apply State.mergeOpen_kept
    | with_reducible apply State.moverFault_kept
    | with_reducible apply State.spadReadG_kept
    | with_reducible apply State.storeAt_kept
    | (with_reducible refine Kept.mk' (r := rK) (s0 := oK) ?_ rfl rfl rfl rfl rfl rfl)
    | (dsimp only; split)

theorem State.runScatter_kept {rK : Lic} {oK : State} {s : State} (hK : Kept rK oK s) {part : Nat} {p : Nat} {d : Nat} :
 Kept rK oK (State.runScatter s part p d) := by
  unfold State.runScatter
  repeat' first
    | with_reducible assumption
    | split
    | (with_reducible refine Kept.foldl ?_ (fun vK eK hvK => ?_))
    | with_reducible apply State.scatterRec_kept

theorem State.kvInputs_kept {rK : Lic} {oK : State} {s : State} (hK : Kept rK oK s) {part : Nat} {p : Nat} {off : Nat} {n : Nat} :
 Kept rK oK (State.kvInputs s part p off n).2 := by
  unfold State.kvInputs
  repeat' first
    | with_reducible assumption
    | (with_reducible refine Kept.foldl2 ?_ (fun vK eK hvK => ?_))
    | with_reducible apply State.badVector_kept
    | with_reducible apply State.readVec_kept
    | (dsimp only; split)

theorem State.runKvAppend_kept {rK : Lic} {oK : State} {s : State} (hK : Kept rK oK s) {part : Nat} {p : Nat} {d : Nat} :
 Kept rK oK (State.runKvAppend s part p d) := by
  unfold State.runKvAppend
  repeat' first
    | with_reducible assumption
    | (with_reducible refine Kept.foldl ?_ (fun vK eK hvK => ?_))
    | with_reducible apply State.kvAppendPos_kept
    | with_reducible apply State.kvInputs_kept
    | (dsimp only; split)

theorem State.kvWrite_kept {rK : Lic} {oK : State} {s : State} (hK : Kept rK oK s) {part : Nat} {p : Nat} {d : Nat} {e : Nat × Nat × Live} {xs : List (BitVec 16)} {taint : Bool} {late : Bool} {origin : Nat} :
 Kept rK oK (State.kvWrite s part p d e xs taint late origin) := by
  unfold State.kvWrite
  repeat' first
    | with_reducible assumption
    | split
    | with_reducible apply State.withhold_kept
    | with_reducible apply State.writeWide_kept

theorem State.kvAppended_kept {rK : Lic} {oK : State} {s : State} (hK : Kept rK oK s) {part : Nat} {p : Nat} {d : Nat} {e : Nat × Nat × Live} :
 Kept rK oK (State.kvAppended s part p d e).2 := by
  unfold State.kvAppended
  repeat' first
    | with_reducible assumption
    | (intro xK; first | (refine Kept.cut (r := rK) (s0 := oK) (x := xK) ?_ ?_; unfold xK) | (refine Kept.cut (r := rK) (s0 := oK) (x := xK.2) ?_ ?_; unfold xK) | (refine Kept.cut (r := rK) (s0 := oK) (x := xK.1) ?_ ?_; unfold xK) | (refine Kept.cut (r := rK) (s0 := oK) (x := xK.st) ?_ ?_; unfold xK) | (refine KeptO.cut (r := rK) (s0 := oK) (x := xK) ?_ ?_; unfold xK) | (have : (fun a => xK a) = xK := rfl; clear this; subst xK; beta_reduce) | skip)
    | lift_lets
    | split
    | with_reducible apply State.kvAppendPos_kept
    | with_reducible apply State.kvInputs_kept
    | (with_reducible refine Kept.mk' (r := rK) (s0 := oK) ?_ rfl rfl rfl rfl rfl rfl)
    | (clear_value *; split)
    | (dsimp only; split)

theorem State.kvAttendPos_kept {rK : Lic} {oK : State} {s : State} (hK : Kept rK oK s) {part : Nat} {p : Nat} {d : Nat} {e : Nat × Nat × Live} :
 Kept rK oK (State.kvAttendPos s part p d e) := by
  unfold State.kvAttendPos
  repeat' first
    | with_reducible assumption
    | (intro xK; first | (refine Kept.cut (r := rK) (s0 := oK) (x := xK) ?_ ?_; unfold xK) | (refine Kept.cut (r := rK) (s0 := oK) (x := xK.2) ?_ ?_; unfold xK) | (refine Kept.cut (r := rK) (s0 := oK) (x := xK.1) ?_ ?_; unfold xK) | (refine Kept.cut (r := rK) (s0 := oK) (x := xK.st) ?_ ?_; unfold xK) | (refine KeptO.cut (r := rK) (s0 := oK) (x := xK) ?_ ?_; unfold xK) | (have : (fun a => xK a) = xK := rfl; clear this; subst xK; beta_reduce) | skip)
    | lift_lets
    | split
    | (with_reducible refine Kept.foldl ?_ (fun vK eK hvK => ?_))
    | (with_reducible refine Kept.foldl1 ?_ (fun vK eK hvK => ?_))
    | (with_reducible refine Kept.foldl2 ?_ (fun vK eK hvK => ?_))
    | (with_reducible refine Kept.foldlWOut ?_ (fun vK eK hvK => ?_))
    | (with_reducible refine Kept.foldlWalk ?_ (fun vK eK hvK => ?_))
    | (with_reducible refine Kept.foldlPlace ?_ (fun vK eK hvK => ?_))
    | (refine fun (uK : State) (hvK : Kept _ _ _) => ?_)
    | (refine fun (uK : State) _ (hvK : Kept _ _ _) => ?_)
    | (refine fun (uK : State) _ _ (hvK : Kept _ _ _) => ?_)
    | with_reducible apply State.badVector_kept
    | with_reducible apply State.kvAppended_kept
    | with_reducible apply State.kvUe_kept
    | with_reducible apply State.kvWrite_kept
    | with_reducible apply State.raise_kept
    | with_reducible apply State.readVec_kept
    | with_reducible apply Walk.init_kept
    | (with_reducible refine Kept.mk' (r := rK) (s0 := oK) ?_ rfl rfl rfl rfl rfl rfl)
    | (clear_value *; split)
    | (dsimp only; split)

theorem State.runKvAttend_kept {rK : Lic} {oK : State} {s : State} (hK : Kept rK oK s) {part : Nat} {p : Nat} {d : Nat} :
 Kept rK oK (State.runKvAttend s part p d) := by
  unfold State.runKvAttend
  repeat' first
    | with_reducible assumption
    | (intro xK; first | (refine Kept.cut (r := rK) (s0 := oK) (x := xK) ?_ ?_; unfold xK) | (refine Kept.cut (r := rK) (s0 := oK) (x := xK.2) ?_ ?_; unfold xK) | (refine Kept.cut (r := rK) (s0 := oK) (x := xK.1) ?_ ?_; unfold xK) | (refine Kept.cut (r := rK) (s0 := oK) (x := xK.st) ?_ ?_; unfold xK) | (refine KeptO.cut (r := rK) (s0 := oK) (x := xK) ?_ ?_; unfold xK) | (have : (fun a => xK a) = xK := rfl; clear this; subst xK; beta_reduce) | skip)
    | lift_lets
    | split
    | (with_reducible refine Kept.foldl ?_ (fun vK eK hvK => ?_))
    | (with_reducible refine Kept.foldl1 ?_ (fun vK eK hvK => ?_))
    | (with_reducible refine Kept.foldl2 ?_ (fun vK eK hvK => ?_))
    | (with_reducible refine Kept.foldlWOut ?_ (fun vK eK hvK => ?_))
    | (with_reducible refine Kept.foldlWalk ?_ (fun vK eK hvK => ?_))
    | (with_reducible refine Kept.foldlPlace ?_ (fun vK eK hvK => ?_))
    | (refine fun (uK : State) (hvK : Kept _ _ _) => ?_)
    | (refine fun (uK : State) _ (hvK : Kept _ _ _) => ?_)
    | (refine fun (uK : State) _ _ (hvK : Kept _ _ _) => ?_)
    | with_reducible apply State.bumpBy_kept
    | with_reducible apply State.journal_kept
    | with_reducible apply State.kvAppended_kept
    | with_reducible apply State.kvAttendPos_kept
    | with_reducible apply State.kvWrite_kept
    | with_reducible apply State.mark_kept
    | with_reducible apply State.withhold_kept
    | with_reducible apply Walk.init_kept
    | with_reducible exact lt_siteReg _ _
    | with_reducible refine lt_rplReg ?_
    | with_reducible exact lt_leqReg _
    | with_reducible refine lt_add_reg ?_
    | decide
    | (with_reducible refine Kept.mk' (r := rK) (s0 := oK) ?_ rfl rfl rfl rfl rfl rfl)
    | (clear_value *; split)
    | (dsimp only; split)

theorem State.runKvSample_kept {rK : Lic} {oK : State} {s : State} (hK : Kept rK oK s) {part : Nat} {p : Nat} {d : Nat} :
 Kept rK oK (State.runKvSample s part p d) := by
  unfold State.runKvSample
  repeat' first
    | with_reducible assumption
    | (with_reducible refine Kept.foldl ?_ (fun vK eK hvK => ?_))
    | with_reducible apply State.kvSamplePos_kept

theorem State.issuedNow_kept {rK : Lic} {oK : State} {s : State} (hK : Kept rK oK s) {p : Nat} {st : Nat} {d : Nat} :
 Kept rK oK (State.issuedNow s p st d) := by
  unfold State.issuedNow
  repeat' first
    | with_reducible assumption
    | with_reducible apply State.setDstream_kept

theorem State.runDesc_kept {rK : Lic} {oK : State} {s : State} (hK : Kept rK oK s) {p : Nat} {st : Nat} {o : Nat} {f : State → Nat → Nat → State} (hF_f : ∀ (uK : State) (u1 : Nat) (u2 : Nat), Kept rK oK uK → Kept rK oK (f uK u1 u2)) :
 Kept rK oK (State.runDesc s p st o f) := by
  unfold State.runDesc
  repeat' first
    | with_reducible assumption
    | split
    | with_reducible apply State.issuedNow_kept
    | with_reducible apply hF_f

theorem State.runTiles_kept {rK : Lic} {oK : State} {s : State} (hK : Kept rK oK s) {p : Nat} {st : Nat} {o : Nat} {f : State → Nat → Nat → State} (hF_f : ∀ (uK : State) (u1 : Nat) (u2 : Nat), Kept rK oK uK → Kept rK oK (f uK u1 u2)) :
 Kept rK oK (State.runTiles s p st o f) := by
  unfold State.runTiles
  repeat' first
    | with_reducible assumption
    | split
    | (with_reducible refine Kept.foldl ?_ (fun vK eK hvK => ?_))
    | (with_reducible refine Kept.foldl1 ?_ (fun vK eK hvK => ?_))
    | (with_reducible refine Kept.foldl2 ?_ (fun vK eK hvK => ?_))
    | (refine fun (uK : State) (hvK : Kept _ _ _) => ?_)
    | (refine fun (uK : State) _ (hvK : Kept _ _ _) => ?_)
    | (refine fun (uK : State) _ _ (hvK : Kept _ _ _) => ?_)
    | with_reducible apply State.runDesc_kept
    | with_reducible apply State.stallSet_kept
    | apply hF_f
    | (with_reducible refine Kept.mk' (r := rK) (s0 := oK) ?_ rfl rfl rfl rfl rfl rfl)
    | (dsimp only; split)

theorem execDescriptorFetch_kept {rK : Lic} {oK : State} {s : State} (hK : Kept rK oK s) {site : Nat} {stream : Nat} :
 KeptR rK oK (execDescriptorFetch site stream s) := by
  unfold execDescriptorFetch
  repeat' first
    | with_reducible assumption
    | split
    | with_reducible apply KeptR.next
    | with_reducible apply State.setDstream_kept
    | (with_reducible refine Kept.mk' (r := rK) (s0 := oK) ?_ rfl rfl rfl rfl rfl rfl)
    | (dsimp only; split)

theorem State.issueFault_kept {rK : Lic} {oK : State} {s : State} (hK : Kept rK oK s) {part : Nat} {p : Nat} {f : Nat × Nat × Nat} :
 Kept rK oK (State.issueFault s part p f) := by
  unfold State.issueFault
  repeat' first
    | with_reducible assumption
    | with_reducible apply State.raise_kept
    | with_reducible apply State.updPart_kept

theorem State.waitOn_kept {rK : Lic} {oK : State} {s : State} (hK : Kept rK oK s) {site : Nat} {stream : Nat} {w : Nat} {tag : Nat} {half2 : Bool} :
 Kept rK oK (State.waitOn s site stream w tag half2) := by
  unfold State.waitOn
  repeat' first
    | with_reducible assumption
    | split
    | with_reducible apply State.sealIssue_kept
    | with_reducible apply State.setDstream_kept
    | (with_reducible refine Kept.mk' (r := rK) (s0 := oK) ?_ rfl rfl rfl rfl rfl rfl)
    | (dsimp only; split)

theorem State.sealWaits_kept {rK : Lic} {oK : State} {s : State} (hK : Kept rK oK s) {site : Nat} {stream : Nat} {d : Nat} :
 Kept rK oK (State.sealWaits s site stream d) := by
  unfold State.sealWaits
  repeat' first
    | with_reducible assumption
    | split
    | with_reducible apply State.waitOn_kept
    | (with_reducible refine Kept.mk' (r := rK) (s0 := oK) ?_ rfl rfl rfl rfl rfl rfl)
    | (dsimp only; split)

theorem execDescriptorIssue_kept {rK : Lic} {oK : State} {s : State} (hK : Kept rK oK s) {site : Nat} {stream : Nat} {t : Nat} :
 KeptR rK oK (execDescriptorIssue site stream t s) := by
  unfold execDescriptorIssue
  repeat' first
    | with_reducible assumption
    | split
    | with_reducible apply KeptR.next
    | with_reducible apply State.at_kept
    | with_reducible apply State.issueFault_kept
    | with_reducible apply State.sealNext_kept
    | with_reducible apply State.sealWaits_kept
    | with_reducible apply State.setDstream_kept
    | (with_reducible refine Kept.mk' (r := rK) (s0 := oK) ?_ rfl rfl rfl rfl rfl rfl)
    | (dsimp only; split)

theorem State.signalOn_kept {rK : Lic} {oK : State} {s : State} (hK : Kept rK oK s) {site : Nat} {stream : Nat} {i : Nat} {tag : Nat} :
 Kept rK oK (State.signalOn s site stream i tag) := by
  unfold State.signalOn
  repeat' first
    | with_reducible assumption
    | split
    | with_reducible apply State.sealIssue_kept
    | (with_reducible refine Kept.mk' (r := rK) (s0 := oK) ?_ rfl rfl rfl rfl rfl rfl)
    | (dsimp only; split)

theorem execDescriptorSignal_kept {rK : Lic} {oK : State} {s : State} (hK : Kept rK oK s) {site : Nat} {stream : Nat} :
 KeptR rK oK (execDescriptorSignal site stream s) := by
  unfold execDescriptorSignal
  repeat' first
    | with_reducible assumption
    | with_reducible apply State.sealNext_kept
    | with_reducible apply State.signalOn_kept
    | split
    | with_reducible apply KeptR.next
    | with_reducible apply State.sealIssue_kept
    | with_reducible apply State.setDstream_kept
    | (with_reducible refine Kept.mk' (r := rK) (s0 := oK) ?_ rfl rfl rfl rfl rfl rfl)
    | (dsimp only; split)

theorem execNop_kept {rK : Lic} {oK : State} {s : State} (hK : Kept rK oK s) {site : Nat} {stream : Nat} :
 KeptR rK oK (execNop site stream s) := by
  unfold execNop
  repeat' first
    | with_reducible assumption
    | intro xK
    | with_reducible apply KeptR.next
    | with_reducible apply State.runDesc_kept

theorem State.descErrs_kept {rK : Lic} {oK : State} {s : State} (hK : Kept rK oK s) {part : Nat} {p : Nat} {d : Nat} {e : MemErr} :
 Kept rK oK (State.descErrs s part p d e) := by
  unfold State.descErrs
  repeat' first
    | with_reducible assumption
    | with_reducible apply State.memErrs_kept
    | (with_reducible refine Kept.mk' (r := rK) (s0 := oK) ?_ rfl rfl rfl rfl rfl rfl)
    | (dsimp only; split)

theorem execMatmul_kept {rK : Lic} {oK : State} {s : State} (hK : Kept rK oK s) {site : Nat} {stream : Nat} {e : MemErr} :
 KeptR rK oK (execMatmul site stream e s) := by
  unfold execMatmul
  repeat' first
    | with_reducible assumption
    | with_reducible apply KeptR.next
    | (refine fun (uK : State) (hvK : Kept _ _ _) => ?_)
    | (refine fun (uK : State) _ (hvK : Kept _ _ _) => ?_)
    | (refine fun (uK : State) _ _ (hvK : Kept _ _ _) => ?_)
    | with_reducible apply State.descErrs_kept
    | with_reducible apply State.runProduct_kept
    | with_reducible apply State.runTiles_kept
    | (with_reducible refine Kept.mk' (r := rK) (s0 := oK) ?_ rfl rfl rfl rfl rfl rfl)
    | (dsimp only; split)

theorem execMatmulFused_kept {rK : Lic} {oK : State} {s : State} (hK : Kept rK oK s) {site : Nat} {stream : Nat} {e : MemErr} :
 KeptR rK oK (execMatmulFused site stream e s) := by
  unfold execMatmulFused
  repeat' first
    | with_reducible assumption
    | with_reducible apply KeptR.next
    | (refine fun (uK : State) (hvK : Kept _ _ _) => ?_)
    | (refine fun (uK : State) _ (hvK : Kept _ _ _) => ?_)
    | (refine fun (uK : State) _ _ (hvK : Kept _ _ _) => ?_)
    | with_reducible apply State.descErrs_kept
    | with_reducible apply State.runFused_kept
    | with_reducible apply State.runTiles_kept
    | (with_reducible refine Kept.mk' (r := rK) (s0 := oK) ?_ rfl rfl rfl rfl rfl rfl)
    | (dsimp only; split)

theorem execThreshold_kept {rK : Lic} {oK : State} {s : State} (hK : Kept rK oK s) {site : Nat} {stream : Nat} {e : MemErr} :
 KeptR rK oK (execThreshold site stream e s) := by
  unfold execThreshold
  repeat' first
    | with_reducible assumption
    | with_reducible apply KeptR.next
    | (refine fun (uK : State) (hvK : Kept _ _ _) => ?_)
    | (refine fun (uK : State) _ (hvK : Kept _ _ _) => ?_)
    | (refine fun (uK : State) _ _ (hvK : Kept _ _ _) => ?_)
    | with_reducible apply State.descErrs_kept
    | with_reducible apply State.runProduct_kept
    | with_reducible apply State.runTiles_kept
    | (with_reducible refine Kept.mk' (r := rK) (s0 := oK) ?_ rfl rfl rfl rfl rfl rfl)
    | (dsimp only; split)

theorem execRowfn_kept {rK : Lic} {oK : State} {s : State} (hK : Kept rK oK s) {site : Nat} {stream : Nat} {e : MemErr} :
 KeptR rK oK (execRowfn site stream e s) := by
  unfold execRowfn
  repeat' first
    | with_reducible assumption
    | with_reducible apply KeptR.next
    | (refine fun (uK : State) (hvK : Kept _ _ _) => ?_)
    | (refine fun (uK : State) _ (hvK : Kept _ _ _) => ?_)
    | (refine fun (uK : State) _ _ (hvK : Kept _ _ _) => ?_)
    | with_reducible apply State.descErrs_kept
    | with_reducible apply State.runDesc_kept
    | with_reducible apply State.runRowfn_kept
    | (with_reducible refine Kept.mk' (r := rK) (s0 := oK) ?_ rfl rfl rfl rfl rfl rfl)
    | (dsimp only; split)

theorem execGather_kept {rK : Lic} {oK : State} {s : State} (hK : Kept rK oK s) {site : Nat} {e : MemErr} :
 KeptR rK oK (execGather site e s) := by
  unfold execGather
  repeat' first
    | with_reducible assumption
    | with_reducible apply KeptR.next
    | (refine fun (uK : State) (hvK : Kept _ _ _) => ?_)
    | (refine fun (uK : State) _ (hvK : Kept _ _ _) => ?_)
    | (refine fun (uK : State) _ _ (hvK : Kept _ _ _) => ?_)
    | with_reducible apply State.descErrs_kept
    | with_reducible apply State.runDesc_kept
    | with_reducible apply State.runGather_kept
    | (with_reducible refine Kept.mk' (r := rK) (s0 := oK) ?_ rfl rfl rfl rfl rfl rfl)
    | (dsimp only; split)

theorem execScatter_kept {rK : Lic} {oK : State} {s : State} (hK : Kept rK oK s) {site : Nat} {e : MemErr} :
 KeptR rK oK (execScatter site e s) := by
  unfold execScatter
  repeat' first
    | with_reducible assumption
    | with_reducible apply KeptR.next
    | (refine fun (uK : State) (hvK : Kept _ _ _) => ?_)
    | (refine fun (uK : State) _ (hvK : Kept _ _ _) => ?_)
    | (refine fun (uK : State) _ _ (hvK : Kept _ _ _) => ?_)
    | with_reducible apply State.descErrs_kept
    | with_reducible apply State.runDesc_kept
    | with_reducible apply State.runScatter_kept
    | (with_reducible refine Kept.mk' (r := rK) (s0 := oK) ?_ rfl rfl rfl rfl rfl rfl)
    | (dsimp only; split)

theorem execCopy_kept {rK : Lic} {oK : State} {s : State} (hK : Kept rK oK s) {site : Nat} {e : MemErr} :
 KeptR rK oK (execCopy site e s) := by
  unfold execCopy
  repeat' first
    | with_reducible assumption
    | with_reducible apply KeptR.next
    | (refine fun (uK : State) (hvK : Kept _ _ _) => ?_)
    | (refine fun (uK : State) _ (hvK : Kept _ _ _) => ?_)
    | (refine fun (uK : State) _ _ (hvK : Kept _ _ _) => ?_)
    | with_reducible apply State.descErrs_kept
    | with_reducible apply State.runCopy_kept
    | with_reducible apply State.runDesc_kept
    | (with_reducible refine Kept.mk' (r := rK) (s0 := oK) ?_ rfl rfl rfl rfl rfl rfl)
    | (dsimp only; split)

theorem execKvAppend_kept {rK : Lic} {oK : State} {s : State} (hK : Kept rK oK s) {site : Nat} {e : MemErr} :
 KeptR rK oK (execKvAppend site e s) := by
  unfold execKvAppend
  repeat' first
    | with_reducible assumption
    | with_reducible apply KeptR.next
    | (refine fun (uK : State) (hvK : Kept _ _ _) => ?_)
    | (refine fun (uK : State) _ (hvK : Kept _ _ _) => ?_)
    | (refine fun (uK : State) _ _ (hvK : Kept _ _ _) => ?_)
    | with_reducible apply State.descErrs_kept
    | with_reducible apply State.runDesc_kept
    | with_reducible apply State.runKvAppend_kept
    | (with_reducible refine Kept.mk' (r := rK) (s0 := oK) ?_ rfl rfl rfl rfl rfl rfl)
    | (dsimp only; split)

theorem execKvAttend_kept {rK : Lic} {oK : State} {s : State} (hK : Kept rK oK s) {site : Nat} {e : MemErr} :
 KeptR rK oK (execKvAttend site e s) := by
  unfold execKvAttend
  repeat' first
    | with_reducible assumption
    | with_reducible apply KeptR.next
    | (refine fun (uK : State) (hvK : Kept _ _ _) => ?_)
    | (refine fun (uK : State) _ (hvK : Kept _ _ _) => ?_)
    | (refine fun (uK : State) _ _ (hvK : Kept _ _ _) => ?_)
    | with_reducible apply State.descErrs_kept
    | with_reducible apply State.runDesc_kept
    | with_reducible apply State.runKvAttend_kept
    | (with_reducible refine Kept.mk' (r := rK) (s0 := oK) ?_ rfl rfl rfl rfl rfl rfl)
    | (dsimp only; split)

theorem execKvSample_kept {rK : Lic} {oK : State} {s : State} (hK : Kept rK oK s) {site : Nat} {e : MemErr} :
 KeptR rK oK (execKvSample site e s) := by
  unfold execKvSample
  repeat' first
    | with_reducible assumption
    | with_reducible apply KeptR.next
    | (refine fun (uK : State) (hvK : Kept _ _ _) => ?_)
    | (refine fun (uK : State) _ (hvK : Kept _ _ _) => ?_)
    | (refine fun (uK : State) _ _ (hvK : Kept _ _ _) => ?_)
    | with_reducible apply State.descErrs_kept
    | with_reducible apply State.runDesc_kept
    | with_reducible apply State.runKvSample_kept
    | (with_reducible refine Kept.mk' (r := rK) (s0 := oK) ?_ rfl rfl rfl rfl rfl rfl)
    | (dsimp only; split)

end Sys2Proof.Machine
end

