-- ==== Sys2Proof/Laws/KeptInput.lean ====
section
/-! SUPPORT. What the operations of Machine/Input.lean keep (Laws/Kept.lean). -/

set_option linter.unusedTactic false
set_option linter.unreachableTactic false
set_option linter.unusedVariables false

namespace Sys2Proof.Machine

theorem State.setInp_kept {rK : Lic} {oK : State} {s : State} (hK : Kept rK oK s) {f : InpSt → InpSt} :
 Kept rK oK (State.setInp s f) := by
  unfold State.setInp
  repeat' first
    | with_reducible assumption
    | (with_reducible refine Kept.mk' (r := rK) (s0 := oK) ?_ rfl rfl rfl rfl rfl rfl)

theorem execInputChargeStart_kept {rK : Lic} {oK : State} {s : State} (hK : Kept rK oK s) {t : Nat} :
 KeptR rK oK (execInputChargeStart t s) := by
  unfold execInputChargeStart
  repeat' first
    | with_reducible assumption
    | with_reducible apply KeptR.next
    | with_reducible apply State.at_kept
    | with_reducible apply State.setInp_kept
    | (dsimp only; split)

theorem execChargeTimeout_kept {rK : Lic} {oK : State} {s : State} (hK : Kept rK oK s) {t : Nat} :
 KeptR rK oK (execChargeTimeout t s) := by
  unfold execChargeTimeout
  repeat' first
    | with_reducible assumption
    | with_reducible apply KeptR.next
    | with_reducible apply State.at_kept
    | with_reducible apply State.setInp_kept
    | (dsimp only; split)

theorem execChargeRetry_kept {rK : Lic} {oK : State} {s : State} (hK : Kept rK oK s) {t : Nat} :
 KeptR rK oK (execChargeRetry t s) := by
  unfold execChargeRetry
  repeat' first
    | with_reducible assumption
    | with_reducible apply KeptR.next
    | with_reducible apply State.at_kept
    | with_reducible apply State.setInp_kept
    | (dsimp only; split)

theorem execInputPowerFail_kept {rK : Lic} {oK : State} {s : State} (hK : Kept rK oK s) {cause : Nat} {v : Nat} {w : Nat} {t : Nat} :
 KeptR rK oK (execInputPowerFail cause v w t s) := by
  unfold execInputPowerFail
  repeat' first
    | with_reducible assumption
    | with_reducible apply KeptR.next
    | (with_reducible refine Kept.foldl ?_ (fun vK eK hvK => ?_))
    | with_reducible apply State.at_kept
    | with_reducible apply State.domDown_kept
    | with_reducible apply State.setInp_kept
    | with_reducible apply State.tickFault_kept
    | (dsimp only; split)

theorem execHoldupExpiry_kept {oK : State} {s : State} (hK : Kept .reset oK s) {t : Nat} :
 KeptR .reset oK (execHoldupExpiry t s) := by
  unfold execHoldupExpiry
  repeat' first
    | with_reducible assumption
    | with_reducible apply KeptR.next
    | with_reducible apply State.at_kept
    | with_reducible apply State.panelReset_kept
    | with_reducible apply State.setInp_kept
    | with_reducible apply State.setReg_kept
    | decide
    | (with_reducible refine Kept.mk' (r := .reset) (s0 := oK) ?_ rfl rfl rfl rfl rfl rfl; first | with_reducible assumption | with_reducible apply State.at_kept | with_reducible apply State.panelReset_kept | with_reducible apply State.setInp_kept | with_reducible apply State.setReg_kept)
    | (dsimp only; split)

theorem execStandbyRailLoss_kept {rK : Lic} {oK : State} {s : State} (hK : Kept rK oK s) {t : Nat} :
 KeptR rK oK (execStandbyRailLoss t s) := by
  unfold execStandbyRailLoss
  repeat' first
    | with_reducible assumption
    | with_reducible apply KeptR.next
    | with_reducible apply State.at_kept
    | with_reducible apply State.jrnlStat_kept
    | with_reducible apply State.setInp_kept
    | with_reducible apply State.setReg_kept
    | decide
    | (with_reducible refine Kept.mk' (r := rK) (s0 := oK) ?_ rfl rfl rfl rfl rfl rfl)

theorem execPcieLinkUp_kept {rK : Lic} {oK : State} {s : State} (hK : Kept rK oK s) {port : Nat} {t : Nat} :
 KeptR rK oK (execPcieLinkUp port t s) := by
  unfold execPcieLinkUp
  repeat' first
    | with_reducible assumption
    | with_reducible apply KeptR.next
    | with_reducible apply State.at_kept
    | with_reducible apply State.hubLost_kept
    | with_reducible apply State.portUp_kept
    | (dsimp only; split)

theorem State.loadPortLost_kept {rK : Lic} {oK : State} {s : State} (hK : Kept rK oK s) {port : Nat} :
 Kept rK oK (State.loadPortLost s port) := by
  unfold State.loadPortLost
  repeat' first
    | with_reducible assumption
    | split
    | with_reducible apply State.rejectImage_kept
    | (with_reducible refine Kept.mk' (r := rK) (s0 := oK) ?_ rfl rfl rfl rfl rfl rfl)
    | (dsimp only; split)

theorem execPortDown_kept {rK : Lic} {oK : State} {s : State} (hK : Kept rK oK s) {port : Nat} {cause : Nat} {t : Nat} :
 KeptR rK oK (execPortDown port cause t s) := by
  unfold execPortDown
  repeat' first
    | with_reducible assumption
    | split
    | with_reducible apply KeptR.next
    | with_reducible apply State.at_kept
    | with_reducible apply State.loadPortLost_kept
    | with_reducible apply State.portDown_kept

end Sys2Proof.Machine
end

