-- ==== Sys2Proof/Laws/KeptStroke.lean ====
section
/-! SUPPORT. What the operations of Machine/Stroke.lean keep (Laws/Kept.lean). -/

set_option linter.unusedTactic false
set_option linter.unreachableTactic false
set_option linter.unusedVariables false

namespace Sys2Proof.Machine

theorem State.journalLate_kept {rK : Lic} {oK : State} {s : State} (hK : Kept rK oK s) {n : Nat} :
 Kept rK oK (State.journalLate s n) := by
  unfold State.journalLate
  repeat' first
    | with_reducible assumption
    | split
    | with_reducible apply State.raise_kept
    | with_reducible apply State.satFld_kept
    | with_reducible apply State.setFld_kept
    | with_reducible apply State.updPart_kept
    | with_reducible exact lt_leqReg _
    | (dsimp only; split)

theorem State.sendEnd_kept {rK : Lic} {oK : State} {s : State} (hK : Kept rK oK s) {n : Nat} :
 Kept rK oK (State.sendEnd s n) := by
  unfold State.sendEnd
  repeat' first
    | with_reducible assumption
    | with_reducible apply State.pairSend_kept
    | with_reducible apply State.updPp_kept

theorem State.meetEnds_kept {rK : Lic} {oK : State} {s : State} (hK : Kept rK oK s) {n : Nat} {a : EndArg} {b : EndArg} :
 Kept rK oK (State.meetEnds s n a b) := by
  unfold State.meetEnds
  repeat' first
    | with_reducible assumption
    | with_reducible apply State.bumpBy_kept
    | with_reducible apply State.raise_kept
    | with_reducible apply State.sticky_kept
    | with_reducible apply State.updPp_kept
    | decide
    | (dsimp only; split)

theorem State.deliverToken_kept {rK : Lic} {oK : State} {s : State} (hK : Kept rK oK s) {n : Nat} {x : Placed} {o : AdmOp} :
 Kept rK oK (State.deliverToken s n x o) := by
  unfold State.deliverToken
  repeat' first
    | with_reducible assumption
    | split
    | with_reducible apply State.bump_kept
    | with_reducible apply State.complete_kept
    | with_reducible apply State.finalOp_kept
    | with_reducible apply State.popOp_kept
    | with_reducible apply State.setPpwr_kept
    | with_reducible apply State.setStream_kept
    | with_reducible apply State.startOps_kept
    | with_reducible apply State.unreserve_kept
    | decide
    | (dsimp only; split)

theorem State.deliverChunk_kept {rK : Lic} {oK : State} {s : State} (hK : Kept rK oK s) {n : Nat} {x : Placed} {o : AdmOp} :
 Kept rK oK (State.deliverChunk s n x o) := by
  unfold State.deliverChunk
  repeat' first
    | with_reducible assumption
    | with_reducible apply State.bumpBy_kept
    | with_reducible apply State.finalOp_kept
    | with_reducible apply State.popOp_kept
    | with_reducible apply State.setStream_kept
    | with_reducible apply State.startOps_kept
    | with_reducible apply State.updStat_kept
    | decide
    | (dsimp only; split)

theorem State.deliverRebuild_kept {rK : Lic} {oK : State} {s : State} (hK : Kept rK oK s) {n : Nat} {x : Placed} :
 Kept rK oK (State.deliverRebuild s n x) := by
  unfold State.deliverRebuild
  repeat' first
    | with_reducible assumption
    | with_reducible apply State.bgDone_kept
    | with_reducible apply State.updStream_kept
    | (with_reducible refine Kept.mk' (r := rK) (s0 := oK) ?_ rfl rfl rfl rfl rfl rfl; first | with_reducible assumption | with_reducible apply State.bgDone_kept | with_reducible apply State.updStream_kept)
    | (dsimp only; split)

theorem State.withholdStream_kept {rK : Lic} {oK : State} {s : State} (hK : Kept rK oK s) {n : Nat} {x : Placed} {reason : Nat} {differ : Bool} :
 Kept rK oK (State.withholdStream s n x reason differ) := by
  unfold State.withholdStream
  repeat' first
    | with_reducible assumption
    | split
    | with_reducible apply State.bump_kept
    | with_reducible apply State.raise_kept
    | with_reducible apply State.setStream_kept
    | with_reducible apply State.unreserve_kept
    | with_reducible apply State.updPp_kept
    | with_reducible apply State.updStat_kept
    | decide
    | (dsimp only; split)

theorem State.commitPlaced_kept {rK : Lic} {oK : State} {s : State} (hK : Kept rK oK s) {n : Nat} {w : List Nat} {differ : List Nat} {x : Placed} :
 Kept rK oK (State.commitPlaced s n w differ x) := by
  unfold State.commitPlaced
  repeat' first
    | with_reducible assumption
    | split
    | with_reducible apply State.deliverChunk_kept
    | with_reducible apply State.deliverRebuild_kept
    | with_reducible apply State.deliverToken_kept
    | with_reducible apply State.updPp_kept
    | with_reducible apply State.withholdStream_kept
    | (dsimp only; split)

theorem State.drainStream_kept {rK : Lic} {oK : State} {s : State} (hK : Kept rK oK s) {n : Nat} {i : Nat} {status : Nat} {code : Nat} {ops : List AdmOp} :
 Kept rK oK (State.drainStream s n i status code ops) := by
  unfold State.drainStream
  repeat' first
    | with_reducible assumption
    | split
    | (with_reducible refine Kept.foldl ?_ (fun vK eK hvK => ?_))
    | with_reducible apply State.dropChild_kept
    | with_reducible apply State.finalOp_kept
    | with_reducible apply State.setStream_kept
    | with_reducible apply State.unreserve_kept

theorem State.endByFault_kept {rK : Lic} {oK : State} {s : State} (hK : Kept rK oK s) {n : Nat} {i : Nat} :
 Kept rK oK (State.endByFault s n i) := by
  unfold State.endByFault
  repeat' first
    | with_reducible assumption
    | split
    | with_reducible apply State.bump_kept
    | with_reducible apply State.drainStream_kept
    | with_reducible apply State.setStream_kept
    | with_reducible apply State.sticky_kept
    | with_reducible apply State.updStat_kept
    | with_reducible apply State.updStream_kept
    | decide
    | (dsimp only; split)

theorem State.endByClose_kept {rK : Lic} {oK : State} {s : State} (hK : Kept rK oK s) {n : Nat} {i : Nat} :
 Kept rK oK (State.endByClose s n i) := by
  unfold State.endByClose
  repeat' first
    | with_reducible assumption
    | with_reducible apply State.drainStream_kept
    | with_reducible apply State.updStream_kept
    | (dsimp only; split)

theorem State.commitStroke_kept {rK : Lic} {oK : State} {s : State} (hK : Kept rK oK s) {n : Nat} :
 Kept rK oK (State.commitStroke s n) := by
  unfold State.commitStroke
  repeat' first
    | with_reducible assumption
    | split
    | (with_reducible refine Kept.foldl ?_ (fun vK eK hvK => ?_))
    | with_reducible apply State.commitPlaced_kept
    | with_reducible apply State.diverge_kept
    | with_reducible apply State.endByClose_kept
    | with_reducible apply State.endByFault_kept
    | with_reducible apply State.journalLate_kept
    | with_reducible apply State.meetEnds_kept
    | with_reducible apply State.record_kept
    | with_reducible apply State.releaseHeld_kept
    | with_reducible apply State.sealHeldAtEnd_kept
    | with_reducible apply State.updPart_kept

theorem State.tryFinish_kept {rK : Lic} {oK : State} {s : State} (hK : Kept rK oK s) {n : Nat} :
 Kept rK oK (State.tryFinish s n) := by
  unfold State.tryFinish
  repeat' first
    | with_reducible assumption
    | split
    | with_reducible apply State.acked_kept
    | with_reducible apply State.bump_kept
    | with_reducible apply State.commitStroke_kept
    | decide
    | (dsimp only; split)

theorem State.sendDelta_kept {rK : Lic} {oK : State} {s : State} (hK : Kept rK oK s) {n : Nat} :
 Kept rK oK (State.sendDelta s n) := by
  unfold State.sendDelta
  repeat' first
    | with_reducible assumption
    | with_reducible apply State.bumpBy_kept
    | with_reducible apply State.pairSend_kept
    | with_reducible apply State.takeFree_kept
    | decide

theorem State.lastSite_kept {rK : Lic} {oK : State} {s : State} (hK : Kept rK oK s) {n : Nat} :
 Kept rK oK (State.lastSite s n) := by
  unfold State.lastSite
  repeat' first
    | with_reducible assumption
    | with_reducible apply State.sealHeldAtEnd_kept
    | split
    | with_reducible apply State.sendDelta_kept
    | with_reducible apply State.sendEnd_kept
    | with_reducible apply State.tryFinish_kept
    | (with_reducible refine Kept.mk' (r := rK) (s0 := oK) ?_ rfl rfl rfl rfl rfl rfl)
    | (dsimp only; split)

theorem execSiteEndMarker_kept {rK : Lic} {oK : State} {s : State} (hK : Kept rK oK s) {site : Nat} {t : Nat} :
 KeptR rK oK (execSiteEndMarker site t s) := by
  unfold execSiteEndMarker
  repeat' first
    | with_reducible assumption
    | split
    | with_reducible apply KeptR.next
    | with_reducible apply State.at_kept
    | with_reducible apply State.lastSite_kept
    | with_reducible apply State.scaleUpdate_kept
    | with_reducible apply State.updPart_kept
    | (dsimp only; split)

theorem State.openRun_kept {rK : Lic} {oK : State} {s : State} (hK : Kept rK oK s) {n : Nat} :
 Kept rK oK (State.openRun s n) := by
  unfold State.openRun
  repeat' first
    | with_reducible assumption
    | with_reducible apply State.domRequestAt_kept
    | split
    | (with_reducible refine Kept.foldl ?_ (fun vK eK hvK => ?_))
    | with_reducible apply State.domRequest_kept
    | with_reducible apply State.lastSite_kept
    | with_reducible apply State.scaleUpdate_kept
    | with_reducible apply State.updPart_kept
    | (with_reducible refine Kept.mk' (r := rK) (s0 := oK) ?_ rfl rfl rfl rfl rfl rfl)
    | (dsimp only; split)

theorem execRunOpen_kept {rK : Lic} {oK : State} {s : State} (hK : Kept rK oK s) {t : Nat} :
 KeptR rK oK (execRunOpen t s) := by
  unfold execRunOpen
  repeat' first
    | with_reducible assumption
    | with_reducible apply State.closeIngest_kept
    | with_reducible apply State.setGate_kept
    | split
    | with_reducible apply KeptR.next
    | (with_reducible refine Kept.foldl ?_ (fun vK eK hvK => ?_))
    | with_reducible apply State.at_kept
    | with_reducible apply State.idleStroke_kept
    | with_reducible apply State.openRun_kept
    | with_reducible apply State.setPwr1_kept
    | (with_reducible refine Kept.mk' (r := rK) (s0 := oK) ?_ rfl rfl rfl rfl rfl rfl)
    | (dsimp only; split)

theorem State.mergeEnded_kept {rK : Lic} {oK : State} {s : State} (hK : Kept rK oK s) {n : Nat} :
 Kept rK oK (State.mergeEnded s n) := by
  unfold State.mergeEnded
  repeat' first
    | with_reducible assumption
    | split
    | with_reducible apply State.updPart_kept

theorem State.emitCompls_kept {rK : Lic} {oK : State} {s : State} (hK : Kept rK oK s) {n : Nat} :
 Kept rK oK (State.emitCompls s n) := by
  unfold State.emitCompls
  repeat' first
    | with_reducible assumption
    | split
    | with_reducible apply State.bumpBy_kept
    | with_reducible apply State.updPart_kept
    | with_reducible apply State.writeCompls_kept
    | decide

theorem State.closeReplay_kept {rK : Lic} {oK : State} {s : State} (hK : Kept rK oK s) {n : Nat} {odig : Nat} :
 Kept rK oK (State.closeReplay s n odig) := by
  unfold State.closeReplay
  repeat' first
    | with_reducible assumption
    | split
    | with_reducible apply State.diverge_kept
    | with_reducible apply State.updRec_kept
    | (dsimp only; split)

theorem State.emitStroke_kept {rK : Lic} {oK : State} {s : State} (hK : Kept rK oK s) {n : Nat} :
 Kept rK oK (State.emitStroke s n) := by
  unfold State.emitStroke
  repeat' first
    | with_reducible assumption
    | split
    | with_reducible apply State.closeReplay_kept
    | with_reducible apply State.emitCompls_kept
    | with_reducible apply State.mergeEnded_kept
    | with_reducible apply State.record_kept
    | with_reducible apply State.updPart_kept
    | with_reducible apply State.updRec_kept
    | with_reducible apply State.writeRing_kept
    | (dsimp only; split)

theorem execEmitOpen_kept {rK : Lic} {oK : State} {s : State} (hK : Kept rK oK s) {n : Nat} {t : Nat} :
 KeptR rK oK (execEmitOpen n t s) := by
  unfold execEmitOpen
  repeat' first
    | with_reducible assumption
    | split
    | with_reducible apply KeptR.next
    | with_reducible apply State.at_kept
    | with_reducible apply State.emitStroke_kept
    | with_reducible apply State.updPart_kept

theorem State.judge_kept {rK : Lic} {oK : State} {s : State} (hK : Kept rK oK s) {n : Nat} :
 Kept rK oK (State.judge s n) := by
  unfold State.judge
  repeat' first
    | with_reducible assumption
    | split
    | with_reducible apply State.bump_kept
    | with_reducible apply State.raise_kept
    | with_reducible apply State.setFld_kept
    | with_reducible apply State.sticky_kept
    | with_reducible apply State.updPart_kept
    | with_reducible refine lt_add_reg ?_
    | decide
    | (dsimp only; split)

theorem execGuardStart_kept {rK : Lic} {oK : State} {s : State} (hK : Kept rK oK s) {t : Nat} :
 KeptR rK oK (execGuardStart t s) := by
  unfold execGuardStart
  repeat' first
    | with_reducible assumption
    | split
    | with_reducible apply KeptR.next
    | (with_reducible refine Kept.foldl ?_ (fun vK eK hvK => ?_))
    | with_reducible apply State.at_kept
    | with_reducible apply State.judge_kept
    | with_reducible apply State.updPart_kept
    | (dsimp only; split)

theorem State.consumeTick_kept {rK : Lic} {oK : State} {s : State} (hK : Kept rK oK s) {n : Nat} :
 Kept rK oK (State.consumeTick s n) := by
  unfold State.consumeTick
  repeat' first
    | with_reducible assumption
    | split
    | (with_reducible refine Kept.foldl ?_ (fun vK eK hvK => ?_))
    | with_reducible apply State.bump_kept
    | with_reducible apply State.mergeFinish_kept
    | with_reducible apply State.raise_kept
    | with_reducible apply State.sendIngest_kept
    | with_reducible apply State.updPart_kept
    | decide
    | (dsimp only; split)

end Sys2Proof.Machine
end

