-- ==== Sys2Proof/Laws/KeptPair.lean ====
section
/-! SUPPORT. What the operations of Machine/Pair.lean keep (Laws/Kept.lean). -/

set_option linter.unusedTactic false
set_option linter.unreachableTactic false
set_option linter.unusedVariables false

namespace Sys2Proof.Machine

theorem State.recControl_kept {rK : Lic} {oK : State} {s : State} (hK : Kept rK oK s) {kind : Nat} {h : PairHdr} :
 Kept rK oK (State.recControl s kind h) := by
  unfold State.recControl
  repeat' first
    | with_reducible assumption
    | with_reducible apply State.recordAll_kept

theorem State.laneDown_kept {rK : Lic} {oK : State} {s : State} (hK : Kept rK oK s) {lane : Nat} {cause : Nat} :
 Kept rK oK (State.laneDown s lane cause) := by
  unfold State.laneDown
  repeat' first
    | with_reducible assumption
    | split
    | with_reducible apply State.endResync_kept
    | with_reducible apply State.raise_kept
    | with_reducible apply State.setFld_kept
    | decide
    | (dsimp only; split)

theorem execPairLaneDown_kept {rK : Lic} {oK : State} {s : State} (hK : Kept rK oK s) {lane : Nat} {cause : Nat} {t : Nat} :
 KeptR rK oK (execPairLaneDown lane cause t s) := by
  unfold execPairLaneDown
  repeat' first
    | with_reducible assumption
    | with_reducible apply KeptR.next
    | with_reducible apply State.at_kept
    | with_reducible apply State.laneDown_kept

theorem execPairLaneUp_kept {rK : Lic} {oK : State} {s : State} (hK : Kept rK oK s) {lane : Nat} {t : Nat} :
 KeptR rK oK (execPairLaneUp lane t s) := by
  unfold execPairLaneUp
  repeat' first
    | with_reducible assumption
    | split
    | with_reducible apply KeptR.next
    | with_reducible apply State.at_kept
    | with_reducible apply State.hubLost_kept
    | with_reducible apply State.setFld_kept
    | decide
    | (with_reducible refine Kept.mk' (r := rK) (s0 := oK) ?_ rfl rfl rfl rfl rfl rfl)

theorem execPairNak_kept {rK : Lic} {oK : State} {s : State} (hK : Kept rK oK s) {h : PairHdr} {seq : Nat} {t : Nat} :
 KeptR rK oK (execPairNak h seq t s) := by
  unfold execPairNak
  repeat' first
    | with_reducible assumption
    | split
    | with_reducible apply KeptR.next
    | with_reducible apply State.pairRx_kept
    | with_reducible apply State.replayFrom_kept

theorem execPairReplayTimeout_kept {rK : Lic} {oK : State} {s : State} (hK : Kept rK oK s) {lane : Nat} {t : Nat} :
 KeptR rK oK (execPairReplayTimeout lane t s) := by
  unfold execPairReplayTimeout
  repeat' first
    | with_reducible assumption
    | split
    | with_reducible apply KeptR.next
    | with_reducible apply State.at_kept
    | with_reducible apply State.bump_kept
    | with_reducible apply State.emit_kept
    | with_reducible apply State.laneDown_kept
    | decide
    | (with_reducible refine Kept.mk' (r := rK) (s0 := oK) ?_ rfl rfl rfl rfl rfl rfl)
    | (dsimp only; split)

theorem State.sendHello_kept {rK : Lic} {oK : State} {s : State} (hK : Kept rK oK s) :
 Kept rK oK (State.sendHello s) := by
  unfold State.sendHello
  repeat' first
    | with_reducible assumption
    | with_reducible apply State.pairSend_kept

theorem State.meetHello_kept {rK : Lic} {oK : State} {s : State} (hK : Kept rK oK s) {h : PairHdr} {b : HelloArg} :
 Kept rK oK (State.meetHello s h b) := by
  unfold State.meetHello
  repeat' first
    | with_reducible assumption
    | split
    | with_reducible apply State.pairFault_kept
    | with_reducible apply State.pairSend_kept
    | with_reducible apply State.quarantine_kept
    | with_reducible apply State.recordAll_kept
    | with_reducible apply State.setFld_kept
    | with_reducible apply State.setReg_kept
    | with_reducible apply State.setRole_kept
    | with_reducible apply State.sticky_kept
    | decide
    | (with_reducible refine Kept.mk' (r := rK) (s0 := oK) ?_ rfl rfl rfl rfl rfl rfl)
    | (dsimp only; split)

theorem execPairHello_kept {rK : Lic} {oK : State} {s : State} (hK : Kept rK oK s) {h : PairHdr} {b : HelloArg} {t : Nat} :
 KeptR rK oK (execPairHello h b t s) := by
  unfold execPairHello
  repeat' first
    | with_reducible assumption
    | split
    | with_reducible apply KeptR.next
    | with_reducible apply State.meetHello_kept
    | with_reducible apply State.pairRx_kept

theorem execPairHeartbeat_kept {rK : Lic} {oK : State} {s : State} (hK : Kept rK oK s) {h : PairHdr} {role : Nat} {quads : List Nat} {skew : Int} {t : Nat} :
 KeptR rK oK (execPairHeartbeat h role quads skew t s) := by
  unfold execPairHeartbeat
  repeat' first
    | with_reducible assumption
    | split
    | with_reducible apply KeptR.next
    | with_reducible apply State.pairFault_kept
    | with_reducible apply State.pairRx_kept
    | with_reducible apply State.setReg_kept
    | decide
    | (with_reducible refine Kept.mk' (r := rK) (s0 := oK) ?_ rfl rfl rfl rfl rfl rfl)
    | (dsimp only; split)

theorem State.adoptStream_kept {rK : Lic} {oK : State} {s : State} (hK : Kept rK oK s) {n : Nat} {i : Nat} :
 Kept rK oK (State.adoptStream s n i) := by
  unfold State.adoptStream
  repeat' first
    | with_reducible assumption
    | split
    | with_reducible apply State.setStream_kept
    | with_reducible apply State.updQp_kept
    | (dsimp only; split)

theorem State.partnerDead_kept {rK : Lic} {oK : State} {s : State} (hK : Kept rK oK s) :
 Kept rK oK (State.partnerDead s) := by
  unfold State.partnerDead
  repeat' first
    | with_reducible assumption
    | (with_reducible refine Kept.foldl ?_ (fun vK eK hvK => ?_))
    | with_reducible apply State.adoptStream_kept
    | with_reducible apply State.bump_kept
    | with_reducible apply State.emitStroke_kept
    | with_reducible apply State.endResync_kept
    | with_reducible apply State.leaveStep_kept
    | with_reducible apply State.pairFault_kept
    | with_reducible apply State.setEpoch_kept
    | with_reducible apply State.setFld_kept
    | with_reducible apply State.setReg_kept
    | with_reducible apply State.setRole_kept
    | with_reducible apply State.tryFinish_kept
    | with_reducible apply State.updPart_kept
    | decide
    | (dsimp only; split)

theorem execPairPartnerDead_kept {rK : Lic} {oK : State} {s : State} (hK : Kept rK oK s) {t : Nat} :
 KeptR rK oK (execPairPartnerDead t s) := by
  unfold execPairPartnerDead
  repeat' first
    | with_reducible assumption
    | split
    | with_reducible apply KeptR.next
    | with_reducible apply State.at_kept
    | with_reducible apply State.partnerDead_kept

theorem State.applyIngest_kept {rK : Lic} {oK : State} {s : State} (hK : Kept rK oK s) {n : Nat} {a : IngestArg} :
 Kept rK oK (State.applyIngest s n a) := by
  unfold State.applyIngest
  repeat' first
    | with_reducible assumption
    | split
    | (with_reducible refine Kept.foldl ?_ (fun vK eK hvK => ?_))
    | with_reducible apply State.admitOp_kept
    | with_reducible apply State.bucketShort_kept
    | with_reducible apply State.idleStroke_kept
    | with_reducible apply State.placeAll_kept
    | with_reducible apply State.readyOp_kept
    | with_reducible apply State.setGate_kept
    | with_reducible apply State.setStream_kept
    | with_reducible apply State.updPart_kept
    | with_reducible apply State.updQp_kept
    | (dsimp only; split)

theorem execPairIngest_kept {rK : Lic} {oK : State} {s : State} (hK : Kept rK oK s) {h : PairHdr} {a : IngestArg} {t : Nat} :
 KeptR rK oK (execPairIngest h a t s) := by
  unfold execPairIngest
  repeat' first
    | with_reducible assumption
    | split
    | with_reducible apply KeptR.next
    | with_reducible apply State.applyIngest_kept
    | with_reducible apply State.pairRx_kept

theorem execIngestWait_kept {rK : Lic} {oK : State} {s : State} (hK : Kept rK oK s) {n : Nat} {t : Nat} :
 KeptR rK oK (execIngestWait n t s) := by
  unfold execIngestWait
  repeat' first
    | with_reducible assumption
    | split
    | with_reducible apply KeptR.next
    | with_reducible apply State.at_kept
    | with_reducible apply State.bump_kept
    | with_reducible apply State.updPart_kept
    | decide

theorem State.lowerTo_kept {rK : Lic} {oK : State} {s : State} (hK : Kept rK oK s) {n : Nat} {e : Nat} :
 Kept rK oK (State.lowerTo s n e) := by
  unfold State.lowerTo
  repeat' first
    | with_reducible assumption
    | (with_reducible refine Kept.foldl ?_ (fun vK eK hvK => ?_))
    | with_reducible apply State.setPpwr_kept
    | with_reducible apply State.setPwr1_kept
    | (dsimp only; split)

theorem State.holdWith_kept {rK : Lic} {oK : State} {s : State} (hK : Kept rK oK s) {n : Nat} {hold : Bool} :
 Kept rK oK (State.holdWith s n hold) := by
  unfold State.holdWith
  repeat' first
    | with_reducible assumption
    | split
    | with_reducible apply State.hold_kept
    | with_reducible apply State.setFld_kept
    | with_reducible apply State.unhold_kept
    | with_reducible apply State.updPart_kept
    | with_reducible refine lt_add_reg ?_
    | decide

theorem execPairPace_kept {rK : Lic} {oK : State} {s : State} (hK : Kept rK oK s) {h : PairHdr} {entry : Nat} {hold : Bool} {t : Nat} :
 KeptR rK oK (execPairPace h entry hold t s) := by
  unfold execPairPace
  repeat' first
    | with_reducible assumption
    | split
    | with_reducible apply KeptR.next
    | with_reducible apply State.hold_kept
    | with_reducible apply State.holdWith_kept
    | with_reducible apply State.lowerTo_kept
    | with_reducible apply State.pairRx_kept
    | with_reducible apply State.updPp_kept

theorem execPaceTimeout_kept {rK : Lic} {oK : State} {s : State} (hK : Kept rK oK s) {n : Nat} {t : Nat} :
 KeptR rK oK (execPaceTimeout n t s) := by
  unfold execPaceTimeout
  repeat' first
    | with_reducible assumption
    | split
    | with_reducible apply KeptR.next
    | with_reducible apply State.at_kept
    | with_reducible apply State.lowerTo_kept
    | with_reducible apply State.updPp_kept

theorem execPairEnd_kept {rK : Lic} {oK : State} {s : State} (hK : Kept rK oK s) {h : PairHdr} {a : EndArg} {t : Nat} :
 KeptR rK oK (execPairEnd h a t s) := by
  unfold execPairEnd
  repeat' first
    | with_reducible assumption
    | split
    | with_reducible apply KeptR.next
    | with_reducible apply State.pairRx_kept
    | with_reducible apply State.tryFinish_kept
    | with_reducible apply State.updPp_kept

theorem State.clearStream_kept {rK : Lic} {oK : State} {s : State} (hK : Kept rK oK s) {n : Nat} {i : Nat} :
 Kept rK oK (State.clearStream s n i) := by
  unfold State.clearStream
  repeat' first
    | with_reducible assumption
    | (intro xK; first | (refine Kept.cut (r := rK) (s0 := oK) (x := xK) ?_ ?_; unfold xK) | skip)
    | lift_lets
    | (with_reducible refine Kept.foldl ?_ (fun vK eK hvK => ?_))
    | with_reducible apply State.dropFrame_kept
    | with_reducible apply State.freeStream_kept
    | with_reducible apply State.setStream_kept
    | with_reducible apply Walk.init_kept
    | (with_reducible refine Kept.mk' (r := rK) (s0 := oK) ?_ rfl rfl rfl rfl rfl rfl)

theorem State.putStream_kept {rK : Lic} {oK : State} {s : State} (hK : Kept rK oK s) {n : Nat} {i : Nat} {w : List Nat} :
 Kept rK oK (State.putStream s n i w) := by
  unfold State.putStream
  repeat' first
    | with_reducible assumption
    | split
    | with_reducible apply State.clearStream_kept
    | with_reducible apply State.freeStream_kept
    | with_reducible apply State.setStream_kept
    | with_reducible apply Walk.init_kept
    | (dsimp only; split)

theorem State.openTo_kept {rK : Lic} {oK : State} {s : State} (hK : Kept rK oK s) {p : Nat} {d : Nat} {want : Nat} {aR0 : Nat} :
 KeptO rK oK (State.openTo s p d want aR0) := by
  induction aR0 generalizing s with
  | zero =>
    simp only [State.openTo]
    split
    · exact KeptO.some hK
    · exact KeptO.none
  | succ nR ihK =>
    simp only [State.openTo]
    split
    · exact KeptO.some hK
    · refine KeptO.bind (fun u hu => KeptO.bind (fun z hz => ihK (State.addPage_kept ?_)))
      exact State.takeFrame_kept (KeptO.get (State.ensureLeaf_kept hK) hu) _ hz

theorem State.putRecord_kept {rK : Lic} {oK : State} {s : State} (hK : Kept rK oK s) {n : Nat} {i : Nat} {l : Nat} {pos : Nat} {x : Nat} :
 KeptO rK oK (State.putRecord s n i l pos x) := by
  unfold State.putRecord
  repeat' first
    | with_reducible assumption
    | (refine KeptO.get (State.openTo_kept ?_) (by with_reducible assumption))
    | with_reducible apply State.openTo_kept
    | with_reducible apply State.setLog_kept
    | (with_reducible refine Kept.mk' (r := rK) (s0 := oK) ?_ rfl rfl rfl rfl rfl rfl)
    | with_reducible refine KeptO.map ?_ (fun uK hvK => ?_)

theorem State.putToken_kept {rK : Lic} {oK s : State} (hK : Kept rK oK s) {n i pos tok : Nat} :
    KeptO rK oK (State.putToken s n i pos tok) := by
  unfold State.putToken
  refine KeptO.map ?_ (fun u hu => Kept.mk' hu rfl rfl rfl rfl rfl rfl)
  split
  · exact KeptO.some hK
  · exact KeptO.map2 (fun z hz => Kept.mk' (State.takeFrame_kept hK _ hz) rfl rfl rfl rfl rfl rfl)

theorem deltaItem_kept {rK : Lic} {oK : State} {y : State × List Nat} (hK : Kept rK oK y.1) {n : Nat} {i : Nat} {f : State → Option State} (hF_f : ∀ (uK : State), Kept rK oK uK → KeptO rK oK (f uK)) :
 Kept rK oK (deltaItem n i f y).1 := by
  unfold deltaItem
  repeat' first
    | with_reducible assumption
    | split
    | with_reducible apply State.clearStream_kept
    | with_reducible apply hF_f
    | (refine KeptO.get (hF_f _ ?_) (by with_reducible assumption))

theorem State.applyDelta_kept {rK : Lic} {oK : State} {s : State} (hK : Kept rK oK s) {n : Nat} {a : DeltaArg} :
 Kept rK oK (State.applyDelta s n a).1 := by
  unfold State.applyDelta
  repeat' first
    | with_reducible assumption
    | intro xK
    | (with_reducible refine Kept.foldl ?_ (fun vK eK hvK => ?_))
    | (with_reducible refine Kept.foldl1 ?_ (fun vK eK hvK => ?_))
    | (refine KeptO.get (State.putRecord_kept ?_) (by with_reducible assumption))
    | with_reducible apply State.putRecord_kept
    | with_reducible apply State.putStream_kept
    | (refine KeptO.get (State.putToken_kept ?_) (by with_reducible assumption))
    | with_reducible apply State.putToken_kept
    | with_reducible apply deltaItem_kept

theorem execPairDelta_kept {rK : Lic} {oK : State} {s : State} (hK : Kept rK oK s) {h : PairHdr} {a : DeltaArg} {t : Nat} :
 KeptR rK oK (execPairDelta h a t s) := by
  unfold execPairDelta
  repeat' first
    | with_reducible assumption
    | split
    | with_reducible apply KeptR.next
    | with_reducible apply State.applyDelta_kept
    | with_reducible apply State.pairRx_kept
    | with_reducible apply State.pairSend_kept

theorem execPairDeltaAck_kept {rK : Lic} {oK : State} {s : State} (hK : Kept rK oK s) {h : PairHdr} {refused : List Nat} {t : Nat} :
 KeptR rK oK (execPairDeltaAck h refused t s) := by
  unfold execPairDeltaAck
  repeat' first
    | with_reducible assumption
    | split
    | with_reducible apply KeptR.next
    | with_reducible apply State.acked_kept
    | with_reducible apply State.mark_kept
    | with_reducible apply State.pairFault_kept
    | with_reducible apply State.pairRx_kept
    | with_reducible apply State.tryFinish_kept
    | with_reducible apply State.updPp_kept

theorem execControlReset_kept {rK : Lic} {oK : State} {s : State} (hK : Kept rK oK s) {h : PairHdr} {t : Nat} :
 KeptR rK oK (execControlReset h t s) := by
  unfold execControlReset
  repeat' first
    | with_reducible assumption
    | split
    | with_reducible apply KeptR.next
    | with_reducible apply State.pairRx_kept
    | with_reducible apply State.recControl_kept
    | with_reducible apply State.resetPart_kept
    | with_reducible apply State.updPp_kept
    | (dsimp only; split)

theorem execControlQuarantine_kept {rK : Lic} {oK : State} {s : State} (hK : Kept rK oK s) {h : PairHdr} {t : Nat} :
 KeptR rK oK (execControlQuarantine h t s) := by
  unfold execControlQuarantine
  repeat' first
    | with_reducible assumption
    | split
    | with_reducible apply KeptR.next
    | with_reducible apply State.pairRx_kept
    | with_reducible apply State.quarantine_kept
    | with_reducible apply State.recControl_kept

theorem State.leavePair_kept {rK : Lic} {oK : State} {s : State} (hK : Kept rK oK s) :
 Kept rK oK (State.leavePair s) := by
  unfold State.leavePair
  repeat' first
    | with_reducible assumption
    | (with_reducible refine Kept.foldl ?_ (fun vK eK hvK => ?_))
    | with_reducible apply State.clearStream_kept
    | with_reducible apply State.endResync_kept
    | with_reducible apply State.leaveStep_kept
    | with_reducible apply State.setFld_kept
    | with_reducible apply State.setReg_kept
    | with_reducible apply State.setRole_kept
    | decide
    | (with_reducible refine Kept.mk' (r := rK) (s0 := oK) ?_ rfl rfl rfl rfl rfl rfl)

theorem execControlLeave_kept {rK : Lic} {oK : State} {s : State} (hK : Kept rK oK s) {h : PairHdr} {t : Nat} :
 KeptR rK oK (execControlLeave h t s) := by
  unfold execControlLeave
  repeat' first
    | with_reducible assumption
    | split
    | with_reducible apply KeptR.next
    | with_reducible apply State.leavePair_kept
    | with_reducible apply State.pairRx_kept
    | with_reducible apply State.recControl_kept
    | with_reducible apply State.setEpoch_kept

theorem execControlUpdate_kept {rK : Lic} {oK : State} {s : State} (hK : Kept rK oK s) {h : PairHdr} {banks : List (Nat × Nat)} {sets : List (Nat × Nat)} {t : Nat} :
 KeptR rK oK (execControlUpdate h banks sets t s) := by
  unfold execControlUpdate
  repeat' first
    | with_reducible assumption
    | split
    | with_reducible apply KeptR.next
    | with_reducible apply State.pairRx_kept
    | with_reducible apply State.recControl_kept
    | (with_reducible refine Kept.mk' (r := rK) (s0 := oK) ?_ rfl rfl rfl rfl rfl rfl)

theorem State.clearPaired_kept {rK : Lic} {oK : State} {s : State} (hK : Kept rK oK s) :
 Kept rK oK (State.clearPaired s) := by
  unfold State.clearPaired
  repeat' first
    | with_reducible assumption
    | (intro xK; first | (refine Kept.cut (r := rK) (s0 := oK) (x := xK) ?_ ?_; unfold xK) | skip)
    | lift_lets
    | (with_reducible refine Kept.foldl ?_ (fun vK eK hvK => ?_))
    | with_reducible apply State.clearStream_kept
    | with_reducible apply State.setSvc_kept
    | with_reducible apply State.updPart_kept
    | (with_reducible refine Kept.mk' (r := rK) (s0 := oK) ?_ rfl rfl rfl rfl rfl rfl)

theorem State.putItem_kept {rK : Lic} {oK : State} {s : State} (hK : Kept rK oK s) {x : SyncItem} :
 Kept rK oK (State.putItem s x) := by
  unfold State.putItem
  repeat' first
    | with_reducible assumption
    | split
    | with_reducible apply State.deriveSet_kept
    | with_reducible apply State.putStream_kept
    | with_reducible apply State.setDirRaw_kept
    | with_reducible apply State.setFrame_kept
    | with_reducible apply State.setHbmGran_kept
    | with_reducible apply State.setMetaRow_kept
    | with_reducible apply State.setScaleSet_kept
    | with_reducible apply State.setSeal_kept
    | with_reducible apply State.setSvc_kept
    | with_reducible apply State.setWeightRow_kept
    | with_reducible apply Walk.init_kept
    | (with_reducible refine Kept.mk' (r := rK) (s0 := oK) ?_ rfl rfl rfl rfl rfl rfl)

theorem State.sendPhase_kept {rK : Lic} {oK : State} {s : State} (hK : Kept rK oK s) {ph : Nat} {extra : List Nat} :
 Kept rK oK (State.sendPhase s ph extra) := by
  unfold State.sendPhase
  repeat' first
    | with_reducible assumption
    | with_reducible apply State.pairSend_kept
    | with_reducible apply State.setFld_kept
    | decide

theorem execPairResync_kept {rK : Lic} {oK : State} {s : State} (hK : Kept rK oK s) {h : PairHdr} {phase : Nat} {items : List SyncItem} {t : Nat} :
 KeptR rK oK (execPairResync h phase items t s) := by
  unfold execPairResync
  repeat' first
    | with_reducible assumption
    | split
    | with_reducible apply KeptR.next
    | (with_reducible refine Kept.foldl ?_ (fun vK eK hvK => ?_))
    | with_reducible apply State.at_kept
    | with_reducible apply State.clearPaired_kept
    | with_reducible apply State.pairRx_kept
    | with_reducible apply State.putItem_kept
    | with_reducible apply State.sendPhase_kept
    | with_reducible apply State.setFld_kept
    | decide
    | (dsimp only; split)

theorem State.lockStep_kept {rK : Lic} {oK : State} {s : State} (hK : Kept rK oK s) :
 Kept rK oK (State.lockStep s) := by
  unfold State.lockStep
  repeat' first
    | with_reducible assumption
    | with_reducible apply State.endResync_kept
    | with_reducible apply State.pairFault_kept
    | with_reducible apply State.setEpoch_kept
    | with_reducible apply State.setFld_kept
    | decide
    | (with_reducible refine Kept.mk' (r := rK) (s0 := oK) ?_ rfl rfl rfl rfl rfl rfl)

theorem execPairResyncDone_kept {rK : Lic} {oK : State} {s : State} (hK : Kept rK oK s) {h : PairHdr} {strokes : List (Nat × Nat)} {t : Nat} :
 KeptR rK oK (execPairResyncDone h strokes t s) := by
  unfold execPairResyncDone
  repeat' first
    | with_reducible assumption
    | split
    | with_reducible apply KeptR.next
    | (with_reducible refine Kept.foldl ?_ (fun vK eK hvK => ?_))
    | with_reducible apply State.at_kept
    | with_reducible apply State.lockStep_kept
    | with_reducible apply State.pairFault_kept
    | with_reducible apply State.pairRx_kept
    | with_reducible apply State.sendPhase_kept
    | with_reducible apply State.setRole_kept
    | with_reducible apply State.updPart_kept
    | with_reducible apply State.updQp_kept
    | (dsimp only; split)

theorem execPairVector_kept {rK : Lic} {oK : State} {s : State} (hK : Kept rK oK s) {h : PairHdr} {v : BitVec 256} {planes : List Nat} {len : Nat} {t : Nat} :
 KeptR rK oK (execPairVector h v planes len t s) := by
  unfold execPairVector
  repeat' first
    | with_reducible assumption
    | split
    | with_reducible apply KeptR.next
    | with_reducible apply State.badVector_kept
    | with_reducible apply State.emit_kept
    | with_reducible apply State.pairRx_kept

theorem State.pairCmd_kept {rK : Lic} {oK : State} {s : State} (hK : Kept rK oK s) {w : Nat} :
 Kept rK oK (State.pairCmd s w) := by
  unfold State.pairCmd
  repeat' first
    | with_reducible assumption
    | split
    | with_reducible apply State.leavePair_kept
    | with_reducible apply State.sendControl_kept
    | with_reducible apply State.sticky_kept
    | decide
    | (with_reducible refine Kept.mk' (r := rK) (s0 := oK) ?_ rfl rfl rfl rfl rfl rfl)
    | (dsimp only; split)

theorem execPairRejoin_kept {rK : Lic} {oK : State} {s : State} (hK : Kept rK oK s) {w : BitVec 32} {t : Nat} :
 KeptR rK oK (execPairRejoin w t s) := by
  unfold execPairRejoin
  repeat' first
    | with_reducible assumption
    | split
    | with_reducible apply KeptR.next
    | with_reducible apply State.at_kept
    | with_reducible apply State.pairCmd_kept

theorem execPairLeave_kept {rK : Lic} {oK : State} {s : State} (hK : Kept rK oK s) {w : BitVec 32} {t : Nat} :
 KeptR rK oK (execPairLeave w t s) := by
  unfold execPairLeave
  repeat' first
    | with_reducible assumption
    | split
    | with_reducible apply KeptR.next
    | with_reducible apply State.at_kept
    | with_reducible apply State.pairCmd_kept

theorem State.pairCtl_kept {rK : Lic} {oK : State} {s : State} (hK : Kept rK oK s) {w : Nat} :
 Kept rK oK (State.pairCtl s w) := by
  unfold State.pairCtl
  repeat' first
    | with_reducible assumption
    | split
    | with_reducible apply State.lockViol_kept
    | with_reducible apply State.sticky_kept
    | with_reducible apply State.writeSettings_kept
    | decide

theorem execPairCtlWrite_kept {rK : Lic} {oK : State} {s : State} (hK : Kept rK oK s) {w : BitVec 32} {t : Nat} :
 KeptR rK oK (execPairCtlWrite w t s) := by
  unfold execPairCtlWrite
  repeat' first
    | with_reducible assumption
    | split
    | with_reducible apply KeptR.next
    | with_reducible apply State.at_kept
    | with_reducible apply State.pairCtl_kept

theorem execHubLost_kept {rK : Lic} {oK : State} {s : State} (hK : Kept rK oK s) {h : Nat} {cause : Nat} {d : Nat} {t : Nat} :
 KeptR rK oK (execHubLost h cause d t s) := by
  unfold execHubLost
  repeat' first
    | with_reducible assumption
    | split
    | with_reducible apply KeptR.next
    | with_reducible apply State.at_kept
    | with_reducible apply State.hubLost_kept
    | with_reducible apply State.laneDown_kept
    | with_reducible apply State.setFld_kept
    | with_reducible apply State.wglFault_kept
    | decide

end Sys2Proof.Machine
end

