-- ==== Sys2Proof/Laws/KeptRegisters.lean ====
section
/-! SUPPORT. What the operations of Machine/Registers.lean keep (Laws/Kept.lean). -/

set_option linter.unusedTactic false
set_option linter.unreachableTactic false
set_option linter.unusedVariables false

namespace Sys2Proof.Machine

theorem State.refuseAccess_kept {rK : Lic} {oK : State} {s : State} (hK : Kept rK oK s) {fn : Nat} {port : Nat} {a : Nat} {len : Nat} {write : Bool} :
 Kept rK oK (State.refuseAccess s fn port a len write) := by
  unfold State.refuseAccess
  repeat' first
    | with_reducible assumption
    | split
    | with_reducible apply State.heat_kept
    | with_reducible apply State.emit_kept
    | with_reducible apply State.setReg_kept
    | decide
    | with_reducible exact lt_siteReg _ _
    | with_reducible refine lt_rplReg ?_
    | with_reducible exact lt_leqReg _
    | with_reducible refine lt_add_reg ?_
    | (with_reducible refine Kept.mk' (r := rK) (s0 := oK) ?_ rfl rfl rfl rfl rfl rfl)
    | (dsimp only; split)

theorem lock_set (s : State) (hm : mwf regReset s.regs = true) : (s.setFld rGLB_CFG_LOCK 0 1 1).locked = true := by
  have h1 : (s.setFld rGLB_CFG_LOCK 0 1 1).reg rGLB_CFG_LOCK = BitVec.ofNat 64 (setBits (s.reg rGLB_CFG_LOCK).toNat 0 1 1) := by
    simp only [State.setFld, State.reg, State.setReg]; exact mget_mset _ _ 0 _ _ (by simp only [mwf, Bool.and_eq_true] at hm; exact hm.1)
  have hx : (s.reg rGLB_CFG_LOCK).toNat < 2 ^ 64 := (s.reg rGLB_CFG_LOCK).isLt
  generalize hv : (s.reg rGLB_CFG_LOCK).toNat = x at h1 hx
  simp only [State.locked, State.flag, h1, bit, BitVec.toNat_ofNat, setBits, bits, beq_iff_eq]
  omega

theorem State.writeLock_kept {rK : Lic} {oK s : State} (hK : Kept rK oK s) {w : Nat} : Kept rK oK (State.writeLock s w) := by
  unfold State.writeLock
  split
  · refine State.setFld_kept ?_ (by decide)
    have e (b : Nat) (hb : b ≠ rGLB_CFG_LOCK) : (s.setFld rGLB_CFG_LOCK 0 1 1).reg b = s.reg b := by
      simp only [State.setFld, State.reg, State.setReg]; exact mget_mset_ne _ _ _ _ _ _ hb
    refine ⟨hK.queue, fun g => ?_, fun _ g _ => ?_, hK.on.same (Nat.le_refl _) rfl rfl rfl⟩
    · have k := hK.good g
      exact ⟨mwf_mset _ _ _ _ k.regs, k.spad, k.hbm, (e _ (by decide)).trans k.id, k.st, k.cst⟩
    · exact lock_set s (hK.good g).regs
  · exact hK

theorem State.writeSiteRwl_kept {rK : Lic} {oK : State} {s : State} (hK : Kept rK oK s) {a : Nat} {mask : Nat} {w : Nat} (hA_a : 4 < a) :
 Kept rK oK (State.writeSiteRwl s a mask w) := by
  unfold State.writeSiteRwl
  repeat' first
    | with_reducible assumption
    | with_reducible apply State.clamped_kept
    | with_reducible apply State.stageReg_kept

theorem State.writeBistCtl_kept {rK : Lic} {oK : State} {s : State} (hK : Kept rK oK s) {w : Nat} :
 Kept rK oK (State.writeBistCtl s w) := by
  unfold State.writeBistCtl
  repeat' first
    | with_reducible assumption
    | with_reducible apply State.sticky_kept
    | with_reducible apply State.writeSettings_kept
    | decide
    | (dsimp only; split)

theorem State.writeRingReg_kept {rK : Lic} {oK : State} {s : State} (hK : Kept rK oK s) {n : Nat} {a : Nat} {mask : Nat} {w : Nat} (hA_a : 4 < a) :
 Kept rK oK (State.writeRingReg s n a mask w) := by
  unfold State.writeRingReg
  repeat' first
    | with_reducible assumption
    | split
    | with_reducible apply State.clamped_kept
    | with_reducible apply State.stageReg_kept

theorem State.writeRwl_kept {rK : Lic} {oK : State} {s : State} (hK : Kept rK oK s) {a : Nat} {mask : Nat} {w : Nat} (hA_a : 4 < a) :
 Kept rK oK (State.writeRwl s a mask w) := by
  unfold State.writeRwl
  repeat' first
    | with_reducible assumption
    | split
    | with_reducible apply State.loopFollows_kept
    | with_reducible apply State.stageReg_kept
    | with_reducible apply State.writeBistCtl_kept
    | with_reducible apply State.writeRingReg_kept
    | with_reducible apply State.writeSettings_kept
    | with_reducible apply State.writeSiteRwl_kept

theorem State.writeRw_kept {rK : Lic} {oK : State} {s : State} (hK : Kept rK oK s) {r : RegRow} {a w : Nat}
    (hL : a ≤ 4 → r.rw = 0 ∧ r.w1c = 0) : Kept rK oK (State.writeRw s r a w) := by
  unfold State.writeRw
  exact Kept.ite (fun _ => hK) (fun h => State.setReg_kept hK (by by_contra hc; exact h (hL (by omega))))

theorem State.writePartCmd_kept {rK : Lic} {oK : State} {s : State} (hK : Kept rK oK s) {w : Nat} :
 Kept rK oK (State.writePartCmd s w) := by
  unfold State.writePartCmd
  repeat' first
    | with_reducible assumption
    | split
    | with_reducible apply nextOf_kept
    | with_reducible apply execPartCmdInvalid_kept
    | with_reducible apply execPartRelease_kept
    | with_reducible apply execPartReset_kept

theorem State.writeBootCmd_kept {oK : State} {s : State} (hK : Kept .reset oK s) {port : Nat} {w : Nat} {t : Nat} :
 Kept .reset oK (State.writeBootCmd s port w t) := by
  unfold State.writeBootCmd
  repeat' first
    | with_reducible assumption
    | split
    | with_reducible apply nextOf_kept
    | with_reducible apply execLcAdvance_kept
    | with_reducible apply execLoadBoot_kept
    | with_reducible apply execLoadPart_kept
    | with_reducible apply execPanelReset_kept
    | with_reducible apply execSecBootCmdInvalid_kept
    | with_reducible apply execTapEnable_kept

theorem State.writeSec_kept {oK : State} {s : State} (hK : Kept .reset oK s) {r : RegRow} {port a w t : Nat} (hA_a : 4 < a) :
    Kept .reset oK (State.writeSec s r port a w t) := by
  unfold State.writeSec
  repeat' first
    | with_reducible assumption
    | split
    | with_reducible apply nextOf_kept
    | with_reducible apply State.setFld_kept
    | with_reducible apply State.sticky_kept
    | with_reducible apply State.writeBootCmd_kept
    | with_reducible apply State.writeRw_kept
    | with_reducible apply execIflevelRequest_kept
    | (intro hLo; omega)
    | decide

theorem State.writeReg_kept {oK s : State} (hK : Kept .reset oK s) {r : RegRow} {port a w t : Nat}
    (hL : a ≤ 4 → r.rw = 0 ∧ r.w1c = 0 ∧ r.rwl = 0) : Kept .reset oK (State.writeReg s r port a w t) := by
  unfold State.writeReg
  refine Kept.ite (fun h => State.writeSec_kept hK (Nat.lt_of_lt_of_le (by decide) h.1)) (fun _ => ?_)
  refine Kept.ite (fun _ => State.writeLock_kept hK) (fun _ => ?_)
  refine Kept.ite (fun _ => State.writePartCmd_kept hK) (fun _ => ?_)
  refine Kept.ite (fun _ => nextOf_kept hK (execMailboxGo_kept hK)) (fun _ => ?_)
  refine Kept.ite (fun _ => nextOf_kept hK (execClearLost_kept hK)) (fun _ => ?_)
  refine Kept.ite (fun _ => State.pairCmd_kept hK) (fun _ => ?_)
  refine Kept.ite (fun _ => State.pairCtl_kept hK) (fun _ => ?_)
  refine Kept.ite (fun _ => State.writeRplCtl_kept hK) (fun _ => ?_)
  refine Kept.ite (fun _ => nextOf_kept hK (execRplHeadWrite_kept hK)) (fun _ => ?_)
  refine Kept.ite (fun _ => nextOf_kept hK (execRplTailWrite_kept hK)) (fun _ => ?_)
  have h1 : Kept .reset oK (s.writeRw r a w) := State.writeRw_kept hK (fun h => ⟨(hL h).1, (hL h).2.1⟩)
  have h2 : Kept .reset oK (if r.rwl = 0 then s.writeRw r a w else if (s.writeRw r a w).locked = true then (s.writeRw r a w).lockViol
      else (s.writeRw r a w).writeRwl a r.rwl w) :=
    Kept.ite (fun _ => h1) (fun h => Kept.ite (fun _ => State.lockViol_kept h1)
      (fun _ => State.writeRwl_kept h1 (by by_contra hc; exact h (hL (by omega)).2.2)))
  exact Kept.ite (fun _ => nextOf_kept h2 (execTripClr_kept h2))
    (fun _ => Kept.ite (fun _ => nextOf_kept h2 (execValveClr_kept h2)) (fun _ => h2))

theorem regRow_low {a : Nat} {r : RegRow} (h : regRow a = some r) (ha : a ≤ 4) : r.rw = 0 ∧ r.w1c = 0 ∧ r.rwl = 0 := by
  have all : ∀ b < 5, (regRow b).all (fun r => decide (r.rw = 0 ∧ r.w1c = 0 ∧ r.rwl = 0)) = true := by decide +kernel
  have := all a (by omega)
  rw [h] at this
  simpa using this

theorem regAt_low {a b : Nat} {r : RegRow} {hi : Bool} (h : regAt a = some (r, b, hi)) (hb : b ≤ 4) :
    r.rw = 0 ∧ r.w1c = 0 ∧ r.rwl = 0 := by
  unfold regAt at h
  dsimp only at h
  split at h
  · rename_i r' hr
    split at h
    · cases h; exact regRow_low hr hb
    · cases h
  · split at h
    · cases h
    · split at h
      · rename_i r' hr
        split at h
        · cases h; exact regRow_low hr hb
        · cases h
      · cases h

theorem State.writeHalf_kept {oK s : State} (hK : Kept .reset oK s) {port a w t : Nat} : Kept .reset oK (State.writeHalf s port a w t) := by
  unfold State.writeHalf
  split
  · rename_i h
    exact State.writeReg_kept hK (regAt_low h)
  · exact hK

theorem State.writeMsix_kept {rK : Lic} {oK : State} {s : State} (hK : Kept rK oK s) {port : Nat} {fn : Nat} {o : Nat} {w : Nat} :
 Kept rK oK (State.writeMsix s port fn o w) := by
  unfold State.writeMsix
  repeat' first
    | with_reducible assumption
    | with_reducible apply State.setMsixWord_kept
    | with_reducible apply State.unmaskVec_kept
    | (dsimp only; split)

theorem State.write32_kept {oK : State} {s : State} (hK : Kept .reset oK s) {port : Nat} {a : Nat} {w : Nat} {t : Nat} :
 Kept .reset oK (State.write32 s port a w t) := by
  unfold State.write32
  repeat' first
    | with_reducible assumption
    | split
    | with_reducible apply State.writeHalf_kept
    | with_reducible apply State.writeMsix_kept

theorem State.writeBar0_kept {oK s : State} (hK : Kept .reset oK s) {port a len v t : Nat} :
    Kept .reset oK (State.writeBar0 s port a len v t) := by
  unfold State.writeBar0
  refine Kept.ite (fun _ => State.write32_kept hK) (fun _ => ?_)
  refine Kept.ite (fun _ => ?_) (fun _ => State.write32_kept (State.write32_kept hK))
  split
  · exact Kept.ite (fun _ => hK) (fun _ => State.writeReg_kept hK (regAt_low (by assumption)))
  · exact hK

theorem State.writeVf32_kept {rK : Lic} {oK : State} {s : State} (hK : Kept rK oK s) {port : Nat} {vf : Nat} {a : Nat} {w : Nat} {t : Nat} :
 Kept rK oK (State.writeVf32 s port vf a w t) := by
  unfold State.writeVf32
  repeat' first
    | with_reducible assumption
    | split
    | with_reducible apply nextOf_kept
    | with_reducible apply State.updQp_kept
    | with_reducible apply State.writeMsix_kept
    | with_reducible apply execCqHeadDoorbell_kept
    | with_reducible apply execQueBaseWrite_kept
    | with_reducible apply execQueCfgWrite_kept
    | with_reducible apply execSqTailDoorbell_kept
    | (dsimp only; split)

theorem State.writeBar2_kept {rK : Lic} {oK : State} {s : State} (hK : Kept rK oK s) {port : Nat} {vf : Nat} {a : Nat} {len : Nat} {v : Nat} {t : Nat} :
 Kept rK oK (State.writeBar2 s port vf a len v t) := by
  unfold State.writeBar2
  repeat' first
    | with_reducible assumption
    | split
    | with_reducible apply nextOf_kept
    | with_reducible apply State.writeVf32_kept
    | with_reducible apply execQueBaseWrite_kept

theorem State.dataRead_kept {rK : Lic} {oK : State} {s : State} (hK : Kept rK oK s) {a : Nat} :
    ∀ r, State.dataRead s a = some r → KeptR rK oK r := by
  intro r h
  unfold State.dataRead at h
  repeat' split at h
  all_goals cases h
  exacts [execPwrSiteDataRead_kept hK, execSealInspRead_kept hK, execStrmInspRead_kept hK, execDomDataRead_kept hK,
    execBistSiteDataRead_kept hK, execFltJrnlDataRead_kept hK, execFltJrnlDataRead_kept hK]
theorem State.readOne_kept {rK : Lic} {oK : State} {s : State} (hK : Kept rK oK s) {port fn a : Nat} :
    Kept rK oK (State.readOne s port fn a) := by
  unfold State.readOne
  split
  · rename_i r h
    split at h
    · exact nextOf_kept hK (State.dataRead_kept hK r h)
    · cases h
  · exact State.emit_kept (State.readHalf_kept hK)

theorem State.readAccess_kept {rK : Lic} {oK : State} {s : State} (hK : Kept rK oK s) {port : Nat} {fn : Nat} {a : Nat} {len : Nat} :
 Kept rK oK (State.readAccess s port fn a len) := by
  unfold State.readAccess
  repeat' first
    | with_reducible assumption
    | split
    | with_reducible apply State.emit_kept
    | with_reducible apply State.readOne_kept
    | (with_reducible refine Kept.mk' (r := rK) (s0 := oK) ?_ rfl rfl rfl rfl rfl rfl)
    | (dsimp only; split)

theorem execRegisterWrite_kept {oK : State} {s : State} (hK : Kept .reset oK s) {fn : Nat} {port : Nat} {a : Nat} {len : Nat} {v : BitVec 64} {t : Nat} :
 KeptR .reset oK (execRegisterWrite fn port a len v t s) := by
  unfold execRegisterWrite
  repeat' first
    | with_reducible assumption
    | split
    | with_reducible apply KeptR.next
    | with_reducible apply State.at_kept
    | with_reducible apply State.refuseAccess_kept
    | with_reducible apply State.writeBar0_kept
    | with_reducible apply State.writeBar2_kept

theorem execGlbCfgLock_kept {rK : Lic} {oK : State} {s : State} (hK : Kept rK oK s) {w : BitVec 32} :
 KeptR rK oK (execGlbCfgLock w s) := by
  unfold execGlbCfgLock
  repeat' first
    | with_reducible assumption
    | split
    | with_reducible apply KeptR.next
    | with_reducible apply State.writeLock_kept

theorem execRefusedAccess_kept {oK : State} {s : State} (hK : Kept .reset oK s) {fn : Nat} {port : Nat} {a : Nat} {len : Nat} {write : Bool} {v : BitVec 64} {t : Nat} :
 KeptR .reset oK (execRefusedAccess fn port a len write v t s) := by
  unfold execRefusedAccess
  repeat' first
    | with_reducible assumption
    | split
    | with_reducible apply KeptR.next
    | with_reducible apply State.at_kept
    | with_reducible apply State.readAccess_kept
    | with_reducible apply State.refuseAccess_kept
    | with_reducible apply execRegisterWrite_kept
    | (with_reducible refine Kept.mk' (r := .reset) (s0 := oK) ?_ rfl rfl rfl rfl rfl rfl)
    | (dsimp only; split)

theorem execHighHalfLatchExpiry_kept {rK : Lic} {oK : State} {s : State} (hK : Kept rK oK s) {t : Nat} :
 KeptR rK oK (execHighHalfLatchExpiry t s) := by
  unfold execHighHalfLatchExpiry
  repeat' first
    | with_reducible assumption
    | split
    | with_reducible apply KeptR.next
    | with_reducible apply State.at_kept
    | (with_reducible refine Kept.mk' (r := rK) (s0 := oK) ?_ rfl rfl rfl rfl rfl rfl)

end Sys2Proof.Machine
end

