-- ==== Sys2Proof/Laws/KeptTap.lean ====
section
/-! SUPPORT. What the operations of Machine/Tap.lean keep (Laws/Kept.lean). -/

set_option linter.unusedTactic false
set_option linter.unreachableTactic false
set_option linter.unusedVariables false

namespace Sys2Proof.Machine

theorem State.setIr_kept {rK : Lic} {oK : State} {s : State} (hK : Kept rK oK s) {ir : Nat} {outs : Nat} :
 Kept rK oK (State.setIr s ir outs) := by
  unfold State.setIr
  repeat' first
    | with_reducible assumption
    | with_reducible apply State.setFld_kept
    | decide
    | (with_reducible refine Kept.mk' (r := rK) (s0 := oK) ?_ rfl rfl rfl rfl rfl rfl)

theorem State.loadGated_kept {rK : Lic} {oK : State} {s : State} (hK : Kept rK oK s) {ir : Nat} {outs : Nat} {f : State → State} (hF_f : ∀ (uK : State) , Kept rK oK uK → Kept rK oK (f uK)) :
 Kept rK oK (State.loadGated s ir outs f) := by
  unfold State.loadGated
  repeat' first
    | with_reducible assumption
    | split
    | with_reducible apply State.setIr_kept
    | with_reducible apply State.sticky_kept
    | with_reducible apply hF_f
    | decide

theorem execBypass_kept {rK : Lic} {oK : State} {s : State} (hK : Kept rK oK s) {ir : BitVec 8} :
 KeptR rK oK (execBypass ir s) := by
  unfold execBypass
  repeat' first
    | with_reducible assumption
    | split
    | with_reducible apply KeptR.next
    | with_reducible apply State.setIr_kept

theorem execIdcode_kept {rK : Lic} {oK : State} {s : State} (hK : Kept rK oK s) :
 KeptR rK oK (execIdcode s) := by
  unfold execIdcode
  repeat' first
    | with_reducible assumption
    | with_reducible apply KeptR.next
    | with_reducible apply State.emit_kept
    | with_reducible apply State.setIr_kept

theorem execSamplePreload_kept {rK : Lic} {oK : State} {s : State} (hK : Kept rK oK s) {pins : Nat} {load : Option Nat} :
 KeptR rK oK (execSamplePreload pins load s) := by
  unfold execSamplePreload
  repeat' first
    | with_reducible assumption
    | with_reducible apply KeptR.next
    | with_reducible apply State.setIr_kept
    | (with_reducible refine Kept.mk' (r := rK) (s0 := oK) ?_ rfl rfl rfl rfl rfl rfl)

theorem execExtest_kept {rK : Lic} {oK s : State} (hK : Kept rK oK s) : KeptR rK oK (execExtest s) :=
  KeptR.next (State.loadGated_kept hK fun _ h => h)

theorem execClamp_kept {rK : Lic} {oK s : State} (hK : Kept rK oK s) : KeptR rK oK (execClamp s) :=
  KeptR.next (State.loadGated_kept hK fun _ h => h)

theorem execHighz_kept {rK : Lic} {oK s : State} (hK : Kept rK oK s) : KeptR rK oK (execHighz s) :=
  KeptR.next (State.loadGated_kept hK fun _ h => h)

theorem State.debugTouch_kept {rK : Lic} {oK : State} {s : State} (hK : Kept rK oK s) {p : Nat} {ir : Nat} {addr : Nat} :
 Kept rK oK (State.debugTouch s p ir addr) := by
  unfold State.debugTouch
  repeat' first
    | with_reducible assumption
    | (with_reducible refine Kept.foldl ?_ (fun vK eK hvK => ?_))
    | with_reducible apply State.mark_kept
    | with_reducible apply State.record_kept
    | with_reducible apply State.sticky_kept
    | with_reducible refine lt_add_reg ?_
    | decide
    | (dsimp only; split)

theorem execDebug_kept {rK : Lic} {oK : State} {s : State} (hK : Kept rK oK s) {core : Nat} {halt : Bool} {t : Nat} :
 KeptR rK oK (execDebug core halt t s) := by
  unfold execDebug
  repeat' first
    | with_reducible assumption
    | intro xK
    | split
    | with_reducible apply KeptR.next
    | with_reducible apply State.at_kept
    | with_reducible apply State.debugTouch_kept
    | with_reducible apply State.loadGated_kept
    | with_reducible apply State.setFld_kept
    | decide
    | (with_reducible refine Kept.mk' (r := rK) (s0 := oK) ?_ rfl rfl rfl rfl rfl rfl)

theorem State.memRead_kept {rK : Lic} {oK : State} {s : State} (hK : Kept rK oK s) {a : Nat} {len : Nat} :
 Kept rK oK (State.memRead s a len) := by
  unfold State.memRead
  repeat' first
    | with_reducible assumption
    | with_reducible apply State.spadRead_kept
    | split
    | with_reducible apply State.emit_kept
    | (with_reducible refine Kept.mk' (r := rK) (s0 := oK) ?_ rfl rfl rfl rfl rfl rfl)
    | (dsimp only; split)

theorem State.memWrite_kept {rK : Lic} {oK : State} {s : State} (hK : Kept rK oK s) {a : Nat} {len : Nat} {d : Nat} :
 Kept rK oK (State.memWrite s a len d) := by
  unfold State.memWrite
  repeat' first
    | with_reducible assumption
    | split
    | (with_reducible refine Kept.foldl ?_ (fun vK eK hvK => ?_))
    | with_reducible apply State.accessFault_kept
    | with_reducible apply State.debugTouch_kept
    | with_reducible apply State.mark_kept
    | with_reducible apply State.setSpadBytes_kept
    | with_reducible apply State.stagingWrite_kept
    | with_reducible apply State.sticky_kept
    | decide
    | (dsimp only; split)

theorem execMem_kept {rK : Lic} {oK : State} {s : State} (hK : Kept rK oK s) {write : Bool} {addr : BitVec 48} {len : Nat} {data : BitVec 512} {e : MemErr} {t : Nat} :
 KeptR rK oK (execMem write addr len data e t s) := by
  unfold execMem
  repeat' first
    | with_reducible assumption
    | (intro xK; first | (refine Kept.cut (r := rK) (s0 := oK) (x := xK) ?_ ?_; unfold xK) | (refine Kept.cut (r := rK) (s0 := oK) (x := xK.2) ?_ ?_; unfold xK) | (refine Kept.cut (r := rK) (s0 := oK) (x := xK.1) ?_ ?_; unfold xK) | (refine Kept.cut (r := rK) (s0 := oK) (x := xK.st) ?_ ?_; unfold xK) | (refine KeptO.cut (r := rK) (s0 := oK) (x := xK) ?_ ?_; unfold xK) | (have : (fun a => xK a) = xK := rfl; clear this; subst xK; beta_reduce) | skip)
    | lift_lets
    | split
    | with_reducible apply KeptR.next
    | with_reducible apply State.accessFault_kept
    | with_reducible apply State.at_kept
    | with_reducible apply State.loadGated_kept
    | with_reducible apply State.memErrs_kept
    | with_reducible apply State.memRead_kept
    | with_reducible apply State.memWrite_kept
    | (with_reducible refine Kept.mk' (r := rK) (s0 := oK) ?_ rfl rfl rfl rfl rfl rfl)
    | (clear_value *; split)
    | (dsimp only; split)

theorem execScan_kept {rK : Lic} {oK : State} {s : State} (hK : Kept rK oK s) {hubs : Nat} :
 KeptR rK oK (execScan hubs s) := by
  unfold execScan
  repeat' first
    | with_reducible assumption
    | intro xK
    | with_reducible apply KeptR.next
    | with_reducible apply State.loadGated_kept
    | (with_reducible refine Kept.mk' (r := rK) (s0 := oK) ?_ rfl rfl rfl rfl rfl rfl)

theorem execUartRx_kept {rK : Lic} {oK : State} {s : State} (hK : Kept rK oK s) {b : BitVec 8} :
 KeptR rK oK (execUartRx b s) := by
  unfold execUartRx
  repeat' first
    | with_reducible assumption
    | split
    | with_reducible apply KeptR.next
    | (with_reducible refine Kept.mk' (r := rK) (s0 := oK) ?_ rfl rfl rfl rfl rfl rfl)

end Sys2Proof.Machine
end

