-- ==== Sys2Proof/Laws/KeptTick.lean ====
section
/-! SUPPORT. What the operations of Machine/Tick.lean keep (Laws/Kept.lean). -/

set_option linter.unusedTactic false
set_option linter.unreachableTactic false
set_option linter.unusedVariables false

namespace Sys2Proof.Machine

theorem State.updTick_kept {rK : Lic} {oK : State} {s : State} (hK : Kept rK oK s) {f : TickSt → TickSt}
    (hf : rK = .none → ∀ k, tickCore (f k) = tickCore k) : Kept rK oK (State.updTick s f) :=
  ⟨hK.queue, fun g => have k := hK.good g; ⟨k.regs, k.spad, k.hbm, k.id, k.st, k.cst⟩, hK.lock,
    ⟨hK.on.time, hK.on.svn, hK.on.rev, fun h => (hf h _).trans (hK.on.core h)⟩⟩

theorem State.measured_kept {rK : Lic} {oK : State} {s : State} (hK : Kept rK oK s) {e : Int} :
 Kept rK oK (State.measured s e) := by
  unfold State.measured
  repeat' first
    | with_reducible assumption
    | with_reducible apply State.setFld_kept
    | with_reducible apply State.setReg_kept
    | decide
    | (dsimp only; split)

theorem State.recordTick_kept {rK : Lic} {oK : State} {s : State} (hK : Kept rK oK s) {code : Nat} {d0 : Nat} {d1 : Nat} :
 Kept rK oK (State.recordTick s code d0 d1) := by
  unfold State.recordTick
  repeat' first
    | with_reducible assumption
    | with_reducible apply State.recordAll_kept

theorem State.anomaly_kept {rK : Lic} {oK : State} {s : State} (hK : Kept rK oK s) {kind : Nat} {err : Int} :
 Kept rK oK (State.anomaly s kind err) := by
  unfold State.anomaly
  repeat' first
    | with_reducible assumption
    | split
    | with_reducible apply State.bump_kept
    | with_reducible apply State.raise_kept
    | with_reducible apply State.recordTick_kept
    | with_reducible apply State.sticky_kept
    | decide

theorem State.judgeEdge_kept {rK : Lic} {oK : State} {s : State} (hK : Kept rK oK s) {t : Nat} :
 Kept rK oK (State.judgeEdge s t) := by
  unfold State.judgeEdge
  repeat' first
    | with_reducible assumption
    | split
    | with_reducible apply State.anomaly_kept
    | with_reducible apply State.measured_kept
    | (intro _ _; rfl)
    | (intro h; cases h; done)
    | with_reducible apply State.updTick_kept
    | (dsimp only; split)

theorem execTickInEdge_kept {rK : Lic} {oK : State} {s : State} (hK : Kept rK oK s) {high t : Nat} :
    KeptR rK oK (execTickInEdge high t s) := by
  unfold execTickInEdge
  extract_lets s0 k
  have ht : Kept rK oK s0 := State.at_kept hK
  clear_value s0
  refine KeptR.next ?_
  split
  · split
    · exact ht
    · refine State.judgeEdge_kept (State.updTick_kept ht ?_)
      intro _ _; rfl
  · split
    · exact ht
    · refine State.judgeEdge_kept (State.updTick_kept ht ?_)
      intro _ _; rfl

theorem State.chooseSource_kept {rK : Lic} {oK : State} {s : State} (hK : Kept rK oK s) :
 Kept rK oK (State.chooseSource s) := by
  unfold State.chooseSource
  repeat' first
    | with_reducible assumption
    | split
    | with_reducible apply State.bump_kept
    | with_reducible apply State.raise_kept
    | with_reducible apply State.recordTick_kept
    | with_reducible apply State.setFld_kept
    | with_reducible apply State.sticky_kept
    | (intro _ _; rfl)
    | (intro h; cases h; done)
    | with_reducible apply State.updTick_kept
    | decide
    | (dsimp only; split)

theorem State.stepSource_kept {rK : Lic} {oK : State} {s : State} (hK : Kept rK oK s) {missing : Bool} :
 Kept rK oK (State.stepSource s missing) := by
  unfold State.stepSource
  repeat' first
    | with_reducible assumption
    | split
    | with_reducible apply State.anomaly_kept
    | with_reducible apply State.chooseSource_kept
    | with_reducible apply State.measured_kept
    | (intro _ _; rfl)
    | (intro h; cases h; done)
    | with_reducible apply State.updTick_kept
    | (dsimp only; split)

theorem State.inputLow_kept {rK : Lic} {oK : State} {s : State} (hK : Kept rK oK s) {mv : Nat} {w : Nat} :
 Kept rK oK (State.inputLow s mv w) := by
  unfold State.inputLow
  repeat' first
    | with_reducible assumption
    | split
    | with_reducible apply State.raise_kept
    | (with_reducible refine Kept.mk' (r := rK) (s0 := oK) ?_ rfl rfl rfl rfl rfl rfl)

theorem State.stackTemp_kept {rK : Lic} {oK : State} {s : State} (hK : Kept rK oK s) {p : Nat} {t : Nat} {sev : Nat} :
 Kept rK oK (State.stackTemp s p t sev) := by
  unfold State.stackTemp
  repeat' first
    | with_reducible assumption
    | split
    | with_reducible apply State.bump_kept
    | with_reducible apply State.raise_kept
    | with_reducible apply State.selfRefresh_kept
    | with_reducible apply State.setFld_kept
    | with_reducible apply State.setSvc_kept
    | with_reducible apply State.sticky_kept
    | with_reducible exact lt_siteReg _ _
    | with_reducible refine lt_rplReg ?_
    | with_reducible exact lt_leqReg _
    | with_reducible refine lt_add_reg ?_
    | decide
    | (with_reducible refine Kept.mk' (r := rK) (s0 := oK) ?_ rfl rfl rfl rfl rfl rfl)
    | (dsimp only; split)

theorem State.tickCounts_kept {rK : Lic} {oK : State} {s : State} (hK : Kept rK oK s) :
 Kept rK oK (State.tickCounts s) := by
  unfold State.tickCounts
  repeat' first
    | with_reducible assumption
    | split
    | with_reducible apply State.tickFault_kept
    | with_reducible apply State.wglFault_kept
    | (with_reducible refine Kept.mk' (r := rK) (s0 := oK) ?_ rfl rfl rfl rfl rfl rfl)
    | (dsimp only; split)

theorem State.endPeriod_kept {rK : Lic} {oK : State} {s : State} (hK : Kept rK oK s) {a : EdgeArg} :
 Kept rK oK (State.endPeriod s a) := by
  unfold State.endPeriod
  repeat' first
    | with_reducible assumption
    | (with_reducible refine Kept.foldl ?_ (fun vK eK hvK => ?_))
    | with_reducible apply State.attribute_kept
    | with_reducible apply State.inputLow_kept
    | with_reducible apply State.stackTemp_kept
    | with_reducible apply State.tickCounts_kept

theorem State.countTick_kept {oK : State} {s : State} (hK : Kept .edge oK s) {inst : Nat} :
 Kept .edge oK (State.countTick s inst) := by
  unfold State.countTick
  repeat' first
    | with_reducible assumption
    | with_reducible apply State.clearMarks_kept
    | with_reducible apply State.emit_kept
    | with_reducible apply State.setReg_kept
    | (intro _ _; rfl)
    | (intro h; cases h; done)
    | with_reducible apply State.updTick_kept
    | decide
    | (dsimp only; split)

theorem State.applySettings_kept {rK : Lic} {oK : State} {s : State} (hK : Kept rK oK s) :
 Kept rK oK (State.applySettings s) := by
  unfold State.applySettings
  repeat' first
    | with_reducible assumption
    | with_reducible apply State.applyStaged_kept
    | (with_reducible refine Kept.mk' (r := rK) (s0 := oK) ?_ rfl rfl rfl rfl rfl rfl; first | with_reducible assumption | with_reducible apply State.applyStaged_kept)
    | (dsimp only; split)

theorem State.takeGrant_kept {rK : Lic} {oK : State} {s : State} (hK : Kept rK oK s) :
 Kept rK oK (State.takeGrant s) := by
  unfold State.takeGrant
  repeat' first
    | with_reducible assumption
    | with_reducible apply State.formBudget_kept
    | with_reducible apply State.latchGrant_kept
    | with_reducible apply State.recordAll_kept

theorem State.moveFrames_kept {rK : Lic} {oK : State} {s : State} (hK : Kept rK oK s) :
 Kept rK oK (State.moveFrames s) := by
  unfold State.moveFrames
  repeat' first
    | with_reducible assumption
    | split
    | with_reducible apply State.pairFrame_kept
    | (with_reducible refine Kept.foldl ?_ (fun vK eK hvK => ?_))
    | with_reducible apply State.pairOnLane_kept
    | (with_reducible refine Kept.mk' (r := rK) (s0 := oK) ?_ rfl rfl rfl rfl rfl rfl)
    | (dsimp only; split)

theorem State.pairEdge_kept {rK : Lic} {oK : State} {s : State} (hK : Kept rK oK s) :
 Kept rK oK (State.pairEdge s) := by
  unfold State.pairEdge
  repeat' first
    | with_reducible assumption
    | split
    | with_reducible apply State.bump_kept
    | with_reducible apply State.moveFrames_kept
    | with_reducible apply State.partnerDead_kept
    | with_reducible apply State.satFld_kept
    | with_reducible apply State.setFld_kept
    | decide
    | (with_reducible refine Kept.mk' (r := rK) (s0 := oK) ?_ rfl rfl rfl rfl rfl rfl)

theorem State.pairSends_kept {rK : Lic} {oK : State} {s : State} (hK : Kept rK oK s) :
 Kept rK oK (State.pairSends s) := by
  unfold State.pairSends
  repeat' first
    | with_reducible assumption
    | split
    | with_reducible apply State.pairSend_kept
    | with_reducible apply State.sendHello_kept

theorem State.abortLoad_kept {rK : Lic} {oK : State} {s : State} (hK : Kept rK oK s) {n : Nat} :
 Kept rK oK (State.abortLoad s n) := by
  unfold State.abortLoad
  repeat' first
    | with_reducible assumption
    | with_reducible apply State.dropBanks_kept
    | with_reducible apply State.raiseBoot_kept
    | with_reducible apply State.setFld_kept
    | with_reducible apply State.updPart_kept
    | decide
    | (with_reducible refine Kept.mk' (r := rK) (s0 := oK) ?_ rfl rfl rfl rfl rfl rfl; first | with_reducible assumption | with_reducible apply State.dropBanks_kept | with_reducible apply State.raiseBoot_kept | with_reducible apply State.setFld_kept | with_reducible apply State.updPart_kept)
    | (dsimp only; split)

theorem State.resetAtEdge_kept {rK : Lic} {oK : State} {s : State} (hK : Kept rK oK s) {n : Nat} :
 Kept rK oK (State.resetAtEdge s n) := by
  unfold State.resetAtEdge
  repeat' first
    | with_reducible assumption
    | split
    | with_reducible apply State.abortLoad_kept
    | with_reducible apply State.endResync_kept
    | with_reducible apply State.resetPartition_kept
    | with_reducible apply State.sendControl_kept
    | with_reducible apply State.updPart_kept
    | (dsimp only; split)

theorem State.cmdAtEdge_kept {rK : Lic} {oK : State} {s : State} (hK : Kept rK oK s) {n : Nat} :
 Kept rK oK (State.cmdAtEdge s n) := by
  unfold State.cmdAtEdge
  repeat' first
    | with_reducible assumption
    | split
    | with_reducible apply State.applyConfigure_kept
    | with_reducible apply State.configure_kept
    | with_reducible apply State.freePartition_kept
    | with_reducible apply State.release_kept
    | with_reducible apply State.updPart_kept

theorem State.siteOutAtEdge_kept {rK : Lic} {oK : State} {s : State} (hK : Kept rK oK s) {p : Nat} {live : Bool} :
 Kept rK oK (State.siteOutAtEdge s p live) := by
  unfold State.siteOutAtEdge
  repeat' first
    | with_reducible assumption
    | with_reducible apply State.dropWaits_kept
    | with_reducible apply State.sealAbandonAll_kept
    | split
    | with_reducible apply State.quadsDown_kept
    | with_reducible apply State.quadsUp_kept
    | with_reducible apply State.rebind_kept
    | with_reducible apply State.setPState_kept
    | with_reducible apply State.syncKv_kept
    | with_reducible apply State.updPart_kept
    | (with_reducible refine Kept.mk' (r := rK) (s0 := oK) ?_ rfl rfl rfl rfl rfl rfl)
    | (dsimp only; split)

theorem State.partsAtEdge_kept {rK : Lic} {oK : State} {s : State} (hK : Kept rK oK s) :
 Kept rK oK (State.partsAtEdge s) := by
  unfold State.partsAtEdge
  repeat' first
    | with_reducible assumption
    | (intro xK; first | (refine Kept.cut (r := rK) (s0 := oK) (x := xK) ?_ ?_; unfold xK) | skip)
    | lift_lets
    | split
    | (with_reducible refine Kept.foldl ?_ (fun vK eK hvK => ?_))
    | with_reducible apply State.applyWheel_kept
    | with_reducible apply State.cmdAtEdge_kept
    | with_reducible apply State.resetAtEdge_kept
    | with_reducible apply State.retryDoms_kept
    | with_reducible apply State.setFld_kept
    | with_reducible apply State.setPState_kept
    | with_reducible apply State.siteOutAtEdge_kept
    | with_reducible apply State.updPart_kept
    | decide
    | (with_reducible refine Kept.mk' (r := rK) (s0 := oK) ?_ rfl rfl rfl rfl rfl rfl)
    | with_reducible exact lt_siteReg _ _
    | with_reducible refine lt_rplReg ?_
    | with_reducible exact lt_leqReg _
    | with_reducible refine lt_add_reg ?_
    | (dsimp only; split)

theorem State.swapSlot_kept {rK : Lic} {oK : State} {s : State} (hK : Kept rK oK s) {x : Nat × Nat} :
 Kept rK oK (State.swapSlot s x) := by
  unfold State.swapSlot
  repeat' first
    | with_reducible assumption
    | with_reducible apply State.setShadow_kept
    | with_reducible apply Walk.init_kept
    | (with_reducible refine Kept.mk' (r := rK) (s0 := oK) ?_ rfl rfl rfl rfl rfl rfl)

theorem State.updates_kept {rK : Lic} {oK : State} {s : State} (hK : Kept rK oK s) {n : Nat} {m : Nat} :
 Kept rK oK (State.updates s n m) := by
  unfold State.updates
  repeat' first
    | with_reducible assumption
    | split
    | (with_reducible refine Kept.foldl ?_ (fun vK eK hvK => ?_))
    | with_reducible apply State.applyCommit_kept
    | with_reducible apply State.bump_kept
    | with_reducible apply State.journal_kept
    | with_reducible apply State.setReg_kept
    | with_reducible apply State.swapSlot_kept
    | with_reducible apply State.updRec_kept
    | exact lt_siteReg _ _
    | (with_reducible refine Kept.mk' (r := rK) (s0 := oK) ?_ rfl rfl rfl rfl rfl rfl)
    | (dsimp only; split)

theorem State.flipGen_kept {rK : Lic} {oK : State} {s : State} (hK : Kept rK oK s) {p : Nat} :
 Kept rK oK (State.flipGen s p) := by
  unfold State.flipGen
  repeat' first
    | with_reducible assumption
    | split
    | with_reducible apply State.bump_kept
    | with_reducible apply State.setSvc_kept
    | with_reducible exact lt_siteReg _ _
    | with_reducible refine lt_rplReg ?_
    | with_reducible exact lt_leqReg _
    | with_reducible refine lt_add_reg ?_
    | decide
    | (with_reducible refine Kept.mk' (r := rK) (s0 := oK) ?_ rfl rfl rfl rfl rfl rfl)
    | (dsimp only; split)

theorem State.gateQuads_kept {rK : Lic} {oK : State} {s : State} (hK : Kept rK oK s) {n : Nat} :
 Kept rK oK (State.gateQuads s n) := by
  unfold State.gateQuads
  repeat' first
    | with_reducible assumption
    | (with_reducible refine Kept.foldl ?_ (fun vK eK hvK => ?_))
    | with_reducible apply State.bump_kept
    | with_reducible apply State.domDown_kept
    | with_reducible apply State.journal_kept
    | with_reducible apply State.updPart_kept
    | decide
    | (dsimp only; split)

theorem State.beginStroke_kept {rK : Lic} {oK : State} {s : State} (hK : Kept rK oK s) {n : Nat} {m : Nat} :
 Kept rK oK (State.beginStroke s n m) := by
  unfold State.beginStroke
  repeat' first
    | with_reducible assumption
    | split
    | (with_reducible refine Kept.foldl ?_ (fun vK eK hvK => ?_))
    | with_reducible apply State.admitOp_kept
    | with_reducible apply State.clearMarks_kept
    | with_reducible apply State.sealStroke_kept
    | with_reducible apply State.setFld_kept
    | with_reducible apply State.setPpwr_kept
    | with_reducible apply State.updPart_kept
    | with_reducible apply State.updPp_kept
    | with_reducible apply State.updQp_kept
    | with_reducible apply State.updRec_kept
    | with_reducible refine lt_rplReg ?_
    | decide
    | (with_reducible refine Kept.mk' (r := rK) (s0 := oK) ?_ rfl rfl rfl rfl rfl rfl)
    | (dsimp only; split)

theorem State.startStroke_kept {rK : Lic} {oK : State} {s : State} (hK : Kept rK oK s) {n : Nat} {fresh : Bool} {first : Bool} :
 Kept rK oK (State.startStroke s n fresh first) := by
  unfold State.startStroke
  repeat' first
    | with_reducible assumption
    | (with_reducible refine Kept.foldl ?_ (fun vK eK hvK => ?_))
    | with_reducible apply State.applyMode_kept
    | with_reducible apply State.applyStagedIf_kept
    | with_reducible apply State.beginStroke_kept
    | with_reducible apply State.flipGen_kept
    | with_reducible apply State.gainsApply_kept
    | with_reducible apply State.gateQuads_kept
    | with_reducible apply State.replaceCombs_kept
    | with_reducible apply State.replayWait_kept
    | with_reducible apply State.setPwr1_kept
    | with_reducible apply State.updPart_kept
    | with_reducible apply State.updates_kept
    | split
    | (dsimp only; split)

theorem State.partEdge_kept {rK : Lic} {oK : State} {s : State} (hK : Kept rK oK s) {ran : List Nat} {first : Bool} {n : Nat} :
 Kept rK oK (State.partEdge s ran first n) := by
  unfold State.partEdge
  repeat' first
    | with_reducible assumption
    | split
    | with_reducible apply State.consumeTick_kept
    | with_reducible apply State.startStroke_kept

theorem State.tickEdge_kept {oK : State} {s : State} (hK : Kept .edge oK s) {a : EdgeArg} :
 Kept .edge oK (State.tickEdge s a) := by
  unfold State.tickEdge
  repeat' first
    | with_reducible assumption
    | split
    | (with_reducible refine Kept.foldl ?_ (fun vK eK hvK => ?_))
    | with_reducible apply State.applySettings_kept
    | with_reducible apply State.at_kept
    | with_reducible apply State.bump_kept
    | with_reducible apply State.countTick_kept
    | with_reducible apply State.endPeriod_kept
    | with_reducible apply State.measured_kept
    | with_reducible apply State.openOwners_kept
    | with_reducible apply State.openPeriod_kept
    | with_reducible apply State.pairEdge_kept
    | with_reducible apply State.pairSends_kept
    | with_reducible apply State.partEdge_kept
    | with_reducible apply State.partsAtEdge_kept
    | with_reducible apply State.recordTick_kept
    | with_reducible apply State.setFld_kept
    | with_reducible apply State.stepSource_kept
    | with_reducible apply State.takeGrant_kept
    | (intro _ _; rfl)
    | (intro h; cases h; done)
    | with_reducible apply State.updTick_kept
    | decide

theorem execTickEdge_kept {oK : State} {s : State} (hK : Kept .edge oK s) {a : EdgeArg} :
 KeptR .edge oK (execTickEdge a s) := by
  unfold execTickEdge
  repeat' first
    | with_reducible assumption
    | with_reducible apply KeptR.next
    | with_reducible apply State.tickEdge_kept

end Sys2Proof.Machine
end

