-- ==== Sys2Proof/Laws/State.lean ====
section
/-! SUPPORT. What each small update of the state leaves alone, field by field: no later proof unfolds a record update. -/

namespace Sys2Proof.Machine

@[simp] theorem State.setReg_frame (s : State) (a : Nat) (v : DWord) :
    (s.setReg a v).time = s.time ∧ (s.setReg a v).latch = s.latch ∧ (s.setReg a v).hot = s.hot ∧
    (s.setReg a v).free = s.free ∧ (s.setReg a v).out = s.out ∧ (s.setReg a v).staged = s.staged ∧
    (s.setReg a v).tick = s.tick ∧ (s.setReg a v).parts = s.parts ∧ (s.setReg a v).host = s.host ∧
    (s.setReg a v).comb = s.comb ∧ (s.setReg a v).rq = s.rq ∧ (s.setReg a v).sparse = s.sparse ∧
    (s.setReg a v).desc = s.desc ∧ (s.setReg a v).kv = s.kv ∧ (s.setReg a v).spad = s.spad ∧ (s.setReg a v).fab = s.fab ∧
    (s.setReg a v).pwr = s.pwr ∧ (s.setReg a v).dom = s.dom ∧ (s.setReg a v).clt = s.clt ∧ (s.setReg a v).boot = s.boot ∧
    (s.setReg a v).inp = s.inp ∧ (s.setReg a v).bist = s.bist ∧ (s.setReg a v).wgl = s.wgl ∧ (s.setReg a v).sls = s.sls ∧
    (s.setReg a v).rcd = s.rcd ∧ (s.setReg a v).pair = s.pair ∧ (s.setReg a v).jrnl = s.jrnl ∧
    (s.setReg a v).pending = s.pending ∧ (∀ jj, (s.setReg a v).part jj = s.part jj) ∧
    (∀ jj, (s.setReg a v).stream jj = s.stream jj) ∧ (∀ jj kk, (s.setReg a v).qp jj kk = s.qp jj kk) ∧
    (∀ jj kk, (s.setReg a v).dstream jj kk = s.dstream jj kk) ∧ (∀ jj, (s.setReg a v).sealAt jj = s.sealAt jj) ∧
    (∀ jj, (s.setReg a v).domAt jj = s.domAt jj) ∧ (∀ jj, (s.setReg a v).pwr1 jj = s.pwr1 jj) := by
  and_intros <;> first | rfl | (intros; rfl)

@[simp] theorem State.setFld_frame (s : State) (a lo n v : Nat) :
    (s.setFld a lo n v).time = s.time ∧ (s.setFld a lo n v).latch = s.latch ∧ (s.setFld a lo n v).hot = s.hot ∧
    (s.setFld a lo n v).free = s.free ∧ (s.setFld a lo n v).out = s.out ∧ (s.setFld a lo n v).staged = s.staged ∧
    (s.setFld a lo n v).tick = s.tick ∧ (s.setFld a lo n v).parts = s.parts ∧ (s.setFld a lo n v).host = s.host ∧
    (s.setFld a lo n v).comb = s.comb ∧ (s.setFld a lo n v).rq = s.rq ∧ (s.setFld a lo n v).sparse = s.sparse ∧
    (s.setFld a lo n v).desc = s.desc ∧ (s.setFld a lo n v).kv = s.kv ∧ (s.setFld a lo n v).spad = s.spad ∧
    (s.setFld a lo n v).fab = s.fab ∧ (s.setFld a lo n v).pwr = s.pwr ∧ (s.setFld a lo n v).dom = s.dom ∧
    (s.setFld a lo n v).clt = s.clt ∧ (s.setFld a lo n v).boot = s.boot ∧ (s.setFld a lo n v).inp = s.inp ∧
    (s.setFld a lo n v).bist = s.bist ∧ (s.setFld a lo n v).wgl = s.wgl ∧ (s.setFld a lo n v).sls = s.sls ∧
    (s.setFld a lo n v).rcd = s.rcd ∧ (s.setFld a lo n v).pair = s.pair ∧ (s.setFld a lo n v).jrnl = s.jrnl ∧
    (s.setFld a lo n v).pending = s.pending ∧ (∀ jj, (s.setFld a lo n v).part jj = s.part jj) ∧
    (∀ jj, (s.setFld a lo n v).stream jj = s.stream jj) ∧ (∀ jj kk, (s.setFld a lo n v).qp jj kk = s.qp jj kk) ∧
    (∀ jj kk, (s.setFld a lo n v).dstream jj kk = s.dstream jj kk) ∧ (∀ jj, (s.setFld a lo n v).sealAt jj = s.sealAt jj) ∧
    (∀ jj, (s.setFld a lo n v).domAt jj = s.domAt jj) ∧ (∀ jj, (s.setFld a lo n v).pwr1 jj = s.pwr1 jj) := by
  and_intros <;> first | rfl | (intros; rfl)

@[simp] theorem State.heat_frame (s : State) (a i : Nat) :
    (s.heat a i).regs = s.regs ∧ (s.heat a i).time = s.time ∧ (s.heat a i).latch = s.latch ∧ (s.heat a i).free = s.free ∧
    (s.heat a i).out = s.out ∧ (s.heat a i).staged = s.staged ∧ (s.heat a i).tick = s.tick ∧ (s.heat a i).parts = s.parts ∧
    (s.heat a i).host = s.host ∧ (s.heat a i).comb = s.comb ∧ (s.heat a i).rq = s.rq ∧ (s.heat a i).sparse = s.sparse ∧
    (s.heat a i).desc = s.desc ∧ (s.heat a i).kv = s.kv ∧ (s.heat a i).spad = s.spad ∧ (s.heat a i).fab = s.fab ∧
    (s.heat a i).pwr = s.pwr ∧ (s.heat a i).dom = s.dom ∧ (s.heat a i).clt = s.clt ∧ (s.heat a i).boot = s.boot ∧
    (s.heat a i).inp = s.inp ∧ (s.heat a i).bist = s.bist ∧ (s.heat a i).wgl = s.wgl ∧ (s.heat a i).sls = s.sls ∧
    (s.heat a i).rcd = s.rcd ∧ (s.heat a i).pair = s.pair ∧ (s.heat a i).jrnl = s.jrnl ∧ (s.heat a i).pending = s.pending ∧
    (∀ aa, (s.heat a i).reg aa = s.reg aa) ∧ (∀ jj, (s.heat a i).part jj = s.part jj) ∧
    (∀ jj, (s.heat a i).stream jj = s.stream jj) ∧ (∀ jj kk, (s.heat a i).qp jj kk = s.qp jj kk) ∧
    (∀ jj kk, (s.heat a i).dstream jj kk = s.dstream jj kk) ∧ (∀ jj, (s.heat a i).sealAt jj = s.sealAt jj) ∧
    (∀ jj, (s.heat a i).domAt jj = s.domAt jj) ∧ (∀ jj, (s.heat a i).pwr1 jj = s.pwr1 jj) := by
  and_intros <;> first | rfl | (intros; rfl)

@[simp] theorem State.sticky_frame (s : State) (a i : Nat) :
    (s.sticky a i).time = s.time ∧ (s.sticky a i).latch = s.latch ∧ (s.sticky a i).free = s.free ∧
    (s.sticky a i).out = s.out ∧ (s.sticky a i).staged = s.staged ∧ (s.sticky a i).tick = s.tick ∧
    (s.sticky a i).parts = s.parts ∧ (s.sticky a i).host = s.host ∧ (s.sticky a i).comb = s.comb ∧
    (s.sticky a i).rq = s.rq ∧ (s.sticky a i).sparse = s.sparse ∧ (s.sticky a i).desc = s.desc ∧ (s.sticky a i).kv = s.kv ∧
    (s.sticky a i).spad = s.spad ∧ (s.sticky a i).fab = s.fab ∧ (s.sticky a i).pwr = s.pwr ∧ (s.sticky a i).dom = s.dom ∧
    (s.sticky a i).clt = s.clt ∧ (s.sticky a i).boot = s.boot ∧ (s.sticky a i).inp = s.inp ∧ (s.sticky a i).bist = s.bist ∧
    (s.sticky a i).wgl = s.wgl ∧ (s.sticky a i).sls = s.sls ∧ (s.sticky a i).rcd = s.rcd ∧ (s.sticky a i).pair = s.pair ∧
    (s.sticky a i).jrnl = s.jrnl ∧ (s.sticky a i).pending = s.pending ∧ (∀ jj, (s.sticky a i).part jj = s.part jj) ∧
    (∀ jj, (s.sticky a i).stream jj = s.stream jj) ∧ (∀ jj kk, (s.sticky a i).qp jj kk = s.qp jj kk) ∧
    (∀ jj kk, (s.sticky a i).dstream jj kk = s.dstream jj kk) ∧ (∀ jj, (s.sticky a i).sealAt jj = s.sealAt jj) ∧
    (∀ jj, (s.sticky a i).domAt jj = s.domAt jj) ∧ (∀ jj, (s.sticky a i).pwr1 jj = s.pwr1 jj) := by
  and_intros <;> first | rfl | (intros; rfl)

@[simp] theorem State.bumpBy_frame (s : State) (a k : Nat) :
    (s.bumpBy a k).time = s.time ∧ (s.bumpBy a k).latch = s.latch ∧ (s.bumpBy a k).hot = s.hot ∧
    (s.bumpBy a k).free = s.free ∧ (s.bumpBy a k).out = s.out ∧ (s.bumpBy a k).staged = s.staged ∧
    (s.bumpBy a k).tick = s.tick ∧ (s.bumpBy a k).parts = s.parts ∧ (s.bumpBy a k).host = s.host ∧
    (s.bumpBy a k).comb = s.comb ∧ (s.bumpBy a k).rq = s.rq ∧ (s.bumpBy a k).sparse = s.sparse ∧
    (s.bumpBy a k).desc = s.desc ∧ (s.bumpBy a k).kv = s.kv ∧ (s.bumpBy a k).spad = s.spad ∧ (s.bumpBy a k).fab = s.fab ∧
    (s.bumpBy a k).pwr = s.pwr ∧ (s.bumpBy a k).dom = s.dom ∧ (s.bumpBy a k).clt = s.clt ∧ (s.bumpBy a k).boot = s.boot ∧
    (s.bumpBy a k).inp = s.inp ∧ (s.bumpBy a k).bist = s.bist ∧ (s.bumpBy a k).wgl = s.wgl ∧ (s.bumpBy a k).sls = s.sls ∧
    (s.bumpBy a k).rcd = s.rcd ∧ (s.bumpBy a k).pair = s.pair ∧ (s.bumpBy a k).jrnl = s.jrnl ∧
    (s.bumpBy a k).pending = s.pending ∧ (∀ jj, (s.bumpBy a k).part jj = s.part jj) ∧
    (∀ jj, (s.bumpBy a k).stream jj = s.stream jj) ∧ (∀ jj kk, (s.bumpBy a k).qp jj kk = s.qp jj kk) ∧
    (∀ jj kk, (s.bumpBy a k).dstream jj kk = s.dstream jj kk) ∧ (∀ jj, (s.bumpBy a k).sealAt jj = s.sealAt jj) ∧
    (∀ jj, (s.bumpBy a k).domAt jj = s.domAt jj) ∧ (∀ jj, (s.bumpBy a k).pwr1 jj = s.pwr1 jj) := by
  and_intros <;> first | rfl | (intros; rfl)

@[simp] theorem State.bump_frame (s : State) (a : Nat) :
    (s.bump a).time = s.time ∧ (s.bump a).latch = s.latch ∧ (s.bump a).hot = s.hot ∧ (s.bump a).free = s.free ∧
    (s.bump a).out = s.out ∧ (s.bump a).staged = s.staged ∧ (s.bump a).tick = s.tick ∧ (s.bump a).parts = s.parts ∧
    (s.bump a).host = s.host ∧ (s.bump a).comb = s.comb ∧ (s.bump a).rq = s.rq ∧ (s.bump a).sparse = s.sparse ∧
    (s.bump a).desc = s.desc ∧ (s.bump a).kv = s.kv ∧ (s.bump a).spad = s.spad ∧ (s.bump a).fab = s.fab ∧
    (s.bump a).pwr = s.pwr ∧ (s.bump a).dom = s.dom ∧ (s.bump a).clt = s.clt ∧ (s.bump a).boot = s.boot ∧
    (s.bump a).inp = s.inp ∧ (s.bump a).bist = s.bist ∧ (s.bump a).wgl = s.wgl ∧ (s.bump a).sls = s.sls ∧
    (s.bump a).rcd = s.rcd ∧ (s.bump a).pair = s.pair ∧ (s.bump a).jrnl = s.jrnl ∧ (s.bump a).pending = s.pending ∧
    (∀ jj, (s.bump a).part jj = s.part jj) ∧ (∀ jj, (s.bump a).stream jj = s.stream jj) ∧
    (∀ jj kk, (s.bump a).qp jj kk = s.qp jj kk) ∧ (∀ jj kk, (s.bump a).dstream jj kk = s.dstream jj kk) ∧
    (∀ jj, (s.bump a).sealAt jj = s.sealAt jj) ∧ (∀ jj, (s.bump a).domAt jj = s.domAt jj) ∧
    (∀ jj, (s.bump a).pwr1 jj = s.pwr1 jj) := by
  and_intros <;> first | rfl | (intros; rfl)

@[simp] theorem State.lockViol_frame (s : State)  :
    s.lockViol.time = s.time ∧ s.lockViol.latch = s.latch ∧ s.lockViol.free = s.free ∧ s.lockViol.out = s.out ∧
    s.lockViol.staged = s.staged ∧ s.lockViol.tick = s.tick ∧ s.lockViol.parts = s.parts ∧ s.lockViol.host = s.host ∧
    s.lockViol.comb = s.comb ∧ s.lockViol.rq = s.rq ∧ s.lockViol.sparse = s.sparse ∧ s.lockViol.desc = s.desc ∧
    s.lockViol.kv = s.kv ∧ s.lockViol.spad = s.spad ∧ s.lockViol.fab = s.fab ∧ s.lockViol.pwr = s.pwr ∧
    s.lockViol.dom = s.dom ∧ s.lockViol.clt = s.clt ∧ s.lockViol.boot = s.boot ∧ s.lockViol.inp = s.inp ∧
    s.lockViol.bist = s.bist ∧ s.lockViol.wgl = s.wgl ∧ s.lockViol.sls = s.sls ∧ s.lockViol.rcd = s.rcd ∧
    s.lockViol.pair = s.pair ∧ s.lockViol.jrnl = s.jrnl ∧ s.lockViol.pending = s.pending ∧
    (∀ jj, (s.lockViol ).part jj = s.part jj) ∧ (∀ jj, (s.lockViol ).stream jj = s.stream jj) ∧
    (∀ jj kk, (s.lockViol ).qp jj kk = s.qp jj kk) ∧ (∀ jj kk, (s.lockViol ).dstream jj kk = s.dstream jj kk) ∧
    (∀ jj, (s.lockViol ).sealAt jj = s.sealAt jj) ∧ (∀ jj, (s.lockViol ).domAt jj = s.domAt jj) ∧
    (∀ jj, (s.lockViol ).pwr1 jj = s.pwr1 jj) := by
  and_intros <;> first | rfl | (intros; rfl)

@[simp] theorem State.satFld_frame (s : State) (a lo n k : Nat) :
    (s.satFld a lo n k).time = s.time ∧ (s.satFld a lo n k).latch = s.latch ∧ (s.satFld a lo n k).hot = s.hot ∧
    (s.satFld a lo n k).free = s.free ∧ (s.satFld a lo n k).out = s.out ∧ (s.satFld a lo n k).staged = s.staged ∧
    (s.satFld a lo n k).tick = s.tick ∧ (s.satFld a lo n k).parts = s.parts ∧ (s.satFld a lo n k).host = s.host ∧
    (s.satFld a lo n k).comb = s.comb ∧ (s.satFld a lo n k).rq = s.rq ∧ (s.satFld a lo n k).sparse = s.sparse ∧
    (s.satFld a lo n k).desc = s.desc ∧ (s.satFld a lo n k).kv = s.kv ∧ (s.satFld a lo n k).spad = s.spad ∧
    (s.satFld a lo n k).fab = s.fab ∧ (s.satFld a lo n k).pwr = s.pwr ∧ (s.satFld a lo n k).dom = s.dom ∧
    (s.satFld a lo n k).clt = s.clt ∧ (s.satFld a lo n k).boot = s.boot ∧ (s.satFld a lo n k).inp = s.inp ∧
    (s.satFld a lo n k).bist = s.bist ∧ (s.satFld a lo n k).wgl = s.wgl ∧ (s.satFld a lo n k).sls = s.sls ∧
    (s.satFld a lo n k).rcd = s.rcd ∧ (s.satFld a lo n k).pair = s.pair ∧ (s.satFld a lo n k).jrnl = s.jrnl ∧
    (s.satFld a lo n k).pending = s.pending ∧ (∀ jj, (s.satFld a lo n k).part jj = s.part jj) ∧
    (∀ jj, (s.satFld a lo n k).stream jj = s.stream jj) ∧ (∀ jj kk, (s.satFld a lo n k).qp jj kk = s.qp jj kk) ∧
    (∀ jj kk, (s.satFld a lo n k).dstream jj kk = s.dstream jj kk) ∧ (∀ jj, (s.satFld a lo n k).sealAt jj = s.sealAt jj) ∧
    (∀ jj, (s.satFld a lo n k).domAt jj = s.domAt jj) ∧ (∀ jj, (s.satFld a lo n k).pwr1 jj = s.pwr1 jj) := by
  and_intros <;> first | rfl | (intros; rfl)

@[simp] theorem State.at_frame (s : State) (t : Nat) :
    (s.at t).regs = s.regs ∧ (s.at t).latch = s.latch ∧ (s.at t).free = s.free ∧ (s.at t).out = s.out ∧
    (s.at t).staged = s.staged ∧ (s.at t).tick = s.tick ∧ (s.at t).parts = s.parts ∧ (s.at t).host = s.host ∧
    (s.at t).comb = s.comb ∧ (s.at t).rq = s.rq ∧ (s.at t).sparse = s.sparse ∧ (s.at t).desc = s.desc ∧
    (s.at t).kv = s.kv ∧ (s.at t).spad = s.spad ∧ (s.at t).fab = s.fab ∧ (s.at t).pwr = s.pwr ∧ (s.at t).dom = s.dom ∧
    (s.at t).clt = s.clt ∧ (s.at t).boot = s.boot ∧ (s.at t).inp = s.inp ∧ (s.at t).bist = s.bist ∧ (s.at t).wgl = s.wgl ∧
    (s.at t).sls = s.sls ∧ (s.at t).rcd = s.rcd ∧ (s.at t).pair = s.pair ∧ (s.at t).jrnl = s.jrnl ∧
    (s.at t).pending = s.pending ∧ (∀ aa, (s.at t).reg aa = s.reg aa) ∧ (∀ jj, (s.at t).part jj = s.part jj) ∧
    (∀ jj, (s.at t).stream jj = s.stream jj) ∧ (∀ jj kk, (s.at t).qp jj kk = s.qp jj kk) ∧
    (∀ jj kk, (s.at t).dstream jj kk = s.dstream jj kk) ∧ (∀ jj, (s.at t).sealAt jj = s.sealAt jj) ∧
    (∀ jj, (s.at t).domAt jj = s.domAt jj) ∧ (∀ jj, (s.at t).pwr1 jj = s.pwr1 jj) := by
  and_intros <;> first | rfl | (intros; rfl)

@[simp] theorem State.emit_frame (s : State) (m : OutMsg) :
    (s.emit m).regs = s.regs ∧ (s.emit m).time = s.time ∧ (s.emit m).latch = s.latch ∧ (s.emit m).hot = s.hot ∧
    (s.emit m).free = s.free ∧ (s.emit m).staged = s.staged ∧ (s.emit m).tick = s.tick ∧ (s.emit m).parts = s.parts ∧
    (s.emit m).host = s.host ∧ (s.emit m).comb = s.comb ∧ (s.emit m).rq = s.rq ∧ (s.emit m).sparse = s.sparse ∧
    (s.emit m).desc = s.desc ∧ (s.emit m).kv = s.kv ∧ (s.emit m).spad = s.spad ∧ (s.emit m).fab = s.fab ∧
    (s.emit m).pwr = s.pwr ∧ (s.emit m).dom = s.dom ∧ (s.emit m).clt = s.clt ∧ (s.emit m).boot = s.boot ∧
    (s.emit m).inp = s.inp ∧ (s.emit m).bist = s.bist ∧ (s.emit m).wgl = s.wgl ∧ (s.emit m).sls = s.sls ∧
    (s.emit m).rcd = s.rcd ∧ (s.emit m).pair = s.pair ∧ (s.emit m).jrnl = s.jrnl ∧ (s.emit m).pending = s.pending ∧
    (∀ aa, (s.emit m).reg aa = s.reg aa) ∧ (∀ jj, (s.emit m).part jj = s.part jj) ∧
    (∀ jj, (s.emit m).stream jj = s.stream jj) ∧ (∀ jj kk, (s.emit m).qp jj kk = s.qp jj kk) ∧
    (∀ jj kk, (s.emit m).dstream jj kk = s.dstream jj kk) ∧ (∀ jj, (s.emit m).sealAt jj = s.sealAt jj) ∧
    (∀ jj, (s.emit m).domAt jj = s.domAt jj) ∧ (∀ jj, (s.emit m).pwr1 jj = s.pwr1 jj) := by
  and_intros <;> first | rfl | (intros; rfl)

@[simp] theorem State.setPart_frame (s : State) (n : Nat) (p : Part) :
    (s.setPart n p).regs = s.regs ∧ (s.setPart n p).time = s.time ∧ (s.setPart n p).latch = s.latch ∧
    (s.setPart n p).hot = s.hot ∧ (s.setPart n p).free = s.free ∧ (s.setPart n p).out = s.out ∧
    (s.setPart n p).staged = s.staged ∧ (s.setPart n p).tick = s.tick ∧ (s.setPart n p).host = s.host ∧
    (s.setPart n p).comb = s.comb ∧ (s.setPart n p).rq = s.rq ∧ (s.setPart n p).sparse = s.sparse ∧
    (s.setPart n p).desc = s.desc ∧ (s.setPart n p).kv = s.kv ∧ (s.setPart n p).spad = s.spad ∧
    (s.setPart n p).fab = s.fab ∧ (s.setPart n p).pwr = s.pwr ∧ (s.setPart n p).dom = s.dom ∧ (s.setPart n p).clt = s.clt ∧
    (s.setPart n p).boot = s.boot ∧ (s.setPart n p).inp = s.inp ∧ (s.setPart n p).bist = s.bist ∧
    (s.setPart n p).wgl = s.wgl ∧ (s.setPart n p).sls = s.sls ∧ (s.setPart n p).rcd = s.rcd ∧
    (s.setPart n p).pair = s.pair ∧ (s.setPart n p).jrnl = s.jrnl ∧ (s.setPart n p).pending = s.pending ∧
    (∀ aa, (s.setPart n p).reg aa = s.reg aa) ∧ (∀ jj, (s.setPart n p).stream jj = s.stream jj) ∧
    (∀ jj kk, (s.setPart n p).qp jj kk = s.qp jj kk) ∧ (∀ jj kk, (s.setPart n p).dstream jj kk = s.dstream jj kk) ∧
    (∀ jj, (s.setPart n p).sealAt jj = s.sealAt jj) ∧ (∀ jj, (s.setPart n p).domAt jj = s.domAt jj) ∧
    (∀ jj, (s.setPart n p).pwr1 jj = s.pwr1 jj) := by
  and_intros <;> first | rfl | (intros; rfl)

@[simp] theorem State.updPart_frame (s : State) (n : Nat) (f : Part → Part) :
    (s.updPart n f).regs = s.regs ∧ (s.updPart n f).time = s.time ∧ (s.updPart n f).latch = s.latch ∧
    (s.updPart n f).hot = s.hot ∧ (s.updPart n f).free = s.free ∧ (s.updPart n f).out = s.out ∧
    (s.updPart n f).staged = s.staged ∧ (s.updPart n f).tick = s.tick ∧ (s.updPart n f).host = s.host ∧
    (s.updPart n f).comb = s.comb ∧ (s.updPart n f).rq = s.rq ∧ (s.updPart n f).sparse = s.sparse ∧
    (s.updPart n f).desc = s.desc ∧ (s.updPart n f).kv = s.kv ∧ (s.updPart n f).spad = s.spad ∧
    (s.updPart n f).fab = s.fab ∧ (s.updPart n f).pwr = s.pwr ∧ (s.updPart n f).dom = s.dom ∧ (s.updPart n f).clt = s.clt ∧
    (s.updPart n f).boot = s.boot ∧ (s.updPart n f).inp = s.inp ∧ (s.updPart n f).bist = s.bist ∧
    (s.updPart n f).wgl = s.wgl ∧ (s.updPart n f).sls = s.sls ∧ (s.updPart n f).rcd = s.rcd ∧
    (s.updPart n f).pair = s.pair ∧ (s.updPart n f).jrnl = s.jrnl ∧ (s.updPart n f).pending = s.pending ∧
    (∀ aa, (s.updPart n f).reg aa = s.reg aa) ∧ (∀ jj, (s.updPart n f).stream jj = s.stream jj) ∧
    (∀ jj kk, (s.updPart n f).qp jj kk = s.qp jj kk) ∧ (∀ jj kk, (s.updPart n f).dstream jj kk = s.dstream jj kk) ∧
    (∀ jj, (s.updPart n f).sealAt jj = s.sealAt jj) ∧ (∀ jj, (s.updPart n f).domAt jj = s.domAt jj) ∧
    (∀ jj, (s.updPart n f).pwr1 jj = s.pwr1 jj) := by
  and_intros <;> first | rfl | (intros; rfl)

@[simp] theorem State.updTick_frame (s : State) (f : TickSt → TickSt) :
    (s.updTick f).regs = s.regs ∧ (s.updTick f).time = s.time ∧ (s.updTick f).latch = s.latch ∧ (s.updTick f).hot = s.hot ∧
    (s.updTick f).free = s.free ∧ (s.updTick f).out = s.out ∧ (s.updTick f).staged = s.staged ∧
    (s.updTick f).parts = s.parts ∧ (s.updTick f).host = s.host ∧ (s.updTick f).comb = s.comb ∧ (s.updTick f).rq = s.rq ∧
    (s.updTick f).sparse = s.sparse ∧ (s.updTick f).desc = s.desc ∧ (s.updTick f).kv = s.kv ∧ (s.updTick f).spad = s.spad ∧
    (s.updTick f).fab = s.fab ∧ (s.updTick f).pwr = s.pwr ∧ (s.updTick f).dom = s.dom ∧ (s.updTick f).clt = s.clt ∧
    (s.updTick f).boot = s.boot ∧ (s.updTick f).inp = s.inp ∧ (s.updTick f).bist = s.bist ∧ (s.updTick f).wgl = s.wgl ∧
    (s.updTick f).sls = s.sls ∧ (s.updTick f).rcd = s.rcd ∧ (s.updTick f).pair = s.pair ∧ (s.updTick f).jrnl = s.jrnl ∧
    (s.updTick f).pending = s.pending ∧ (∀ aa, (s.updTick f).reg aa = s.reg aa) ∧
    (∀ jj, (s.updTick f).part jj = s.part jj) ∧ (∀ jj, (s.updTick f).stream jj = s.stream jj) ∧
    (∀ jj kk, (s.updTick f).qp jj kk = s.qp jj kk) ∧ (∀ jj kk, (s.updTick f).dstream jj kk = s.dstream jj kk) ∧
    (∀ jj, (s.updTick f).sealAt jj = s.sealAt jj) ∧ (∀ jj, (s.updTick f).domAt jj = s.domAt jj) ∧
    (∀ jj, (s.updTick f).pwr1 jj = s.pwr1 jj) := by
  and_intros <;> first | rfl | (intros; rfl)

@[simp] theorem State.setStream_frame (s : State) (i : Nat) (x : Stream) :
    (s.setStream i x).regs = s.regs ∧ (s.setStream i x).time = s.time ∧ (s.setStream i x).latch = s.latch ∧
    (s.setStream i x).hot = s.hot ∧ (s.setStream i x).free = s.free ∧ (s.setStream i x).out = s.out ∧
    (s.setStream i x).staged = s.staged ∧ (s.setStream i x).tick = s.tick ∧ (s.setStream i x).parts = s.parts ∧
    (s.setStream i x).comb = s.comb ∧ (s.setStream i x).rq = s.rq ∧ (s.setStream i x).sparse = s.sparse ∧
    (s.setStream i x).desc = s.desc ∧ (s.setStream i x).kv = s.kv ∧ (s.setStream i x).spad = s.spad ∧
    (s.setStream i x).fab = s.fab ∧ (s.setStream i x).pwr = s.pwr ∧ (s.setStream i x).dom = s.dom ∧
    (s.setStream i x).clt = s.clt ∧ (s.setStream i x).boot = s.boot ∧ (s.setStream i x).inp = s.inp ∧
    (s.setStream i x).bist = s.bist ∧ (s.setStream i x).wgl = s.wgl ∧ (s.setStream i x).sls = s.sls ∧
    (s.setStream i x).rcd = s.rcd ∧ (s.setStream i x).pair = s.pair ∧ (s.setStream i x).jrnl = s.jrnl ∧
    (s.setStream i x).pending = s.pending ∧ (s.setStream i x).host.qps = s.host.qps ∧
    (s.setStream i x).host.portsUp = s.host.portsUp ∧ (s.setStream i x).host.vfEn = s.host.vfEn ∧
    (s.setStream i x).host.msixOn = s.host.msixOn ∧ (s.setStream i x).host.fmask = s.host.fmask ∧
    (s.setStream i x).host.msixTab = s.host.msixTab ∧ (s.setStream i x).host.pendBit = s.host.pendBit ∧
    (s.setStream i x).host.wheelNext = s.host.wheelNext ∧ (s.setStream i x).host.lastCmd = s.host.lastCmd ∧
    (s.setStream i x).host.inspLatch = s.host.inspLatch ∧ (∀ aa, (s.setStream i x).reg aa = s.reg aa) ∧
    (∀ jj, (s.setStream i x).part jj = s.part jj) ∧ (∀ jj kk, (s.setStream i x).qp jj kk = s.qp jj kk) ∧
    (∀ jj kk, (s.setStream i x).dstream jj kk = s.dstream jj kk) ∧ (∀ jj, (s.setStream i x).sealAt jj = s.sealAt jj) ∧
    (∀ jj, (s.setStream i x).domAt jj = s.domAt jj) ∧ (∀ jj, (s.setStream i x).pwr1 jj = s.pwr1 jj) := by
  and_intros <;> first | rfl | (intros; rfl)

@[simp] theorem State.updStream_frame (s : State) (i : Nat) (f : Stream → Stream) :
    (s.updStream i f).regs = s.regs ∧ (s.updStream i f).time = s.time ∧ (s.updStream i f).latch = s.latch ∧
    (s.updStream i f).hot = s.hot ∧ (s.updStream i f).free = s.free ∧ (s.updStream i f).out = s.out ∧
    (s.updStream i f).staged = s.staged ∧ (s.updStream i f).tick = s.tick ∧ (s.updStream i f).parts = s.parts ∧
    (s.updStream i f).comb = s.comb ∧ (s.updStream i f).rq = s.rq ∧ (s.updStream i f).sparse = s.sparse ∧
    (s.updStream i f).desc = s.desc ∧ (s.updStream i f).kv = s.kv ∧ (s.updStream i f).spad = s.spad ∧
    (s.updStream i f).fab = s.fab ∧ (s.updStream i f).pwr = s.pwr ∧ (s.updStream i f).dom = s.dom ∧
    (s.updStream i f).clt = s.clt ∧ (s.updStream i f).boot = s.boot ∧ (s.updStream i f).inp = s.inp ∧
    (s.updStream i f).bist = s.bist ∧ (s.updStream i f).wgl = s.wgl ∧ (s.updStream i f).sls = s.sls ∧
    (s.updStream i f).rcd = s.rcd ∧ (s.updStream i f).pair = s.pair ∧ (s.updStream i f).jrnl = s.jrnl ∧
    (s.updStream i f).pending = s.pending ∧ (s.updStream i f).host.qps = s.host.qps ∧
    (s.updStream i f).host.portsUp = s.host.portsUp ∧ (s.updStream i f).host.vfEn = s.host.vfEn ∧
    (s.updStream i f).host.msixOn = s.host.msixOn ∧ (s.updStream i f).host.fmask = s.host.fmask ∧
    (s.updStream i f).host.msixTab = s.host.msixTab ∧ (s.updStream i f).host.pendBit = s.host.pendBit ∧
    (s.updStream i f).host.wheelNext = s.host.wheelNext ∧ (s.updStream i f).host.lastCmd = s.host.lastCmd ∧
    (s.updStream i f).host.inspLatch = s.host.inspLatch ∧ (∀ aa, (s.updStream i f).reg aa = s.reg aa) ∧
    (∀ jj, (s.updStream i f).part jj = s.part jj) ∧ (∀ jj kk, (s.updStream i f).qp jj kk = s.qp jj kk) ∧
    (∀ jj kk, (s.updStream i f).dstream jj kk = s.dstream jj kk) ∧ (∀ jj, (s.updStream i f).sealAt jj = s.sealAt jj) ∧
    (∀ jj, (s.updStream i f).domAt jj = s.domAt jj) ∧ (∀ jj, (s.updStream i f).pwr1 jj = s.pwr1 jj) := by
  and_intros <;> first | rfl | (intros; rfl)

@[simp] theorem State.setQp_frame (s : State) (n q : Nat) (x : QPair) :
    (s.setQp n q x).regs = s.regs ∧ (s.setQp n q x).time = s.time ∧ (s.setQp n q x).latch = s.latch ∧
    (s.setQp n q x).hot = s.hot ∧ (s.setQp n q x).free = s.free ∧ (s.setQp n q x).out = s.out ∧
    (s.setQp n q x).staged = s.staged ∧ (s.setQp n q x).tick = s.tick ∧ (s.setQp n q x).parts = s.parts ∧
    (s.setQp n q x).comb = s.comb ∧ (s.setQp n q x).rq = s.rq ∧ (s.setQp n q x).sparse = s.sparse ∧
    (s.setQp n q x).desc = s.desc ∧ (s.setQp n q x).kv = s.kv ∧ (s.setQp n q x).spad = s.spad ∧
    (s.setQp n q x).fab = s.fab ∧ (s.setQp n q x).pwr = s.pwr ∧ (s.setQp n q x).dom = s.dom ∧ (s.setQp n q x).clt = s.clt ∧
    (s.setQp n q x).boot = s.boot ∧ (s.setQp n q x).inp = s.inp ∧ (s.setQp n q x).bist = s.bist ∧
    (s.setQp n q x).wgl = s.wgl ∧ (s.setQp n q x).sls = s.sls ∧ (s.setQp n q x).rcd = s.rcd ∧
    (s.setQp n q x).pair = s.pair ∧ (s.setQp n q x).jrnl = s.jrnl ∧ (s.setQp n q x).pending = s.pending ∧
    (s.setQp n q x).host.streams = s.host.streams ∧ (s.setQp n q x).host.portsUp = s.host.portsUp ∧
    (s.setQp n q x).host.vfEn = s.host.vfEn ∧ (s.setQp n q x).host.msixOn = s.host.msixOn ∧
    (s.setQp n q x).host.fmask = s.host.fmask ∧ (s.setQp n q x).host.msixTab = s.host.msixTab ∧
    (s.setQp n q x).host.pendBit = s.host.pendBit ∧ (s.setQp n q x).host.wheelNext = s.host.wheelNext ∧
    (s.setQp n q x).host.lastCmd = s.host.lastCmd ∧ (s.setQp n q x).host.inspLatch = s.host.inspLatch ∧
    (∀ aa, (s.setQp n q x).reg aa = s.reg aa) ∧ (∀ jj, (s.setQp n q x).part jj = s.part jj) ∧
    (∀ jj, (s.setQp n q x).stream jj = s.stream jj) ∧ (∀ jj kk, (s.setQp n q x).dstream jj kk = s.dstream jj kk) ∧
    (∀ jj, (s.setQp n q x).sealAt jj = s.sealAt jj) ∧ (∀ jj, (s.setQp n q x).domAt jj = s.domAt jj) ∧
    (∀ jj, (s.setQp n q x).pwr1 jj = s.pwr1 jj) := by
  and_intros <;> first | rfl | (intros; rfl)

@[simp] theorem State.updQp_frame (s : State) (n q : Nat) (f : QPair → QPair) :
    (s.updQp n q f).regs = s.regs ∧ (s.updQp n q f).time = s.time ∧ (s.updQp n q f).latch = s.latch ∧
    (s.updQp n q f).hot = s.hot ∧ (s.updQp n q f).free = s.free ∧ (s.updQp n q f).out = s.out ∧
    (s.updQp n q f).staged = s.staged ∧ (s.updQp n q f).tick = s.tick ∧ (s.updQp n q f).parts = s.parts ∧
    (s.updQp n q f).comb = s.comb ∧ (s.updQp n q f).rq = s.rq ∧ (s.updQp n q f).sparse = s.sparse ∧
    (s.updQp n q f).desc = s.desc ∧ (s.updQp n q f).kv = s.kv ∧ (s.updQp n q f).spad = s.spad ∧
    (s.updQp n q f).fab = s.fab ∧ (s.updQp n q f).pwr = s.pwr ∧ (s.updQp n q f).dom = s.dom ∧ (s.updQp n q f).clt = s.clt ∧
    (s.updQp n q f).boot = s.boot ∧ (s.updQp n q f).inp = s.inp ∧ (s.updQp n q f).bist = s.bist ∧
    (s.updQp n q f).wgl = s.wgl ∧ (s.updQp n q f).sls = s.sls ∧ (s.updQp n q f).rcd = s.rcd ∧
    (s.updQp n q f).pair = s.pair ∧ (s.updQp n q f).jrnl = s.jrnl ∧ (s.updQp n q f).pending = s.pending ∧
    (s.updQp n q f).host.streams = s.host.streams ∧ (s.updQp n q f).host.portsUp = s.host.portsUp ∧
    (s.updQp n q f).host.vfEn = s.host.vfEn ∧ (s.updQp n q f).host.msixOn = s.host.msixOn ∧
    (s.updQp n q f).host.fmask = s.host.fmask ∧ (s.updQp n q f).host.msixTab = s.host.msixTab ∧
    (s.updQp n q f).host.pendBit = s.host.pendBit ∧ (s.updQp n q f).host.wheelNext = s.host.wheelNext ∧
    (s.updQp n q f).host.lastCmd = s.host.lastCmd ∧ (s.updQp n q f).host.inspLatch = s.host.inspLatch ∧
    (∀ aa, (s.updQp n q f).reg aa = s.reg aa) ∧ (∀ jj, (s.updQp n q f).part jj = s.part jj) ∧
    (∀ jj, (s.updQp n q f).stream jj = s.stream jj) ∧ (∀ jj kk, (s.updQp n q f).dstream jj kk = s.dstream jj kk) ∧
    (∀ jj, (s.updQp n q f).sealAt jj = s.sealAt jj) ∧ (∀ jj, (s.updQp n q f).domAt jj = s.domAt jj) ∧
    (∀ jj, (s.updQp n q f).pwr1 jj = s.pwr1 jj) := by
  and_intros <;> first | rfl | (intros; rfl)

@[simp] theorem State.setDstream_frame (s : State) (site st : Nat) (x : DStream) :
    (s.setDstream site st x).regs = s.regs ∧ (s.setDstream site st x).time = s.time ∧
    (s.setDstream site st x).latch = s.latch ∧ (s.setDstream site st x).hot = s.hot ∧
    (s.setDstream site st x).free = s.free ∧ (s.setDstream site st x).out = s.out ∧
    (s.setDstream site st x).staged = s.staged ∧ (s.setDstream site st x).tick = s.tick ∧
    (s.setDstream site st x).parts = s.parts ∧ (s.setDstream site st x).host = s.host ∧
    (s.setDstream site st x).comb = s.comb ∧ (s.setDstream site st x).rq = s.rq ∧
    (s.setDstream site st x).sparse = s.sparse ∧ (s.setDstream site st x).kv = s.kv ∧
    (s.setDstream site st x).spad = s.spad ∧ (s.setDstream site st x).fab = s.fab ∧ (s.setDstream site st x).pwr = s.pwr ∧
    (s.setDstream site st x).dom = s.dom ∧ (s.setDstream site st x).clt = s.clt ∧ (s.setDstream site st x).boot = s.boot ∧
    (s.setDstream site st x).inp = s.inp ∧ (s.setDstream site st x).bist = s.bist ∧ (s.setDstream site st x).wgl = s.wgl ∧
    (s.setDstream site st x).sls = s.sls ∧ (s.setDstream site st x).rcd = s.rcd ∧ (s.setDstream site st x).pair = s.pair ∧
    (s.setDstream site st x).jrnl = s.jrnl ∧ (s.setDstream site st x).pending = s.pending ∧
    (s.setDstream site st x).desc.rfu = s.desc.rfu ∧ (s.setDstream site st x).desc.pwc = s.desc.pwc ∧
    (s.setDstream site st x).desc.pwcLoaded = s.desc.pwcLoaded ∧ (s.setDstream site st x).desc.satRows = s.desc.satRows ∧
    (∀ aa, (s.setDstream site st x).reg aa = s.reg aa) ∧ (∀ jj, (s.setDstream site st x).part jj = s.part jj) ∧
    (∀ jj, (s.setDstream site st x).stream jj = s.stream jj) ∧ (∀ jj kk, (s.setDstream site st x).qp jj kk = s.qp jj kk) ∧
    (∀ jj, (s.setDstream site st x).sealAt jj = s.sealAt jj) ∧ (∀ jj, (s.setDstream site st x).domAt jj = s.domAt jj) ∧
    (∀ jj, (s.setDstream site st x).pwr1 jj = s.pwr1 jj) := by
  and_intros <;> first | rfl | (intros; rfl)

@[simp] theorem State.setSeal_frame (s : State) (k : Nat) (x : Seal) :
    (s.setSeal k x).regs = s.regs ∧ (s.setSeal k x).time = s.time ∧ (s.setSeal k x).latch = s.latch ∧
    (s.setSeal k x).hot = s.hot ∧ (s.setSeal k x).free = s.free ∧ (s.setSeal k x).out = s.out ∧
    (s.setSeal k x).staged = s.staged ∧ (s.setSeal k x).tick = s.tick ∧ (s.setSeal k x).parts = s.parts ∧
    (s.setSeal k x).host = s.host ∧ (s.setSeal k x).comb = s.comb ∧ (s.setSeal k x).rq = s.rq ∧
    (s.setSeal k x).sparse = s.sparse ∧ (s.setSeal k x).desc = s.desc ∧ (s.setSeal k x).kv = s.kv ∧
    (s.setSeal k x).spad = s.spad ∧ (s.setSeal k x).fab = s.fab ∧ (s.setSeal k x).pwr = s.pwr ∧
    (s.setSeal k x).dom = s.dom ∧ (s.setSeal k x).clt = s.clt ∧ (s.setSeal k x).boot = s.boot ∧
    (s.setSeal k x).inp = s.inp ∧ (s.setSeal k x).bist = s.bist ∧ (s.setSeal k x).wgl = s.wgl ∧
    (s.setSeal k x).rcd = s.rcd ∧ (s.setSeal k x).pair = s.pair ∧ (s.setSeal k x).jrnl = s.jrnl ∧
    (s.setSeal k x).pending = s.pending ∧ (s.setSeal k x).sls.xlat = s.sls.xlat ∧ (s.setSeal k x).sls.waits = s.sls.waits ∧
    (s.setSeal k x).sls.ports = s.sls.ports ∧ (s.setSeal k x).sls.insp = s.sls.insp ∧
    (s.setSeal k x).sls.held = s.sls.held ∧ (∀ aa, (s.setSeal k x).reg aa = s.reg aa) ∧
    (∀ jj, (s.setSeal k x).part jj = s.part jj) ∧ (∀ jj, (s.setSeal k x).stream jj = s.stream jj) ∧
    (∀ jj kk, (s.setSeal k x).qp jj kk = s.qp jj kk) ∧ (∀ jj kk, (s.setSeal k x).dstream jj kk = s.dstream jj kk) ∧
    (∀ jj, (s.setSeal k x).domAt jj = s.domAt jj) ∧ (∀ jj, (s.setSeal k x).pwr1 jj = s.pwr1 jj) := by
  and_intros <;> first | rfl | (intros; rfl)

@[simp] theorem State.setCorePort_frame (s : State) (k : Nat) (x : CorePort) :
    (s.setCorePort k x).regs = s.regs ∧ (s.setCorePort k x).time = s.time ∧ (s.setCorePort k x).latch = s.latch ∧
    (s.setCorePort k x).hot = s.hot ∧ (s.setCorePort k x).free = s.free ∧ (s.setCorePort k x).out = s.out ∧
    (s.setCorePort k x).staged = s.staged ∧ (s.setCorePort k x).tick = s.tick ∧ (s.setCorePort k x).parts = s.parts ∧
    (s.setCorePort k x).host = s.host ∧ (s.setCorePort k x).comb = s.comb ∧ (s.setCorePort k x).rq = s.rq ∧
    (s.setCorePort k x).sparse = s.sparse ∧ (s.setCorePort k x).desc = s.desc ∧ (s.setCorePort k x).kv = s.kv ∧
    (s.setCorePort k x).spad = s.spad ∧ (s.setCorePort k x).fab = s.fab ∧ (s.setCorePort k x).pwr = s.pwr ∧
    (s.setCorePort k x).dom = s.dom ∧ (s.setCorePort k x).clt = s.clt ∧ (s.setCorePort k x).boot = s.boot ∧
    (s.setCorePort k x).inp = s.inp ∧ (s.setCorePort k x).bist = s.bist ∧ (s.setCorePort k x).wgl = s.wgl ∧
    (s.setCorePort k x).rcd = s.rcd ∧ (s.setCorePort k x).pair = s.pair ∧ (s.setCorePort k x).jrnl = s.jrnl ∧
    (s.setCorePort k x).pending = s.pending ∧ (s.setCorePort k x).sls.seals = s.sls.seals ∧
    (s.setCorePort k x).sls.xlat = s.sls.xlat ∧ (s.setCorePort k x).sls.waits = s.sls.waits ∧
    (s.setCorePort k x).sls.insp = s.sls.insp ∧ (s.setCorePort k x).sls.held = s.sls.held ∧
    (∀ aa, (s.setCorePort k x).reg aa = s.reg aa) ∧ (∀ jj, (s.setCorePort k x).part jj = s.part jj) ∧
    (∀ jj, (s.setCorePort k x).stream jj = s.stream jj) ∧ (∀ jj kk, (s.setCorePort k x).qp jj kk = s.qp jj kk) ∧
    (∀ jj kk, (s.setCorePort k x).dstream jj kk = s.dstream jj kk) ∧ (∀ jj, (s.setCorePort k x).sealAt jj = s.sealAt jj) ∧
    (∀ jj, (s.setCorePort k x).domAt jj = s.domAt jj) ∧ (∀ jj, (s.setCorePort k x).pwr1 jj = s.pwr1 jj) := by
  and_intros <;> first | rfl | (intros; rfl)

@[simp] theorem State.setScaleSet_frame (s : State) (k : Nat) (x : ScaleSet) :
    (s.setScaleSet k x).regs = s.regs ∧ (s.setScaleSet k x).time = s.time ∧ (s.setScaleSet k x).latch = s.latch ∧
    (s.setScaleSet k x).hot = s.hot ∧ (s.setScaleSet k x).free = s.free ∧ (s.setScaleSet k x).out = s.out ∧
    (s.setScaleSet k x).staged = s.staged ∧ (s.setScaleSet k x).tick = s.tick ∧ (s.setScaleSet k x).parts = s.parts ∧
    (s.setScaleSet k x).host = s.host ∧ (s.setScaleSet k x).comb = s.comb ∧ (s.setScaleSet k x).sparse = s.sparse ∧
    (s.setScaleSet k x).desc = s.desc ∧ (s.setScaleSet k x).kv = s.kv ∧ (s.setScaleSet k x).spad = s.spad ∧
    (s.setScaleSet k x).fab = s.fab ∧ (s.setScaleSet k x).pwr = s.pwr ∧ (s.setScaleSet k x).dom = s.dom ∧
    (s.setScaleSet k x).clt = s.clt ∧ (s.setScaleSet k x).boot = s.boot ∧ (s.setScaleSet k x).inp = s.inp ∧
    (s.setScaleSet k x).bist = s.bist ∧ (s.setScaleSet k x).wgl = s.wgl ∧ (s.setScaleSet k x).sls = s.sls ∧
    (s.setScaleSet k x).rcd = s.rcd ∧ (s.setScaleSet k x).pair = s.pair ∧ (s.setScaleSet k x).jrnl = s.jrnl ∧
    (s.setScaleSet k x).pending = s.pending ∧ (s.setScaleSet k x).rq.chan = s.rq.chan ∧
    (s.setScaleSet k x).rq.stage = s.rq.stage ∧ (s.setScaleSet k x).rq.pend = s.rq.pend ∧
    (s.setScaleSet k x).rq.run = s.rq.run ∧ (s.setScaleSet k x).rq.ingress = s.rq.ingress ∧
    (s.setScaleSet k x).rq.lastCmd = s.rq.lastCmd ∧ (∀ aa, (s.setScaleSet k x).reg aa = s.reg aa) ∧
    (∀ jj, (s.setScaleSet k x).part jj = s.part jj) ∧ (∀ jj, (s.setScaleSet k x).stream jj = s.stream jj) ∧
    (∀ jj kk, (s.setScaleSet k x).qp jj kk = s.qp jj kk) ∧ (∀ jj kk, (s.setScaleSet k x).dstream jj kk = s.dstream jj kk) ∧
    (∀ jj, (s.setScaleSet k x).sealAt jj = s.sealAt jj) ∧ (∀ jj, (s.setScaleSet k x).domAt jj = s.domAt jj) ∧
    (∀ jj, (s.setScaleSet k x).pwr1 jj = s.pwr1 jj) := by
  and_intros <;> first | rfl | (intros; rfl)

@[simp] theorem State.setMergeCtx_frame (s : State) (p m : Nat) (x : MergeCtx) :
    (s.setMergeCtx p m x).regs = s.regs ∧ (s.setMergeCtx p m x).time = s.time ∧ (s.setMergeCtx p m x).latch = s.latch ∧
    (s.setMergeCtx p m x).hot = s.hot ∧ (s.setMergeCtx p m x).free = s.free ∧ (s.setMergeCtx p m x).out = s.out ∧
    (s.setMergeCtx p m x).staged = s.staged ∧ (s.setMergeCtx p m x).tick = s.tick ∧ (s.setMergeCtx p m x).parts = s.parts ∧
    (s.setMergeCtx p m x).host = s.host ∧ (s.setMergeCtx p m x).comb = s.comb ∧ (s.setMergeCtx p m x).rq = s.rq ∧
    (s.setMergeCtx p m x).desc = s.desc ∧ (s.setMergeCtx p m x).kv = s.kv ∧ (s.setMergeCtx p m x).spad = s.spad ∧
    (s.setMergeCtx p m x).fab = s.fab ∧ (s.setMergeCtx p m x).pwr = s.pwr ∧ (s.setMergeCtx p m x).dom = s.dom ∧
    (s.setMergeCtx p m x).clt = s.clt ∧ (s.setMergeCtx p m x).boot = s.boot ∧ (s.setMergeCtx p m x).inp = s.inp ∧
    (s.setMergeCtx p m x).bist = s.bist ∧ (s.setMergeCtx p m x).wgl = s.wgl ∧ (s.setMergeCtx p m x).sls = s.sls ∧
    (s.setMergeCtx p m x).rcd = s.rcd ∧ (s.setMergeCtx p m x).pair = s.pair ∧ (s.setMergeCtx p m x).jrnl = s.jrnl ∧
    (s.setMergeCtx p m x).pending = s.pending ∧ (s.setMergeCtx p m x).sparse.packer = s.sparse.packer ∧
    (∀ aa, (s.setMergeCtx p m x).reg aa = s.reg aa) ∧ (∀ jj, (s.setMergeCtx p m x).part jj = s.part jj) ∧
    (∀ jj, (s.setMergeCtx p m x).stream jj = s.stream jj) ∧ (∀ jj kk, (s.setMergeCtx p m x).qp jj kk = s.qp jj kk) ∧
    (∀ jj kk, (s.setMergeCtx p m x).dstream jj kk = s.dstream jj kk) ∧
    (∀ jj, (s.setMergeCtx p m x).sealAt jj = s.sealAt jj) ∧ (∀ jj, (s.setMergeCtx p m x).domAt jj = s.domAt jj) ∧
    (∀ jj, (s.setMergeCtx p m x).pwr1 jj = s.pwr1 jj) := by
  and_intros <;> first | rfl | (intros; rfl)

@[simp] theorem State.setAccSet_frame (s : State) (pc i : Nat) (x : AccSet) :
    (s.setAccSet pc i x).regs = s.regs ∧ (s.setAccSet pc i x).time = s.time ∧ (s.setAccSet pc i x).latch = s.latch ∧
    (s.setAccSet pc i x).hot = s.hot ∧ (s.setAccSet pc i x).free = s.free ∧ (s.setAccSet pc i x).out = s.out ∧
    (s.setAccSet pc i x).staged = s.staged ∧ (s.setAccSet pc i x).tick = s.tick ∧ (s.setAccSet pc i x).parts = s.parts ∧
    (s.setAccSet pc i x).host = s.host ∧ (s.setAccSet pc i x).rq = s.rq ∧ (s.setAccSet pc i x).sparse = s.sparse ∧
    (s.setAccSet pc i x).desc = s.desc ∧ (s.setAccSet pc i x).kv = s.kv ∧ (s.setAccSet pc i x).spad = s.spad ∧
    (s.setAccSet pc i x).fab = s.fab ∧ (s.setAccSet pc i x).pwr = s.pwr ∧ (s.setAccSet pc i x).dom = s.dom ∧
    (s.setAccSet pc i x).clt = s.clt ∧ (s.setAccSet pc i x).boot = s.boot ∧ (s.setAccSet pc i x).inp = s.inp ∧
    (s.setAccSet pc i x).bist = s.bist ∧ (s.setAccSet pc i x).wgl = s.wgl ∧ (s.setAccSet pc i x).sls = s.sls ∧
    (s.setAccSet pc i x).rcd = s.rcd ∧ (s.setAccSet pc i x).pair = s.pair ∧ (s.setAccSet pc i x).jrnl = s.jrnl ∧
    (s.setAccSet pc i x).pending = s.pending ∧ (s.setAccSet pc i x).comb.repair = s.comb.repair ∧
    (s.setAccSet pc i x).comb.bmap = s.comb.bmap ∧ (s.setAccSet pc i x).comb.rows = s.comb.rows ∧
    (s.setAccSet pc i x).comb.metaR = s.comb.metaR ∧ (s.setAccSet pc i x).comb.wzp = s.comb.wzp ∧
    (s.setAccSet pc i x).comb.colsum = s.comb.colsum ∧ (s.setAccSet pc i x).comb.hdr = s.comb.hdr ∧
    (s.setAccSet pc i x).comb.shadow = s.comb.shadow ∧ (s.setAccSet pc i x).comb.lastSet = s.comb.lastSet ∧
    (s.setAccSet pc i x).comb.lastSlot = s.comb.lastSlot ∧ (s.setAccSet pc i x).comb.tailW4S = s.comb.tailW4S ∧
    (s.setAccSet pc i x).comb.openTile = s.comb.openTile ∧ (s.setAccSet pc i x).comb.lastShadow = s.comb.lastShadow ∧
    (∀ aa, (s.setAccSet pc i x).reg aa = s.reg aa) ∧ (∀ jj, (s.setAccSet pc i x).part jj = s.part jj) ∧
    (∀ jj, (s.setAccSet pc i x).stream jj = s.stream jj) ∧ (∀ jj kk, (s.setAccSet pc i x).qp jj kk = s.qp jj kk) ∧
    (∀ jj kk, (s.setAccSet pc i x).dstream jj kk = s.dstream jj kk) ∧
    (∀ jj, (s.setAccSet pc i x).sealAt jj = s.sealAt jj) ∧ (∀ jj, (s.setAccSet pc i x).domAt jj = s.domAt jj) ∧
    (∀ jj, (s.setAccSet pc i x).pwr1 jj = s.pwr1 jj) := by
  and_intros <;> first | rfl | (intros; rfl)

@[simp] theorem State.setShadow_frame (s : State) (pc i : Nat) (x : Shadow) :
    (s.setShadow pc i x).regs = s.regs ∧ (s.setShadow pc i x).time = s.time ∧ (s.setShadow pc i x).latch = s.latch ∧
    (s.setShadow pc i x).hot = s.hot ∧ (s.setShadow pc i x).free = s.free ∧ (s.setShadow pc i x).out = s.out ∧
    (s.setShadow pc i x).staged = s.staged ∧ (s.setShadow pc i x).tick = s.tick ∧ (s.setShadow pc i x).parts = s.parts ∧
    (s.setShadow pc i x).host = s.host ∧ (s.setShadow pc i x).rq = s.rq ∧ (s.setShadow pc i x).sparse = s.sparse ∧
    (s.setShadow pc i x).desc = s.desc ∧ (s.setShadow pc i x).kv = s.kv ∧ (s.setShadow pc i x).spad = s.spad ∧
    (s.setShadow pc i x).fab = s.fab ∧ (s.setShadow pc i x).pwr = s.pwr ∧ (s.setShadow pc i x).dom = s.dom ∧
    (s.setShadow pc i x).clt = s.clt ∧ (s.setShadow pc i x).boot = s.boot ∧ (s.setShadow pc i x).inp = s.inp ∧
    (s.setShadow pc i x).bist = s.bist ∧ (s.setShadow pc i x).wgl = s.wgl ∧ (s.setShadow pc i x).sls = s.sls ∧
    (s.setShadow pc i x).rcd = s.rcd ∧ (s.setShadow pc i x).pair = s.pair ∧ (s.setShadow pc i x).jrnl = s.jrnl ∧
    (s.setShadow pc i x).pending = s.pending ∧ (s.setShadow pc i x).comb.repair = s.comb.repair ∧
    (s.setShadow pc i x).comb.bmap = s.comb.bmap ∧ (s.setShadow pc i x).comb.rows = s.comb.rows ∧
    (s.setShadow pc i x).comb.metaR = s.comb.metaR ∧ (s.setShadow pc i x).comb.wzp = s.comb.wzp ∧
    (s.setShadow pc i x).comb.colsum = s.comb.colsum ∧ (s.setShadow pc i x).comb.hdr = s.comb.hdr ∧
    (s.setShadow pc i x).comb.sets = s.comb.sets ∧ (s.setShadow pc i x).comb.lastSet = s.comb.lastSet ∧
    (s.setShadow pc i x).comb.lastSlot = s.comb.lastSlot ∧ (s.setShadow pc i x).comb.tailW4S = s.comb.tailW4S ∧
    (s.setShadow pc i x).comb.openTile = s.comb.openTile ∧ (s.setShadow pc i x).comb.lastShadow = s.comb.lastShadow ∧
    (∀ aa, (s.setShadow pc i x).reg aa = s.reg aa) ∧ (∀ jj, (s.setShadow pc i x).part jj = s.part jj) ∧
    (∀ jj, (s.setShadow pc i x).stream jj = s.stream jj) ∧ (∀ jj kk, (s.setShadow pc i x).qp jj kk = s.qp jj kk) ∧
    (∀ jj kk, (s.setShadow pc i x).dstream jj kk = s.dstream jj kk) ∧
    (∀ jj, (s.setShadow pc i x).sealAt jj = s.sealAt jj) ∧ (∀ jj, (s.setShadow pc i x).domAt jj = s.domAt jj) ∧
    (∀ jj, (s.setShadow pc i x).pwr1 jj = s.pwr1 jj) := by
  and_intros <;> first | rfl | (intros; rfl)

@[simp] theorem State.setSlotHdr_frame (s : State) (sk : Nat) (h : SlotHdr) :
    (s.setSlotHdr sk h).regs = s.regs ∧ (s.setSlotHdr sk h).time = s.time ∧ (s.setSlotHdr sk h).latch = s.latch ∧
    (s.setSlotHdr sk h).hot = s.hot ∧ (s.setSlotHdr sk h).free = s.free ∧ (s.setSlotHdr sk h).out = s.out ∧
    (s.setSlotHdr sk h).staged = s.staged ∧ (s.setSlotHdr sk h).tick = s.tick ∧ (s.setSlotHdr sk h).parts = s.parts ∧
    (s.setSlotHdr sk h).host = s.host ∧ (s.setSlotHdr sk h).rq = s.rq ∧ (s.setSlotHdr sk h).sparse = s.sparse ∧
    (s.setSlotHdr sk h).desc = s.desc ∧ (s.setSlotHdr sk h).kv = s.kv ∧ (s.setSlotHdr sk h).spad = s.spad ∧
    (s.setSlotHdr sk h).fab = s.fab ∧ (s.setSlotHdr sk h).pwr = s.pwr ∧ (s.setSlotHdr sk h).dom = s.dom ∧
    (s.setSlotHdr sk h).clt = s.clt ∧ (s.setSlotHdr sk h).boot = s.boot ∧ (s.setSlotHdr sk h).inp = s.inp ∧
    (s.setSlotHdr sk h).bist = s.bist ∧ (s.setSlotHdr sk h).wgl = s.wgl ∧ (s.setSlotHdr sk h).sls = s.sls ∧
    (s.setSlotHdr sk h).rcd = s.rcd ∧ (s.setSlotHdr sk h).pair = s.pair ∧ (s.setSlotHdr sk h).jrnl = s.jrnl ∧
    (s.setSlotHdr sk h).pending = s.pending ∧ (s.setSlotHdr sk h).comb.repair = s.comb.repair ∧
    (s.setSlotHdr sk h).comb.bmap = s.comb.bmap ∧ (s.setSlotHdr sk h).comb.rows = s.comb.rows ∧
    (s.setSlotHdr sk h).comb.metaR = s.comb.metaR ∧ (s.setSlotHdr sk h).comb.wzp = s.comb.wzp ∧
    (s.setSlotHdr sk h).comb.colsum = s.comb.colsum ∧ (s.setSlotHdr sk h).comb.shadow = s.comb.shadow ∧
    (s.setSlotHdr sk h).comb.sets = s.comb.sets ∧ (s.setSlotHdr sk h).comb.lastSet = s.comb.lastSet ∧
    (s.setSlotHdr sk h).comb.lastSlot = s.comb.lastSlot ∧ (s.setSlotHdr sk h).comb.tailW4S = s.comb.tailW4S ∧
    (s.setSlotHdr sk h).comb.openTile = s.comb.openTile ∧ (s.setSlotHdr sk h).comb.lastShadow = s.comb.lastShadow ∧
    (∀ aa, (s.setSlotHdr sk h).reg aa = s.reg aa) ∧ (∀ jj, (s.setSlotHdr sk h).part jj = s.part jj) ∧
    (∀ jj, (s.setSlotHdr sk h).stream jj = s.stream jj) ∧ (∀ jj kk, (s.setSlotHdr sk h).qp jj kk = s.qp jj kk) ∧
    (∀ jj kk, (s.setSlotHdr sk h).dstream jj kk = s.dstream jj kk) ∧ (∀ jj, (s.setSlotHdr sk h).sealAt jj = s.sealAt jj) ∧
    (∀ jj, (s.setSlotHdr sk h).domAt jj = s.domAt jj) ∧ (∀ jj, (s.setSlotHdr sk h).pwr1 jj = s.pwr1 jj) := by
  and_intros <;> first | rfl | (intros; rfl)

@[simp] theorem State.setWeightRow_frame (s : State) (sk r : Nat) (v : BitVec 256) :
    (s.setWeightRow sk r v).regs = s.regs ∧ (s.setWeightRow sk r v).time = s.time ∧
    (s.setWeightRow sk r v).latch = s.latch ∧ (s.setWeightRow sk r v).hot = s.hot ∧ (s.setWeightRow sk r v).free = s.free ∧
    (s.setWeightRow sk r v).out = s.out ∧ (s.setWeightRow sk r v).staged = s.staged ∧
    (s.setWeightRow sk r v).tick = s.tick ∧ (s.setWeightRow sk r v).parts = s.parts ∧
    (s.setWeightRow sk r v).host = s.host ∧ (s.setWeightRow sk r v).rq = s.rq ∧ (s.setWeightRow sk r v).sparse = s.sparse ∧
    (s.setWeightRow sk r v).desc = s.desc ∧ (s.setWeightRow sk r v).kv = s.kv ∧ (s.setWeightRow sk r v).spad = s.spad ∧
    (s.setWeightRow sk r v).fab = s.fab ∧ (s.setWeightRow sk r v).pwr = s.pwr ∧ (s.setWeightRow sk r v).dom = s.dom ∧
    (s.setWeightRow sk r v).clt = s.clt ∧ (s.setWeightRow sk r v).boot = s.boot ∧ (s.setWeightRow sk r v).inp = s.inp ∧
    (s.setWeightRow sk r v).bist = s.bist ∧ (s.setWeightRow sk r v).wgl = s.wgl ∧ (s.setWeightRow sk r v).sls = s.sls ∧
    (s.setWeightRow sk r v).rcd = s.rcd ∧ (s.setWeightRow sk r v).pair = s.pair ∧ (s.setWeightRow sk r v).jrnl = s.jrnl ∧
    (s.setWeightRow sk r v).pending = s.pending ∧ (s.setWeightRow sk r v).comb.repair = s.comb.repair ∧
    (s.setWeightRow sk r v).comb.bmap = s.comb.bmap ∧ (s.setWeightRow sk r v).comb.metaR = s.comb.metaR ∧
    (s.setWeightRow sk r v).comb.wzp = s.comb.wzp ∧ (s.setWeightRow sk r v).comb.colsum = s.comb.colsum ∧
    (s.setWeightRow sk r v).comb.hdr = s.comb.hdr ∧ (s.setWeightRow sk r v).comb.shadow = s.comb.shadow ∧
    (s.setWeightRow sk r v).comb.sets = s.comb.sets ∧ (s.setWeightRow sk r v).comb.lastSet = s.comb.lastSet ∧
    (s.setWeightRow sk r v).comb.lastSlot = s.comb.lastSlot ∧ (s.setWeightRow sk r v).comb.tailW4S = s.comb.tailW4S ∧
    (s.setWeightRow sk r v).comb.openTile = s.comb.openTile ∧ (s.setWeightRow sk r v).comb.lastShadow = s.comb.lastShadow ∧
    (∀ aa, (s.setWeightRow sk r v).reg aa = s.reg aa) ∧ (∀ jj, (s.setWeightRow sk r v).part jj = s.part jj) ∧
    (∀ jj, (s.setWeightRow sk r v).stream jj = s.stream jj) ∧ (∀ jj kk, (s.setWeightRow sk r v).qp jj kk = s.qp jj kk) ∧
    (∀ jj kk, (s.setWeightRow sk r v).dstream jj kk = s.dstream jj kk) ∧
    (∀ jj, (s.setWeightRow sk r v).sealAt jj = s.sealAt jj) ∧ (∀ jj, (s.setWeightRow sk r v).domAt jj = s.domAt jj) ∧
    (∀ jj, (s.setWeightRow sk r v).pwr1 jj = s.pwr1 jj) := by
  and_intros <;> first | rfl | (intros; rfl)

@[simp] theorem State.setMetaRow_frame (s : State) (sk r : Nat) (v : BitVec 128) :
    (s.setMetaRow sk r v).regs = s.regs ∧ (s.setMetaRow sk r v).time = s.time ∧ (s.setMetaRow sk r v).latch = s.latch ∧
    (s.setMetaRow sk r v).hot = s.hot ∧ (s.setMetaRow sk r v).free = s.free ∧ (s.setMetaRow sk r v).out = s.out ∧
    (s.setMetaRow sk r v).staged = s.staged ∧ (s.setMetaRow sk r v).tick = s.tick ∧ (s.setMetaRow sk r v).parts = s.parts ∧
    (s.setMetaRow sk r v).host = s.host ∧ (s.setMetaRow sk r v).rq = s.rq ∧ (s.setMetaRow sk r v).sparse = s.sparse ∧
    (s.setMetaRow sk r v).desc = s.desc ∧ (s.setMetaRow sk r v).kv = s.kv ∧ (s.setMetaRow sk r v).spad = s.spad ∧
    (s.setMetaRow sk r v).fab = s.fab ∧ (s.setMetaRow sk r v).pwr = s.pwr ∧ (s.setMetaRow sk r v).dom = s.dom ∧
    (s.setMetaRow sk r v).clt = s.clt ∧ (s.setMetaRow sk r v).boot = s.boot ∧ (s.setMetaRow sk r v).inp = s.inp ∧
    (s.setMetaRow sk r v).bist = s.bist ∧ (s.setMetaRow sk r v).wgl = s.wgl ∧ (s.setMetaRow sk r v).sls = s.sls ∧
    (s.setMetaRow sk r v).rcd = s.rcd ∧ (s.setMetaRow sk r v).pair = s.pair ∧ (s.setMetaRow sk r v).jrnl = s.jrnl ∧
    (s.setMetaRow sk r v).pending = s.pending ∧ (s.setMetaRow sk r v).comb.repair = s.comb.repair ∧
    (s.setMetaRow sk r v).comb.bmap = s.comb.bmap ∧ (s.setMetaRow sk r v).comb.rows = s.comb.rows ∧
    (s.setMetaRow sk r v).comb.wzp = s.comb.wzp ∧ (s.setMetaRow sk r v).comb.colsum = s.comb.colsum ∧
    (s.setMetaRow sk r v).comb.hdr = s.comb.hdr ∧ (s.setMetaRow sk r v).comb.shadow = s.comb.shadow ∧
    (s.setMetaRow sk r v).comb.sets = s.comb.sets ∧ (s.setMetaRow sk r v).comb.lastSet = s.comb.lastSet ∧
    (s.setMetaRow sk r v).comb.lastSlot = s.comb.lastSlot ∧ (s.setMetaRow sk r v).comb.tailW4S = s.comb.tailW4S ∧
    (s.setMetaRow sk r v).comb.openTile = s.comb.openTile ∧ (s.setMetaRow sk r v).comb.lastShadow = s.comb.lastShadow ∧
    (∀ aa, (s.setMetaRow sk r v).reg aa = s.reg aa) ∧ (∀ jj, (s.setMetaRow sk r v).part jj = s.part jj) ∧
    (∀ jj, (s.setMetaRow sk r v).stream jj = s.stream jj) ∧ (∀ jj kk, (s.setMetaRow sk r v).qp jj kk = s.qp jj kk) ∧
    (∀ jj kk, (s.setMetaRow sk r v).dstream jj kk = s.dstream jj kk) ∧
    (∀ jj, (s.setMetaRow sk r v).sealAt jj = s.sealAt jj) ∧ (∀ jj, (s.setMetaRow sk r v).domAt jj = s.domAt jj) ∧
    (∀ jj, (s.setMetaRow sk r v).pwr1 jj = s.pwr1 jj) := by
  and_intros <;> first | rfl | (intros; rfl)

@[simp] theorem State.setWzp_frame (s : State) (sk c v : Nat) :
    (s.setWzp sk c v).regs = s.regs ∧ (s.setWzp sk c v).time = s.time ∧ (s.setWzp sk c v).latch = s.latch ∧
    (s.setWzp sk c v).hot = s.hot ∧ (s.setWzp sk c v).free = s.free ∧ (s.setWzp sk c v).out = s.out ∧
    (s.setWzp sk c v).staged = s.staged ∧ (s.setWzp sk c v).tick = s.tick ∧ (s.setWzp sk c v).parts = s.parts ∧
    (s.setWzp sk c v).host = s.host ∧ (s.setWzp sk c v).rq = s.rq ∧ (s.setWzp sk c v).sparse = s.sparse ∧
    (s.setWzp sk c v).desc = s.desc ∧ (s.setWzp sk c v).kv = s.kv ∧ (s.setWzp sk c v).spad = s.spad ∧
    (s.setWzp sk c v).fab = s.fab ∧ (s.setWzp sk c v).pwr = s.pwr ∧ (s.setWzp sk c v).dom = s.dom ∧
    (s.setWzp sk c v).clt = s.clt ∧ (s.setWzp sk c v).boot = s.boot ∧ (s.setWzp sk c v).inp = s.inp ∧
    (s.setWzp sk c v).bist = s.bist ∧ (s.setWzp sk c v).wgl = s.wgl ∧ (s.setWzp sk c v).sls = s.sls ∧
    (s.setWzp sk c v).rcd = s.rcd ∧ (s.setWzp sk c v).pair = s.pair ∧ (s.setWzp sk c v).jrnl = s.jrnl ∧
    (s.setWzp sk c v).pending = s.pending ∧ (s.setWzp sk c v).comb.repair = s.comb.repair ∧
    (s.setWzp sk c v).comb.bmap = s.comb.bmap ∧ (s.setWzp sk c v).comb.rows = s.comb.rows ∧
    (s.setWzp sk c v).comb.metaR = s.comb.metaR ∧ (s.setWzp sk c v).comb.colsum = s.comb.colsum ∧
    (s.setWzp sk c v).comb.hdr = s.comb.hdr ∧ (s.setWzp sk c v).comb.shadow = s.comb.shadow ∧
    (s.setWzp sk c v).comb.sets = s.comb.sets ∧ (s.setWzp sk c v).comb.lastSet = s.comb.lastSet ∧
    (s.setWzp sk c v).comb.lastSlot = s.comb.lastSlot ∧ (s.setWzp sk c v).comb.tailW4S = s.comb.tailW4S ∧
    (s.setWzp sk c v).comb.openTile = s.comb.openTile ∧ (s.setWzp sk c v).comb.lastShadow = s.comb.lastShadow ∧
    (∀ aa, (s.setWzp sk c v).reg aa = s.reg aa) ∧ (∀ jj, (s.setWzp sk c v).part jj = s.part jj) ∧
    (∀ jj, (s.setWzp sk c v).stream jj = s.stream jj) ∧ (∀ jj kk, (s.setWzp sk c v).qp jj kk = s.qp jj kk) ∧
    (∀ jj kk, (s.setWzp sk c v).dstream jj kk = s.dstream jj kk) ∧ (∀ jj, (s.setWzp sk c v).sealAt jj = s.sealAt jj) ∧
    (∀ jj, (s.setWzp sk c v).domAt jj = s.domAt jj) ∧ (∀ jj, (s.setWzp sk c v).pwr1 jj = s.pwr1 jj) := by
  and_intros <;> first | rfl | (intros; rfl)

@[simp] theorem State.setColsum_frame (s : State) (sk c : Nat) (v : Int) :
    (s.setColsum sk c v).regs = s.regs ∧ (s.setColsum sk c v).time = s.time ∧ (s.setColsum sk c v).latch = s.latch ∧
    (s.setColsum sk c v).hot = s.hot ∧ (s.setColsum sk c v).free = s.free ∧ (s.setColsum sk c v).out = s.out ∧
    (s.setColsum sk c v).staged = s.staged ∧ (s.setColsum sk c v).tick = s.tick ∧ (s.setColsum sk c v).parts = s.parts ∧
    (s.setColsum sk c v).host = s.host ∧ (s.setColsum sk c v).rq = s.rq ∧ (s.setColsum sk c v).sparse = s.sparse ∧
    (s.setColsum sk c v).desc = s.desc ∧ (s.setColsum sk c v).kv = s.kv ∧ (s.setColsum sk c v).spad = s.spad ∧
    (s.setColsum sk c v).fab = s.fab ∧ (s.setColsum sk c v).pwr = s.pwr ∧ (s.setColsum sk c v).dom = s.dom ∧
    (s.setColsum sk c v).clt = s.clt ∧ (s.setColsum sk c v).boot = s.boot ∧ (s.setColsum sk c v).inp = s.inp ∧
    (s.setColsum sk c v).bist = s.bist ∧ (s.setColsum sk c v).wgl = s.wgl ∧ (s.setColsum sk c v).sls = s.sls ∧
    (s.setColsum sk c v).rcd = s.rcd ∧ (s.setColsum sk c v).pair = s.pair ∧ (s.setColsum sk c v).jrnl = s.jrnl ∧
    (s.setColsum sk c v).pending = s.pending ∧ (s.setColsum sk c v).comb.repair = s.comb.repair ∧
    (s.setColsum sk c v).comb.bmap = s.comb.bmap ∧ (s.setColsum sk c v).comb.rows = s.comb.rows ∧
    (s.setColsum sk c v).comb.metaR = s.comb.metaR ∧ (s.setColsum sk c v).comb.wzp = s.comb.wzp ∧
    (s.setColsum sk c v).comb.hdr = s.comb.hdr ∧ (s.setColsum sk c v).comb.shadow = s.comb.shadow ∧
    (s.setColsum sk c v).comb.sets = s.comb.sets ∧ (s.setColsum sk c v).comb.lastSet = s.comb.lastSet ∧
    (s.setColsum sk c v).comb.lastSlot = s.comb.lastSlot ∧ (s.setColsum sk c v).comb.tailW4S = s.comb.tailW4S ∧
    (s.setColsum sk c v).comb.openTile = s.comb.openTile ∧ (s.setColsum sk c v).comb.lastShadow = s.comb.lastShadow ∧
    (∀ aa, (s.setColsum sk c v).reg aa = s.reg aa) ∧ (∀ jj, (s.setColsum sk c v).part jj = s.part jj) ∧
    (∀ jj, (s.setColsum sk c v).stream jj = s.stream jj) ∧ (∀ jj kk, (s.setColsum sk c v).qp jj kk = s.qp jj kk) ∧
    (∀ jj kk, (s.setColsum sk c v).dstream jj kk = s.dstream jj kk) ∧
    (∀ jj, (s.setColsum sk c v).sealAt jj = s.sealAt jj) ∧ (∀ jj, (s.setColsum sk c v).domAt jj = s.domAt jj) ∧
    (∀ jj, (s.setColsum sk c v).pwr1 jj = s.pwr1 jj) := by
  and_intros <;> first | rfl | (intros; rfl)

@[simp] theorem State.setPwr1_frame (s : State) (p : Nat) (x : SitePwr) :
    (s.setPwr1 p x).regs = s.regs ∧ (s.setPwr1 p x).time = s.time ∧ (s.setPwr1 p x).latch = s.latch ∧
    (s.setPwr1 p x).hot = s.hot ∧ (s.setPwr1 p x).free = s.free ∧ (s.setPwr1 p x).out = s.out ∧
    (s.setPwr1 p x).staged = s.staged ∧ (s.setPwr1 p x).tick = s.tick ∧ (s.setPwr1 p x).parts = s.parts ∧
    (s.setPwr1 p x).host = s.host ∧ (s.setPwr1 p x).comb = s.comb ∧ (s.setPwr1 p x).rq = s.rq ∧
    (s.setPwr1 p x).sparse = s.sparse ∧ (s.setPwr1 p x).desc = s.desc ∧ (s.setPwr1 p x).kv = s.kv ∧
    (s.setPwr1 p x).spad = s.spad ∧ (s.setPwr1 p x).fab = s.fab ∧ (s.setPwr1 p x).dom = s.dom ∧
    (s.setPwr1 p x).clt = s.clt ∧ (s.setPwr1 p x).boot = s.boot ∧ (s.setPwr1 p x).inp = s.inp ∧
    (s.setPwr1 p x).bist = s.bist ∧ (s.setPwr1 p x).wgl = s.wgl ∧ (s.setPwr1 p x).sls = s.sls ∧
    (s.setPwr1 p x).rcd = s.rcd ∧ (s.setPwr1 p x).pair = s.pair ∧ (s.setPwr1 p x).jrnl = s.jrnl ∧
    (s.setPwr1 p x).pending = s.pending ∧ (s.setPwr1 p x).pwr.parts = s.pwr.parts ∧
    (s.setPwr1 p x).pwr.grant = s.pwr.grant ∧ (s.setPwr1 p x).pwr.hist = s.pwr.hist ∧
    (s.setPwr1 p x).pwr.secE = s.pwr.secE ∧ (s.setPwr1 p x).pwr.secUnc = s.pwr.secUnc ∧
    (s.setPwr1 p x).pwr.secTicks = s.pwr.secTicks ∧ (s.setPwr1 p x).pwr.lastSecE = s.pwr.lastSecE ∧
    (s.setPwr1 p x).pwr.perMwh = s.pwr.perMwh ∧ (s.setPwr1 p x).pwr.k = s.pwr.k ∧ (s.setPwr1 p x).pwr.kNext = s.pwr.kNext ∧
    (s.setPwr1 p x).pwr.guard = s.pwr.guard ∧ (s.setPwr1 p x).pwr.excess = s.pwr.excess ∧
    (s.setPwr1 p x).pwr.excessLeft = s.pwr.excessLeft ∧ (s.setPwr1 p x).pwr.reasons = s.pwr.reasons ∧
    (s.setPwr1 p x).pwr.latch = s.pwr.latch ∧ (s.setPwr1 p x).pwr.est = s.pwr.est ∧ (s.setPwr1 p x).pwr.cool = s.pwr.cool ∧
    (∀ aa, (s.setPwr1 p x).reg aa = s.reg aa) ∧ (∀ jj, (s.setPwr1 p x).part jj = s.part jj) ∧
    (∀ jj, (s.setPwr1 p x).stream jj = s.stream jj) ∧ (∀ jj kk, (s.setPwr1 p x).qp jj kk = s.qp jj kk) ∧
    (∀ jj kk, (s.setPwr1 p x).dstream jj kk = s.dstream jj kk) ∧ (∀ jj, (s.setPwr1 p x).sealAt jj = s.sealAt jj) ∧
    (∀ jj, (s.setPwr1 p x).domAt jj = s.domAt jj) := by
  and_intros <;> first | rfl | (intros; rfl)

@[simp] theorem State.setPpwr_frame (s : State) (n : Nat) (x : PartPwr) :
    (s.setPpwr n x).regs = s.regs ∧ (s.setPpwr n x).time = s.time ∧ (s.setPpwr n x).latch = s.latch ∧
    (s.setPpwr n x).hot = s.hot ∧ (s.setPpwr n x).free = s.free ∧ (s.setPpwr n x).out = s.out ∧
    (s.setPpwr n x).staged = s.staged ∧ (s.setPpwr n x).tick = s.tick ∧ (s.setPpwr n x).parts = s.parts ∧
    (s.setPpwr n x).host = s.host ∧ (s.setPpwr n x).comb = s.comb ∧ (s.setPpwr n x).rq = s.rq ∧
    (s.setPpwr n x).sparse = s.sparse ∧ (s.setPpwr n x).desc = s.desc ∧ (s.setPpwr n x).kv = s.kv ∧
    (s.setPpwr n x).spad = s.spad ∧ (s.setPpwr n x).fab = s.fab ∧ (s.setPpwr n x).dom = s.dom ∧
    (s.setPpwr n x).clt = s.clt ∧ (s.setPpwr n x).boot = s.boot ∧ (s.setPpwr n x).inp = s.inp ∧
    (s.setPpwr n x).bist = s.bist ∧ (s.setPpwr n x).wgl = s.wgl ∧ (s.setPpwr n x).sls = s.sls ∧
    (s.setPpwr n x).rcd = s.rcd ∧ (s.setPpwr n x).pair = s.pair ∧ (s.setPpwr n x).jrnl = s.jrnl ∧
    (s.setPpwr n x).pending = s.pending ∧ (s.setPpwr n x).pwr.sites = s.pwr.sites ∧
    (s.setPpwr n x).pwr.grant = s.pwr.grant ∧ (s.setPpwr n x).pwr.hist = s.pwr.hist ∧
    (s.setPpwr n x).pwr.secE = s.pwr.secE ∧ (s.setPpwr n x).pwr.secUnc = s.pwr.secUnc ∧
    (s.setPpwr n x).pwr.secTicks = s.pwr.secTicks ∧ (s.setPpwr n x).pwr.lastSecE = s.pwr.lastSecE ∧
    (s.setPpwr n x).pwr.perMwh = s.pwr.perMwh ∧ (s.setPpwr n x).pwr.k = s.pwr.k ∧ (s.setPpwr n x).pwr.kNext = s.pwr.kNext ∧
    (s.setPpwr n x).pwr.guard = s.pwr.guard ∧ (s.setPpwr n x).pwr.excess = s.pwr.excess ∧
    (s.setPpwr n x).pwr.excessLeft = s.pwr.excessLeft ∧ (s.setPpwr n x).pwr.reasons = s.pwr.reasons ∧
    (s.setPpwr n x).pwr.latch = s.pwr.latch ∧ (s.setPpwr n x).pwr.est = s.pwr.est ∧ (s.setPpwr n x).pwr.cool = s.pwr.cool ∧
    (∀ aa, (s.setPpwr n x).reg aa = s.reg aa) ∧ (∀ jj, (s.setPpwr n x).part jj = s.part jj) ∧
    (∀ jj, (s.setPpwr n x).stream jj = s.stream jj) ∧ (∀ jj kk, (s.setPpwr n x).qp jj kk = s.qp jj kk) ∧
    (∀ jj kk, (s.setPpwr n x).dstream jj kk = s.dstream jj kk) ∧ (∀ jj, (s.setPpwr n x).sealAt jj = s.sealAt jj) ∧
    (∀ jj, (s.setPpwr n x).domAt jj = s.domAt jj) ∧ (∀ jj, (s.setPpwr n x).pwr1 jj = s.pwr1 jj) := by
  and_intros <;> first | rfl | (intros; rfl)

@[simp] theorem State.setSvc_frame (s : State) (p : Nat) (x : PageSvc) :
    (s.setSvc p x).regs = s.regs ∧ (s.setSvc p x).time = s.time ∧ (s.setSvc p x).latch = s.latch ∧
    (s.setSvc p x).hot = s.hot ∧ (s.setSvc p x).free = s.free ∧ (s.setSvc p x).out = s.out ∧
    (s.setSvc p x).staged = s.staged ∧ (s.setSvc p x).tick = s.tick ∧ (s.setSvc p x).parts = s.parts ∧
    (s.setSvc p x).host = s.host ∧ (s.setSvc p x).comb = s.comb ∧ (s.setSvc p x).rq = s.rq ∧
    (s.setSvc p x).sparse = s.sparse ∧ (s.setSvc p x).desc = s.desc ∧ (s.setSvc p x).spad = s.spad ∧
    (s.setSvc p x).fab = s.fab ∧ (s.setSvc p x).pwr = s.pwr ∧ (s.setSvc p x).dom = s.dom ∧ (s.setSvc p x).clt = s.clt ∧
    (s.setSvc p x).boot = s.boot ∧ (s.setSvc p x).inp = s.inp ∧ (s.setSvc p x).bist = s.bist ∧ (s.setSvc p x).wgl = s.wgl ∧
    (s.setSvc p x).sls = s.sls ∧ (s.setSvc p x).rcd = s.rcd ∧ (s.setSvc p x).pair = s.pair ∧ (s.setSvc p x).jrnl = s.jrnl ∧
    (s.setSvc p x).pending = s.pending ∧ (s.setSvc p x).kv.hbm = s.kv.hbm ∧ (s.setSvc p x).kv.bad = s.kv.bad ∧
    (s.setSvc p x).kv.frames = s.kv.frames ∧ (s.setSvc p x).kv.dir = s.kv.dir ∧ (s.setSvc p x).kv.leaf = s.kv.leaf ∧
    (s.setSvc p x).kv.layout = s.kv.layout ∧ (s.setSvc p x).kv.park = s.kv.park ∧
    (∀ aa, (s.setSvc p x).reg aa = s.reg aa) ∧ (∀ jj, (s.setSvc p x).part jj = s.part jj) ∧
    (∀ jj, (s.setSvc p x).stream jj = s.stream jj) ∧ (∀ jj kk, (s.setSvc p x).qp jj kk = s.qp jj kk) ∧
    (∀ jj kk, (s.setSvc p x).dstream jj kk = s.dstream jj kk) ∧ (∀ jj, (s.setSvc p x).sealAt jj = s.sealAt jj) ∧
    (∀ jj, (s.setSvc p x).domAt jj = s.domAt jj) ∧ (∀ jj, (s.setSvc p x).pwr1 jj = s.pwr1 jj) := by
  and_intros <;> first | rfl | (intros; rfl)

@[simp] theorem State.setFrame_frame (s : State) (p f : Nat) (x : FrameEntry) :
    (s.setFrame p f x).regs = s.regs ∧ (s.setFrame p f x).time = s.time ∧ (s.setFrame p f x).latch = s.latch ∧
    (s.setFrame p f x).hot = s.hot ∧ (s.setFrame p f x).free = s.free ∧ (s.setFrame p f x).out = s.out ∧
    (s.setFrame p f x).staged = s.staged ∧ (s.setFrame p f x).tick = s.tick ∧ (s.setFrame p f x).parts = s.parts ∧
    (s.setFrame p f x).host = s.host ∧ (s.setFrame p f x).comb = s.comb ∧ (s.setFrame p f x).rq = s.rq ∧
    (s.setFrame p f x).sparse = s.sparse ∧ (s.setFrame p f x).desc = s.desc ∧ (s.setFrame p f x).spad = s.spad ∧
    (s.setFrame p f x).fab = s.fab ∧ (s.setFrame p f x).pwr = s.pwr ∧ (s.setFrame p f x).dom = s.dom ∧
    (s.setFrame p f x).clt = s.clt ∧ (s.setFrame p f x).boot = s.boot ∧ (s.setFrame p f x).inp = s.inp ∧
    (s.setFrame p f x).bist = s.bist ∧ (s.setFrame p f x).wgl = s.wgl ∧ (s.setFrame p f x).sls = s.sls ∧
    (s.setFrame p f x).rcd = s.rcd ∧ (s.setFrame p f x).pair = s.pair ∧ (s.setFrame p f x).jrnl = s.jrnl ∧
    (s.setFrame p f x).pending = s.pending ∧ (s.setFrame p f x).kv.hbm = s.kv.hbm ∧ (s.setFrame p f x).kv.bad = s.kv.bad ∧
    (s.setFrame p f x).kv.dir = s.kv.dir ∧ (s.setFrame p f x).kv.leaf = s.kv.leaf ∧ (s.setFrame p f x).kv.svc = s.kv.svc ∧
    (s.setFrame p f x).kv.layout = s.kv.layout ∧ (s.setFrame p f x).kv.park = s.kv.park ∧
    (∀ aa, (s.setFrame p f x).reg aa = s.reg aa) ∧ (∀ jj, (s.setFrame p f x).part jj = s.part jj) ∧
    (∀ jj, (s.setFrame p f x).stream jj = s.stream jj) ∧ (∀ jj kk, (s.setFrame p f x).qp jj kk = s.qp jj kk) ∧
    (∀ jj kk, (s.setFrame p f x).dstream jj kk = s.dstream jj kk) ∧ (∀ jj, (s.setFrame p f x).sealAt jj = s.sealAt jj) ∧
    (∀ jj, (s.setFrame p f x).domAt jj = s.domAt jj) ∧ (∀ jj, (s.setFrame p f x).pwr1 jj = s.pwr1 jj) := by
  and_intros <;> first | rfl | (intros; rfl)

@[simp] theorem State.setDom_frame (s : State) (d : Nat) (x : Dom) :
    (s.setDom d x).regs = s.regs ∧ (s.setDom d x).time = s.time ∧ (s.setDom d x).latch = s.latch ∧
    (s.setDom d x).hot = s.hot ∧ (s.setDom d x).free = s.free ∧ (s.setDom d x).out = s.out ∧
    (s.setDom d x).staged = s.staged ∧ (s.setDom d x).tick = s.tick ∧ (s.setDom d x).parts = s.parts ∧
    (s.setDom d x).host = s.host ∧ (s.setDom d x).comb = s.comb ∧ (s.setDom d x).rq = s.rq ∧
    (s.setDom d x).sparse = s.sparse ∧ (s.setDom d x).desc = s.desc ∧ (s.setDom d x).kv = s.kv ∧
    (s.setDom d x).spad = s.spad ∧ (s.setDom d x).fab = s.fab ∧ (s.setDom d x).pwr = s.pwr ∧ (s.setDom d x).clt = s.clt ∧
    (s.setDom d x).boot = s.boot ∧ (s.setDom d x).inp = s.inp ∧ (s.setDom d x).bist = s.bist ∧ (s.setDom d x).wgl = s.wgl ∧
    (s.setDom d x).sls = s.sls ∧ (s.setDom d x).rcd = s.rcd ∧ (s.setDom d x).pair = s.pair ∧ (s.setDom d x).jrnl = s.jrnl ∧
    (s.setDom d x).pending = s.pending ∧ (s.setDom d x).dom.outNext = s.dom.outNext ∧
    (s.setDom d x).dom.latch = s.dom.latch ∧ (∀ aa, (s.setDom d x).reg aa = s.reg aa) ∧
    (∀ jj, (s.setDom d x).part jj = s.part jj) ∧ (∀ jj, (s.setDom d x).stream jj = s.stream jj) ∧
    (∀ jj kk, (s.setDom d x).qp jj kk = s.qp jj kk) ∧ (∀ jj kk, (s.setDom d x).dstream jj kk = s.dstream jj kk) ∧
    (∀ jj, (s.setDom d x).sealAt jj = s.sealAt jj) ∧ (∀ jj, (s.setDom d x).pwr1 jj = s.pwr1 jj) := by
  and_intros <;> first | rfl | (intros; rfl)

@[simp] theorem State.updDom_frame (s : State) (d : Nat) (f : Dom → Dom) :
    (s.updDom d f).regs = s.regs ∧ (s.updDom d f).time = s.time ∧ (s.updDom d f).latch = s.latch ∧
    (s.updDom d f).hot = s.hot ∧ (s.updDom d f).free = s.free ∧ (s.updDom d f).out = s.out ∧
    (s.updDom d f).staged = s.staged ∧ (s.updDom d f).tick = s.tick ∧ (s.updDom d f).parts = s.parts ∧
    (s.updDom d f).host = s.host ∧ (s.updDom d f).comb = s.comb ∧ (s.updDom d f).rq = s.rq ∧
    (s.updDom d f).sparse = s.sparse ∧ (s.updDom d f).desc = s.desc ∧ (s.updDom d f).kv = s.kv ∧
    (s.updDom d f).spad = s.spad ∧ (s.updDom d f).fab = s.fab ∧ (s.updDom d f).pwr = s.pwr ∧ (s.updDom d f).clt = s.clt ∧
    (s.updDom d f).boot = s.boot ∧ (s.updDom d f).inp = s.inp ∧ (s.updDom d f).bist = s.bist ∧ (s.updDom d f).wgl = s.wgl ∧
    (s.updDom d f).sls = s.sls ∧ (s.updDom d f).rcd = s.rcd ∧ (s.updDom d f).pair = s.pair ∧ (s.updDom d f).jrnl = s.jrnl ∧
    (s.updDom d f).pending = s.pending ∧ (s.updDom d f).dom.outNext = s.dom.outNext ∧
    (s.updDom d f).dom.latch = s.dom.latch ∧ (∀ aa, (s.updDom d f).reg aa = s.reg aa) ∧
    (∀ jj, (s.updDom d f).part jj = s.part jj) ∧ (∀ jj, (s.updDom d f).stream jj = s.stream jj) ∧
    (∀ jj kk, (s.updDom d f).qp jj kk = s.qp jj kk) ∧ (∀ jj kk, (s.updDom d f).dstream jj kk = s.dstream jj kk) ∧
    (∀ jj, (s.updDom d f).sealAt jj = s.sealAt jj) ∧ (∀ jj, (s.updDom d f).pwr1 jj = s.pwr1 jj) := by
  and_intros <;> first | rfl | (intros; rfl)

@[simp] theorem State.setSensor_frame (s : State) (i : Nat) (x : Sensor) :
    (s.setSensor i x).regs = s.regs ∧ (s.setSensor i x).time = s.time ∧ (s.setSensor i x).latch = s.latch ∧
    (s.setSensor i x).hot = s.hot ∧ (s.setSensor i x).free = s.free ∧ (s.setSensor i x).out = s.out ∧
    (s.setSensor i x).staged = s.staged ∧ (s.setSensor i x).tick = s.tick ∧ (s.setSensor i x).parts = s.parts ∧
    (s.setSensor i x).host = s.host ∧ (s.setSensor i x).comb = s.comb ∧ (s.setSensor i x).rq = s.rq ∧
    (s.setSensor i x).sparse = s.sparse ∧ (s.setSensor i x).desc = s.desc ∧ (s.setSensor i x).kv = s.kv ∧
    (s.setSensor i x).spad = s.spad ∧ (s.setSensor i x).fab = s.fab ∧ (s.setSensor i x).pwr = s.pwr ∧
    (s.setSensor i x).dom = s.dom ∧ (s.setSensor i x).boot = s.boot ∧ (s.setSensor i x).inp = s.inp ∧
    (s.setSensor i x).bist = s.bist ∧ (s.setSensor i x).wgl = s.wgl ∧ (s.setSensor i x).sls = s.sls ∧
    (s.setSensor i x).rcd = s.rcd ∧ (s.setSensor i x).pair = s.pair ∧ (s.setSensor i x).jrnl = s.jrnl ∧
    (s.setSensor i x).pending = s.pending ∧ (s.setSensor i x).clt.iNum = s.clt.iNum ∧
    (s.setSensor i x).clt.iDen = s.clt.iDen ∧ (s.setSensor i x).clt.lastRun = s.clt.lastRun ∧
    (s.setSensor i x).clt.enc = s.clt.enc ∧ (s.setSensor i x).clt.hotJ = s.clt.hotJ ∧
    (s.setSensor i x).clt.marks = s.clt.marks ∧ (s.setSensor i x).clt.staged = s.clt.staged ∧
    (∀ aa, (s.setSensor i x).reg aa = s.reg aa) ∧ (∀ jj, (s.setSensor i x).part jj = s.part jj) ∧
    (∀ jj, (s.setSensor i x).stream jj = s.stream jj) ∧ (∀ jj kk, (s.setSensor i x).qp jj kk = s.qp jj kk) ∧
    (∀ jj kk, (s.setSensor i x).dstream jj kk = s.dstream jj kk) ∧ (∀ jj, (s.setSensor i x).sealAt jj = s.sealAt jj) ∧
    (∀ jj, (s.setSensor i x).domAt jj = s.domAt jj) ∧ (∀ jj, (s.setSensor i x).pwr1 jj = s.pwr1 jj) := by
  and_intros <;> first | rfl | (intros; rfl)

@[simp] theorem State.updRec_frame (s : State) (n : Nat) (f : RecPart → RecPart) :
    (s.updRec n f).regs = s.regs ∧ (s.updRec n f).time = s.time ∧ (s.updRec n f).latch = s.latch ∧
    (s.updRec n f).hot = s.hot ∧ (s.updRec n f).free = s.free ∧ (s.updRec n f).out = s.out ∧
    (s.updRec n f).staged = s.staged ∧ (s.updRec n f).tick = s.tick ∧ (s.updRec n f).parts = s.parts ∧
    (s.updRec n f).host = s.host ∧ (s.updRec n f).comb = s.comb ∧ (s.updRec n f).rq = s.rq ∧
    (s.updRec n f).sparse = s.sparse ∧ (s.updRec n f).desc = s.desc ∧ (s.updRec n f).kv = s.kv ∧
    (s.updRec n f).spad = s.spad ∧ (s.updRec n f).fab = s.fab ∧ (s.updRec n f).pwr = s.pwr ∧ (s.updRec n f).dom = s.dom ∧
    (s.updRec n f).clt = s.clt ∧ (s.updRec n f).boot = s.boot ∧ (s.updRec n f).inp = s.inp ∧ (s.updRec n f).bist = s.bist ∧
    (s.updRec n f).wgl = s.wgl ∧ (s.updRec n f).sls = s.sls ∧ (s.updRec n f).pair = s.pair ∧ (s.updRec n f).jrnl = s.jrnl ∧
    (s.updRec n f).pending = s.pending ∧ (s.updRec n f).rcd.ir = s.rcd.ir ∧ (s.updRec n f).rcd.bsr = s.rcd.bsr ∧
    (s.updRec n f).rcd.outs = s.rcd.outs ∧ (s.updRec n f).rcd.scanned = s.rcd.scanned ∧
    (s.updRec n f).rcd.halted = s.rcd.halted ∧ (s.updRec n f).rcd.uart = s.rcd.uart ∧
    (∀ aa, (s.updRec n f).reg aa = s.reg aa) ∧ (∀ jj, (s.updRec n f).part jj = s.part jj) ∧
    (∀ jj, (s.updRec n f).stream jj = s.stream jj) ∧ (∀ jj kk, (s.updRec n f).qp jj kk = s.qp jj kk) ∧
    (∀ jj kk, (s.updRec n f).dstream jj kk = s.dstream jj kk) ∧ (∀ jj, (s.updRec n f).sealAt jj = s.sealAt jj) ∧
    (∀ jj, (s.updRec n f).domAt jj = s.domAt jj) ∧ (∀ jj, (s.updRec n f).pwr1 jj = s.pwr1 jj) := by
  and_intros <;> first | rfl | (intros; rfl)

@[simp] theorem State.updPp_frame (s : State) (n : Nat) (f : PairPart → PairPart) :
    (s.updPp n f).regs = s.regs ∧ (s.updPp n f).time = s.time ∧ (s.updPp n f).latch = s.latch ∧ (s.updPp n f).hot = s.hot ∧
    (s.updPp n f).free = s.free ∧ (s.updPp n f).out = s.out ∧ (s.updPp n f).staged = s.staged ∧
    (s.updPp n f).tick = s.tick ∧ (s.updPp n f).parts = s.parts ∧ (s.updPp n f).host = s.host ∧
    (s.updPp n f).comb = s.comb ∧ (s.updPp n f).rq = s.rq ∧ (s.updPp n f).sparse = s.sparse ∧ (s.updPp n f).desc = s.desc ∧
    (s.updPp n f).kv = s.kv ∧ (s.updPp n f).spad = s.spad ∧ (s.updPp n f).fab = s.fab ∧ (s.updPp n f).pwr = s.pwr ∧
    (s.updPp n f).dom = s.dom ∧ (s.updPp n f).clt = s.clt ∧ (s.updPp n f).boot = s.boot ∧ (s.updPp n f).inp = s.inp ∧
    (s.updPp n f).bist = s.bist ∧ (s.updPp n f).wgl = s.wgl ∧ (s.updPp n f).sls = s.sls ∧ (s.updPp n f).rcd = s.rcd ∧
    (s.updPp n f).jrnl = s.jrnl ∧ (s.updPp n f).pending = s.pending ∧ (s.updPp n f).pair.hello = s.pair.hello ∧
    (s.updPp n f).pair.seen = s.pair.seen ∧ (s.updPp n f).pair.quads = s.pair.quads ∧
    (s.updPp n f).pair.edge = s.pair.edge ∧ (s.updPp n f).pair.inStep = s.pair.inStep ∧
    (s.updPp n f).pair.txSeq = s.pair.txSeq ∧ (s.updPp n f).pair.rxSeq = s.pair.rxSeq ∧
    (s.updPp n f).pair.frames = s.pair.frames ∧ (s.updPp n f).pair.replays = s.pair.replays ∧
    (s.updPp n f).pair.joiner = s.pair.joiner ∧ (s.updPp n f).pair.since = s.pair.since ∧
    (s.updPp n f).pair.epoch = s.pair.epoch ∧ (s.updPp n f).pair.fenced = s.pair.fenced ∧
    (s.updPp n f).pair.tokens = s.pair.tokens ∧ (s.updPp n f).pair.logFr = s.pair.logFr ∧
    (s.updPp n f).pair.hash = s.pair.hash ∧ (s.updPp n f).pair.skewAt = s.pair.skewAt ∧
    (s.updPp n f).pair.lastPanel = s.pair.lastPanel ∧ (s.updPp n f).pair.want = s.pair.want ∧
    (∀ aa, (s.updPp n f).reg aa = s.reg aa) ∧ (∀ jj, (s.updPp n f).part jj = s.part jj) ∧
    (∀ jj, (s.updPp n f).stream jj = s.stream jj) ∧ (∀ jj kk, (s.updPp n f).qp jj kk = s.qp jj kk) ∧
    (∀ jj kk, (s.updPp n f).dstream jj kk = s.dstream jj kk) ∧ (∀ jj, (s.updPp n f).sealAt jj = s.sealAt jj) ∧
    (∀ jj, (s.updPp n f).domAt jj = s.domAt jj) ∧ (∀ jj, (s.updPp n f).pwr1 jj = s.pwr1 jj) := by
  and_intros <;> first | rfl | (intros; rfl)

@[simp] theorem State.setBsite_frame (s : State) (p : Nat) (x : BistSite) :
    (s.setBsite p x).regs = s.regs ∧ (s.setBsite p x).time = s.time ∧ (s.setBsite p x).latch = s.latch ∧
    (s.setBsite p x).hot = s.hot ∧ (s.setBsite p x).free = s.free ∧ (s.setBsite p x).out = s.out ∧
    (s.setBsite p x).staged = s.staged ∧ (s.setBsite p x).tick = s.tick ∧ (s.setBsite p x).parts = s.parts ∧
    (s.setBsite p x).host = s.host ∧ (s.setBsite p x).comb = s.comb ∧ (s.setBsite p x).rq = s.rq ∧
    (s.setBsite p x).sparse = s.sparse ∧ (s.setBsite p x).desc = s.desc ∧ (s.setBsite p x).kv = s.kv ∧
    (s.setBsite p x).spad = s.spad ∧ (s.setBsite p x).fab = s.fab ∧ (s.setBsite p x).pwr = s.pwr ∧
    (s.setBsite p x).dom = s.dom ∧ (s.setBsite p x).clt = s.clt ∧ (s.setBsite p x).boot = s.boot ∧
    (s.setBsite p x).inp = s.inp ∧ (s.setBsite p x).wgl = s.wgl ∧ (s.setBsite p x).sls = s.sls ∧
    (s.setBsite p x).rcd = s.rcd ∧ (s.setBsite p x).pair = s.pair ∧ (s.setBsite p x).jrnl = s.jrnl ∧
    (s.setBsite p x).pending = s.pending ∧ (s.setBsite p x).bist.pos = s.bist.pos ∧
    (s.setBsite p x).bist.fixes = s.bist.fixes ∧ (s.setBsite p x).bist.badComb = s.bist.badComb ∧
    (s.setBsite p x).bist.replace = s.bist.replace ∧ (s.setBsite p x).bist.spadRows = s.bist.spadRows ∧
    (s.setBsite p x).bist.latch = s.bist.latch ∧ (s.setBsite p x).bist.hours = s.bist.hours ∧
    (s.setBsite p x).bist.therm = s.bist.therm ∧ (s.setBsite p x).bist.valve = s.bist.valve ∧
    (s.setBsite p x).bist.eolH = s.bist.eolH ∧ (s.setBsite p x).bist.eolC = s.bist.eolC ∧
    (s.setBsite p x).bist.warn = s.bist.warn ∧ (s.setBsite p x).bist.crit = s.bist.crit ∧
    (∀ aa, (s.setBsite p x).reg aa = s.reg aa) ∧ (∀ jj, (s.setBsite p x).part jj = s.part jj) ∧
    (∀ jj, (s.setBsite p x).stream jj = s.stream jj) ∧ (∀ jj kk, (s.setBsite p x).qp jj kk = s.qp jj kk) ∧
    (∀ jj kk, (s.setBsite p x).dstream jj kk = s.dstream jj kk) ∧ (∀ jj, (s.setBsite p x).sealAt jj = s.sealAt jj) ∧
    (∀ jj, (s.setBsite p x).domAt jj = s.domAt jj) ∧ (∀ jj, (s.setBsite p x).pwr1 jj = s.pwr1 jj) := by
  and_intros <;> first | rfl | (intros; rfl)

@[simp] theorem State.setTestPos_frame (s : State) (p unit x : Nat) :
    (s.setTestPos p unit x).regs = s.regs ∧ (s.setTestPos p unit x).time = s.time ∧
    (s.setTestPos p unit x).latch = s.latch ∧ (s.setTestPos p unit x).hot = s.hot ∧ (s.setTestPos p unit x).free = s.free ∧
    (s.setTestPos p unit x).out = s.out ∧ (s.setTestPos p unit x).staged = s.staged ∧
    (s.setTestPos p unit x).tick = s.tick ∧ (s.setTestPos p unit x).parts = s.parts ∧
    (s.setTestPos p unit x).host = s.host ∧ (s.setTestPos p unit x).comb = s.comb ∧ (s.setTestPos p unit x).rq = s.rq ∧
    (s.setTestPos p unit x).sparse = s.sparse ∧ (s.setTestPos p unit x).desc = s.desc ∧ (s.setTestPos p unit x).kv = s.kv ∧
    (s.setTestPos p unit x).spad = s.spad ∧ (s.setTestPos p unit x).fab = s.fab ∧ (s.setTestPos p unit x).pwr = s.pwr ∧
    (s.setTestPos p unit x).dom = s.dom ∧ (s.setTestPos p unit x).clt = s.clt ∧ (s.setTestPos p unit x).boot = s.boot ∧
    (s.setTestPos p unit x).inp = s.inp ∧ (s.setTestPos p unit x).wgl = s.wgl ∧ (s.setTestPos p unit x).sls = s.sls ∧
    (s.setTestPos p unit x).rcd = s.rcd ∧ (s.setTestPos p unit x).pair = s.pair ∧ (s.setTestPos p unit x).jrnl = s.jrnl ∧
    (s.setTestPos p unit x).pending = s.pending ∧ (s.setTestPos p unit x).bist.sites = s.bist.sites ∧
    (s.setTestPos p unit x).bist.fixes = s.bist.fixes ∧ (s.setTestPos p unit x).bist.badComb = s.bist.badComb ∧
    (s.setTestPos p unit x).bist.replace = s.bist.replace ∧ (s.setTestPos p unit x).bist.spadRows = s.bist.spadRows ∧
    (s.setTestPos p unit x).bist.latch = s.bist.latch ∧ (s.setTestPos p unit x).bist.hours = s.bist.hours ∧
    (s.setTestPos p unit x).bist.therm = s.bist.therm ∧ (s.setTestPos p unit x).bist.valve = s.bist.valve ∧
    (s.setTestPos p unit x).bist.eolH = s.bist.eolH ∧ (s.setTestPos p unit x).bist.eolC = s.bist.eolC ∧
    (s.setTestPos p unit x).bist.warn = s.bist.warn ∧ (s.setTestPos p unit x).bist.crit = s.bist.crit ∧
    (∀ aa, (s.setTestPos p unit x).reg aa = s.reg aa) ∧ (∀ jj, (s.setTestPos p unit x).part jj = s.part jj) ∧
    (∀ jj, (s.setTestPos p unit x).stream jj = s.stream jj) ∧ (∀ jj kk, (s.setTestPos p unit x).qp jj kk = s.qp jj kk) ∧
    (∀ jj kk, (s.setTestPos p unit x).dstream jj kk = s.dstream jj kk) ∧
    (∀ jj, (s.setTestPos p unit x).sealAt jj = s.sealAt jj) ∧ (∀ jj, (s.setTestPos p unit x).domAt jj = s.domAt jj) ∧
    (∀ jj, (s.setTestPos p unit x).pwr1 jj = s.pwr1 jj) := by
  and_intros <;> first | rfl | (intros; rfl)

@[simp] theorem State.setFix_frame (s : State) (sk : Nat) (x : SlotFix) :
    (s.setFix sk x).regs = s.regs ∧ (s.setFix sk x).time = s.time ∧ (s.setFix sk x).latch = s.latch ∧
    (s.setFix sk x).hot = s.hot ∧ (s.setFix sk x).free = s.free ∧ (s.setFix sk x).out = s.out ∧
    (s.setFix sk x).staged = s.staged ∧ (s.setFix sk x).tick = s.tick ∧ (s.setFix sk x).parts = s.parts ∧
    (s.setFix sk x).host = s.host ∧ (s.setFix sk x).comb = s.comb ∧ (s.setFix sk x).rq = s.rq ∧
    (s.setFix sk x).sparse = s.sparse ∧ (s.setFix sk x).desc = s.desc ∧ (s.setFix sk x).kv = s.kv ∧
    (s.setFix sk x).spad = s.spad ∧ (s.setFix sk x).fab = s.fab ∧ (s.setFix sk x).pwr = s.pwr ∧
    (s.setFix sk x).dom = s.dom ∧ (s.setFix sk x).clt = s.clt ∧ (s.setFix sk x).boot = s.boot ∧
    (s.setFix sk x).inp = s.inp ∧ (s.setFix sk x).wgl = s.wgl ∧ (s.setFix sk x).sls = s.sls ∧ (s.setFix sk x).rcd = s.rcd ∧
    (s.setFix sk x).pair = s.pair ∧ (s.setFix sk x).jrnl = s.jrnl ∧ (s.setFix sk x).pending = s.pending ∧
    (s.setFix sk x).bist.sites = s.bist.sites ∧ (s.setFix sk x).bist.pos = s.bist.pos ∧
    (s.setFix sk x).bist.badComb = s.bist.badComb ∧ (s.setFix sk x).bist.replace = s.bist.replace ∧
    (s.setFix sk x).bist.spadRows = s.bist.spadRows ∧ (s.setFix sk x).bist.latch = s.bist.latch ∧
    (s.setFix sk x).bist.hours = s.bist.hours ∧ (s.setFix sk x).bist.therm = s.bist.therm ∧
    (s.setFix sk x).bist.valve = s.bist.valve ∧ (s.setFix sk x).bist.eolH = s.bist.eolH ∧
    (s.setFix sk x).bist.eolC = s.bist.eolC ∧ (s.setFix sk x).bist.warn = s.bist.warn ∧
    (s.setFix sk x).bist.crit = s.bist.crit ∧ (∀ aa, (s.setFix sk x).reg aa = s.reg aa) ∧
    (∀ jj, (s.setFix sk x).part jj = s.part jj) ∧ (∀ jj, (s.setFix sk x).stream jj = s.stream jj) ∧
    (∀ jj kk, (s.setFix sk x).qp jj kk = s.qp jj kk) ∧ (∀ jj kk, (s.setFix sk x).dstream jj kk = s.dstream jj kk) ∧
    (∀ jj, (s.setFix sk x).sealAt jj = s.sealAt jj) ∧ (∀ jj, (s.setFix sk x).domAt jj = s.domAt jj) ∧
    (∀ jj, (s.setFix sk x).pwr1 jj = s.pwr1 jj) := by
  and_intros <;> first | rfl | (intros; rfl)

@[simp] theorem State.setOutst_frame (s : State) (site ds n : Nat) :
    (s.setOutst site ds n).regs = s.regs ∧ (s.setOutst site ds n).time = s.time ∧ (s.setOutst site ds n).latch = s.latch ∧
    (s.setOutst site ds n).hot = s.hot ∧ (s.setOutst site ds n).free = s.free ∧ (s.setOutst site ds n).out = s.out ∧
    (s.setOutst site ds n).staged = s.staged ∧ (s.setOutst site ds n).tick = s.tick ∧
    (s.setOutst site ds n).parts = s.parts ∧ (s.setOutst site ds n).host = s.host ∧ (s.setOutst site ds n).comb = s.comb ∧
    (s.setOutst site ds n).rq = s.rq ∧ (s.setOutst site ds n).sparse = s.sparse ∧ (s.setOutst site ds n).desc = s.desc ∧
    (s.setOutst site ds n).kv = s.kv ∧ (s.setOutst site ds n).spad = s.spad ∧ (s.setOutst site ds n).pwr = s.pwr ∧
    (s.setOutst site ds n).dom = s.dom ∧ (s.setOutst site ds n).clt = s.clt ∧ (s.setOutst site ds n).boot = s.boot ∧
    (s.setOutst site ds n).inp = s.inp ∧ (s.setOutst site ds n).bist = s.bist ∧ (s.setOutst site ds n).wgl = s.wgl ∧
    (s.setOutst site ds n).sls = s.sls ∧ (s.setOutst site ds n).rcd = s.rcd ∧ (s.setOutst site ds n).pair = s.pair ∧
    (s.setOutst site ds n).jrnl = s.jrnl ∧ (s.setOutst site ds n).pending = s.pending ∧
    (s.setOutst site ds n).fab.flight = s.fab.flight ∧ (s.setOutst site ds n).fab.seqs = s.fab.seqs ∧
    (s.setOutst site ds n).fab.gather = s.fab.gather ∧ (s.setOutst site ds n).fab.down = s.fab.down ∧
    (s.setOutst site ds n).fab.replays = s.fab.replays ∧ (s.setOutst site ds n).fab.siteOut = s.fab.siteOut ∧
    (s.setOutst site ds n).fab.busy = s.fab.busy ∧ (∀ aa, (s.setOutst site ds n).reg aa = s.reg aa) ∧
    (∀ jj, (s.setOutst site ds n).part jj = s.part jj) ∧ (∀ jj, (s.setOutst site ds n).stream jj = s.stream jj) ∧
    (∀ jj kk, (s.setOutst site ds n).qp jj kk = s.qp jj kk) ∧
    (∀ jj kk, (s.setOutst site ds n).dstream jj kk = s.dstream jj kk) ∧
    (∀ jj, (s.setOutst site ds n).sealAt jj = s.sealAt jj) ∧ (∀ jj, (s.setOutst site ds n).domAt jj = s.domAt jj) ∧
    (∀ jj, (s.setOutst site ds n).pwr1 jj = s.pwr1 jj) := by
  and_intros <;> first | rfl | (intros; rfl)

@[simp] theorem State.setPendBit_frame (s : State) (k : Nat) (b : Bool) :
    (s.setPendBit k b).regs = s.regs ∧ (s.setPendBit k b).time = s.time ∧ (s.setPendBit k b).latch = s.latch ∧
    (s.setPendBit k b).hot = s.hot ∧ (s.setPendBit k b).free = s.free ∧ (s.setPendBit k b).out = s.out ∧
    (s.setPendBit k b).staged = s.staged ∧ (s.setPendBit k b).tick = s.tick ∧ (s.setPendBit k b).parts = s.parts ∧
    (s.setPendBit k b).comb = s.comb ∧ (s.setPendBit k b).rq = s.rq ∧ (s.setPendBit k b).sparse = s.sparse ∧
    (s.setPendBit k b).desc = s.desc ∧ (s.setPendBit k b).kv = s.kv ∧ (s.setPendBit k b).spad = s.spad ∧
    (s.setPendBit k b).fab = s.fab ∧ (s.setPendBit k b).pwr = s.pwr ∧ (s.setPendBit k b).dom = s.dom ∧
    (s.setPendBit k b).clt = s.clt ∧ (s.setPendBit k b).boot = s.boot ∧ (s.setPendBit k b).inp = s.inp ∧
    (s.setPendBit k b).bist = s.bist ∧ (s.setPendBit k b).wgl = s.wgl ∧ (s.setPendBit k b).sls = s.sls ∧
    (s.setPendBit k b).rcd = s.rcd ∧ (s.setPendBit k b).pair = s.pair ∧ (s.setPendBit k b).jrnl = s.jrnl ∧
    (s.setPendBit k b).pending = s.pending ∧ (s.setPendBit k b).host.streams = s.host.streams ∧
    (s.setPendBit k b).host.qps = s.host.qps ∧ (s.setPendBit k b).host.portsUp = s.host.portsUp ∧
    (s.setPendBit k b).host.vfEn = s.host.vfEn ∧ (s.setPendBit k b).host.msixOn = s.host.msixOn ∧
    (s.setPendBit k b).host.fmask = s.host.fmask ∧ (s.setPendBit k b).host.msixTab = s.host.msixTab ∧
    (s.setPendBit k b).host.wheelNext = s.host.wheelNext ∧ (s.setPendBit k b).host.lastCmd = s.host.lastCmd ∧
    (s.setPendBit k b).host.inspLatch = s.host.inspLatch ∧ (∀ aa, (s.setPendBit k b).reg aa = s.reg aa) ∧
    (∀ jj, (s.setPendBit k b).part jj = s.part jj) ∧ (∀ jj, (s.setPendBit k b).stream jj = s.stream jj) ∧
    (∀ jj kk, (s.setPendBit k b).qp jj kk = s.qp jj kk) ∧ (∀ jj kk, (s.setPendBit k b).dstream jj kk = s.dstream jj kk) ∧
    (∀ jj, (s.setPendBit k b).sealAt jj = s.sealAt jj) ∧ (∀ jj, (s.setPendBit k b).domAt jj = s.domAt jj) ∧
    (∀ jj, (s.setPendBit k b).pwr1 jj = s.pwr1 jj) := by
  and_intros <;> first | rfl | (intros; rfl)

@[simp] theorem State.setMsixWord_frame (s : State) (port fn vec w : Nat) (v : BitVec 32) :
    (s.setMsixWord port fn vec w v).regs = s.regs ∧ (s.setMsixWord port fn vec w v).time = s.time ∧
    (s.setMsixWord port fn vec w v).latch = s.latch ∧ (s.setMsixWord port fn vec w v).hot = s.hot ∧
    (s.setMsixWord port fn vec w v).free = s.free ∧ (s.setMsixWord port fn vec w v).out = s.out ∧
    (s.setMsixWord port fn vec w v).staged = s.staged ∧ (s.setMsixWord port fn vec w v).tick = s.tick ∧
    (s.setMsixWord port fn vec w v).parts = s.parts ∧ (s.setMsixWord port fn vec w v).comb = s.comb ∧
    (s.setMsixWord port fn vec w v).rq = s.rq ∧ (s.setMsixWord port fn vec w v).sparse = s.sparse ∧
    (s.setMsixWord port fn vec w v).desc = s.desc ∧ (s.setMsixWord port fn vec w v).kv = s.kv ∧
    (s.setMsixWord port fn vec w v).spad = s.spad ∧ (s.setMsixWord port fn vec w v).fab = s.fab ∧
    (s.setMsixWord port fn vec w v).pwr = s.pwr ∧ (s.setMsixWord port fn vec w v).dom = s.dom ∧
    (s.setMsixWord port fn vec w v).clt = s.clt ∧ (s.setMsixWord port fn vec w v).boot = s.boot ∧
    (s.setMsixWord port fn vec w v).inp = s.inp ∧ (s.setMsixWord port fn vec w v).bist = s.bist ∧
    (s.setMsixWord port fn vec w v).wgl = s.wgl ∧ (s.setMsixWord port fn vec w v).sls = s.sls ∧
    (s.setMsixWord port fn vec w v).rcd = s.rcd ∧ (s.setMsixWord port fn vec w v).pair = s.pair ∧
    (s.setMsixWord port fn vec w v).jrnl = s.jrnl ∧ (s.setMsixWord port fn vec w v).pending = s.pending ∧
    (s.setMsixWord port fn vec w v).host.streams = s.host.streams ∧ (s.setMsixWord port fn vec w v).host.qps = s.host.qps ∧
    (s.setMsixWord port fn vec w v).host.portsUp = s.host.portsUp ∧
    (s.setMsixWord port fn vec w v).host.vfEn = s.host.vfEn ∧ (s.setMsixWord port fn vec w v).host.msixOn = s.host.msixOn ∧
    (s.setMsixWord port fn vec w v).host.fmask = s.host.fmask ∧
    (s.setMsixWord port fn vec w v).host.pendBit = s.host.pendBit ∧
    (s.setMsixWord port fn vec w v).host.wheelNext = s.host.wheelNext ∧
    (s.setMsixWord port fn vec w v).host.lastCmd = s.host.lastCmd ∧
    (s.setMsixWord port fn vec w v).host.inspLatch = s.host.inspLatch ∧
    (∀ aa, (s.setMsixWord port fn vec w v).reg aa = s.reg aa) ∧
    (∀ jj, (s.setMsixWord port fn vec w v).part jj = s.part jj) ∧
    (∀ jj, (s.setMsixWord port fn vec w v).stream jj = s.stream jj) ∧
    (∀ jj kk, (s.setMsixWord port fn vec w v).qp jj kk = s.qp jj kk) ∧
    (∀ jj kk, (s.setMsixWord port fn vec w v).dstream jj kk = s.dstream jj kk) ∧
    (∀ jj, (s.setMsixWord port fn vec w v).sealAt jj = s.sealAt jj) ∧
    (∀ jj, (s.setMsixWord port fn vec w v).domAt jj = s.domAt jj) ∧
    (∀ jj, (s.setMsixWord port fn vec w v).pwr1 jj = s.pwr1 jj) := by
  and_intros <;> first | rfl | (intros; rfl)

@[simp] theorem State.setXlat_frame (s : State) (i e : Nat) :
    (s.setXlat i e).regs = s.regs ∧ (s.setXlat i e).time = s.time ∧ (s.setXlat i e).latch = s.latch ∧
    (s.setXlat i e).hot = s.hot ∧ (s.setXlat i e).free = s.free ∧ (s.setXlat i e).out = s.out ∧
    (s.setXlat i e).staged = s.staged ∧ (s.setXlat i e).tick = s.tick ∧ (s.setXlat i e).parts = s.parts ∧
    (s.setXlat i e).host = s.host ∧ (s.setXlat i e).comb = s.comb ∧ (s.setXlat i e).rq = s.rq ∧
    (s.setXlat i e).sparse = s.sparse ∧ (s.setXlat i e).desc = s.desc ∧ (s.setXlat i e).kv = s.kv ∧
    (s.setXlat i e).spad = s.spad ∧ (s.setXlat i e).fab = s.fab ∧ (s.setXlat i e).pwr = s.pwr ∧
    (s.setXlat i e).dom = s.dom ∧ (s.setXlat i e).clt = s.clt ∧ (s.setXlat i e).boot = s.boot ∧
    (s.setXlat i e).inp = s.inp ∧ (s.setXlat i e).bist = s.bist ∧ (s.setXlat i e).wgl = s.wgl ∧
    (s.setXlat i e).rcd = s.rcd ∧ (s.setXlat i e).pair = s.pair ∧ (s.setXlat i e).jrnl = s.jrnl ∧
    (s.setXlat i e).pending = s.pending ∧ (s.setXlat i e).sls.seals = s.sls.seals ∧
    (s.setXlat i e).sls.waits = s.sls.waits ∧ (s.setXlat i e).sls.ports = s.sls.ports ∧
    (s.setXlat i e).sls.insp = s.sls.insp ∧ (s.setXlat i e).sls.held = s.sls.held ∧
    (∀ aa, (s.setXlat i e).reg aa = s.reg aa) ∧ (∀ jj, (s.setXlat i e).part jj = s.part jj) ∧
    (∀ jj, (s.setXlat i e).stream jj = s.stream jj) ∧ (∀ jj kk, (s.setXlat i e).qp jj kk = s.qp jj kk) ∧
    (∀ jj kk, (s.setXlat i e).dstream jj kk = s.dstream jj kk) ∧ (∀ jj, (s.setXlat i e).sealAt jj = s.sealAt jj) ∧
    (∀ jj, (s.setXlat i e).domAt jj = s.domAt jj) ∧ (∀ jj, (s.setXlat i e).pwr1 jj = s.pwr1 jj) := by
  and_intros <;> first | rfl | (intros; rfl)

@[simp] theorem State.updWaits_frame (s : State) (f : List SealWait → List SealWait) :
    (s.updWaits f).regs = s.regs ∧ (s.updWaits f).time = s.time ∧ (s.updWaits f).latch = s.latch ∧
    (s.updWaits f).hot = s.hot ∧ (s.updWaits f).free = s.free ∧ (s.updWaits f).out = s.out ∧
    (s.updWaits f).staged = s.staged ∧ (s.updWaits f).tick = s.tick ∧ (s.updWaits f).parts = s.parts ∧
    (s.updWaits f).host = s.host ∧ (s.updWaits f).comb = s.comb ∧ (s.updWaits f).rq = s.rq ∧
    (s.updWaits f).sparse = s.sparse ∧ (s.updWaits f).desc = s.desc ∧ (s.updWaits f).kv = s.kv ∧
    (s.updWaits f).spad = s.spad ∧ (s.updWaits f).fab = s.fab ∧ (s.updWaits f).pwr = s.pwr ∧ (s.updWaits f).dom = s.dom ∧
    (s.updWaits f).clt = s.clt ∧ (s.updWaits f).boot = s.boot ∧ (s.updWaits f).inp = s.inp ∧ (s.updWaits f).bist = s.bist ∧
    (s.updWaits f).wgl = s.wgl ∧ (s.updWaits f).rcd = s.rcd ∧ (s.updWaits f).pair = s.pair ∧ (s.updWaits f).jrnl = s.jrnl ∧
    (s.updWaits f).pending = s.pending ∧ (s.updWaits f).sls.seals = s.sls.seals ∧ (s.updWaits f).sls.xlat = s.sls.xlat ∧
    (s.updWaits f).sls.ports = s.sls.ports ∧ (s.updWaits f).sls.insp = s.sls.insp ∧ (s.updWaits f).sls.held = s.sls.held ∧
    (∀ aa, (s.updWaits f).reg aa = s.reg aa) ∧ (∀ jj, (s.updWaits f).part jj = s.part jj) ∧
    (∀ jj, (s.updWaits f).stream jj = s.stream jj) ∧ (∀ jj kk, (s.updWaits f).qp jj kk = s.qp jj kk) ∧
    (∀ jj kk, (s.updWaits f).dstream jj kk = s.dstream jj kk) ∧ (∀ jj, (s.updWaits f).sealAt jj = s.sealAt jj) ∧
    (∀ jj, (s.updWaits f).domAt jj = s.domAt jj) ∧ (∀ jj, (s.updWaits f).pwr1 jj = s.pwr1 jj) := by
  and_intros <;> first | rfl | (intros; rfl)

@[simp] theorem State.setOd_frame (s : State) (d i sub v : Nat) :
    (s.setOd d i sub v).regs = s.regs ∧ (s.setOd d i sub v).time = s.time ∧ (s.setOd d i sub v).latch = s.latch ∧
    (s.setOd d i sub v).hot = s.hot ∧ (s.setOd d i sub v).free = s.free ∧ (s.setOd d i sub v).out = s.out ∧
    (s.setOd d i sub v).staged = s.staged ∧ (s.setOd d i sub v).tick = s.tick ∧ (s.setOd d i sub v).parts = s.parts ∧
    (s.setOd d i sub v).host = s.host ∧ (s.setOd d i sub v).comb = s.comb ∧ (s.setOd d i sub v).rq = s.rq ∧
    (s.setOd d i sub v).sparse = s.sparse ∧ (s.setOd d i sub v).desc = s.desc ∧ (s.setOd d i sub v).kv = s.kv ∧
    (s.setOd d i sub v).spad = s.spad ∧ (s.setOd d i sub v).fab = s.fab ∧ (s.setOd d i sub v).pwr = s.pwr ∧
    (s.setOd d i sub v).dom = s.dom ∧ (s.setOd d i sub v).clt = s.clt ∧ (s.setOd d i sub v).boot = s.boot ∧
    (s.setOd d i sub v).inp = s.inp ∧ (s.setOd d i sub v).bist = s.bist ∧ (s.setOd d i sub v).sls = s.sls ∧
    (s.setOd d i sub v).rcd = s.rcd ∧ (s.setOd d i sub v).pair = s.pair ∧ (s.setOd d i sub v).jrnl = s.jrnl ∧
    (s.setOd d i sub v).pending = s.pending ∧ (s.setOd d i sub v).wgl.gcl = s.wgl.gcl ∧
    (s.setOd d i sub v).wgl.gclNext = s.wgl.gclNext ∧ (s.setOd d i sub v).wgl.clamps = s.wgl.clamps ∧
    (s.setOd d i sub v).wgl.notes = s.wgl.notes ∧ (s.setOd d i sub v).wgl.nseq = s.wgl.nseq ∧
    (s.setOd d i sub v).wgl.dropped = s.wgl.dropped ∧ (s.setOd d i sub v).wgl.dropSeq = s.wgl.dropSeq ∧
    (s.setOd d i sub v).wgl.queue = s.wgl.queue ∧ (s.setOd d i sub v).wgl.kept = s.wgl.kept ∧
    (s.setOd d i sub v).wgl.seen = s.wgl.seen ∧ (s.setOd d i sub v).wgl.hseq = s.wgl.hseq ∧
    (s.setOd d i sub v).wgl.gpOfs = s.wgl.gpOfs ∧ (s.setOd d i sub v).wgl.gpGood = s.wgl.gpGood ∧
    (s.setOd d i sub v).wgl.gpLast = s.wgl.gpLast ∧ (s.setOd d i sub v).wgl.lateCnt = s.wgl.lateCnt ∧
    (s.setOd d i sub v).wgl.lateD0 = s.wgl.lateD0 ∧ (s.setOd d i sub v).wgl.mbox = s.wgl.mbox ∧
    (s.setOd d i sub v).wgl.stats = s.wgl.stats ∧ (∀ aa, (s.setOd d i sub v).reg aa = s.reg aa) ∧
    (∀ jj, (s.setOd d i sub v).part jj = s.part jj) ∧ (∀ jj, (s.setOd d i sub v).stream jj = s.stream jj) ∧
    (∀ jj kk, (s.setOd d i sub v).qp jj kk = s.qp jj kk) ∧ (∀ jj kk, (s.setOd d i sub v).dstream jj kk = s.dstream jj kk) ∧
    (∀ jj, (s.setOd d i sub v).sealAt jj = s.sealAt jj) ∧ (∀ jj, (s.setOd d i sub v).domAt jj = s.domAt jj) ∧
    (∀ jj, (s.setOd d i sub v).pwr1 jj = s.pwr1 jj) := by
  and_intros <;> first | rfl | (intros; rfl)

@[simp] theorem State.setChanEntry_frame (s : State) (k c v : Nat) :
    (s.setChanEntry k c v).regs = s.regs ∧ (s.setChanEntry k c v).time = s.time ∧ (s.setChanEntry k c v).latch = s.latch ∧
    (s.setChanEntry k c v).hot = s.hot ∧ (s.setChanEntry k c v).free = s.free ∧ (s.setChanEntry k c v).out = s.out ∧
    (s.setChanEntry k c v).staged = s.staged ∧ (s.setChanEntry k c v).tick = s.tick ∧
    (s.setChanEntry k c v).parts = s.parts ∧ (s.setChanEntry k c v).host = s.host ∧ (s.setChanEntry k c v).comb = s.comb ∧
    (s.setChanEntry k c v).sparse = s.sparse ∧ (s.setChanEntry k c v).desc = s.desc ∧ (s.setChanEntry k c v).kv = s.kv ∧
    (s.setChanEntry k c v).spad = s.spad ∧ (s.setChanEntry k c v).fab = s.fab ∧ (s.setChanEntry k c v).pwr = s.pwr ∧
    (s.setChanEntry k c v).dom = s.dom ∧ (s.setChanEntry k c v).clt = s.clt ∧ (s.setChanEntry k c v).boot = s.boot ∧
    (s.setChanEntry k c v).inp = s.inp ∧ (s.setChanEntry k c v).bist = s.bist ∧ (s.setChanEntry k c v).wgl = s.wgl ∧
    (s.setChanEntry k c v).sls = s.sls ∧ (s.setChanEntry k c v).rcd = s.rcd ∧ (s.setChanEntry k c v).pair = s.pair ∧
    (s.setChanEntry k c v).jrnl = s.jrnl ∧ (s.setChanEntry k c v).pending = s.pending ∧
    (s.setChanEntry k c v).rq.sets = s.rq.sets ∧ (s.setChanEntry k c v).rq.stage = s.rq.stage ∧
    (s.setChanEntry k c v).rq.pend = s.rq.pend ∧ (s.setChanEntry k c v).rq.run = s.rq.run ∧
    (s.setChanEntry k c v).rq.ingress = s.rq.ingress ∧ (s.setChanEntry k c v).rq.lastCmd = s.rq.lastCmd ∧
    (∀ aa, (s.setChanEntry k c v).reg aa = s.reg aa) ∧ (∀ jj, (s.setChanEntry k c v).part jj = s.part jj) ∧
    (∀ jj, (s.setChanEntry k c v).stream jj = s.stream jj) ∧ (∀ jj kk, (s.setChanEntry k c v).qp jj kk = s.qp jj kk) ∧
    (∀ jj kk, (s.setChanEntry k c v).dstream jj kk = s.dstream jj kk) ∧
    (∀ jj, (s.setChanEntry k c v).sealAt jj = s.sealAt jj) ∧ (∀ jj, (s.setChanEntry k c v).domAt jj = s.domAt jj) ∧
    (∀ jj, (s.setChanEntry k c v).pwr1 jj = s.pwr1 jj) := by
  and_intros <;> first | rfl | (intros; rfl)

@[simp] theorem State.setGranule_frame (s : State) (p g : Nat) (v : BitVec 512) :
    (s.setGranule p g v).regs = s.regs ∧ (s.setGranule p g v).time = s.time ∧ (s.setGranule p g v).latch = s.latch ∧
    (s.setGranule p g v).hot = s.hot ∧ (s.setGranule p g v).free = s.free ∧ (s.setGranule p g v).out = s.out ∧
    (s.setGranule p g v).staged = s.staged ∧ (s.setGranule p g v).tick = s.tick ∧ (s.setGranule p g v).parts = s.parts ∧
    (s.setGranule p g v).host = s.host ∧ (s.setGranule p g v).comb = s.comb ∧ (s.setGranule p g v).rq = s.rq ∧
    (s.setGranule p g v).sparse = s.sparse ∧ (s.setGranule p g v).desc = s.desc ∧ (s.setGranule p g v).kv = s.kv ∧
    (s.setGranule p g v).fab = s.fab ∧ (s.setGranule p g v).pwr = s.pwr ∧ (s.setGranule p g v).dom = s.dom ∧
    (s.setGranule p g v).clt = s.clt ∧ (s.setGranule p g v).boot = s.boot ∧ (s.setGranule p g v).inp = s.inp ∧
    (s.setGranule p g v).bist = s.bist ∧ (s.setGranule p g v).wgl = s.wgl ∧ (s.setGranule p g v).sls = s.sls ∧
    (s.setGranule p g v).rcd = s.rcd ∧ (s.setGranule p g v).pair = s.pair ∧ (s.setGranule p g v).jrnl = s.jrnl ∧
    (s.setGranule p g v).pending = s.pending ∧ (∀ aa, (s.setGranule p g v).reg aa = s.reg aa) ∧
    (∀ jj, (s.setGranule p g v).part jj = s.part jj) ∧ (∀ jj, (s.setGranule p g v).stream jj = s.stream jj) ∧
    (∀ jj kk, (s.setGranule p g v).qp jj kk = s.qp jj kk) ∧
    (∀ jj kk, (s.setGranule p g v).dstream jj kk = s.dstream jj kk) ∧
    (∀ jj, (s.setGranule p g v).sealAt jj = s.sealAt jj) ∧ (∀ jj, (s.setGranule p g v).domAt jj = s.domAt jj) ∧
    (∀ jj, (s.setGranule p g v).pwr1 jj = s.pwr1 jj) := by
  and_intros <;> first | rfl | (intros; rfl)

@[simp] theorem State.setHbmGran_frame (s : State) (p f g : Nat) (v : BitVec 512) :
    (s.setHbmGran p f g v).regs = s.regs ∧ (s.setHbmGran p f g v).time = s.time ∧ (s.setHbmGran p f g v).latch = s.latch ∧
    (s.setHbmGran p f g v).hot = s.hot ∧ (s.setHbmGran p f g v).free = s.free ∧ (s.setHbmGran p f g v).out = s.out ∧
    (s.setHbmGran p f g v).staged = s.staged ∧ (s.setHbmGran p f g v).tick = s.tick ∧
    (s.setHbmGran p f g v).parts = s.parts ∧ (s.setHbmGran p f g v).host = s.host ∧ (s.setHbmGran p f g v).comb = s.comb ∧
    (s.setHbmGran p f g v).rq = s.rq ∧ (s.setHbmGran p f g v).sparse = s.sparse ∧ (s.setHbmGran p f g v).desc = s.desc ∧
    (s.setHbmGran p f g v).spad = s.spad ∧ (s.setHbmGran p f g v).fab = s.fab ∧ (s.setHbmGran p f g v).pwr = s.pwr ∧
    (s.setHbmGran p f g v).dom = s.dom ∧ (s.setHbmGran p f g v).clt = s.clt ∧ (s.setHbmGran p f g v).boot = s.boot ∧
    (s.setHbmGran p f g v).inp = s.inp ∧ (s.setHbmGran p f g v).bist = s.bist ∧ (s.setHbmGran p f g v).wgl = s.wgl ∧
    (s.setHbmGran p f g v).sls = s.sls ∧ (s.setHbmGran p f g v).rcd = s.rcd ∧ (s.setHbmGran p f g v).pair = s.pair ∧
    (s.setHbmGran p f g v).jrnl = s.jrnl ∧ (s.setHbmGran p f g v).pending = s.pending ∧
    (s.setHbmGran p f g v).kv.bad = s.kv.bad ∧ (s.setHbmGran p f g v).kv.frames = s.kv.frames ∧
    (s.setHbmGran p f g v).kv.dir = s.kv.dir ∧ (s.setHbmGran p f g v).kv.leaf = s.kv.leaf ∧
    (s.setHbmGran p f g v).kv.svc = s.kv.svc ∧ (s.setHbmGran p f g v).kv.layout = s.kv.layout ∧
    (s.setHbmGran p f g v).kv.park = s.kv.park ∧ (∀ aa, (s.setHbmGran p f g v).reg aa = s.reg aa) ∧
    (∀ jj, (s.setHbmGran p f g v).part jj = s.part jj) ∧ (∀ jj, (s.setHbmGran p f g v).stream jj = s.stream jj) ∧
    (∀ jj kk, (s.setHbmGran p f g v).qp jj kk = s.qp jj kk) ∧
    (∀ jj kk, (s.setHbmGran p f g v).dstream jj kk = s.dstream jj kk) ∧
    (∀ jj, (s.setHbmGran p f g v).sealAt jj = s.sealAt jj) ∧ (∀ jj, (s.setHbmGran p f g v).domAt jj = s.domAt jj) ∧
    (∀ jj, (s.setHbmGran p f g v).pwr1 jj = s.pwr1 jj) := by
  and_intros <;> first | rfl | (intros; rfl)

@[simp] theorem State.setDirRaw_frame (s : State) (p i : Nat) (e : DirEntry) :
    (s.setDirRaw p i e).regs = s.regs ∧ (s.setDirRaw p i e).time = s.time ∧ (s.setDirRaw p i e).latch = s.latch ∧
    (s.setDirRaw p i e).hot = s.hot ∧ (s.setDirRaw p i e).free = s.free ∧ (s.setDirRaw p i e).out = s.out ∧
    (s.setDirRaw p i e).staged = s.staged ∧ (s.setDirRaw p i e).tick = s.tick ∧ (s.setDirRaw p i e).parts = s.parts ∧
    (s.setDirRaw p i e).host = s.host ∧ (s.setDirRaw p i e).comb = s.comb ∧ (s.setDirRaw p i e).rq = s.rq ∧
    (s.setDirRaw p i e).sparse = s.sparse ∧ (s.setDirRaw p i e).desc = s.desc ∧ (s.setDirRaw p i e).spad = s.spad ∧
    (s.setDirRaw p i e).fab = s.fab ∧ (s.setDirRaw p i e).pwr = s.pwr ∧ (s.setDirRaw p i e).dom = s.dom ∧
    (s.setDirRaw p i e).clt = s.clt ∧ (s.setDirRaw p i e).boot = s.boot ∧ (s.setDirRaw p i e).inp = s.inp ∧
    (s.setDirRaw p i e).bist = s.bist ∧ (s.setDirRaw p i e).wgl = s.wgl ∧ (s.setDirRaw p i e).sls = s.sls ∧
    (s.setDirRaw p i e).rcd = s.rcd ∧ (s.setDirRaw p i e).pair = s.pair ∧ (s.setDirRaw p i e).jrnl = s.jrnl ∧
    (s.setDirRaw p i e).pending = s.pending ∧ (s.setDirRaw p i e).kv.hbm = s.kv.hbm ∧
    (s.setDirRaw p i e).kv.bad = s.kv.bad ∧ (s.setDirRaw p i e).kv.frames = s.kv.frames ∧
    (s.setDirRaw p i e).kv.leaf = s.kv.leaf ∧ (s.setDirRaw p i e).kv.svc = s.kv.svc ∧
    (s.setDirRaw p i e).kv.layout = s.kv.layout ∧ (s.setDirRaw p i e).kv.park = s.kv.park ∧
    (∀ aa, (s.setDirRaw p i e).reg aa = s.reg aa) ∧ (∀ jj, (s.setDirRaw p i e).part jj = s.part jj) ∧
    (∀ jj, (s.setDirRaw p i e).stream jj = s.stream jj) ∧ (∀ jj kk, (s.setDirRaw p i e).qp jj kk = s.qp jj kk) ∧
    (∀ jj kk, (s.setDirRaw p i e).dstream jj kk = s.dstream jj kk) ∧ (∀ jj, (s.setDirRaw p i e).sealAt jj = s.sealAt jj) ∧
    (∀ jj, (s.setDirRaw p i e).domAt jj = s.domAt jj) ∧ (∀ jj, (s.setDirRaw p i e).pwr1 jj = s.pwr1 jj) := by
  and_intros <;> first | rfl | (intros; rfl)

@[simp] theorem State.setLeaf_frame (s : State) (p : Nat) (e : DirEntry) (i : Nat) (x : PageEntry) :
    (s.setLeaf p e i x).regs = s.regs ∧ (s.setLeaf p e i x).time = s.time ∧ (s.setLeaf p e i x).latch = s.latch ∧
    (s.setLeaf p e i x).hot = s.hot ∧ (s.setLeaf p e i x).free = s.free ∧ (s.setLeaf p e i x).out = s.out ∧
    (s.setLeaf p e i x).staged = s.staged ∧ (s.setLeaf p e i x).tick = s.tick ∧ (s.setLeaf p e i x).parts = s.parts ∧
    (s.setLeaf p e i x).host = s.host ∧ (s.setLeaf p e i x).comb = s.comb ∧ (s.setLeaf p e i x).rq = s.rq ∧
    (s.setLeaf p e i x).sparse = s.sparse ∧ (s.setLeaf p e i x).desc = s.desc ∧ (s.setLeaf p e i x).spad = s.spad ∧
    (s.setLeaf p e i x).fab = s.fab ∧ (s.setLeaf p e i x).pwr = s.pwr ∧ (s.setLeaf p e i x).dom = s.dom ∧
    (s.setLeaf p e i x).clt = s.clt ∧ (s.setLeaf p e i x).boot = s.boot ∧ (s.setLeaf p e i x).inp = s.inp ∧
    (s.setLeaf p e i x).bist = s.bist ∧ (s.setLeaf p e i x).wgl = s.wgl ∧ (s.setLeaf p e i x).sls = s.sls ∧
    (s.setLeaf p e i x).rcd = s.rcd ∧ (s.setLeaf p e i x).pair = s.pair ∧ (s.setLeaf p e i x).jrnl = s.jrnl ∧
    (s.setLeaf p e i x).pending = s.pending ∧ (s.setLeaf p e i x).kv.hbm = s.kv.hbm ∧
    (s.setLeaf p e i x).kv.bad = s.kv.bad ∧ (s.setLeaf p e i x).kv.frames = s.kv.frames ∧
    (s.setLeaf p e i x).kv.dir = s.kv.dir ∧ (s.setLeaf p e i x).kv.svc = s.kv.svc ∧
    (s.setLeaf p e i x).kv.layout = s.kv.layout ∧ (s.setLeaf p e i x).kv.park = s.kv.park ∧
    (∀ aa, (s.setLeaf p e i x).reg aa = s.reg aa) ∧ (∀ jj, (s.setLeaf p e i x).part jj = s.part jj) ∧
    (∀ jj, (s.setLeaf p e i x).stream jj = s.stream jj) ∧ (∀ jj kk, (s.setLeaf p e i x).qp jj kk = s.qp jj kk) ∧
    (∀ jj kk, (s.setLeaf p e i x).dstream jj kk = s.dstream jj kk) ∧ (∀ jj, (s.setLeaf p e i x).sealAt jj = s.sealAt jj) ∧
    (∀ jj, (s.setLeaf p e i x).domAt jj = s.domAt jj) ∧ (∀ jj, (s.setLeaf p e i x).pwr1 jj = s.pwr1 jj) := by
  and_intros <;> first | rfl | (intros; rfl)

@[simp] theorem State.setCltMark_frame (s : State) (b : Nat) (v : Bool) :
    (s.setCltMark b v).regs = s.regs ∧ (s.setCltMark b v).time = s.time ∧ (s.setCltMark b v).latch = s.latch ∧
    (s.setCltMark b v).hot = s.hot ∧ (s.setCltMark b v).free = s.free ∧ (s.setCltMark b v).out = s.out ∧
    (s.setCltMark b v).staged = s.staged ∧ (s.setCltMark b v).tick = s.tick ∧ (s.setCltMark b v).parts = s.parts ∧
    (s.setCltMark b v).host = s.host ∧ (s.setCltMark b v).comb = s.comb ∧ (s.setCltMark b v).rq = s.rq ∧
    (s.setCltMark b v).sparse = s.sparse ∧ (s.setCltMark b v).desc = s.desc ∧ (s.setCltMark b v).kv = s.kv ∧
    (s.setCltMark b v).spad = s.spad ∧ (s.setCltMark b v).fab = s.fab ∧ (s.setCltMark b v).pwr = s.pwr ∧
    (s.setCltMark b v).dom = s.dom ∧ (s.setCltMark b v).boot = s.boot ∧ (s.setCltMark b v).inp = s.inp ∧
    (s.setCltMark b v).bist = s.bist ∧ (s.setCltMark b v).wgl = s.wgl ∧ (s.setCltMark b v).sls = s.sls ∧
    (s.setCltMark b v).rcd = s.rcd ∧ (s.setCltMark b v).pair = s.pair ∧ (s.setCltMark b v).jrnl = s.jrnl ∧
    (s.setCltMark b v).pending = s.pending ∧ (s.setCltMark b v).clt.sensors = s.clt.sensors ∧
    (s.setCltMark b v).clt.iNum = s.clt.iNum ∧ (s.setCltMark b v).clt.iDen = s.clt.iDen ∧
    (s.setCltMark b v).clt.lastRun = s.clt.lastRun ∧ (s.setCltMark b v).clt.enc = s.clt.enc ∧
    (s.setCltMark b v).clt.hotJ = s.clt.hotJ ∧ (s.setCltMark b v).clt.staged = s.clt.staged ∧
    (∀ aa, (s.setCltMark b v).reg aa = s.reg aa) ∧ (∀ jj, (s.setCltMark b v).part jj = s.part jj) ∧
    (∀ jj, (s.setCltMark b v).stream jj = s.stream jj) ∧ (∀ jj kk, (s.setCltMark b v).qp jj kk = s.qp jj kk) ∧
    (∀ jj kk, (s.setCltMark b v).dstream jj kk = s.dstream jj kk) ∧ (∀ jj, (s.setCltMark b v).sealAt jj = s.sealAt jj) ∧
    (∀ jj, (s.setCltMark b v).domAt jj = s.domAt jj) ∧ (∀ jj, (s.setCltMark b v).pwr1 jj = s.pwr1 jj) := by
  and_intros <;> first | rfl | (intros; rfl)

@[simp] theorem State.updStat_frame (s : State) (n : Nat) (f : PartStat → PartStat) :
    (s.updStat n f).regs = s.regs ∧ (s.updStat n f).time = s.time ∧ (s.updStat n f).latch = s.latch ∧
    (s.updStat n f).hot = s.hot ∧ (s.updStat n f).free = s.free ∧ (s.updStat n f).out = s.out ∧
    (s.updStat n f).staged = s.staged ∧ (s.updStat n f).tick = s.tick ∧ (s.updStat n f).parts = s.parts ∧
    (s.updStat n f).host = s.host ∧ (s.updStat n f).comb = s.comb ∧ (s.updStat n f).rq = s.rq ∧
    (s.updStat n f).sparse = s.sparse ∧ (s.updStat n f).desc = s.desc ∧ (s.updStat n f).kv = s.kv ∧
    (s.updStat n f).spad = s.spad ∧ (s.updStat n f).fab = s.fab ∧ (s.updStat n f).pwr = s.pwr ∧
    (s.updStat n f).dom = s.dom ∧ (s.updStat n f).clt = s.clt ∧ (s.updStat n f).boot = s.boot ∧
    (s.updStat n f).inp = s.inp ∧ (s.updStat n f).bist = s.bist ∧ (s.updStat n f).sls = s.sls ∧
    (s.updStat n f).rcd = s.rcd ∧ (s.updStat n f).pair = s.pair ∧ (s.updStat n f).jrnl = s.jrnl ∧
    (s.updStat n f).pending = s.pending ∧ (s.updStat n f).wgl.od = s.wgl.od ∧ (s.updStat n f).wgl.gcl = s.wgl.gcl ∧
    (s.updStat n f).wgl.gclNext = s.wgl.gclNext ∧ (s.updStat n f).wgl.clamps = s.wgl.clamps ∧
    (s.updStat n f).wgl.notes = s.wgl.notes ∧ (s.updStat n f).wgl.nseq = s.wgl.nseq ∧
    (s.updStat n f).wgl.dropped = s.wgl.dropped ∧ (s.updStat n f).wgl.dropSeq = s.wgl.dropSeq ∧
    (s.updStat n f).wgl.queue = s.wgl.queue ∧ (s.updStat n f).wgl.kept = s.wgl.kept ∧
    (s.updStat n f).wgl.seen = s.wgl.seen ∧ (s.updStat n f).wgl.hseq = s.wgl.hseq ∧
    (s.updStat n f).wgl.gpOfs = s.wgl.gpOfs ∧ (s.updStat n f).wgl.gpGood = s.wgl.gpGood ∧
    (s.updStat n f).wgl.gpLast = s.wgl.gpLast ∧ (s.updStat n f).wgl.lateCnt = s.wgl.lateCnt ∧
    (s.updStat n f).wgl.lateD0 = s.wgl.lateD0 ∧ (s.updStat n f).wgl.mbox = s.wgl.mbox ∧
    (∀ aa, (s.updStat n f).reg aa = s.reg aa) ∧ (∀ jj, (s.updStat n f).part jj = s.part jj) ∧
    (∀ jj, (s.updStat n f).stream jj = s.stream jj) ∧ (∀ jj kk, (s.updStat n f).qp jj kk = s.qp jj kk) ∧
    (∀ jj kk, (s.updStat n f).dstream jj kk = s.dstream jj kk) ∧ (∀ jj, (s.updStat n f).sealAt jj = s.sealAt jj) ∧
    (∀ jj, (s.updStat n f).domAt jj = s.domAt jj) ∧ (∀ jj, (s.updStat n f).pwr1 jj = s.pwr1 jj) := by
  and_intros <;> first | rfl | (intros; rfl)

@[simp] theorem State.setI_frame (s : State) (q : Q) :
    (s.setI q).regs = s.regs ∧ (s.setI q).time = s.time ∧ (s.setI q).latch = s.latch ∧ (s.setI q).hot = s.hot ∧
    (s.setI q).free = s.free ∧ (s.setI q).out = s.out ∧ (s.setI q).staged = s.staged ∧ (s.setI q).tick = s.tick ∧
    (s.setI q).parts = s.parts ∧ (s.setI q).host = s.host ∧ (s.setI q).comb = s.comb ∧ (s.setI q).rq = s.rq ∧
    (s.setI q).sparse = s.sparse ∧ (s.setI q).desc = s.desc ∧ (s.setI q).kv = s.kv ∧ (s.setI q).spad = s.spad ∧
    (s.setI q).fab = s.fab ∧ (s.setI q).pwr = s.pwr ∧ (s.setI q).dom = s.dom ∧ (s.setI q).boot = s.boot ∧
    (s.setI q).inp = s.inp ∧ (s.setI q).bist = s.bist ∧ (s.setI q).wgl = s.wgl ∧ (s.setI q).sls = s.sls ∧
    (s.setI q).rcd = s.rcd ∧ (s.setI q).pair = s.pair ∧ (s.setI q).jrnl = s.jrnl ∧ (s.setI q).pending = s.pending ∧
    (s.setI q).clt.sensors = s.clt.sensors ∧ (s.setI q).clt.lastRun = s.clt.lastRun ∧ (s.setI q).clt.enc = s.clt.enc ∧
    (s.setI q).clt.hotJ = s.clt.hotJ ∧ (s.setI q).clt.marks = s.clt.marks ∧ (s.setI q).clt.staged = s.clt.staged ∧
    (∀ aa, (s.setI q).reg aa = s.reg aa) ∧ (∀ jj, (s.setI q).part jj = s.part jj) ∧
    (∀ jj, (s.setI q).stream jj = s.stream jj) ∧ (∀ jj kk, (s.setI q).qp jj kk = s.qp jj kk) ∧
    (∀ jj kk, (s.setI q).dstream jj kk = s.dstream jj kk) ∧ (∀ jj, (s.setI q).sealAt jj = s.sealAt jj) ∧
    (∀ jj, (s.setI q).domAt jj = s.domAt jj) ∧ (∀ jj, (s.setI q).pwr1 jj = s.pwr1 jj) := by
  and_intros <;> first | rfl | (intros; rfl)

@[simp] theorem State.setOpenTile_frame (s : State) (pc v : Nat) :
    (s.setOpenTile pc v).regs = s.regs ∧ (s.setOpenTile pc v).time = s.time ∧ (s.setOpenTile pc v).latch = s.latch ∧
    (s.setOpenTile pc v).hot = s.hot ∧ (s.setOpenTile pc v).free = s.free ∧ (s.setOpenTile pc v).out = s.out ∧
    (s.setOpenTile pc v).staged = s.staged ∧ (s.setOpenTile pc v).tick = s.tick ∧ (s.setOpenTile pc v).parts = s.parts ∧
    (s.setOpenTile pc v).host = s.host ∧ (s.setOpenTile pc v).rq = s.rq ∧ (s.setOpenTile pc v).sparse = s.sparse ∧
    (s.setOpenTile pc v).desc = s.desc ∧ (s.setOpenTile pc v).kv = s.kv ∧ (s.setOpenTile pc v).spad = s.spad ∧
    (s.setOpenTile pc v).fab = s.fab ∧ (s.setOpenTile pc v).pwr = s.pwr ∧ (s.setOpenTile pc v).dom = s.dom ∧
    (s.setOpenTile pc v).clt = s.clt ∧ (s.setOpenTile pc v).boot = s.boot ∧ (s.setOpenTile pc v).inp = s.inp ∧
    (s.setOpenTile pc v).bist = s.bist ∧ (s.setOpenTile pc v).wgl = s.wgl ∧ (s.setOpenTile pc v).sls = s.sls ∧
    (s.setOpenTile pc v).rcd = s.rcd ∧ (s.setOpenTile pc v).pair = s.pair ∧ (s.setOpenTile pc v).jrnl = s.jrnl ∧
    (s.setOpenTile pc v).pending = s.pending ∧ (s.setOpenTile pc v).comb.repair = s.comb.repair ∧
    (s.setOpenTile pc v).comb.bmap = s.comb.bmap ∧ (s.setOpenTile pc v).comb.rows = s.comb.rows ∧
    (s.setOpenTile pc v).comb.metaR = s.comb.metaR ∧ (s.setOpenTile pc v).comb.wzp = s.comb.wzp ∧
    (s.setOpenTile pc v).comb.colsum = s.comb.colsum ∧ (s.setOpenTile pc v).comb.hdr = s.comb.hdr ∧
    (s.setOpenTile pc v).comb.shadow = s.comb.shadow ∧ (s.setOpenTile pc v).comb.sets = s.comb.sets ∧
    (s.setOpenTile pc v).comb.lastSet = s.comb.lastSet ∧ (s.setOpenTile pc v).comb.lastSlot = s.comb.lastSlot ∧
    (s.setOpenTile pc v).comb.tailW4S = s.comb.tailW4S ∧ (s.setOpenTile pc v).comb.lastShadow = s.comb.lastShadow ∧
    (∀ aa, (s.setOpenTile pc v).reg aa = s.reg aa) ∧ (∀ jj, (s.setOpenTile pc v).part jj = s.part jj) ∧
    (∀ jj, (s.setOpenTile pc v).stream jj = s.stream jj) ∧ (∀ jj kk, (s.setOpenTile pc v).qp jj kk = s.qp jj kk) ∧
    (∀ jj kk, (s.setOpenTile pc v).dstream jj kk = s.dstream jj kk) ∧
    (∀ jj, (s.setOpenTile pc v).sealAt jj = s.sealAt jj) ∧ (∀ jj, (s.setOpenTile pc v).domAt jj = s.domAt jj) ∧
    (∀ jj, (s.setOpenTile pc v).pwr1 jj = s.pwr1 jj) := by
  and_intros <;> first | rfl | (intros; rfl)

@[simp] theorem State.acked_frame (s : State) (o : OutPkt) :
    (s.acked o).regs = s.regs ∧ (s.acked o).time = s.time ∧ (s.acked o).latch = s.latch ∧ (s.acked o).hot = s.hot ∧
    (s.acked o).free = s.free ∧ (s.acked o).out = s.out ∧ (s.acked o).staged = s.staged ∧ (s.acked o).tick = s.tick ∧
    (s.acked o).parts = s.parts ∧ (s.acked o).host = s.host ∧ (s.acked o).comb = s.comb ∧ (s.acked o).rq = s.rq ∧
    (s.acked o).sparse = s.sparse ∧ (s.acked o).desc = s.desc ∧ (s.acked o).kv = s.kv ∧ (s.acked o).spad = s.spad ∧
    (s.acked o).pwr = s.pwr ∧ (s.acked o).dom = s.dom ∧ (s.acked o).clt = s.clt ∧ (s.acked o).boot = s.boot ∧
    (s.acked o).inp = s.inp ∧ (s.acked o).bist = s.bist ∧ (s.acked o).wgl = s.wgl ∧ (s.acked o).sls = s.sls ∧
    (s.acked o).rcd = s.rcd ∧ (s.acked o).pair = s.pair ∧ (s.acked o).jrnl = s.jrnl ∧ (s.acked o).pending = s.pending ∧
    (s.acked o).fab.seqs = s.fab.seqs ∧ (s.acked o).fab.gather = s.fab.gather ∧ (s.acked o).fab.down = s.fab.down ∧
    (s.acked o).fab.replays = s.fab.replays ∧ (s.acked o).fab.siteOut = s.fab.siteOut ∧ (s.acked o).fab.busy = s.fab.busy ∧
    (∀ aa, (s.acked o).reg aa = s.reg aa) ∧ (∀ jj, (s.acked o).part jj = s.part jj) ∧
    (∀ jj, (s.acked o).stream jj = s.stream jj) ∧ (∀ jj kk, (s.acked o).qp jj kk = s.qp jj kk) ∧
    (∀ jj kk, (s.acked o).dstream jj kk = s.dstream jj kk) ∧ (∀ jj, (s.acked o).sealAt jj = s.sealAt jj) ∧
    (∀ jj, (s.acked o).domAt jj = s.domAt jj) ∧ (∀ jj, (s.acked o).pwr1 jj = s.pwr1 jj) := by
  and_intros <;> first | rfl | (intros; rfl)

@[simp] theorem State.setInp_frame (s : State) (f : InpSt → InpSt) :
    (s.setInp f).regs = s.regs ∧ (s.setInp f).time = s.time ∧ (s.setInp f).latch = s.latch ∧ (s.setInp f).hot = s.hot ∧
    (s.setInp f).free = s.free ∧ (s.setInp f).out = s.out ∧ (s.setInp f).staged = s.staged ∧ (s.setInp f).tick = s.tick ∧
    (s.setInp f).parts = s.parts ∧ (s.setInp f).host = s.host ∧ (s.setInp f).comb = s.comb ∧ (s.setInp f).rq = s.rq ∧
    (s.setInp f).sparse = s.sparse ∧ (s.setInp f).desc = s.desc ∧ (s.setInp f).kv = s.kv ∧ (s.setInp f).spad = s.spad ∧
    (s.setInp f).fab = s.fab ∧ (s.setInp f).pwr = s.pwr ∧ (s.setInp f).dom = s.dom ∧ (s.setInp f).clt = s.clt ∧
    (s.setInp f).boot = s.boot ∧ (s.setInp f).bist = s.bist ∧ (s.setInp f).wgl = s.wgl ∧ (s.setInp f).sls = s.sls ∧
    (s.setInp f).rcd = s.rcd ∧ (s.setInp f).pair = s.pair ∧ (s.setInp f).jrnl = s.jrnl ∧ (s.setInp f).pending = s.pending ∧
    (∀ aa, (s.setInp f).reg aa = s.reg aa) ∧ (∀ jj, (s.setInp f).part jj = s.part jj) ∧
    (∀ jj, (s.setInp f).stream jj = s.stream jj) ∧ (∀ jj kk, (s.setInp f).qp jj kk = s.qp jj kk) ∧
    (∀ jj kk, (s.setInp f).dstream jj kk = s.dstream jj kk) ∧ (∀ jj, (s.setInp f).sealAt jj = s.sealAt jj) ∧
    (∀ jj, (s.setInp f).domAt jj = s.domAt jj) ∧ (∀ jj, (s.setInp f).pwr1 jj = s.pwr1 jj) := by
  and_intros <;> first | rfl | (intros; rfl)

@[simp] theorem State.setJ_frame (s : State) (j : JrnlSt) :
    (s.setJ j).regs = s.regs ∧ (s.setJ j).time = s.time ∧ (s.setJ j).latch = s.latch ∧ (s.setJ j).hot = s.hot ∧
    (s.setJ j).free = s.free ∧ (s.setJ j).out = s.out ∧ (s.setJ j).staged = s.staged ∧ (s.setJ j).tick = s.tick ∧
    (s.setJ j).parts = s.parts ∧ (s.setJ j).host = s.host ∧ (s.setJ j).comb = s.comb ∧ (s.setJ j).rq = s.rq ∧
    (s.setJ j).sparse = s.sparse ∧ (s.setJ j).desc = s.desc ∧ (s.setJ j).kv = s.kv ∧ (s.setJ j).spad = s.spad ∧
    (s.setJ j).fab = s.fab ∧ (s.setJ j).pwr = s.pwr ∧ (s.setJ j).dom = s.dom ∧ (s.setJ j).clt = s.clt ∧
    (s.setJ j).boot = s.boot ∧ (s.setJ j).inp = s.inp ∧ (s.setJ j).bist = s.bist ∧ (s.setJ j).wgl = s.wgl ∧
    (s.setJ j).sls = s.sls ∧ (s.setJ j).rcd = s.rcd ∧ (s.setJ j).pair = s.pair ∧ (s.setJ j).pending = s.pending ∧
    (∀ aa, (s.setJ j).reg aa = s.reg aa) ∧ (∀ jj, (s.setJ j).part jj = s.part jj) ∧
    (∀ jj, (s.setJ j).stream jj = s.stream jj) ∧ (∀ jj kk, (s.setJ j).qp jj kk = s.qp jj kk) ∧
    (∀ jj kk, (s.setJ j).dstream jj kk = s.dstream jj kk) ∧ (∀ jj, (s.setJ j).sealAt jj = s.sealAt jj) ∧
    (∀ jj, (s.setJ j).domAt jj = s.domAt jj) ∧ (∀ jj, (s.setJ j).pwr1 jj = s.pwr1 jj) := by
  and_intros <;> first | rfl | (intros; rfl)

@[simp] theorem State.endRuns_frame (s : State) (p : Nat) :
    (s.endRuns p).regs = s.regs ∧ (s.endRuns p).time = s.time ∧ (s.endRuns p).latch = s.latch ∧ (s.endRuns p).hot = s.hot ∧
    (s.endRuns p).free = s.free ∧ (s.endRuns p).out = s.out ∧ (s.endRuns p).staged = s.staged ∧
    (s.endRuns p).tick = s.tick ∧ (s.endRuns p).parts = s.parts ∧ (s.endRuns p).host = s.host ∧
    (s.endRuns p).comb = s.comb ∧ (s.endRuns p).sparse = s.sparse ∧ (s.endRuns p).desc = s.desc ∧ (s.endRuns p).kv = s.kv ∧
    (s.endRuns p).spad = s.spad ∧ (s.endRuns p).fab = s.fab ∧ (s.endRuns p).pwr = s.pwr ∧ (s.endRuns p).dom = s.dom ∧
    (s.endRuns p).clt = s.clt ∧ (s.endRuns p).boot = s.boot ∧ (s.endRuns p).inp = s.inp ∧ (s.endRuns p).bist = s.bist ∧
    (s.endRuns p).wgl = s.wgl ∧ (s.endRuns p).sls = s.sls ∧ (s.endRuns p).rcd = s.rcd ∧ (s.endRuns p).pair = s.pair ∧
    (s.endRuns p).jrnl = s.jrnl ∧ (s.endRuns p).pending = s.pending ∧ (s.endRuns p).rq.sets = s.rq.sets ∧
    (s.endRuns p).rq.chan = s.rq.chan ∧ (s.endRuns p).rq.stage = s.rq.stage ∧ (s.endRuns p).rq.pend = s.rq.pend ∧
    (s.endRuns p).rq.ingress = s.rq.ingress ∧ (s.endRuns p).rq.lastCmd = s.rq.lastCmd ∧
    (∀ aa, (s.endRuns p).reg aa = s.reg aa) ∧ (∀ jj, (s.endRuns p).part jj = s.part jj) ∧
    (∀ jj, (s.endRuns p).stream jj = s.stream jj) ∧ (∀ jj kk, (s.endRuns p).qp jj kk = s.qp jj kk) ∧
    (∀ jj kk, (s.endRuns p).dstream jj kk = s.dstream jj kk) ∧ (∀ jj, (s.endRuns p).sealAt jj = s.sealAt jj) ∧
    (∀ jj, (s.endRuns p).domAt jj = s.domAt jj) ∧ (∀ jj, (s.endRuns p).pwr1 jj = s.pwr1 jj) := by
  and_intros <;> first | rfl | (intros; rfl)

@[simp] theorem State.cutTails_frame (s : State) (p : Nat) :
    (s.cutTails p).regs = s.regs ∧ (s.cutTails p).time = s.time ∧ (s.cutTails p).latch = s.latch ∧
    (s.cutTails p).hot = s.hot ∧ (s.cutTails p).free = s.free ∧ (s.cutTails p).out = s.out ∧
    (s.cutTails p).staged = s.staged ∧ (s.cutTails p).tick = s.tick ∧ (s.cutTails p).parts = s.parts ∧
    (s.cutTails p).host = s.host ∧ (s.cutTails p).rq = s.rq ∧ (s.cutTails p).sparse = s.sparse ∧
    (s.cutTails p).desc = s.desc ∧ (s.cutTails p).kv = s.kv ∧ (s.cutTails p).spad = s.spad ∧ (s.cutTails p).fab = s.fab ∧
    (s.cutTails p).pwr = s.pwr ∧ (s.cutTails p).dom = s.dom ∧ (s.cutTails p).clt = s.clt ∧ (s.cutTails p).boot = s.boot ∧
    (s.cutTails p).inp = s.inp ∧ (s.cutTails p).bist = s.bist ∧ (s.cutTails p).wgl = s.wgl ∧ (s.cutTails p).sls = s.sls ∧
    (s.cutTails p).rcd = s.rcd ∧ (s.cutTails p).pair = s.pair ∧ (s.cutTails p).jrnl = s.jrnl ∧
    (s.cutTails p).pending = s.pending ∧ (s.cutTails p).comb.repair = s.comb.repair ∧
    (s.cutTails p).comb.bmap = s.comb.bmap ∧ (s.cutTails p).comb.rows = s.comb.rows ∧
    (s.cutTails p).comb.metaR = s.comb.metaR ∧ (s.cutTails p).comb.wzp = s.comb.wzp ∧
    (s.cutTails p).comb.colsum = s.comb.colsum ∧ (s.cutTails p).comb.hdr = s.comb.hdr ∧
    (s.cutTails p).comb.shadow = s.comb.shadow ∧ (s.cutTails p).comb.sets = s.comb.sets ∧
    (s.cutTails p).comb.lastSet = s.comb.lastSet ∧ (s.cutTails p).comb.lastSlot = s.comb.lastSlot ∧
    (s.cutTails p).comb.openTile = s.comb.openTile ∧ (s.cutTails p).comb.lastShadow = s.comb.lastShadow ∧
    (∀ aa, (s.cutTails p).reg aa = s.reg aa) ∧ (∀ jj, (s.cutTails p).part jj = s.part jj) ∧
    (∀ jj, (s.cutTails p).stream jj = s.stream jj) ∧ (∀ jj kk, (s.cutTails p).qp jj kk = s.qp jj kk) ∧
    (∀ jj kk, (s.cutTails p).dstream jj kk = s.dstream jj kk) ∧ (∀ jj, (s.cutTails p).sealAt jj = s.sealAt jj) ∧
    (∀ jj, (s.cutTails p).domAt jj = s.domAt jj) ∧ (∀ jj, (s.cutTails p).pwr1 jj = s.pwr1 jj) := by
  and_intros <;> first | rfl | (intros; rfl)

@[simp] theorem State.setTest_frame (s : State) (p : Nat) (x : SpadTest) :
    (s.setTest p x).regs = s.regs ∧ (s.setTest p x).time = s.time ∧ (s.setTest p x).latch = s.latch ∧
    (s.setTest p x).hot = s.hot ∧ (s.setTest p x).free = s.free ∧ (s.setTest p x).out = s.out ∧
    (s.setTest p x).staged = s.staged ∧ (s.setTest p x).tick = s.tick ∧ (s.setTest p x).parts = s.parts ∧
    (s.setTest p x).host = s.host ∧ (s.setTest p x).comb = s.comb ∧ (s.setTest p x).rq = s.rq ∧
    (s.setTest p x).sparse = s.sparse ∧ (s.setTest p x).desc = s.desc ∧ (s.setTest p x).kv = s.kv ∧
    (s.setTest p x).fab = s.fab ∧ (s.setTest p x).pwr = s.pwr ∧ (s.setTest p x).dom = s.dom ∧ (s.setTest p x).clt = s.clt ∧
    (s.setTest p x).boot = s.boot ∧ (s.setTest p x).inp = s.inp ∧ (s.setTest p x).bist = s.bist ∧
    (s.setTest p x).wgl = s.wgl ∧ (s.setTest p x).sls = s.sls ∧ (s.setTest p x).rcd = s.rcd ∧
    (s.setTest p x).pair = s.pair ∧ (s.setTest p x).jrnl = s.jrnl ∧ (s.setTest p x).pending = s.pending ∧
    (s.setTest p x).spad.mem = s.spad.mem ∧ (s.setTest p x).spad.bad = s.spad.bad ∧
    (s.setTest p x).spad.badList = s.spad.badList ∧ (s.setTest p x).spad.marks = s.spad.marks ∧
    (s.setTest p x).spad.markAll = s.spad.markAll ∧ (s.setTest p x).spad.region = s.spad.region ∧
    (s.setTest p x).spad.save = s.spad.save ∧ (∀ aa, (s.setTest p x).reg aa = s.reg aa) ∧
    (∀ jj, (s.setTest p x).part jj = s.part jj) ∧ (∀ jj, (s.setTest p x).stream jj = s.stream jj) ∧
    (∀ jj kk, (s.setTest p x).qp jj kk = s.qp jj kk) ∧ (∀ jj kk, (s.setTest p x).dstream jj kk = s.dstream jj kk) ∧
    (∀ jj, (s.setTest p x).sealAt jj = s.sealAt jj) ∧ (∀ jj, (s.setTest p x).domAt jj = s.domAt jj) ∧
    (∀ jj, (s.setTest p x).pwr1 jj = s.pwr1 jj) := by
  and_intros <;> first | rfl | (intros; rfl)

@[simp] theorem State.leaveStep_frame (s : State)  :
    s.leaveStep.regs = s.regs ∧ s.leaveStep.time = s.time ∧ s.leaveStep.latch = s.latch ∧ s.leaveStep.hot = s.hot ∧
    s.leaveStep.free = s.free ∧ s.leaveStep.out = s.out ∧ s.leaveStep.staged = s.staged ∧ s.leaveStep.tick = s.tick ∧
    s.leaveStep.parts = s.parts ∧ s.leaveStep.host = s.host ∧ s.leaveStep.comb = s.comb ∧ s.leaveStep.rq = s.rq ∧
    s.leaveStep.sparse = s.sparse ∧ s.leaveStep.desc = s.desc ∧ s.leaveStep.kv = s.kv ∧ s.leaveStep.spad = s.spad ∧
    s.leaveStep.fab = s.fab ∧ s.leaveStep.pwr = s.pwr ∧ s.leaveStep.dom = s.dom ∧ s.leaveStep.clt = s.clt ∧
    s.leaveStep.boot = s.boot ∧ s.leaveStep.inp = s.inp ∧ s.leaveStep.bist = s.bist ∧ s.leaveStep.wgl = s.wgl ∧
    s.leaveStep.sls = s.sls ∧ s.leaveStep.rcd = s.rcd ∧ s.leaveStep.jrnl = s.jrnl ∧ s.leaveStep.pending = s.pending ∧
    s.leaveStep.pair.hello = s.pair.hello ∧ s.leaveStep.pair.seen = s.pair.seen ∧ s.leaveStep.pair.quads = s.pair.quads ∧
    s.leaveStep.pair.parts = s.pair.parts ∧ s.leaveStep.pair.edge = s.pair.edge ∧ s.leaveStep.pair.txSeq = s.pair.txSeq ∧
    s.leaveStep.pair.rxSeq = s.pair.rxSeq ∧ s.leaveStep.pair.frames = s.pair.frames ∧
    s.leaveStep.pair.replays = s.pair.replays ∧ s.leaveStep.pair.joiner = s.pair.joiner ∧
    s.leaveStep.pair.since = s.pair.since ∧ s.leaveStep.pair.epoch = s.pair.epoch ∧
    s.leaveStep.pair.fenced = s.pair.fenced ∧ s.leaveStep.pair.tokens = s.pair.tokens ∧
    s.leaveStep.pair.logFr = s.pair.logFr ∧ s.leaveStep.pair.hash = s.pair.hash ∧ s.leaveStep.pair.skewAt = s.pair.skewAt ∧
    s.leaveStep.pair.lastPanel = s.pair.lastPanel ∧ s.leaveStep.pair.want = s.pair.want ∧
    (∀ aa, (s.leaveStep ).reg aa = s.reg aa) ∧ (∀ jj, (s.leaveStep ).part jj = s.part jj) ∧
    (∀ jj, (s.leaveStep ).stream jj = s.stream jj) ∧ (∀ jj kk, (s.leaveStep ).qp jj kk = s.qp jj kk) ∧
    (∀ jj kk, (s.leaveStep ).dstream jj kk = s.dstream jj kk) ∧ (∀ jj, (s.leaveStep ).sealAt jj = s.sealAt jj) ∧
    (∀ jj, (s.leaveStep ).domAt jj = s.domAt jj) ∧ (∀ jj, (s.leaveStep ).pwr1 jj = s.pwr1 jj) := by
  and_intros <;> first | rfl | (intros; rfl)

end Sys2Proof.Machine
end

