-- ==== Sys2Proof/Laws/Ops.lean ====
section
/-! SUPPORT. What the shared operations do: registers read back, operations that touch registers alone or the seal tables alone,
and folds over sites and partitions that change one of them. -/

namespace Sys2Proof.Machine

/-! ### Registers -/

theorem reg_setReg_same (s : State) (a : Nat) (v : DWord) (h : Good s) : (s.setReg a v).reg a = v :=
  mget_mset_wf regReset _ _ _ h.regs
theorem reg_setReg_other (s : State) (a b : Nat) (v : DWord) (h : b ≠ a) : (s.setReg a v).reg b = s.reg b :=
  mget_mset_ne _ _ _ _ _ _ h
theorem reg_bump_other (s : State) (a b : Nat) (h : b ≠ a) : (s.bump a).reg b = s.reg b := reg_setReg_other _ _ _ _ h
theorem reg_setFld_other (s : State) (a b lo n v : Nat) (h : b ≠ a) : (s.setFld a lo n v).reg b = s.reg b :=
  reg_setReg_other _ _ _ _ h
theorem reg_setFld_same (s : State) (a lo n v : Nat) (h : Good s) :
    (s.setFld a lo n v).reg a = BitVec.ofNat 64 (setBits (s.reg a).toNat lo n v) := reg_setReg_same _ _ _ h

/-- `t` differs from `s` in the register file, and the bits that hardware has just set, alone. -/
def OnlyRegs (s t : State) : Prop := t = { s with regs := t.regs, hot := t.hot }
theorem OnlyRegs.refl (s : State) : OnlyRegs s s := rfl
theorem OnlyRegs.trans {a b c : State} (h : OnlyRegs a b) (g : OnlyRegs b c) : OnlyRegs a c := by
  unfold OnlyRegs at *
  generalize b.regs = r at h
  generalize b.hot = q at h
  subst h
  exact g
theorem OnlyRegs.setReg {s t : State} (h : OnlyRegs s t) (a : Nat) (v : DWord) : OnlyRegs s (t.setReg a v) := h.trans rfl
theorem OnlyRegs.setFld {s t : State} (h : OnlyRegs s t) (a lo n v : Nat) : OnlyRegs s (t.setFld a lo n v) := h.trans rfl
theorem OnlyRegs.bump {s t : State} (h : OnlyRegs s t) (a : Nat) : OnlyRegs s (t.bump a) := h.trans rfl
theorem OnlyRegs.sticky {s t : State} (h : OnlyRegs s t) (a b : Nat) : OnlyRegs s (t.sticky a b) := h.trans rfl
theorem OnlyRegs.jrnlStat {s t : State} (h : OnlyRegs s t) : OnlyRegs s t.jrnlStat := by
  unfold State.jrnlStat
  exact (((h.setFld ..).setFld ..).setFld ..).setFld ..
theorem reg_jrnlStat_other (s : State) (b : Nat) (h : b ≠ rFLT_JRNL_STAT) : s.jrnlStat.reg b = s.reg b := by
  simp only [State.jrnlStat]
  iterate 4 rw [reg_setFld_other _ _ _ _ _ _ h]

theorem raise_pwr1 (s : State) (code part sslot site d0 d1 : Nat) (h : faultClass code = 1) :
    (s.raise code part sslot site d0 d1).pwr = s.pwr := by
  simp only [State.raise, State.respond, h, State.journal, State.queueEvent]
  split_ifs <;> first | rfl | simp_all

/-! ### Folds -/

theorem fold_fix {α : Type} (l : List α) (g : State → α → State) (s : State) (h : ∀ x ∈ l, g s x = s) : l.foldl g s = s := by
  induction l with
  | nil => rfl
  | cons x t ih => simp only [List.foldl_cons]; rw [h x (by simp)]; exact ih (fun y hy => h y (by simp [hy]))

/-- A fold in which one element alone changes the state. -/
theorem fold_one (l : List Nat) (g : State → Nat → State) (s : State) (n : Nat) (hn : n ∈ l) (hd : l.Nodup)
    (h : ∀ x ∈ l, x ≠ n → g s x = s) (h2 : ∀ x ∈ l, x ≠ n → g (g s n) x = g s n) : l.foldl g s = g s n := by
  induction l with
  | nil => simp at hn
  | cons x t ih =>
    simp only [List.foldl_cons]
    by_cases e : x = n
    · subst e
      apply fold_fix
      intro y hy
      exact h2 y (by simp [hy]) (fun e => by subst e; simp_all)
    · rw [h x (by simp) e]
      refine ih ?_ (by simp_all) (fun y hy => h y (by simp [hy])) (fun y hy => h2 y (by simp [hy]))
      rcases List.mem_cons.1 hn with h | h
      · exact absurd h.symm e
      · exact h

/-! ### Seals -/

theorem sealSite_bump (s : State) (a k : Nat) (hk : k < 16384) (ha : 0x200 ≤ a) : (s.bump a).sealSite k = s.sealSite k := by
  simp only [State.sealSite, State.phys, State.fld]
  rw [reg_bump_other]
  simp only [rGLB_SITEMAP]; omega
theorem sealAt_setSeal (s : State) (k : Nat) (x : Seal) (h : x ≠ Seal.init) : (s.setSeal k x).sealAt k = x :=
  mget_mset_nd _ _ _ _ h
theorem sealAt_setSeal_other (s : State) (k j : Nat) (x : Seal) (h : j ≠ k) : (s.setSeal k x).sealAt j = s.sealAt j :=
  mget_mset_ne _ _ _ _ _ _ h

/-- The ports of the cores, with the result of one set: none waits for its port if none did. -/
theorem portsFree_setCorePort {s : State} (h : PortsFree s) (k : Nat) (x : CorePort) (hx : x.stalled = none) :
    PortsFree (s.setCorePort k x) := by
  intro e he
  rcases mem_mset _ _ _ _ _ he with rfl | he
  · exact hx
  · exact h e he
theorem stalled_of_portsFree {s : State} (h : PortsFree s) (k : Nat) : (s.corePort k).stalled = none := by
  rcases mget_mem CorePort.init s.sls.ports k with e | e
  · simp only [State.corePort, e]; rfl
  · exact h _ e
/-- With no store that waits for a port, no further seal operation is issued. -/
theorem sealNext_portsFree {s : State} (h : PortsFree s) : s.sealNext = s := by
  unfold State.sealNext
  cases s.sls.ports.length with
  | zero => rfl
  | succ n =>
    have e : s.sls.ports.find? (fun e => !e.2.busy && e.2.stalled.isSome) = none := by
      rw [List.find?_eq_none]
      intro e he
      simp [h e he]
    simp only [State.portsGo, e]

/-- `t` differs from `s` in the waits, the descriptor streams, the output, the registers, the fabric and the free values taken alone:
every seal is as it was, and no store waits for a port that did not wait before. -/
structure Quiet (s t : State) : Prop where
  seals : t.sls.seals = s.sls.seals
  frame : t = { s with sls := t.sls, desc := t.desc, out := t.out, regs := t.regs, fab := t.fab, free := t.free }
  ports : PortsFree s → PortsFree t
theorem Quiet.refl (s : State) : Quiet s s := ⟨rfl, rfl, id⟩
theorem Quiet.trans {a b c : State} (h : Quiet a b) (g : Quiet b c) : Quiet a c := by
  refine ⟨g.seals.trans h.seals, ?_, g.ports ∘ h.ports⟩
  have h2 := h.frame; have g2 := g.frame
  clear h g
  generalize b.sls = b1 at *; generalize b.desc = b2 at *; generalize b.out = b3 at *
  generalize b.regs = b4 at *; generalize b.fab = b5 at *; generalize b.free = b6 at *
  subst h2; exact g2
theorem Quiet.foldl {α : Type} {g : State → α → State} {l : List α} {s u : State} (h : Quiet s u)
    (hg : ∀ v x, Quiet s v → Quiet s (g v x)) : Quiet s (l.foldl g u) := by
  induction l generalizing u with
  | nil => exact h
  | cons x t ih => exact ih (hg _ _ h)
theorem sealDone_quiet (s : State) (a b c : Nat) : Quiet s (s.sealDone a b c) := by
  unfold State.sealDone
  dsimp only
  repeat' split
  · exact ⟨rfl, rfl, fun h => portsFree_setCorePort (s := s) h _ _ (stalled_of_portsFree (s := s) h _)⟩
  · exact ⟨rfl, rfl, fun h => portsFree_setCorePort (s := s) h _ _ (stalled_of_portsFree (s := s) h _)⟩
  all_goals exact ⟨rfl, rfl, id⟩
/-- A SEAL_OP waits for no grant: it is sent, or waits, and fails no slot. -/
theorem sealPkt_quiet (s : State) {a b c d e} : Quiet s (s.sealPkt a b c d e) := by
  unfold State.sealPkt State.sendPkt
  rw [if_neg (by simp)]
  split <;> exact ⟨rfl, rfl, id⟩
theorem sealLandAck_quiet (s : State) {a b c} : Quiet s (s.sealLandAck a b c) := by
  unfold State.sealLandAck
  split <;> exact ⟨rfl, rfl, id⟩
theorem sealAnswer_quiet (s : State) {k req op v r st} : Quiet s (s.sealAnswer k req op v r st) := by
  unfold State.sealAnswer
  have hu : Quiet s (if (op = 7 || op = 8) = true then s.bump rSEAL_CNT_WAKE else s) := by
    split
    · exact ⟨rfl, rfl, id⟩
    · exact Quiet.refl _
  generalize (if (op = 7 || op = 8) = true then s.bump rSEAL_CNT_WAKE else s) = u at hu
  refine hu.trans ?_
  dsimp only
  repeat' split
  · exact sealPkt_quiet _
  · exact (sealPkt_quiet _).trans (sealPkt_quiet _)
  · exact sealDone_quiet ..
  · exact sealPkt_quiet _
theorem sealAck_quiet (s : State) {k req} : Quiet s (s.sealAck k req) := by
  unfold State.sealAck
  dsimp only
  repeat' split
  · exact sealLandAck_quiet _
  · exact (sealLandAck_quiet _).trans (sealLandAck_quiet _)
  · exact Quiet.refl _
  · exact sealLandAck_quiet _
theorem updWaits_quiet (s : State) (f) : Quiet s (s.updWaits f) := ⟨rfl, rfl, id⟩

end Sys2Proof.Machine
end

