-- ==== Sys2Proof/WellFormed.lean ====
section
/-! DEFINITION. Which commands are well formed: every operand that names a part of the panel names one that exists (R3, R15, R16,
R20, R275), and every operand that the manual gives a range lies in it. The meanings do not depend on it: they are total. -/

namespace Sys2Proof

def lt (x n : Nat) : Bool := decide (x < n)
/-- Physical site index, 0-71. -/
def okSite (p : Nat) : Bool := lt p 72
/-- Partition, 0-15. -/
def okPart (n : Nat) : Bool := lt n 16
/-- Port J4-J7, 0-3. -/
def okPort (p : Nat) : Bool := lt p 4
/-- VF in SR-IOV numbering, 1-16. -/
def okVf (v : Nat) : Bool := lt 0 v && lt v 17
/-- Comb ID, 0-4,095. -/
def okComb (k : Nat) : Bool := lt k 4096
/-- Stream ID, 0-262,143. -/
def okStream (i : Nat) : Bool := lt i 262144
/-- A tile. -/
def okTile (a : TileArgs) : Bool :=
  okSite a.site && okComb a.comb && lt a.bank 64 && lt a.wfmt 4 && lt a.afmt 3 && lt a.tmode 3 && lt a.kvalid 513 && lt a.cvalid 257 &&
    lt a.sset 16
/-- A frame of the pair link: its lane-group and its partition. -/
def okPair (h : PairHdr) : Bool := lt h.lane 4 && h.bytes.length == 32

/-- The operands of the command are in range. -/
def Instr.wf : Instr → Bool
  | .registerWrite fn port a _ _ _ => lt fn 17 && okPort port && lt a 0x4000000
  | .glbCfgLock _ => true
  | .refusedAccess fn port a len _ _ _ => lt fn 17 && okPort port && lt a 0x4000000 && lt len 128
  | .highHalfLatchExpiry _ => true
  | .tickEdge _ => true
  | .tickInEdge _ _ => true
  | .ingestAdmission n _ _ => okPart n
  | .demandFormation _ _ => true
  | .runOpen _ => true
  | .emitOpen n _ => okPart n
  | .guardStart _ => true
  | .siteEndMarker site _ => okSite site
  | .descriptorFetch site stream => okSite site && lt stream 6
  | .descriptorIssue site stream _ => okSite site && lt stream 6
  | .nop site stream => okSite site && lt stream 6
  | .matmul site stream _ => okSite site && lt stream 6
  | .matmulFused site stream _ => okSite site && lt stream 6
  | .threshold site stream _ => okSite site && lt stream 6
  | .rowfn site stream _ => okSite site && lt stream 6
  | .gather site _ => okSite site
  | .scatter site _ => okSite site
  | .copy site _ => okSite site
  | .kvAppend site _ => okSite site
  | .kvAttend site _ => okSite site
  | .kvSample site _ => okSite site
  | .descriptorSignal site stream => okSite site && lt stream 6
  | .vectorConsume a _ _ _ _ => okTile a
  | .tileFillEnd a => okTile a
  | .drainComplete a => okTile a
  | .fallbackComplete a => okTile a
  | .exactDrainComplete a => okTile a
  | .ingressBlock site slot _ comb _ _ _ _ _ => okSite site && lt slot 8 && okComb comb
  | .space1Write part _ mode _ len _ => lt part 17 && lt mode 3 && lt len 65
  | .bankHeaderCheckComplete site comb bank _ => okSite site && okComb comb && lt bank 64
  | .shadowOpen site comb bank => okSite site && okComb comb && lt bank 64
  | .shadowArm site comb bank => okSite site && okComb comb && lt bank 64
  | .shadowCancel site comb bank => okSite site && okComb comb && lt bank 64
  | .shadowCmdInvalid site _ => okSite site
  | .rqCommit site comb set => okSite site && okComb comb && lt set 16
  | .rqCancel site comb set => okSite site && okComb comb && lt set 16
  | .rqStageCmdInvalid site _ => okSite site
  | .stagingWrite site comb w _ => okSite site && okComb comb && lt w 576
  | .configRecordWrite n lsite table _ _ => okPart n && (lt lsite 64 || lsite == 0x7F) && lt table 8
  | .packEntry site _ => okSite site
  | .packTileComplete site _ _ => okSite site
  | .mergeArrival site _ _ _ => okSite site
  | .mergeResultWrite site mctx => okSite site && lt mctx 2048
  | .pwriteLand site _ _ _ _ => okSite site
  | .readReq site _ _ => okSite site
  | .readCpl site _ _ => okSite site
  | .landAck site _ => okSite site
  | .lateErr site _ => okSite site
  | .fenceTimeout site dst kind _ _ => okSite site && lt dst 128 && lt kind 3
  | .noSlot site dst kind _ _ => okSite site && lt dst 128 && lt kind 3
  | .linkReplay site port far _ => okSite site && lt port 5 && okSite far
  | .siteCoreAccess site core part _ _ len _ _ => okSite site && lt core 16 && lt part 17 && lt len 65
  | .sealNop _ _ => true
  | .sealSignal _ _ _ _ _ _ => true
  | .sealWait _ _ _ _ _ _ => true
  | .sealAcquire _ _ _ _ _ _ => true
  | .sealRelease _ _ _ _ _ _ => true
  | .armBarrier _ _ _ _ _ _ => true
  | .sealRead _ _ _ _ _ _ => true
  | .sealWake site _ _ => okSite site
  | .sealGrant _ _ => true
  | .sealAck _ _ _ => true
  | .barrierWaveTime _ _ => true
  | .sealImportForward _ _ => true
  | .sealResultLoad site _ => okSite site
  | .sealInspRead => true
  | .partConfigure n _ => okPart n
  | .partRelease n => okPart n
  | .partReset n => okPart n
  | .partCmdInvalid _ => true
  | .queCfgWrite port vf q _ _ => okPort port && okVf vf && lt q 16
  | .queBaseWrite port vf q _ half _ => okPort port && okVf vf && lt q 16 && lt half 3
  | .sqTailDoorbell port vf q _ _ => okPort port && okVf vf && lt q 16
  | .cqHeadDoorbell port vf q _ _ => okPort port && okVf vf && lt q 16
  | .msixUnmask port fn _ _ _ => okPort port && lt fn 17
  | .flr port vf => okPort port && okVf vf
  | .portDown port cause _ => okPort port && lt cause 3
  | .openStream n q _ => okPart n && lt q 16
  | .append n q _ => okPart n && lt q 16
  | .generate n q _ => okPart n && lt q 16
  | .fork n q _ => okPart n && lt q 16
  | .park n q _ => okPart n && lt q 16
  | .resume n q _ => okPart n && lt q 16
  | .close n q _ => okPart n && lt q 16
  | .forkComplete i => okStream i
  | .parkComplete i _ => okStream i
  | .resumeComplete i port _ => okStream i && okPort port
  | .streamDrainComplete i => okStream i
  | .strmInspRead => true
  | .compactionStart site => okSite site
  | .compactionComplete site => okSite site
  | .powerWindow _ _ => true
  | .calibration _ _ => true
  | .pwrGrantLost => true
  | .droopEvent p quads _ => okSite p && lt quads 16
  | .droopRestore p _ => okSite p
  | .thermalTrip p sensor _ _ => okSite p && lt sensor 16
  | .tripClr _ => true
  | .pwrSiteDataRead => true
  | .coolantSensorSample _ _ => true
  | .coolantLoopRun _ _ _ => true
  | .valveSoftstartDone _ => true
  | .valveShort _ => true
  | .valveStall _ => true
  | .valveClr => true
  | .loopDisable => true
  | .domOn d => lt d 424
  | .domOff d => lt d 424
  | .domClear d => lt d 424
  | .domCmdInvalid _ => true
  | .domDataRead => true
  | .softstartComplete d _ => lt d 424
  | .softstartWindowExpiry d _ => lt d 424
  | .domShort d _ _ => lt d 424
  | .domInrushHold p by' _ => okSite p && lt by' 65536
  | .sagRecovery p _ => okSite p
  | .wglRead _ _ _ => true
  | .wglReadMulti _ _ _ => true
  | .wglWrite _ _ _ => true
  | .wglGrant _ _ _ => true
  | .wglHeartbeat _ _ _ => true
  | .wglForward port _ _ _ _ _ _ => lt port 2
  | .heartbeatSend _ => true
  | .notifySend => true
  | .wglAnswerLate _ port _ _ => lt port 3
  | .standardAnswer _ _ => true
  | .wglPortChange port st => lt port 2 && lt st 4
  | .gptpSync _ _ _ => true
  | .wglTimeLost _ _ => true
  | .mailboxGo _ _ => true
  | .mailboxDone _ => true
  | .powerGood _ => true
  | .resetPin _ => true
  | .resetRelease => true
  | .panelReset port => okPort port
  | .romInitComplete ports hubs _ => lt ports 16 && lt hubs 16
  | .hbmTrainingComplete p _ _ => okSite p
  | .iflevelRequest req port => lt req 16 && okPort port
  | .loadBoot port => okPort port
  | .loadPart n port => okPart n && okPort port
  | .tapEnable port _ => okPort port
  | .lcAdvance target port _ => lt target 8 && okPort port
  | .secBootCmdInvalid _ port => okPort port
  | .imageHeaderReceived _ port _ => okPort port
  | .sectionReceived _ _ _ port _ => okPort port
  | .bootReady _ => true
  | .partLoadComplete n _ _ _ => okPart n
  | .secretsCleared _ _ => true
  | .selfTestSlice p unit _ _ _ _ => okSite p && lt unit 8
  | .selfTestYield p q => okSite p && lt q 8
  | .analogCheck _ site _ _ _ _ => okSite site
  | .hubLost h cause d _ => lt h 4 && lt cause 2 && lt d 424
  | .ageingUpdate _ _ _ _ _ => true
  | .journalWrite _ => true
  | .journalCopy _ => true
  | .clearLost _ => true
  | .journalRecoveryComplete _ _ => true
  | .fltJrnlDataRead _ _ _ => true
  | .bistSiteDataRead => true
  | .pairHello h _ _ => okPair h
  | .pairHeartbeat h _ _ _ _ => okPair h
  | .pairPartnerDead _ => true
  | .pairIngest h _ _ => okPair h
  | .ingestWait n _ => okPart n
  | .pairPace h _ _ _ => okPair h
  | .paceTimeout n _ => okPart n
  | .pairEnd h _ _ => okPair h
  | .pairDelta h _ _ => okPair h
  | .pairDeltaAck h _ _ => okPair h
  | .controlReset h _ => okPair h
  | .controlQuarantine h _ => okPair h
  | .controlLeave h _ => okPair h
  | .controlUpdate h _ _ _ => okPair h
  | .pairResync h _ _ _ => okPair h
  | .pairResyncDone h _ _ => okPair h
  | .pairNak h _ _ => okPair h
  | .pairVector h _ _ _ _ => okPair h
  | .pairReplayTimeout lane _ => lt lane 4
  | .pairLaneDown lane cause _ => lt lane 4 && lt cause 4
  | .pairLaneUp lane _ => lt lane 4
  | .pairRejoin _ _ => true
  | .pairLeave _ _ => true
  | .pairCtlWrite _ _ => true
  | .recordStart n _ => okPart n
  | .replayStart n _ => okPart n
  | .recordStop n _ => okPart n
  | .replayStroke n _ _ => okPart n
  | .rplHeadWrite n _ => okPart n
  | .rplTailWrite n _ => okPart n
  | .bypass _ => true
  | .idcode => true
  | .samplePreload _ _ => true
  | .extest => true
  | .clamp => true
  | .highz => true
  | .debug _ _ _ => true
  | .mem _ _ len _ _ _ => lt len 65
  | .scan hubs => lt hubs 16
  | .uartRx _ => true
  | .inputPowerFail _ _ _ _ => true
  | .holdupExpiry _ => true
  | .chargeTimeout _ => true
  | .chargeRetry _ => true
  | .inputChargeStart _ => true
  | .standbyRailLoss _ => true
  | .pcieLinkUp port _ => okPort port
  | .landAckGatherExpiry site src vc _ => okSite site && okSite src && lt vc 4
  | .lifecycleFusesProgrammed _ => true

end Sys2Proof
end

