-- ==== Sys2Proof/Tests/Slice0.lean ====
section
/-! SUPPORT. Tests and witnesses: an ill-formed term that each check of WellFormed refuses, a state and operands that meet the
hypotheses of each obligation that has any, and values taken from the spec, one step each. -/

open Sys2Proof Sys2Proof.Machine

set_option Elab.async false

/-! ### Ill-formed terms are refused (WellFormed) -/

theorem test_wf_ok : (Instr.nop 71 5).wf = true ∧ (Instr.flr 3 16).wf = true ∧ (Instr.configRecordWrite 15 0x7F 7 0 []).wf = true ∧
    (Instr.domOn 423).wf = true ∧ (Instr.wglAnswerLate 6 2 0 0).wf = true := by decide
theorem test_wf_site : (Instr.siteEndMarker 72 0).wf = false := by decide
theorem test_wf_stream_index : (Instr.nop 1 6).wf = false := by decide
theorem test_wf_part : (Instr.partReset 16).wf = false := by decide
theorem test_wf_port : (Instr.loadBoot 4).wf = false := by decide
theorem test_wf_vf : (Instr.flr 0 0).wf = false ∧ (Instr.flr 0 17).wf = false := by decide
theorem test_wf_comb : (Instr.shadowOpen 1 4096 0).wf = false := by decide
theorem test_wf_bank : (Instr.shadowArm 1 0 64).wf = false := by decide
theorem test_wf_stream : (Instr.forkComplete 262144).wf = false := by decide
theorem test_wf_tile : (Instr.tileFillEnd ⟨1, 0, 0, 4, 1, 0, true, 256, 256, 0, 0, 0, 0, 0, 0, false, none, false, 0, 0, 0, none⟩).wf = false := by decide
theorem test_wf_pair_lane : (Instr.controlLeave ⟨4, [], 0, true⟩ 0).wf = false := by decide
theorem test_wf_pair_bytes : (Instr.controlLeave ⟨0, [0], 0, true⟩ 0).wf = false := by decide
theorem test_wf_function : (Instr.registerWrite 17 0 0 4 0 0).wf = false := by decide
theorem test_wf_address : (Instr.registerWrite 0 0 0x4000000 4 0 0).wf = false := by decide
theorem test_wf_length : (Instr.refusedAccess 0 0 0 128 false 0 0).wf = false := by decide
theorem test_wf_queue : (Instr.openStream 0 16 0).wf = false := by decide
theorem test_wf_half : (Instr.queBaseWrite 0 1 0 true 3 0).wf = false := by decide
theorem test_wf_domain : (Instr.domOn 424).wf = false := by decide
theorem test_wf_staging_word : (Instr.stagingWrite 1 0 576 0).wf = false := by decide
theorem test_wf_set : (Instr.rqCommit 1 0 16).wf = false := by decide
theorem test_wf_slot : (Instr.ingressBlock 1 8 0 0 0 0 0 false []).wf = false := by decide
theorem test_wf_space1 : (Instr.space1Write 17 0 0 0 1 0).wf = false ∧ (Instr.space1Write 0 0 3 0 1 0).wf = false ∧
    (Instr.space1Write 0 0 0 0 65 0).wf = false := by decide
theorem test_wf_record : (Instr.configRecordWrite 0 64 0 0 []).wf = false ∧ (Instr.configRecordWrite 0 0 8 0 []).wf = false := by decide
theorem test_wf_merge_context : (Instr.mergeResultWrite 1 2048).wf = false := by decide
theorem test_wf_fence : (Instr.fenceTimeout 1 128 0 0 0).wf = false ∧ (Instr.noSlot 1 0 3 0 0).wf = false := by decide
theorem test_wf_link : (Instr.linkReplay 1 5 0 false).wf = false ∧ (Instr.landAckGatherExpiry 1 1 4 0).wf = false := by decide
/-- No memory error on the way. -/
def wClean : MemErr := ⟨[], [], [], [], 0⟩
theorem test_wf_core : (Instr.siteCoreAccess 1 16 0 true 0 0 0 wClean).wf = false ∧
    (Instr.siteCoreAccess 1 0 0 true 0 65 0 wClean).wf = false := by decide
theorem test_wf_cause : (Instr.portDown 0 3 0).wf = false ∧ (Instr.hubLost 4 0 0 0).wf = false ∧ (Instr.hubLost 0 2 0 0).wf = false ∧
    (Instr.hubLost 0 0 424 0).wf = false ∧ (Instr.pairLaneDown 0 4 0).wf = false ∧ (Instr.pairLaneUp 4 0).wf = false := by decide
theorem test_wf_power : (Instr.droopEvent 1 16 0).wf = false ∧ (Instr.thermalTrip 1 16 0 0).wf = false ∧
    (Instr.domInrushHold 1 65536 0).wf = false := by decide
theorem test_wf_waggle : (Instr.wglForward 2 0 0 [] true false 0).wf = false ∧ (Instr.wglPortChange 0 4).wf = false ∧
    (Instr.wglAnswerLate 1 3 0 0).wf = false := by decide
theorem test_wf_boot : (Instr.romInitComplete 16 0 0).wf = false ∧ (Instr.romInitComplete 0 16 0).wf = false ∧
    (Instr.iflevelRequest 16 0).wf = false ∧ (Instr.lcAdvance 8 0 0).wf = false := by decide
theorem test_wf_selftest : (Instr.selfTestSlice 1 8 0 [] false 0).wf = false ∧ (Instr.selfTestYield 1 8).wf = false := by decide
theorem test_wf_tap : (Instr.mem true 0 65 0 wClean 0).wf = false ∧ (Instr.scan 16).wf = false := by decide
theorem test_wf_function_vector : (Instr.msixUnmask 0 17 none true false).wf = false := by decide

/-- The state after reset with these registers, in READY. -/
def wRegs (l : SMap DWord) : State := { State.reset with regs := l }
def wReady : State := wRegs [(rSEC_BOOT_STAT, 6)]
/-- READY, with a partition 0 of the logical sites 0 and 1 (physical 1 and 2). -/
def wPart (p : Part) : State := { wReady with parts := [(0, { p with g := { p.g with sites := 3 } })] }
def wRun : Part := { Part.init with st := .running, inStroke := true, phase := 0 }

theorem witness_StepRunsFrontCommand :
    ({ State.reset with pending := [.idcode, .extest] } : State).pending = .idcode :: [.extest] ∧ State.reset.pending = [] := by
  decide
theorem witness_Good : Good State.reset := (by constructor <;> decide +kernel)
theorem witness_StepKeepsGood : Good { State.reset with pending := [.idcode] } ∧
    step { State.reset with pending := [.idcode] } = .next ((State.reset.setIr 1 0).emit (.value rRPL_TAP_STAT 0x24B321CB)) :=
  ⟨(by constructor <;> decide +kernel), rfl⟩
theorem witness_EveryCommandCompletes : Good State.reset := witness_Good
theorem witness_LockHoldsUntilPanelReset :
    mayReset (.glbCfgLock 0) = false ∧ Good (State.reset.setFld rGLB_CFG_LOCK 0 1 1) ∧
    (State.reset.setFld rGLB_CFG_LOCK 0 1 1).locked = true ∧
    exec (.glbCfgLock 0) (State.reset.setFld rGLB_CFG_LOCK 0 1 1) = .next (State.reset.setFld rGLB_CFG_LOCK 0 1 1) :=
  ⟨by decide, (by constructor <;> decide +kernel), by decide +kernel, rfl⟩
theorem witness_TimeAndTicksOnlyAdvance :
    mayReset .idcode = false ∧ (∀ a, Instr.idcode ≠ .tickEdge a) ∧
    exec .idcode State.reset = .next ((State.reset.setIr 1 0).emit (.value rRPL_TAP_STAT 0x24B321CB)) :=
  ⟨rfl, nofun, rfl⟩
theorem witness_FusesAreOnlyProgrammed :
    exec .idcode ({ State.reset with boot := { State.reset.boot with revoked := 5 } } : State) =
      .next ((({ State.reset with boot := { State.reset.boot with revoked := 5 } } : State).setIr 1 0).emit
        (.value rRPL_TAP_STAT 0x24B321CB)) ∧ bit 5 2 = true := ⟨rfl, rfl⟩
theorem witness_GlbIdIsFixed : Good State.reset ∧
    exec .idcode State.reset = .next ((State.reset.setIr 1 0).emit (.value rRPL_TAP_STAT 0x24B321CB)) := ⟨witness_Good, rfl⟩
theorem witness_SiteMapAfterReset : isSpare 0 = true ∧ isSpare 71 = true := by decide
/-- Both clauses: PWR_SITE_SEL has RW bits alone; lengths and alignments that are no access. -/
theorem witness_RegisterAccesses :
    Good wReady ∧ wReady.ready = true ∧ rPWR_SITE_SEL % 4 = 0 ∧ rPWR_SITE_SEL < rSEC_BOOT_CMD ∧ rSEC_BOOT_CMD + 0x10000 ≤ rGLB_CFG_LOCK + 0xE8000 ∧
    (∃ r, regAt rPWR_SITE_SEL = some (r, rPWR_SITE_SEL, false) ∧ r.wide = false ∧ r.rwl = 0 ∧ r.w1c = 0 ∧ r.rw ≠ 0 ∧ r.base ≠ rRPL_CTL ∧
      r.base ≠ rRPL_HEAD ∧ r.base ≠ rRPL_TAIL) ∧ rPWR_SITE_SEL ≠ rPWR_CTL ∧ rPWR_SITE_SEL ≠ rCLT_CTL ∧
    accessLegal 4 3 = false ∧ accessLegal 4 8 = false ∧ accessLegal 2 4 = false :=
  ⟨(by constructor <;> decide +kernel), by decide +kernel, by decide, by decide, by decide,
    ⟨⟨false, rPWR_SITE_SEL, 0, 1, 0, 1, false, 0, 127, 0, 0, 0⟩, by decide +kernel⟩, by decide, by decide, by decide, by decide, by decide⟩
def wLocked : State := wRegs [(rGLB_CFG_LOCK, 1), (rSEC_BOOT_STAT, 6)]
theorem witness_LockAndLatch :
    (wLocked.ready = true ∧ wLocked.locked = true ∧ siteReg 1 rCOMB_CFG % 4 = 0 ∧ inSiteWindow (siteReg 1 rCOMB_CFG) = true) ∧
    (∃ r, regAt (siteReg 1 rCOMB_CFG) = some (r, siteReg 1 rCOMB_CFG, false) ∧ r.wide = false ∧ r.rw = 0 ∧ r.w1c = 0 ∧ r.rwl ≠ 0 ∧
      r.site = true) ∧
    (Good wReady ∧ wReady.ready = true ∧ (3 : BitVec 32).toNat % 2 = 1 ∧ (2 : BitVec 32).toNat % 2 = 0) ∧
    (8, 1, 1000) ∈ ({ State.reset with latch := [(8, 1, 1000)] } : State).latch :=
  ⟨by decide +kernel, ⟨⟨true, rCOMB_CFG, 0, 1, 0, 1, false, 3, 0, 3, 0, 0⟩, by decide +kernel⟩,
    ⟨(by constructor <;> decide +kernel), by decide +kernel, by decide, by decide⟩, by decide⟩
theorem witness_TickEdgeCounts : wReady.phase = 6 := by decide +kernel
/-- The clauses of TickInEdge: an edge too near, a pulse too short, an edge while J9 is inactive, and the last one that still is a
measured error. -/
theorem witness_TickInEdge :
    let s : State := { State.reset with tick := { TickSt.init with lastJ9 := some 500 } }
    let u : State := { State.reset with tick := { TickSt.init with started := true, active := 0, lastJ9 := some 500, last := 2000 } }
    (Good s ∧ s.tick.lastJ9 = some 500 ∧ (1499 < 500 + 1000 ∨ 100 < 100) ∧ (1500 < 500 + 1000 ∨ 99 < 100) ∧ 100 ≤ 100 ∧ 500 + 1000 ≤ 1500 ∧ s.tick.active ≠ 0) ∧
    (Good u ∧ u.tick.lastJ9 = some 500 ∧ u.tick.started = true ∧ u.tick.active = 0 ∧ u.tick.err = none ∧ u.tolNs < 2 ^ 31 ∧
      500 + 1000 ≤ u.tick.last + u.tolNs ∧ 2 * u.tolNs ≤ u.periodNs) :=
  ⟨⟨(by constructor <;> decide +kernel), by decide, by decide, by decide, by decide⟩,
    ⟨(by constructor <;> decide +kernel), by decide +kernel⟩⟩

/-- READY with partition 0 in a stroke, its sites physical 1 and 2. -/
def wStroke : State := wPart wRun
def wLib : Library := ⟨0, [⟨0, 0, [], [], [⟨⟨[], (0, 0), (0, 0), (0, 0)⟩, [], [], []⟩, ⟨⟨[], (0, 0), (0, 0), (0, 0)⟩, [], [], []⟩]⟩], 4096⟩
def wTick (s : State) (last : Nat) : State := { s with time := last, tick := { TickSt.init with started := true, last := last } }
/-- A submission entry of these words for stream 0; partition 0 in a stroke, which owns streams 0-255, stream 0 as `x`, and queue
pair 0 with an entry. -/
def wEntry (ws : List Nat) : BitVec 512 := BitVec.ofNat 512 (packNat 32 ws)
def wAdmit (x : Stream) : State :=
  { wReady with
    parts := [(0, { wRun with g := { Grants.none with sites := 3, ports := 1, nsq := 1, nblk := 1 }, snap := [(0, 1)] })],
    host := { HostSt.init with streams := [(0, x)], qps := [(qpKey 0 0, { QPair.init with sqEn := true, cqEn := true })] } }
theorem witness_StrokePhases :
    (let s := wTick (wAdmit Stream.init) 5000
     s.inp.failing = false ∧ (s.at 5000).admissible 0 0 = true) ∧
    (let s := wTick wStroke 5000
     (s.at (5000 + s.ingestNs - 8000)).admitOver = true ∧ (s.at (5000 + s.ingestNs - 8000)).sinceEdge < s.ingestNs ∧
      (s.at 5000).admitOver = false ∧ s.mirrored = false ∧ (s.part 0).inStroke = true ∧ (s.part 0).formed = false) ∧
    (let s := wTick (wPart { wRun with phase := 1 }) 5000
     s.tick.started = true ∧ s.tick.last ≤ s.time ∧ s.time ≤ 5000 ∧ 5000 < s.tick.last + s.ingestNs ∧ 5000 < s.tick.last + s.guardOpenNs ∧
      s.tick.last + s.ingestNs ≤ 5000 + s.periodNs ∧ s.tick.last + s.runCloseNs ≤ 5000 + s.periodNs ∧
      s.tick.last + s.guardOpenNs ≤ 5000 + s.periodNs ∧ (s.part 0).inStroke = true ∧ (s.part 0).phase ≠ 0) ∧
    (let s := wPart { wRun with phase := 1, lib := some wLib, entry := some 0 }
     s.owner 1 = 0 ∧ (s.part 0).inStroke = true ∧ (s.part 0).phase ≠ 0 ∧ (s.part 0).issueFault = false ∧ 1 ∉ (s.part 0).done ∧
      (s.at 0).siteReady 0 1 = true) := by and_intros <;> decide +kernel
/-- A NOP that waits for no seal and signals none. -/
def wNop : BitVec 1024 := BitVec.ofNat 1024 (0x3FF * 2 ^ 46 + 0x3FF * 2 ^ 36)
/-- A library whose one entry has these descriptors on stream 0 of both its sites; partition 0 runs it. -/
def wLibOf (ds : List (BitVec 512)) : Library :=
  ⟨0, [⟨0, 0, [], [], List.replicate 2 ⟨⟨[(256, 0)], (0, 0), (0, 0), (0, 0)⟩, [ds], [], []⟩⟩], 4096⟩
/-- Descriptor stream 0 of site 1. -/
def wDs (x : DStream) : State :=
  { wPart { wRun with phase := 1, lib := some (wLibOf [BitVec.ofNat 512 wNop.toNat]), entry := some 0 } with
    time := 1000, desc := { DescSt.init with streams := [(dsKey 1 0, x)] } }
/-- The descriptor `d` fetched and waiting to issue, with `f` changed. -/
def wFetched (d : BitVec 1024) (f : DStream → DStream) : State := wDs (f { DStream.init with fetched := some (d, 256) })
theorem witness_DescriptorFlow :
    (∀ e ∈ (wDs DStream.init).sls.ports, e.2.stalled = none) ∧
    (let s := wDs DStream.init
     s.owner 1 = 0 ∧ (s.dstream 1 0).fetched = none ∧ (s.part 0).inStroke = true ∧ (s.part 0).phase ≠ 0 ∧ (s.part 0).issueFault = false ∧
      (s.streamOf 0 1 0).1 = 256 ∧ (s.streamOf 0 1 0).2[(s.dstream 1 0).next]? = some (BitVec.ofNat 512 wNop.toNat) ∧
      dOpc (s.loadDesc (BitVec.ofNat 512 wNop.toNat).toNat) = 0) ∧
    (let s := wFetched wNop id
     (s.dstream 1 0).fetched = some (wNop, 256) ∧ (s.at 1000).streamOpen 0 1 0 = true ∧ (s.dstream 1 0).running = none ∧
      s.rcd.halted = [] ∧ (s.dstream 1 0).failed = none ∧ (s.dstream 1 0).wait = 0 ∧ dWait wNop.toNat = 0x3FF ∧ dOpc wNop.toNat ≠ 2) ∧
    (let s := wFetched 0 (fun x => { x with wait := 2, running := some wNop, issued := true })
     (s.dstream 1 0).issued = true ∧ (s.dstream 1 0).wait = 2 ∧ dOpc (0 : BitVec 1024).toNat ≠ 2 ∧ dWait (0 : BitVec 1024).toNat ≠ 0x3FF) ∧
    ((wFetched 0 (fun x => { x with failed := some (1, 2, 3) })).dstream 1 0).failed = some (1, 2, 3) ∧
    (((wDs { DStream.init with signal := [wNop] }).dstream 1 0).signal = [wNop] ∧ dSig wNop.toNat = 0x3FF ∧
      (wDs DStream.init).fab.flight = []) ∧
    (((wDs { DStream.init with signal := [0] }).dstream 1 0).signal = [0] ∧ dSig (0 : BitVec 1024).toNat ≠ 0x3FF) := by
  and_intros <;> decide +kernel
/-- A descriptor of one comb, whatever its opcode, running on stream `st` of site 1. -/
def wRunning (k st : Nat) : State :=
  { State.reset with desc := { DescSt.init with streams :=
    [(dsKey 1 st, { DStream.init with running := some (BitVec.ofNat 1024 (k * 2 ^ 24)) })] } }
/-- One descriptor of every opcode, on streams 0, 4 and 5; its opcode 11 is no NOP; and its comb free or taken. -/
theorem witness_DescriptorsRun :
    (∀ k < 12, dOpc (BitVec.ofNat 1024 (k * 2 ^ 24)).toNat = k) ∧
    (∀ st ∈ [0, 4, 5], ∀ k < 12, ((wRunning k st).dstream 1 st).running = some (BitVec.ofNat 1024 (k * 2 ^ 24)) ∧
      ((wRunning k st).dstream 1 st).issued = false) ∧
    (∀ k ∈ [1, 2, 3], (wRunning k 0).blockedCombs 1 ((BitVec.ofNat 1024 (k * 2 ^ 24)).toNat % 2 ^ 512) = [] ∧
      (wRunning k 0).blockedCombs 1 ((BitVec.ofNat 1024 (k * 2 ^ 24)).toNat / 2 ^ 512) = []) ∧
    (let s := { wRunning 1 0 with comb := { CombSt.init with sets := [(setKey 4160 0, { AccSet.init with st := .held })] } }
     s.blockedCombs 1 ((BitVec.ofNat 1024 (2 ^ 24)).toNat % 2 ^ 512) ≠ []) := by
  and_intros <;> decide +kernel

/-- A tile of comb 0 of site 1. -/
def wTile (wfmt tmode : Nat) (first : Bool) : TileArgs :=
  ⟨1, 0, 0, wfmt, 1, tmode, first, 256, 256, 0, 0, 0, 0, 0, 0, false, none, false, 0, 0, 0, none⟩
/-- The accumulator set `i` of that comb as `x`, in READY. -/
def wSet (x : AccSet) : State := { wStroke with comb := { CombSt.init with sets := [(setKey 4160 0, x), (setKey 4160 1, x)] } }
/-- A ZR vector of 256 elements that are all zero, and a header with a reserved bit set. -/
def wZero : BitVec 256 := BitVec.ofNat 256 (2 ^ 24 + 7 * 2 ^ 20)
/-- A vector of 256 half-precision elements. -/
def wHalf : BitVec 256 := BitVec.ofNat 256 (7 * 2 ^ 20 + 2 * 2 ^ 16)
theorem witness_VectorsAndTiles :
    (hdrFail (BitVec.ofNat 256 (2 ^ 29)).toNat [] 0 = some 0 ∧ hdrFail wZero.toNat [] (0 * (vhElems wZero.toNat / 8)) = none) ∧
    (∀ w < 4, State.reset.claimable (State.reset.pcomb 1 0) w = true ∧ (wTile w 0 true).first = true ∧ (wTile w 0 true).tmode = 0) ∧
    (∀ w < 4, (wSet { AccSet.init with st := .filling }).claimable ((wSet AccSet.init).pcomb 1 0) w = false ∧ (wTile w 2 true).tmode ≠ 1) ∧
    (let s := wSet { AccSet.init with st := .filling }
     (s.accSet (s.pcomb 1 0) (s.curSet (s.pcomb 1 0) 1)).st = .filling ∧ (wTile 1 0 false).first = false ∧ (wTile 1 0 false).thr = none) ∧
    (let s := wSet { AccSet.init with st := .draining }
     s.findSet (s.pcomb 1 0) (fun x => decide (x.st = .draining) && x.fbGain.isNone) = some 0) ∧
    (let s := wSet { AccSet.init with st := .draining, fbGain := some 5 }
     s.findSet (s.pcomb 1 0) (fun x => decide (x.st = .draining) && x.fbGain.isSome) = some 0 ∧
      (s.accSet (s.pcomb 1 0) 0).fbGain = some 5) ∧
    (let s := wSet { AccSet.init with st := .held }
     s.findSet (s.pcomb 1 0) (fun x => decide (x.st = .held)) = some 0) ∧
    (ingressFail wZero.toNat 0 = some 8 ∧ ingressFail wHalf.toNat (32 * ceilDiv (2 * (List.replicate 256 (0 : BitVec 16)).length) 32) = none) := by
  and_intros <;> decide +kernel
theorem witness_AccumulatorSums :
    (-(2 : Int) ^ 31 + 2 ≤ 2 ^ 30 + (2 ^ 30 - 2) ∧ (2 : Int) ^ 30 + (2 ^ 30 - 2) ≤ 2 ^ 31 - 2 ∧ (2 : Int) ^ 31 - 2 < 2 ^ 30 + (2 ^ 30 - 1)) ∧
    (-(2 : Int) ^ 30 + (-(2 : Int) ^ 30 + 1) < -(2 : Int) ^ 31 + 2) ∧
    (-(2 : Int) ^ 31 + 2 ≤ -2 ^ 30 - (2 ^ 30 - 2) ∧ -(2 : Int) ^ 30 - (2 ^ 30 - 2) ≤ 2 ^ 31 - 2) := by decide
theorem witness_AccumulatorPatterns :
    (-(2 : Int) ^ 31 + 2 ≤ 2 ^ 31 - 2 ∧ (2 : Int) ^ 31 - 2 ≤ 2 ^ 31 - 2) ∧ (∀ x, AccVal.pinf ≠ .fin x) ∧ accDec 0x80000002#32 = .fin (-2 ^ 31 + 2) :=
  ⟨by decide, nofun, by decide +kernel⟩
/-- Addresses of the comb space of site 1: a live slot, a shadow slot; and one of a space that there is not. -/
def wComb : BitVec 48 := BitVec.ofNat 48 (2 ^ 45 + 2 ^ 38)
def wCombShadow : BitVec 48 := BitVec.ofNat 48 (2 ^ 45 + 2 ^ 38 + 2 ^ 35)
def wShadow (x : Shadow) : State := { wStroke with comb := { CombSt.init with shadow := [(4160 * 2, x)] } }
theorem witness_CombSpaceWrites :
    (State.reset.rangeBad (BitVec.ofNat 48 (5 * 2 ^ 45)).toNat 64 false = true ∧ State.reset.rangeBad wComb.toNat 64 false = false ∧
      64 ≤ 2 ^ 13 - bits wComb.toNat 0 13 ∧ bit wComb.toNat 35 = false ∧
      ({ State.reset with boot := { BootSt.init with loading := true } } : State).loadingSite 1 = true) ∧
    (let s := wShadow { Shadow.init 0 with st := .opened }
     s.rangeBad wCombShadow.toNat 64 false = false ∧ bit wCombShadow.toNat 35 = true ∧
      s.openShadow (s.pcomb (addrSite wCombShadow.toNat) (bits wCombShadow.toNat 21 13)) (bits wCombShadow.toNat 13 8) = some 0) ∧
    (let a : BitVec 48 := BitVec.ofNat 48 (wComb.toNat + 2 ^ 13 - 1)
     State.reset.rangeBad a.toNat 2 false = false ∧ 2 ^ 13 - bits a.toNat 0 13 < 2) ∧
    ((State.reset.part 0).st ≠ .loading ∧ recCount 5 < 16 + 1 ∧
     (let s := wPart { Part.init with st := .loading }
      (s.part 0).st = .loading ∧ 15 + 1 ≤ recCount 5 ∧ bit (s.part 0).g.sites 1 = true)) := by
  and_intros <;> decide +kernel
theorem witness_ShadowAndStagingCommands :
    (State.reset.openShadow (State.reset.pcomb 1 0) 0 = none ∧ (State.reset.shadow (State.reset.pcomb 1 0) 0).st = .free ∧
      (State.reset.slotHdr (slotKey (State.reset.pcomb 1 0) (State.reset.shadow (State.reset.pcomb 1 0) 0).slot)).retired = false) ∧
    (let s := wShadow { Shadow.init 0 with st := .opened }
     s.openShadow (s.pcomb 1 0) 0 = some 0 ∧ (s.shadow (s.pcomb 1 0) 0).st = .opened ∧ (s.shadow (s.pcomb 1 0) 0).linked = false) ∧
    mget 0 State.reset.rq.pend (State.reset.pcomb 1 0) = 0 ∧
    mget 0 ({ State.reset with rq := { RqSt.init with pend := [(4160, 33)] } } : State).rq.pend (State.reset.pcomb 1 0) ≠ 0 := by
  and_intros <;> decide +kernel
/-- A pack entry of 256 rows in mode 0; a merge arrival of rank 0 for context 0. -/
def wPack : BitVec 256 := BitVec.ofNat 256 (256 * 2 ^ 16)
def wMrg : BitVec 256 := BitVec.ofNat 256 (2 ^ 28 + 7 * 2 ^ 20 + 3 * 2 ^ 16)
theorem witness_PackAndMerge :
    State.reset.packFail 1 wPack.toNat = none ∧
    (let s := { State.reset with sparse := { SparseSt.init with packer := [(1, some wPack)] },
                                 boot := { BootSt.init with loading := true } }
     mget none s.sparse.packer 1 = some wPack ∧ peMode wPack.toNat ≠ 2 ∧
      s.packSlot 1 (s.pcomb 1 (peComb wPack.toNat)) (peBank wPack.toNat) (peShadow wPack.toNat) = some 0 ∧
      State.reset.packSlot 1 (State.reset.pcomb 1 (peComb wPack.toNat)) (peBank wPack.toNat) (peShadow wPack.toNat) = none) ∧
    (let s : State := { State.reset with sparse := { SparseSt.init with
       merge := [(mergeKey 1 0, { MergeCtx.init with opened := true, expect := 1 })] } }
     hdrFail wMrg.toNat [] (32 * ceilDiv (4 * (List.replicate 256 (0 : BitVec 32)).length) 32) = none ∧ vhMrg wMrg.toNat = true ∧
      vhMctx wMrg.toNat = 0 ∧ vhRank wMrg.toNat = 0 ∧ (s.mergeCtx 1 0).opened = true ∧ (s.mergeCtx 1 0).stream = vhStream wMrg.toNat ∧
      (s.mergeCtx 1 0).token = vhToken wMrg.toNat ∧ bit (s.mergeCtx 1 0).expect.toNat 0 = true ∧
      bit (s.mergeCtx 1 0).arrived.toNat 0 = false) ∧
    (let s : State := { State.reset with sparse := { SparseSt.init with
       merge := [(mergeKey 1 0, { MergeCtx.init with opened := true, expect := 1, arrived := 1 })] } }
     (s.mergeCtx 1 0).opened = true ∧ (s.mergeCtx 1 0).arrived = (s.mergeCtx 1 0).expect) := by
  and_intros <;> decide +kernel
theorem witness_InvalidCommandsAreReported :
    Good wReady ∧ bits (0 : BitVec 32).toNat 24 4 = 0 ∧ bits (0 : BitVec 32).toNat 20 4 = 0 ∧ wReady.ready = true ∧
    wReady.secOpen 3 = true ∧ State.reset.secOpen 0 = true ∧ State.reset.secOpen 1 = false ∧
    (.shadowCmdInvalid 71 0, siteReg 71 rCOMB_SHADOW_STAT, 3) ∈
      [((.shadowCmdInvalid 71 0 : Instr), siteReg 71 rCOMB_SHADOW_STAT, 3), (.rqStageCmdInvalid 71 0, siteReg 71 rRQ_STAGE_STAT, 3)] :=
  ⟨(by constructor <;> decide +kernel), by decide, by decide, by decide +kernel,
    by decide +kernel, by decide +kernel, by decide +kernel, by simp⟩

/-- Site 1 of partition 0 with one region, for master `m`, that is the whole scratchpad. -/
def wRegion (m : Nat) : State :=
  { wStroke with spad := { SpadSt.init with region := [(regionKey 1 m 0, BitVec.ofNat 64 (7 * 2 ^ 61 + (2 ^ 20 - 1) * 2 ^ 20))] } }
/-- Header of a packet from site 2 to site 1, of type `ty` and `len` + 1 granules, SEQ 9. -/
def wPkt (ty len : Nat) : BitVec 128 := BitVec.ofNat 128 (mkPkt ty 0 0 0 2 1 len 0 0 0 9 0 0 0)
/-- A packet of this kind that `src` has sent to `dst` at time 0, with this SEQ. -/
def wOut (src dst seq kind : Nat) : OutPkt := ⟨src, dst, seq, 0, 0, 0, 0, kind, 0, [], 0, 0, true, 0, false, false⟩
def wFlight (l : List OutPkt) : State := { wStroke with fab := { FabSt.init with flight := l } }
theorem witness_PacketsLand :
    (let s := wRegion 8
     let u := s.bump (siteReg 1 rFAB_CNT_RX)
     s.overtakes 1 (wPkt 0 0).toNat = false ∧ pkBad (wPkt 0 0).toNat [(0 : BitVec 512)].length = false ∧ pkType (wPkt 0 0).toNat = 0 ∧
      u.landFail 1 (wPkt 0 0).toNat true = none ∧ isArrival 0 = false) ∧
    (let g : BitVec 512 := BitVec.ofNat 512 wMrg.toNat
     isArrival g.toNat = true ∧ hdrFail (g.toNat % 2 ^ 256) [] (if (List.replicate 17 g).length =
       ceilDiv (32 + paddedBytes (g.toNat % 2 ^ 256)) 64 then paddedBytes (g.toNat % 2 ^ 256) else 64 * 17) = none ∧
      pkBad (wPkt 0 16).toNat (List.replicate 17 g).length = false) ∧
    (let u := wStroke.bump (siteReg 1 rFAB_CNT_RX)
     wStroke.overtakes 1 (wPkt 0 0).toNat = false ∧ u.landFail 1 (wPkt 0 0).toNat true = some (some 1)) ∧
    (pkBad (wPkt 0 0).toNat ([] : List (BitVec 512)).length = true ∧ pkType (wPkt 0 0).toNat ≠ 5 ∧
      pkBad (wPkt 5 0).toNat [(0 : BitVec 512)].length = false ∧ pkType (wPkt 5 0).toNat = 5 ∧ sealRsv 0 = false) ∧
    (let v := (wRegion 8).memErrs (pkPart (wPkt 1 3).toNat) 1 (pkStream (wPkt 1 3).toNat) wClean
     let u := v.bump (siteReg 1 rFAB_CNT_RX)
     v.overtakes 1 (wPkt 1 3).toNat = false ∧ pkBad (wPkt 1 3).toNat 0 = false ∧ pkType (wPkt 1 3).toNat = 1 ∧
      u.landFail 1 (wPkt 1 3).toNat false = none ∧ pkSpace (wPkt 1 3).toNat ≠ 2 ∧
      ∀ i < 4, mget false u.spad.bad (spadKey 1 i) = false) ∧
    (let h : BitVec 128 := BitVec.ofNat 128 (mkPkt 1 0 0 0 2 1 0 (2 ^ 10 * wStroke.rsvOf 1) 2 0 9 0 0 0)
     let u := (wStroke.memErrs (pkPart h.toNat) 1 (pkStream h.toNat) wClean).bump (siteReg 1 rFAB_CNT_RX)
     pkSpace h.toNat = 2 ∧ u.landFail 1 h.toNat false = none ∧
      u.stackBad 1 (pkOfs h.toNat / 1024) (pkOfs h.toNat % 1024) (pkLen h.toNat + 1) = []) ∧
    (let s := { wStroke with fab := { FabSt.init with flight := [wOut 2 1 8 0, wOut 2 1 9 0] } }
     s.overtakes 1 (wPkt 0 0).toNat = true) := by
  and_intros <;> decide +kernel
theorem witness_PacketsAreAnswered :
    (let s := wFlight [wOut 1 2 9 1]
     pkBad (wPkt 2 0).toNat [(0 : BitVec 512)].length = false ∧ pkType (wPkt 2 0).toNat = 2 ∧ pkErr (wPkt 2 0).toNat = false ∧
      s.inFlight 1 (pkSrc (wPkt 2 0).toNat) 1 (pkSeq (wPkt 2 0).toNat) = some (wOut 1 2 9 1) ∧
      s.fab.flight.takeWhile (fun o => !(o.src == 1 && o.dst == pkSrc (wPkt 2 0).toNat && o.kind == 1 &&
        o.seq == pkSeq (wPkt 2 0).toNat)) = [] ∧ (wOut 1 2 9 1).dstream ≠ 6 ∧
      ({ wOut 1 2 9 1 with dstream := 6 } : OutPkt).dstream = 6) ∧
    (pkBad (wPkt 3 0).toNat 0 = false ∧ pkType (wPkt 3 0).toNat = 3 ∧ pkLen (wPkt 3 0).toNat = 0 ∧ pkSpace (wPkt 3 0).toNat ≠ 4 ∧
      (wFlight [wOut 1 2 9 0]).fab.flight.filter (fun o => o.src == 1 && o.dst == pkSrc (wPkt 3 0).toNat && o.kind == 0 && o.sent &&
        !o.failed) = [wOut 1 2 9 0] ∧ (pkSeq (wPkt 3 0).toNat + 4096 - (wOut 1 2 9 0).seq) % 4096 < 2048) ∧
    (pkBad (wPkt 4 4).toNat 0 = false ∧ pkType (wPkt 4 4).toNat = 4 ∧
      (wFlight [{ wOut 1 2 9 0 with addr := mkAddr 0 2 0 }]).fab.flight.find? (fun o => decide (o.src = 1 ∧ o.dst = pkSrc (wPkt 4 4).toNat ∧
        o.kind ≤ 2 ∧ o.seq = pkSeq (wPkt 4 4).toNat ∧ o.addr = mkAddr (pkSpace (wPkt 4 4).toNat) (pkSrc (wPkt 4 4).toNat)
          (64 * pkOfs (wPkt 4 4).toNat))) = some { wOut 1 2 9 0 with addr := mkAddr 0 2 0 }) ∧
    (let o := { wOut 1 2 9 0 with sent := false }
     let s := wFlight [o]
     s.inFlight 1 2 0 9 = some o ∧ o.sent = false ∧ (s.at 0).grantsFor o.part o.kind o.src o.dst = [] ∧ (wOut 1 2 9 0).sent = true ∧
      (wOut 1 2 9 0).kind < 2 ∧ (wOut 1 2 9 0).time + 1000 * s.fld (siteReg 1 rFAB_CFG) 0 8 ≤ 255000 ∧
      0 < (wOut 1 2 9 0).time + 1000 * s.fld (siteReg 1 rFAB_CFG) 0 8) ∧
    (let s : State := { State.reset with fab := { FabSt.init with gather := [(seqKey 1 2 0, ⟨63, 0, 0⟩)] } }
     0 < (mget Gather.init s.fab.gather (seqKey 1 2 0)).count ∧ (mget Gather.init s.fab.gather (seqKey 1 2 0)).since + 256 ≤ 256) ∧
    (let s : State := { State.reset with fab := { FabSt.init with replays := [(5, 7), (6, 8)] } }
     mget false s.fab.down (1 * 5 + 0) = false ∧ mget 0 s.fab.replays (1 * 5 + 0) < 8 ∧ mget false s.fab.down (1 * 5 + 1) = false ∧
      8 ≤ mget 0 s.fab.replays (1 * 5 + 1)) := by
  and_intros <;> decide +kernel
theorem witness_SiteCoreAccesses :
    (let a : BitVec 48 := BitVec.ofNat 48 (2 ^ 38 + 2 ^ 26 - 64)
     let u := (wRegion 0x18).memErrs 0 1 0x3FFF wClean
     (wRegion 0x18).owner 1 = 0 ∧ isHub 1 = false ∧ coreMaster 1 0 = 0x18 ∧ u.rangeBad a.toNat 64 true = false ∧ addrSpace a.toNat = 0 ∧
      addrSite a.toNat = 1 ∧
      u.areaFail 1 0x18 (64 * (addrOfs a.toNat / 64)) false true (ceilDiv (addrOfs a.toNat % 64 + 64) 64) = none ∧
      u.areaFail 1 0x18 (64 * (addrOfs a.toNat / 64)) true false (ceilDiv (addrOfs a.toNat % 64 + 64) 64) = none ∧
      mget false u.spad.bad (spadKey 1 (addrOfs a.toNat / 64)) = false) ∧
    (let u := wStroke.memErrs 0 1 0x3FFF wClean
     u.areaFail 1 0x18 0 false true 1 = some 0) ∧
    (let a : BitVec 48 := BitVec.ofNat 48 (2 * 2 ^ 38)
     (wRegion 0x18).rangeBad a.toNat 64 true = false ∧ addrSpace a.toNat = 0 ∧ addrSite a.toNat ≠ 1 ∧ a.toNat % 64 = 0) ∧
    (State.reset.rangeBad wComb.toNat 8 true = false ∧ addrSpace wComb.toNat = 1 ∧
      State.reset.rangeBad (mkAddr 2 1 0) 8 true = false ∧ addrSpace (mkAddr 2 1 0) = 2 ∧
      State.reset.rangeBad (BitVec.ofNat 48 (5 * 2 ^ 45)).toNat 8 true = true) := by
  and_intros <;> decide +kernel
/-- Masters: core 0 of site 1, descriptor stream 3 of site 1, of partition 0. -/
theorem witness_SealAnswerReachesMaster :
    (masterCore (owMaster (ownerWord 0 1 0x1B)) = some 3 ∧ (State.reset.corePort (portKey 1 3)).blocked = false) ∧
    (masterCore (owMaster (ownerWord 0 1 3)) = none ∧ masterStream (owMaster (ownerWord 0 1 3)) = some 3 ∧
      (({ State.reset with desc := { DescSt.init with streams := [(dsKey 1 3, { DStream.init with wait := 1 })] } } : State).dstream
        (owSite (ownerWord 0 1 3)) 3).wait = 1) := by decide +kernel
/-- A seal operation word. -/
def wOp (op value : Nat) : BitVec 64 := BitVec.ofNat 64 (op * 2 ^ 28 + value * 2 ^ 32)
def wReq : BitVec 32 := BitVec.ofNat 32 (ownerWord 0 1 0x18)
def wSeal (x : Seal) (ws : List SealWait) : State := { wStroke with sls := { SealSt.init with seals := [(0, x)], waits := ws } }
def wCounter : Seal := { Seal.init with st := 1, count := 5, epoch := 2 }
theorem witness_SealOperationsAnswer :
    (PortsFree (wSeal wCounter []) ∧ opLegal 0 false (wOp 0 0).toNat = true) ∧
    (∃ w ∈ (wSeal wCounter [⟨wReq.toNat, 3, 0, 0, 0, true, true, none⟩]).sls.waits, w.req = wReq.toNat ∧ w.op = 3) ∧
    (let s := wSeal wCounter [⟨wReq.toNat, 2, 0, 5, 0, true, false, some 7⟩]
     s.sls.waits.find? (fun w => w.req == wReq.toNat) = some ⟨wReq.toNat, 2, 0, 5, 0, true, false, some 7⟩ ∧
      waveTime 7 wReq.toNat ≤ 1000 ∧
      s.sls.waits.filter (fun w => w.sl == 0 && w.op == 2 && owSite w.req == 1 && decide (w.value ≤ 5)) =
        [⟨wReq.toNat, 2, 0, 5, 0, true, false, some 7⟩]) ∧
    (let s := wSeal wCounter []
     (s.sealAt 0).st ≠ 0 ∧ (s.sealAt 0).kind ≠ 2 ∧ owSite wReq.toNat = s.sealSite 0 ∧ owPart wReq.toNat = (s.sealAt 0).part ∧
      (opLegal 0 false (wOp 2 5).toNat = true ∧ opOp (wOp 2 5).toNat = 2 ∧ opValue (wOp 2 5).toNat ≤ (s.sealAt 0).count) ∧
      (opLegal 0 false (wOp 2 6).toNat = true ∧ opOp (wOp 2 6).toNat = 2 ∧ (s.sealAt 0).count < opValue (wOp 2 6).toNat) ∧
      (opLegal 0 false (wOp 6 0).toNat = true ∧ opOp (wOp 6 0).toNat = 6)) ∧
    (let rank : Nat → Nat := fun op => if op = 5 then 0 else if op = 1 then 1 else if op = 4 then 2 else 3
     rank (opOp (wOp 1 1).toNat) < rank (opOp (wOp 2 6).toNat)) :=
  ⟨⟨nofun, by decide +kernel⟩, by decide +kernel, by decide +kernel, by decide +kernel, by decide +kernel⟩
theorem witness_SealSignalAddsToCounter :
    let s := wSeal wCounter []
    (∀ e ∈ s.sls.ports, e.2.stalled = none) ∧ (s.sealAt 0).st ≠ 0 ∧ (s.sealAt 0).kind = 0 ∧ opLegal 0 (s.sealAt 0).tkt (wOp 1 (2 ^ 32 - 6)).toNat = true ∧
    opOp (wOp 1 (2 ^ 32 - 6)).toNat = 1 ∧ (s.sealAt 0).count + opValue (wOp 1 (2 ^ 32 - 6)).toNat < 2 ^ 32 := by decide +kernel
theorem witness_SealLocksAndBarriers :
    (let s := wSeal { Seal.init with kind := 1, st := 1 } []
     s.sls.ports = [] ∧ (s.sealAt 0).kind = 1 ∧ (s.sealAt 0).tkt = false ∧ opLegal 1 false (wOp 3 0xFFFF).toNat = true ∧
      (∀ w ∈ s.sls.waits, w.sl = 0 → w.op = 3 → w.granted = true) ∧ opOp (wOp 3 0xFFFF).toNat = 3 ∧ (s.sealAt 0).st = 1) ∧
    (let s := wSeal { Seal.init with kind := 1, st := 2, owner := wReq.toNat } []
     opLegal 1 false (wOp 4 0).toNat = true ∧ opOp (wOp 4 0).toNat = 4 ∧ (s.sealAt 0).st = 2 ∧ (s.sealAt 0).owner = wReq.toNat) ∧
    (let s := wSeal { Seal.init with kind := 2, st := 1 } []
     (s.sealAt 0).kind = 2 ∧ (s.sealAt 0).st = 1 ∧ owPart wReq.toNat = (s.sealAt 0).part ∧ opLegal 2 (s.sealAt 0).tkt (wOp 5 1).toNat = true ∧ opOp (wOp 5 1).toNat = 5 ∧
      (s.sealAt 0).count < opValue (wOp 5 1).toNat ∧ owSite wReq.toNat = s.sealSite 0) := by
  and_intros <;> decide +kernel
/-- Partition 0 imports virtual seal 0 from virtual seal 7 of partition 1, which exports it. -/
def wImport : State := { wStroke with sls := { SealSt.init with
  xlat := [(0, BitVec.ofNat 64 (3 * 2 ^ 30 + 1 * 2 ^ 16 + 7)), (4096 + 7, BitVec.ofNat 64 (2 ^ 31 + 2 ^ 48 + 300))] } }
theorem witness_SealImportsAndReads :
    (bits (wImport.xlat (owPart wReq.toNat) (opVseal (wOp 1 1).toNat)) 16 4 = 1 ∧
      bits (wImport.xlat (owPart wReq.toNat) (opVseal (wOp 1 1).toNat)) 0 12 = 7 ∧
      xlV (wImport.xlat 0 0) = true ∧ xlImp (wImport.xlat 0 0) = true ∧ owPart wReq.toNat = 0 ∧ opVseal (wOp 1 1).toNat = 0 ∧
      xlV (wImport.xlat 1 7) = true ∧ xlImp (wImport.xlat 1 7) = false ∧ bit (wImport.xlat 1 7) (48 + owPart wReq.toNat) = true ∧
      opOp (wOp 1 1).toNat ≠ 5 ∧ xlSeal (wImport.xlat 1 7) = 300 % 256 + 256 * (300 / 256)) ∧
    ((State.reset.corePort (portKey 1 0)).busy = false ∧
      (({ State.reset with sls := { SealSt.init with ports := [(portKey 1 0, ⟨true, false, 0, none⟩)] } } : State).corePort
        (portKey 1 0)).busy = true ∧ wReady.ready = true) := by decide +kernel
theorem witness_PartitionCommands :
    (wReady.ready = true ∧ (wReady.part 0).st = .unconfigured ∧ (wReady.part 0).pend = none ∧ wReady.boot.hubLost = 0) ∧
    ((wPart { Part.init with st := .configured }).ready = true ∧ ((wPart { Part.init with st := .configured }).part 0).st = .configured) ∧
    ((wStroke.part 0).st = .running ∧ (wStroke.part 0).pend = none) ∧
    ((wPart { wRun with pend := some .reset }).part 0).pend ≠ none ∧ State.reset.ready = false := by decide +kernel
/-- Partition 0 with one queue pair through J4, which is as `x`. -/
def wQueue (x : QPair) : State :=
  { wReady with parts := [(0, { Part.init with st := .running, g := { Grants.none with sites := 3, ports := 1, nsq := 1 } })],
                host := { HostSt.init with qps := [(qpKey 0 0, x)] } }
theorem witness_QueueRegisters :
    (let s := wQueue { QPair.init with sqBase := 4096 }
     s.served 0 1 0 = true ∧ (s.qp 0 0).sqEn = false ∧ (∀ w ∈ [6, 16], bit (BitVec.ofNat 32 (2 ^ 31 + w)).toNat 31 = true ∧
      6 ≤ bits (BitVec.ofNat 32 (2 ^ 31 + w)).toNat 0 5 ∧ bits (BitVec.ofNat 32 (2 ^ 31 + w)).toNat 0 5 ≤ 16) ∧
      bits (BitVec.ofNat 32 63).toNat 0 16 < 2 ^ (s.qp 0 0).sqSize ∧ bits (BitVec.ofNat 32 63).toNat 0 16 < 2 ^ (s.qp 0 0).cqSize ∧
      2 ^ (s.qp 0 0).sqSize ≤ bits (BitVec.ofNat 32 64).toNat 0 16 ∧ 2 ^ (s.qp 0 0).cqSize ≤ bits (BitVec.ofNat 32 64).toNat 0 16) ∧
    (let s := wQueue { QPair.init with cqBase := 4096, cqEn := true }
     s.served 0 1 0 = true ∧ (s.qp 0 0).cqEn = true ∧
      mergeHalf 0 (s.qp 0 0).cqBase.toNat 8191 / 4096 * 4096 = (s.qp 0 0).cqBase.toNat ∧
      mergeHalf 0 (s.qp 0 0).cqBase.toNat 8192 / 4096 * 4096 ≠ (s.qp 0 0).cqBase.toNat) ∧
    (wQueue QPair.init).served 0 1 1 = false ∧ (wQueue QPair.init).served 1 1 0 = false := by decide +kernel
theorem witness_PortsAndVectors :
    (let s : State := { State.reset with host := { HostSt.init with msixOn := [(1, true)], pendBit := [(fnKey 0 1 0, true)] } }
     mget false s.host.msixOn (0 * 17 + 1) = true ∧ mget false s.host.fmask (0 * 17 + 1) = false ∧ mRising 0 s.host.msixOn = true ∧ mget false s.host.pendBit (fnKey 0 1 0) = true) ∧
    (bit State.reset.boot.hubLost 3 = false ∧ State.reset.inp.good = true ∧
      ({ State.reset with inp := { InpSt.init with good := false } } : State).inp.good = false) := by decide +kernel

def wTaken (x : Stream) : State :=
  (wAdmit x).updQp 0 0 (fun x => { x with sqHead := (x.sqHead + 1) % 2 ^ x.sqSize, reserved := x.reserved + 1 })
theorem witness_Admission :
    (wAdmit Stream.init).admissible 0 0 = true ∧
    ((wTaken Stream.init).entryFail 0 0 (wEntry [1]).toNat = none ∧ sbOpc (wEntry [1]).toNat = 1) ∧
    ((wTaken { Stream.init with st := .opened, maxctx := 1 }).entryFail 0 0 (wEntry [2, 0, 0, 0, 1]).toNat = none ∧
      sbOpc (wEntry [2, 0, 0, 0, 1]).toNat = 2) ∧
    ((wTaken { Stream.init with st := .resident }).entryFail 0 0 (wEntry [3, 0, 0, 0, 1, 0, 0, 0x80000100]).toNat = none ∧
      sbOpc (wEntry [3, 0, 0, 0, 1, 0, 0, 0x80000100]).toNat = 3) ∧
    ((wTaken { Stream.init with st := .active }).entryFail 0 0 (wEntry [4, 0, 0, 0, 0, 255]).toNat = none ∧
      sbOpc (wEntry [4, 0, 0, 0, 0, 255]).toNat = 4) ∧
    ((wTaken { Stream.init with st := .resident }).entryFail 0 0 (wEntry [5]).toNat = none ∧ sbOpc (wEntry [5]).toNat = 5) ∧
    ((wTaken { Stream.init with st := .parked }).entryFail 0 0 (wEntry [6]).toNat = none ∧ sbOpc (wEntry [6]).toNat = 6) ∧
    ((wTaken { Stream.init with st := .opened }).entryFail 0 0 (wEntry [7]).toNat = none ∧ sbOpc (wEntry [7]).toNat = 7) ∧
    ((wTaken Stream.init).entryFail 0 0 (wEntry [1, 256]).toNat = some (7, 4) ∧ sbOpc (wEntry [1, 256]).toNat = 1) ∧
    wReady.admissible 0 0 = false := by
  and_intros <;> decide +kernel
theorem witness_OpenMakesStream :
    (wAdmit Stream.init).admissible 0 0 = true ∧ (wTaken Stream.init).entryFail 0 0 (wEntry [1, 255, 0, 0, 4096]).toNat = none ∧
    sbOpc (wEntry [1, 255, 0, 0, 4096]).toNat = 1 ∧ sbCount (wEntry [1, 255, 0, 0, 4096]).toNat ≠ 0 ∧
    sbStream (wEntry [1, 255, 0, 0, 4096]).toNat = 255 := by decide +kernel
theorem witness_HomeBaseIsLeastLoaded :
    0 < (wAdmit Stream.init).nsite 0 ∧ (wAdmit Stream.init).admissible 0 0 = true ∧
    (wTaken Stream.init).entryFail 0 0 (wEntry [1]).toNat = none ∧
    (let x : Stream := { Stream.init with st := .parked, parked := true }
     0 < (wAdmit x).nsite 0 ∧ (wAdmit x).admissible 0 0 = true ∧ (wTaken x).entryFail 0 0 (wEntry [6]).toNat = none ∧
      sbOpc (wEntry [6]).toNat = 6 ∧ ((wAdmit x).stream (sbStream (wEntry [6]).toNat)).ops = [] ∧
      ((wAdmit x).stream (sbStream (wEntry [6]).toNat)).waitFork = false ∧
      ((wAdmit x).stream (sbStream (wEntry [6]).toNat)).started = false ∧
      ((wAdmit x).stream (sbStream (wEntry [6]).toNat)).parked = true) := by decide +kernel
/-- Stream 0 runs an operation of this code; site 1's page service is as `x`. -/
def wBack (opc : Nat) : State := wAdmit { Stream.init with st := .active, started := true, ops := [⟨opc, 0, 0, 0, 0, 0, 1, 0, 0, 0, 0⟩] }
def wSvc (x : PageSvc) : State := { wRegs [(rSEC_BOOT_STAT, 6), (siteReg 1 rKV_CFG, BitVec.ofNat 64 (2 ^ 8 + 50 * 2 ^ 16))] with
  parts := wStroke.parts, kv := { KvSt.init with svc := [(1, x)] } }
theorem witness_BackgroundCompletes :
    (∀ opc ∈ [4, 5, 6], (wBack opc).bgHeld ((wBack opc).stream 0).part 0 = false ∧
      ((wBack opc).runningOp 0 opc).map (fun o => o.child) = some 1) ∧
    ((([0] : List (BitVec 32)).getD 0 0).toNat % 2 ^ 16 ≠ 1 ∧
      (let h : List (BitVec 32) := [1, 0, BitVec.ofNat 32 ((wBack 6).shapeWord ((wBack 6).stream 0).part)]
       (h.getD 0 0).toNat % 2 ^ 16 = 1 ∧ (h.getD 2 0).toNat = (wBack 6).shapeWord ((wBack 6).stream 0).part)) ∧
    (let s := wAdmit { Stream.init with st := .draining }
     (wBack 5).parkImage ((wBack 5).stream 0).part 0 = some [] ∧ (s.stream 0).st = .draining ∧ (s.stream 0).toFree = false ∧ (State.reset.stream 0).st ≠ .draining) ∧
    (let s := wSvc { PageSvc.init with top0 := 100, holes0 := 51 }
     s.flag (siteReg 1 rKV_CFG) 8 = true ∧ s.fld (siteReg 1 rKV_CFG) 16 8 * (s.svc 1).top < 100 * (s.svc 1).holes ∧
      (s.svc 1).compacting = false ∧ (s.svc 1).flipReady = false ∧ s.owner 1 < 16 ∧ (s.svc 1).notBefore ≤ (s.part (s.owner 1)).stroke.toNat) ∧
    ((wSvc { PageSvc.init with compacting := true }).svc 1).compacting = true := by
  and_intros <;> decide +kernel
def wEvent : Event := ⟨0, 0, false, 0, 0, 0, 0, 0, 0⟩
def wJrnl (j : JrnlSt) : State := { wReady with jrnl := j }
theorem witness_InspectionReads :
    State.reset.ready = false ∧ wReady.ready = true ∧ wReady.fld rSTRM_INSP_SEL 0 20 ≤ 262143 ∧ wReady.entryLost (wReady.fld rSTRM_INSP_SEL 0 20) = false ∧
    (let s := wJrnl { JrnlSt.init with copyA := [⟨wEvent, 0⟩] }
     s.jrnl.okA = true ∧ s.jrnl.copyA.find? (fun x => x.seq == s.fld rFLT_JRNL_SEL 0 32) = some ⟨wEvent, 0⟩) ∧
    (let s := wJrnl { JrnlSt.init with okA := false, copyB := [⟨wEvent, 0⟩] }
     s.jrnl.okA = false ∧ s.jrnl.okB = true ∧ s.jrnl.copyB.find? (fun x => x.seq == s.fld rFLT_JRNL_SEL 0 32) = some ⟨wEvent, 0⟩) ∧
    (wJrnl { JrnlSt.init with okA := false, okB := false }).jrnl.okB = false ∧
    (let s := { wRegs [(rFLT_STBY_SEL, 14), (rSEC_BOOT_STAT, 6)] with jrnl := { JrnlSt.init with ditch := List.replicate 15 ⟨wEvent, 0⟩ } }
     s.ready = true ∧ s.fld rFLT_STBY_SEL 0 6 < 15 ∧ s.jrnl.ditch[s.fld rFLT_STBY_SEL 0 6]? = some ⟨wEvent, 0⟩) := by
  and_intros <;> decide +kernel
theorem witness_PowerAndTrips :
    (let s := wRegs [(rPWR_GRANT_NOW, BitVec.ofNat 64 (State.reset.grantMiss * 2 ^ 24))]
     s.grantMiss ≤ s.fld rPWR_GRANT_NOW 24 7 ∧ s.flag rPWR_GRANT_NOW 31 = false) ∧
    (let s := wRegs [(rPWR_GRANT_NOW, BitVec.ofNat 64 ((State.reset.grantMiss - 1) * 2 ^ 24))]
     s.fld rPWR_GRANT_NOW 24 7 < s.grantMiss ∧ s.flag rPWR_GRANT_NOW 31 = false) ∧
    ((wJrnl { JrnlSt.init with once := [(0x02C4, 16, 1)] }).marked 0x02C4 ((wJrnl JrnlSt.init).owner 1) 1 = true ∧
      (let s := wRegs [(rPWR_STATUS, BitVec.ofNat 64 (2 ^ 15)), (rSEC_BOOT_STAT, 6)]
       s.ready = true ∧ s.trip = true)) ∧
    (let s := { State.reset with pwr := { PwrSt.init with secTicks := State.reset.ticksPerSec } }
     s.ticksPerSec ≤ s.pwr.secTicks ∧ State.reset.pwr.secTicks < State.reset.ticksPerSec) := by
  and_intros <;> decide +kernel
def wBridge (b : Nat) : State := wRegs [(rCLT_VALVE, BitVec.ofNat 64 (b * 2 ^ 30)), (rSEC_BOOT_STAT, 6)]
theorem witness_CoolantLoop :
    ((-200 : Int) ≤ 1200 ∧ (1200 : Int) < 1201) ∧
    ((wTick wReady 0).tick.started = true ∧ (wTick wReady 0).tick.number.toNat % (40 * ((wTick wReady 0).fld rCLT_CTL 5 4 + 1)) = 0) ∧
    (∀ b < 4, (wBridge b).bridge = b ∧ (wBridge b).ready = true) ∧ wReady.locked = false := by
  and_intros <;> decide +kernel
def wDom (x : Dom) : State := { wReady with dom := { DomSt.init with doms := [(0, x)] } }
theorem witness_PowerDomains :
    ((wReady.domAt 0).st ≠ 5 ∧ wReady.domOwned 0 = false ∧ wReady.trip = false ∧ 2 ≤ domKind 423) ∧
    (wStroke.domOwned 6 = true ∧ (wStroke.domAt 6).st ≠ 5) ∧
    ((wDom { Dom.init with st := 5 }).domAt 0).st = 5 ∧
    (let s := { wDom { Dom.init with st := 2 } with time := 1000 * softUs 0 }
     (s.domAt 0).st = 2 ∧ (s.domAt 0).ext = false ∧ (s.domAt 0).start + 1000 * softUs 0 ≤ (s.at 0).time ∧
      (groupDoms (domGroup 0)).find? (fun d => (s.domAt d).st == 2) = some 0) ∧
    ((wDom { Dom.init with st := 4 }).domAt 0).st = 4 ∧
    (let s := wDom { Dom.init with st := 2, ext := true }
     (groupDoms (domGroup 0)).find? (fun d => (s.domAt d).st == 2) = some 0 ∧ (s.domAt 0).ext = true) ∧
    (groupDoms (domGroup 0)).find? (fun d => ((wDom { Dom.init with st := 3 }).domAt d).st == 3) = some 0 := by
  and_intros <;> decide +kernel

/-- READY with both waggle ports up; a frame on port A from MAC 9 of these bytes. -/
def wWgl (l : SMap DWord) (w : WaggleSt) : State := { wRegs ((rGLB_WGL_STAT, 5) :: l) with wgl := w }
def wWglUp (w : WaggleSt) : State := wWgl [(rSEC_BOOT_STAT, 6)] w
def wFrame (l : List Nat) : WglFrame := ⟨0, 9, l.map (BitVec.ofNat 8)⟩
/-- Frames for node 1, which the panel is: READ of 0x1000:02, WRITE of one byte, READ_MULTI of one, GRANT of 65535 W, HEARTBEAT. -/
def wRead : List Nat := [0x11, 0, 0, 7, 1, 2, 0, 8, 0, 0, 0, 0, 1, 0, 0, 0, 0x10, 0, 2, 0]
def wWrite : List Nat := [0x12, 0, 0, 7, 1, 2, 0, 16, 0, 0, 0, 0, 1, 0, 0, 0, 0x11, 0, 7, 1, 0, 1, 0, 0, 5, 0, 0, 0]
def wMulti : List Nat := [0x13, 0, 0, 7, 1, 2, 0, 8, 0, 0, 0, 0, 1, 0, 0, 0, 0x10, 0, 2, 0]
def wGrant : List Nat := [0x15, 0, 0, 7, 1, 2, 0, 8, 0, 0, 0, 0, 1, 0, 0, 0, 1, 0, 255, 255]
def wBeat : List Nat := [0x16, 0, 0, 7, 1, 2, 0, 0, 0, 0, 0, 0]
theorem witness_WaggleRequests :
    ((wWglUp WaggleSt.init).wglPort 0 = 1 ∧ (wWglUp WaggleSt.init).wglPort 1 = 1 ∧ (wWglUp WaggleSt.init).link 2 = 1) ∧
    (∀ x ∈ [(wRead, 1), (wMulti, 3), (wWrite, 2), (wGrant, 5), (wBeat, 6)],
      frameBad ((wFrame x.1).bytes.map BitVec.toNat) = 9 ∧ (frameHdr ((wFrame x.1).bytes.map BitVec.toNat)).dst = 1 ∧
      (frameHdr ((wFrame x.1).bytes.map BitVec.toNat)).msg = x.2 ∧
      (wWglUp WaggleSt.init).ringCopy 9 (frameHdr ((wFrame x.1).bytes.map BitVec.toNat)) 0 = false) ∧
    (frameBad ((wFrame []).bytes.map BitVec.toNat) ≠ 9 ∧ State.reset.wglPort 0 ≠ 1) := by
  and_intros <;> decide +kernel
theorem witness_GrantIsClamped :
    (frameHdr ((wFrame wGrant).bytes.map BitVec.toNat)).dst = (wWglUp WaggleSt.init).link 2 ∧
    (grantEntries ((frameHdr ((wFrame wGrant).bytes.map BitVec.toNat)).pay.headD 0)
      ((frameHdr ((wFrame wGrant).bytes.map BitVec.toNat)).pay.drop 4)).2.find?
        (fun e => e.1 == (wWglUp WaggleSt.init).link 2) = some ((wWglUp WaggleSt.init).link 2, 65535) ∧
    (wWglUp { WaggleSt.init with od := [(0x110005, 9)] }).link 5 = (wFrame wGrant).mac ∧
    (wWglUp { WaggleSt.init with od := [(0x110005, 8)] }).link 5 ≠ 0 ∧
    (wWglUp { WaggleSt.init with od := [(0x110005, 8)] }).link 5 ≠ (wFrame wGrant).mac := by decide +kernel
def wAnswer : WglReq := ⟨9, 0, 1, 7, 2, 0, none, false, [1, 2, 3, 4], [], none⟩
/-- The READ above, in the mailbox buffer. -/
def wMail : State := ({ wReady with wgl := WaggleSt.init } : State).setOdBuf 0 wRead
theorem witness_WaggleFramesAndMailbox :
    ((wWglUp WaggleSt.init).wgl.queue = [] ∧ (wWglUp { WaggleSt.init with queue := [wAnswer] }).wgl.queue = wAnswer :: [] ∧
      wAnswer.keys = none) ∧
    moduleMac + 1 ≠ moduleMac ∧
    (let s := wTick (wWglUp WaggleSt.init) 100
     s.link 12 ≠ 0 ∧ s.tick.started = true ∧ s.tick.number.toNat % s.link 12 = 0 ∧ 100 ≤ s.tick.last + s.ingestNs ∧
      s.marked 0 16 0 = false ∧ (wJrnl { JrnlSt.init with once := [(0, 16, 0)] }).marked 0 16 0 = true) ∧
    ((wWglUp WaggleSt.init).wglPort 1 ≠ 2 ∧ bit (wWglUp WaggleSt.init).boot.hubLost (3 * 1) = false) ∧
    ((wWglUp { WaggleSt.init with gpGood := 6 }).flag rGLB_WGL_STAT 4 = false ∧
      (wWglUp { WaggleSt.init with gpGood := 6 }).wgl.gpGood < 7 ∧ 7 ≤ (wWglUp { WaggleSt.init with gpGood := 7 }).wgl.gpGood ∧
      (wRegs [(rGLB_WGL_STAT, 21)]).flag rGLB_WGL_STAT 4 = true ∧ (1000 : Int) < 1001) ∧
    (State.reset.wgl.gpLast + 3 * (10 ^ 9 / 2 ^ (-(signed 16 (State.reset.link 9))).toNat) ≤ 10 ^ 9) ∧
    (bits (2 : BitVec 32).toNat 1 31 ≠ 0 ∧ bit (1 : BitVec 32).toNat 0 = true ∧
      (wRegs [(rGLB_OD_STAT, BitVec.ofNat 64 (2 ^ 31)), (rSEC_BOOT_STAT, 6)]).flag rGLB_OD_STAT 31 = true) ∧
    (wMail.ready = true ∧ wMail.flag rGLB_OD_STAT 31 = false ∧
      (let v := (wMail.at 0).sticky rGLB_OD_STAT 31
       let b := v.odBuf (12 + min 1488 (bigNat ((v.odBuf 8).drop 6)))
       frameBad b = 9 ∧ (frameHdr b).msg = 1)) ∧
    (({ State.reset with wgl := { WaggleSt.init with mbox := some wAnswer } } : State).wgl.mbox = some wAnswer ∧ wAnswer.body ≠ [] ∧
      State.reset.wgl.mbox = none) :=
  ⟨by decide +kernel, by omega, by decide +kernel, by decide +kernel, by decide +kernel, by decide +kernel, by decide +kernel,
    by decide +kernel, by decide +kernel⟩
theorem witness_PanelResets :
    (State.reset.secOpen 0 = true ∧ State.reset.secOpen 1 = false ∧ wReady.secOpen 3 = true) ∧
    (State.reset.inp.good = true ∧ (let s := { State.reset with inp := { InpSt.init with good := false, stage := 1 } }
      s.inp.good = false ∧ s.inp.failing = false ∧ s.inp.stage = 1)) := by decide +kernel
def wPhase (p : Nat) (b : BootSt) : State := { wRegs [(rSEC_BOOT_STAT, BitVec.ofNat 64 p)] with boot := b }
theorem witness_BootCommands :
    (State.reset.phase = 0 ∧ State.reset.inp.resetLow = false ∧ State.reset.inp.good = true ∧ State.reset.boot.clear = none) ∧
    (isHub 71 = false ∧ (wPhase 5 BootSt.init).phase ≤ 5) ∧
    ((wPhase 1 BootSt.init).phase = 1 ∧ (wPhase 1 BootSt.init).loadBusy = false ∧ (wPhase 1 BootSt.init).boot.badHubs = 0 ∧
      (wRegs [(rSEC_BOOT_STAT, 1), (rSEC_IFLEVEL, 256)]).phase = 1 ∧ (wRegs [(rSEC_BOOT_STAT, 1), (rSEC_IFLEVEL, 256)]).fld rSEC_IFLEVEL 8 4 ≠ 0) ∧
    ((wPhase 2 { BootSt.init with cmd := some 16 }).phase ≠ 8 ∧ (wPhase 2 { BootSt.init with cmd := some 16 }).loadBusy = true) ∧
    ((wPart { Part.init with st := .configured }).phase = 6 ∧ (wPart { Part.init with st := .configured }).loadBusy = false ∧
      ((wPart { Part.init with st := .configured }).part 0).st = .configured) := by
  and_intros <;> decide +kernel
/-- An image of two FIRMWARE-like sections; as `got` has been taken. -/
def wImage (b : List (BitVec 8)) (ty : Nat) (target : Option Nat) (got : List Nat) : Image :=
  ⟨target, 1, 0, false, false, 0, 0, 0, [⟨ty, 0, b.length, Config.digest b⟩, ⟨ty, 0, 7, 0⟩], got, [0, 1]⟩
def wTrained : List Nat := (List.range 72).filter (fun p => !(isHub p))
theorem witness_ImagesAreChecked :
    ((wPhase 2 { BootSt.init with cmd := some 16 }).boot.cmd = some 16 ∧ (wPhase 2 { BootSt.init with cmd := some 16 }).boot.image = none ∧
      (((wPhase 2 { BootSt.init with cmd := some 16 }).at 0).bumpBy rSEC_LOAD_BYTES 0x4000).headerReason [] 16 ≠ 0 ∧
      bits (hdrWordAt [] 8) 0 8 ≠ 3) ∧
    (0 ∉ (wImage [] 1 none []).got ∧ (wImage [] 1 none []).via.getD 0 0 = 0 ∧ (wImage [] 1 none []).via.getD 1 0 = 1 ∧ (wImage [] 1 none []).sects[1]? = some ⟨1, 0, 7, 0⟩ ∧ (wImage [] 1 none []).ready 1 = true ∧
      ([] : List (BitVec 8)).length ≠ 7 ∧ 1 ∈ (wImage [] 1 none [1]).got) ∧
    ((wImage [] 1 none []).sects[0]? = some ⟨1, 0, 0, Config.digest []⟩ ∧ (wImage [] 1 none []).ready 0 = true ∧
      (wImage [] 1 none []).parts = [] ∧ (wImage [] 1 none []).got.length + 1 ≠ (wImage [] 1 none []).sects.length ∧
      (((List.range (wImage [] 1 none []).sects.length).zip (wImage [] 1 none []).sects).all
        (fun y => !(decide (y.2.ty < 3)) || (0 :: (wImage [] 1 none []).got).contains y.1)) = false) ∧
    ((wPhase 5 BootSt.init).phase = 5 ∧ (∀ p < 72, isHub p = true ∨ p ∈ wTrained) ∧ (wImage [] 1 none [0, 1]).parts = [] ∧
      (wImage [] 4 none [0, 1]).parts ≠ [] ∧ (∀ n ∈ (wImage [] 4 none [0, 1]).parts,
        ({ wPhase 5 BootSt.init with parts := [(0, { Part.init with loadFailed := true })] } : State).checking n = false ∧
        (({ wPhase 5 BootSt.init with parts := [(0, { Part.init with loadFailed := true })] } : State).part n).loadFailed = true)) ∧
    ((wImage [] 5 (some 0) [0, 1]).target = some 0 ∧ (wImage [] 5 (some 0) [0, 1]).got.length = (wImage [] 5 (some 0) [0, 1]).sects.length ∧
      wStroke.checking 0 = false ∧ (wStroke.part 0).loadFailed = false ∧ ∀ p ∈ wStroke.partSites 0, mget false wStroke.fab.siteOut p = false) :=
  ⟨by decide +kernel, by decide +kernel, ⟨rfl, by decide +kernel⟩, by decide +kernel, by decide +kernel⟩
theorem witness_LifeCycle :
    ((wPhase 1 { BootSt.init with lcNow := some 1 }).boot.lcGoal = none ∧ (wPhase 1 { BootSt.init with lcNow := some 1 }).phase = 1 ∧
      (wPhase 1 { BootSt.init with lcNow := some 1 }).loadBusy = false ∧ (wPhase 1 { BootSt.init with lcNow := some 1 }).lifeCycle = 1) ∧
    (let b := { BootSt.init with lcGoal := some 2, lcDue := true }
     b.lcGoal ≠ none ∧ b.lcGoal = some 2 ∧ b.lcDue = true) ∧
    ((wPhase 7 { BootSt.init with clear := some (2, 0) }).phase = 7 ∧ ({ BootSt.init with clear := some (2, 0) } : BootSt).clear ≠ none) ∧
    (State.reset.phase ≠ 7 ∧ State.reset.flag rSEC_LC 30 = false) := by
  and_intros <;> decide +kernel
theorem witness_JournalWrites :
    (let s := wJrnl { JrnlSt.init with queue := [wEvent] }
     s.jrnl.queue = [wEvent] ∧ s.jrnl.lost = false ∧ s.jrnl.okA = true) ∧
    (wJrnl { JrnlSt.init with toCopy := [⟨wEvent, 0⟩] }).jrnl.toCopy = ⟨wEvent, 0⟩ :: [] ∧ wReady.ready = true ∧
    bits (2 : BitVec 32).toNat 1 31 ≠ 0 ∧
    (let s := wJrnl { JrnlSt.init with testing := true, lost := true, okA := false, okB := false }
     s.jrnl.testing = true ∧ s.jrnl.lost = true ∧ s.jrnl.ditch = [] ∧ s.jrnl.ditch15 = none) := by decide +kernel
def wBist (b : Nat) : State := wRegs [(rBIST_CTL, BitVec.ofNat 64 b), (rSEC_BOOT_STAT, 6)]
def wWindow (lo hi : Nat) : State := (wRegs [(rBIST_CTL, 1), (rBIST_WINDOW, BitVec.ofNat 64 (lo + hi * 2 ^ 16))]).setOd 500 0x7000 4 0
/-- Whether a site is in its window depends on the module's own voltages: an empty window, and one of every voltage that it can name. -/
theorem witness_SelfTests :
    ((wBist 0).flag rBIST_CTL 0 = false ∧ (wWindow 1 0).flag rBIST_CTL 0 = true ∧ (wWindow 1 0).flag rBIST_CTL 1 = false ∧
      isHub 1 = false ∧ ((wWindow 1 0).at 0).inGuard = false ∧ ((wWindow 0 1023).at 0).inGuard = false ∧ (wWindow 0 1023).flag rBIST_CTL 0 = true ∧ (wWindow 0 1023).flag rBIST_CTL 1 = false) ∧
    ((wWindow 1 0).at 0).inWindow 1 = false ∧
    (((wWindow 0 1023).at 0).vNow 1 ≤ 1023 → ((wWindow 0 1023).at 0).inWindow 1 = true) := by
  refine ⟨by decide +kernel, ?_, fun h => ?_⟩
  · have a : ((wWindow 1 0).at 0).fld rBIST_WINDOW 0 10 = 1 := by decide +kernel
    have b : ((wWindow 1 0).at 0).fld rBIST_WINDOW 16 10 = 0 := by decide +kernel
    simp only [State.inWindow, a, b, Bool.and_eq_false_iff, decide_eq_false_iff_not]
    omega
  · have a : ((wWindow 0 1023).at 0).fld rBIST_WINDOW 0 10 = 0 := by decide +kernel
    have b : ((wWindow 0 1023).at 0).fld rBIST_WINDOW 16 10 = 1023 := by decide +kernel
    have c : decide (16 * ((wWindow 0 1023).at 0).odVal 500 0x7000 4 ≤
        freqOf (((wWindow 0 1023).at 0).pwr1 1).prev * ((wWindow 0 1023).at 0).kEff 1) = true := by decide +kernel
    have d : decide (freqOf (((wWindow 0 1023).at 0).pwr1 1).prev * ((wWindow 0 1023).at 0).kEff 1 ≤
        16 * ((wWindow 0 1023).at 0).odVal 1100 0x7000 5) = true := by decide +kernel
    have e : decide (((wWindow 0 1023).at 0).vNow 1 ≤ 1023) = true := decide_eq_true h
    unfold State.inWindow
    dsimp only
    rw [a, b, c, d, e]
    rfl

/-- A pair in this mode and role with these lane-groups up. -/
def wPair (mode role lanes : Nat) (b : PairSt) : State :=
  { wRegs [(rPAIR_CTL, BitVec.ofNat 64 mode), (rPAIR_STATUS, BitVec.ofNat 64 (role + lanes * 16)), (rSEC_BOOT_STAT, 6)] with
    parts := wStroke.parts, pair := b }
def wHdrBytes (type part flags seq : Nat) : List (BitVec 8) :=
  ([16, type, part, flags, 0, 0, 0, 0, seq / 256, seq % 256] ++ List.replicate 22 0).map (BitVec.ofNat 8)
/-- The last frame of a message of this type of partition 0, in turn with SEQ 0; and one with SEQ `seq`. -/
def wHdr (type : Nat) : PairHdr := ⟨0, wHdrBytes type 0 2 0, 0, true⟩
def wHdrAt (type seq : Nat) : PairHdr := ⟨0, wHdrBytes type 0 2 seq, 0, true⟩
def wStep : PairSt := { PairSt.init with inStep := true }
theorem witness_PairFramesInOrder :
    (let h := wHdr 2
     h.good = true ∧ h.type = 2 ∧ h.seq = mget 0 State.reset.pair.rxSeq h.lane ∧ h.serial = (State.reset.reg rPAIR_PARTNER).toNat ∧
      h.epoch = State.reset.epoch ∧ h.last = true ∧ h.panel = false ∧ (⟨0, wHdrBytes 2 0 0 0, 0, true⟩ : PairHdr).last = false) ∧
    (let h := wHdrAt 2 32767
     h.good = true ∧ h.type = 2 ∧ h.seq ≠ mget 0 State.reset.pair.rxSeq h.lane ∧
      (h.seq + 65536 - mget 0 State.reset.pair.rxSeq h.lane) % 65536 < 32768) ∧
    ({ wHdr 2 with crcOk := false } : PairHdr).good = false := by and_intros <;> decide +kernel
theorem witness_PairLanesAndHubs :
    (3 ∉ (wPair 1 1 7 wStep).lanesUp ∧ 2 ∈ (wPair 1 1 7 wStep).lanesUp ∧
      ({ wPair 1 1 7 wStep with dom := { DomSt.init with doms := [(423, { Dom.init with st := 4 })] } } : State).domOn (420 + 3) = true ∧
      bit (wPair 1 1 7 wStep).boot.hubLost 3 = false ∧ ((wPair 1 1 7 wStep).pairRx 10 (wHdr 10) 0).1 = true) ∧
    (let s := wPair 1 1 7 { wStep with frames := [⟨2, 0, 1, 0, 0, true, [], []⟩], replays := [(2, 7)] }
     s.pair.frames.find? (fun f => f.lane == 2) = some ⟨2, 0, 1, 0, 0, true, [], []⟩ ∧ 7 ≤ mget 0 s.pair.replays 2 ∧
      mget 0 ({ wStep with replays := [(2, 6)] } : PairSt).replays 2 < 7) ∧
    (bit ({ BootSt.init with hubLost := 9 } : BootSt).hubLost 3 = true ∧ bit State.reset.boot.hubLost 1 = false ∧
      (((wWglUp WaggleSt.init).at 0).hubLost 0 0 408).wglPort 0 ≠ 0) := by
  and_intros <;> decide +kernel
theorem witness_PairFramesAct :
    (((wPair 1 0 15 PairSt.init).pairRx 1 (wHdr 1) 0).1 = true ∧ ((wPair 1 0 15 PairSt.init).pairRx 1 (wHdr 1) 0).2.sendsHello = true) ∧
    (((wPair 1 1 15 wStep).pairRx 2 (wHdr 2) 0).1 = true ∧ (20000 : Int).natAbs ≤ 20000) ∧
    (let r := (wPair 1 2 15 wStep).pairRx 3 (wHdr 3) 0
     r.1 = true ∧ r.2.mirrored = true ∧ r.2.role = 2 ∧ (r.2.part 0).inStroke = true ∧ (r.2.part 0).phase = 0 ∧ (r.2.part 0).formed = false ∧
      (r.2.part 0).stroke.toNat = (wHdr 3).stroke ∧ r.2.inp.failing = false) ∧
    (((wPair 1 1 15 wStep).pairRx 4 (wHdr 4) 0).1 = true ∧ ((wPair 1 1 15 wStep).pairRx 4 (wHdr 4) 0).2.mirrored = true ∧
      ((wPair 1 1 15 wStep).pairRx 5 (wHdr 5) 0).1 = true ∧ ((wPair 1 1 15 wStep).pairRx 5 (wHdr 5) 0).2.mirrored = true) ∧
    (let r := (wPair 2 2 15 wStep).pairRx 6 (wHdr 6) 0
     r.1 = true ∧ r.2.shared = true ∧ r.2.standbyPart 0 = true ∧ (r.2.part 0).st ≠ .unconfigured) ∧
    (let r := (wPair (2 + 2 ^ 16) 1 15 wStep).pairRx 7 (wHdr 7) 0
     r.1 = true ∧ r.2.shared = true ∧ r.2.servesPart 0 = true) ∧
    (((wPair 1 1 15 wStep).pairRx 11 (wHdr 11) 0).1 = true ∧ hdrFail wZero.toNat [] 0 = none ∧
      hdrFail (BitVec.ofNat 256 (2 ^ 29)).toNat [] 0 = some 0) := by
  and_intros <;> decide +kernel
theorem witness_PairControlAndCommands :
    (((wPair 1 1 15 wStep).pairRx 8 (wHdr 8) 0).1 = true ∧ (((wPair 1 1 15 wStep).pairRx 8 (wHdr 8) 0).2.recControl 1 (wHdr 8)).mirrored = true ∧
      ((((wPair 1 1 15 wStep).pairRx 8 (wHdr 8) 0).2.recControl 1 (wHdr 8)).part 0).st = .running ∧
      ((wPair 1 1 15 wStep).pairRx 8 { wHdr 8 with crcOk := false } 0).1 = false) ∧
    (let s := wPair 2 0 (15 + 256) { wStep with joiner := true }
     let r := s.pairRx 9 (wHdr 9) 0
     s.role ≠ 1 ∧ r.1 = true ∧ r.2.pair.joiner = true ∧ r.2.resyncing ≠ 0 ∧ r.2.modeNow ≠ 1) ∧
    (let s := wPair 1 1 (15 + 2 * 256) wStep
     s.role = 1 ∧ s.resyncing = 2) ∧
    ((wPair 1 1 (15 + 7 * 16) PairSt.init).partnerMissed = false ∧ (wPair 1 1 (15 + 7 * 16) wStep).partnerMissed = true) ∧
    (let s := { wPair 1 2 15 { wStep with parts := [(0, { PairPart.init with pace := some (5, false) })] } with time := 1000000 }
     s.mirrored = true ∧ s.role = 2 ∧ (s.part 0).inStroke = true ∧ (s.part 0).phase = 0 ∧ (s.part 0).formed = false ∧
      s.ingestNs ≤ (s.at 0).sinceEdge + 9000 ∧ (s.pp 0).paceNow = false ∧ (s.pp 0).pace = some (5, false)) ∧
    ((wPair 1 3 15 PairSt.init).ready = true ∧ (wPair 1 3 15 PairSt.init).role = 3 ∧ (wPair 1 2 15 wStep).role ≠ 3) ∧
    (wLocked.ready = true ∧ wLocked.locked = true ∧ wReady.locked = false ∧ wReady.allIdle = true ∧ wStroke.locked = false ∧
      wStroke.allIdle = false) := by
  and_intros <;> decide +kernel
def wRec (r : RecPart) : State :=
  { wRegs [(rplReg 0 rRPL_TAIL, 8), (rSEC_BOOT_STAT, 6)] with rcd := { RecSt.init with parts := [(0, r)] } }
def wRecEntry : RecEntry := ⟨2, 0, true, 8, []⟩
theorem witness_RecordAndReplay :
    (wReady.ready = true ∧ ∀ m < 4, bits (BitVec.ofNat 32 m).toNat 0 2 = m) ∧
    (∀ m < 3, ((wRec { RecPart.init with mode := m }).recOf 0).mode = m ∧ ((wRec { RecPart.init with mode := m }).recOf 0).waiting = false) ∧
    (((wRec { RecPart.init with diverged := true }).recOf 0).diverged = true ∧
      ((wRec RecPart.init).fld (rplReg 0 rRPL_TAIL) 0 25 + (wRec RecPart.init).ringUnits 0 -
        (wRec RecPart.init).fld (rplReg 0 rRPL_HEAD) 0 25 % (wRec RecPart.init).ringUnits 0) % (wRec RecPart.init).ringUnits 0 < 9) ∧
    (let s := wRec { RecPart.init with mode := 2, seq := 1 }
     s.ready = true ∧ (s.recOf 0).mode = 2 ∧ (s.recOf 0).req = none ∧ (s.recOf 0).seq ≠ 0 ∧ (s.recOf 0).diverged = false ∧
      (s.recOf 0).rStroke = none ∧ wRecEntry.kind = 2 ∧ entryFails wRecEntry = none ∧
      wRecEntry.units ≤ (s.fld (rplReg 0 rRPL_TAIL) 0 25 + s.ringUnits 0 - s.fld (rplReg 0 rRPL_HEAD) 0 25 % s.ringUnits 0) % s.ringUnits 0) := by
  and_intros <;> decide +kernel
theorem witness_TestAccess :
    ((wRegs [(rSEC_LC, BitVec.ofNat 64 (2 ^ 31))]).tapEn = true ∧ State.reset.tapEn = false) ∧
    (let v := (State.reset.at 0).setIr 0x11 0
     v.rangeBad (mkAddr 2 1 0) 64 false = false ∧ addrSpace (mkAddr 2 1 0) ≠ 0 ∧
      v.rangeBad (mkAddr 0 1 (2 ^ 26 - 64)) 64 false = false ∧ addrSpace (mkAddr 0 1 (2 ^ 26 - 64)) = 0 ∧
      addrOfs (mkAddr 0 1 (2 ^ 26 - 64)) + 64 ≤ 2 ^ 26 ∧ (BitVec.ofNat 48 (mkAddr 2 1 0)).toNat = mkAddr 2 1 0) ∧
    Instr.highz ∈ [Instr.extest, .clamp, .highz, .scan 0] := by and_intros <;> decide +kernel
theorem witness_InputPower :
    (let i : InpSt := { InpSt.init with good := false, stage := 0 }
     i.good = false ∧ i.stage = 0) ∧
    (({ InpSt.init with stage := 1 } : InpSt).stage = 1 ∧ ({ InpSt.init with stage := 2 } : InpSt).stage = 2) ∧
    (State.reset.inp.good = true ∧ State.reset.inp.failing = false ∧ ({ InpSt.init with failing := true } : InpSt).failing = true) := by
  decide

/-! ### Values that the manual states -/

/-- Table 00.1: GLB_ID of the panel. -/
theorem test_glb_id : State.reset.reg rGLB_ID = 0x4B322010 := by decide +kernel
/-- R15: hubs stand at 4, 27, 44 and 67, spares at 0, 8, 63 and 71. -/
theorem test_positions : (List.range 72).filter isHub = [4, 27, 44, 67] ∧ (List.range 72).filter isSpare = [0, 8, 63, 71] := by decide
/-- R43: sums saturate to an infinity, opposite infinities are POISON. -/
theorem test_acc_sum : accAdd (.fin (2 ^ 31 - 2)) (.fin 1) = .pinf ∧ accAdd .pinf .ninf = .poison := by decide
/-- R42: the patterns of the special values. -/
theorem test_acc_patterns : accDec 0x7FFFFFFF#32 = .pinf ∧ accDec 0x80000000#32 = .ninf ∧ accDec 0x80000001#32 = .poison := by decide
/-- R9: writing 1 locks, writing 0 does not unlock. -/
theorem test_glbCfgLock : (match exec (.glbCfgLock 1) wReady with
    | .next t => t.locked && (match exec (.glbCfgLock 0) t with | .next u => u.locked | _ => false) | _ => false) = true := by decide +kernel
/-- R6: the latch of the high half ends 1 µs after the read. -/
theorem test_highHalfLatchExpiry : (match exec (.highHalfLatchExpiry 999) { State.reset with latch := [(8, 1, 1000)] } with
    | .next t => t.latch == [(8, 1, 1000)] | _ => false) = true ∧
    (match exec (.highHalfLatchExpiry 1000) { State.reset with latch := [(8, 1, 1000)] } with
    | .next t => t.latch == [] | _ => false) = true := by decide
/-- R116: the first edge is tick 0, at the instant that the generator gives it, the next is tick 1. -/
theorem test_tickEdge : (match exec (.tickEdge ⟨777, 0, 0, 0, []⟩) wReady with
    | .next t => t.tick.number == 0 && t.tick.last == 777 &&
      (match exec (.tickEdge ⟨0, 0, 0, 0, []⟩) t with | .next u => u.tick.number == 1 | _ => false) | _ => false) = true := by decide +kernel
/-- R250: a SIGNAL of 7 takes the count from 5 to 12. -/
theorem test_sealSignal : (match exec (.sealSignal 0 2 (wOp 1 7) wReq [] 0) (wSeal wCounter []) with
    | .next t => (t.sealAt 0).count | _ => 0) = 12 := by decide +kernel
/-- R250: ACQUIRE of a free lock makes its owner the requester. -/
theorem test_sealAcquire : (match exec (.sealAcquire 0 0 (wOp 3 0xFFFF) wReq [] 0) (wSeal { Seal.init with kind := 1, st := 1 } []) with
    | .next t => (t.sealAt 0).owner == wReq.toNat && (t.sealAt 0).st == 2 | _ => false) = true := by decide +kernel
/-- R276: a doorbell beyond the queue's size sets DB_ERR, bit 1 of QUE_STAT. -/
theorem test_sqTailDoorbell : (match exec (.sqTailDoorbell 0 1 0 64 0) (wQueue { QPair.init with sqEn := true }) with
    | .next t => (t.qp 0 0).stat | _ => 0) = 2 := by decide +kernel
/-- R273: RELEASE of a running partition is refused with result 2 and sets CMD_ERR. -/
theorem test_partRelease : (match exec (.partRelease 0) wStroke with
    | .next t => t.fld rPART_CMD_STAT 24 3 == 2 && t.flag rPART_CMD_STAT 31 | _ => false) = true := by decide +kernel
/-- R321 to R323: a reading out of the sensor's range does not join its mean. -/
theorem test_coolantSensorSample : (match exec (.coolantSensorSample [some 1201] 0) wReady with
    | .next t => (t.sensor 0).n == 0 && (t.sensor 0).last == 1201 | _ => false) = true := by decide +kernel
/-- R312: a trip is not cleared at 95 °C, and is at 94 °C. -/
theorem test_tripClr : (let s := wRegs [(rPWR_STATUS, 0x8000), (rSEC_BOOT_STAT, 6)]
    (match exec (.tripClr 95) s with | .next t => t.trip | _ => false) = true ∧
    (match exec (.tripClr 94) s with | .next t => !t.trip | _ => false) = true) := by decide +kernel
/-- R458: IDCODE answers 0x24B321CB. -/
theorem test_idcode : (match exec .idcode State.reset with | .next t => t.out | _ => []) = [.value rRPL_TAP_STAT 0x24B321CB] := by decide +kernel
/-- R373: LOAD_BOOT outside WAIT_IMAGE is refused with result 4. -/
theorem test_loadBoot : (match exec (.loadBoot 0) State.reset with | .next t => t.fld rSEC_BOOT_STAT 27 3 | _ => 0) = 4 := by decide +kernel
/-- R371: interface level 1 is accepted in WAIT_IMAGE, through J4 alone. -/
theorem test_iflevelRequest : (match exec (.iflevelRequest 1 0) (wPhase 1 BootSt.init) with
    | .next t => t.fld rSEC_IFLEVEL 8 4 | _ => 0) = 1 ∧
    (match exec (.iflevelRequest 1 1) (wPhase 1 BootSt.init) with | .next t => t.flag rSEC_BOOT_STAT 31 | _ => false) = true := by decide +kernel
/-- R385: the fuses take the goal. -/
theorem test_lifecycleFusesProgrammed : (match exec (.lifecycleFusesProgrammed 0) { State.reset with
    boot := { BootSt.init with lcGoal := some 2, lcDue := true, lcNow := some 1 } } with
    | .next t => t.boot.lcFuse | _ => none) = some 2 := by decide +kernel
/-- R420: a frame whose SEQ is not the one expected is not accepted. -/
theorem test_pairRx : (State.reset.pairRx 2 (wHdrAt 2 1) 0).1 = false ∧ (State.reset.pairRx 2 (wHdr 2) 0).1 = true := by decide +kernel
/-- R303: a GRANT above 18000 W waits as 18000 W. -/
theorem test_wglGrant : (match exec (.wglGrant (wFrame wGrant) false 0) (wWglUp { WaggleSt.init with od := [(0x110005, 9)] }) with
    | .next t => t.pwr.grant | _ => none) = some 18000 := by decide +kernel
end

section
/-! PROOFS. The statements on the scope of the panel: what a command may do beyond what every command keeps, the registers after a
panel reset, and the configuration lock. -/

namespace Sys2Proof.Machine

/-! ### What every command keeps -/

/-- What a command may do beyond what every command keeps: make the tick edge, reset the panel, or nothing. -/
def licence : Instr → Lic
  | .tickEdge _ => .edge
  | c => if mayReset c then .reset else .none

theorem licence_ne_reset {c : Instr} (h : mayReset c = false) : licence c ≠ .reset := by
  unfold licence
  split
  · decide
  · simp [h]

/-- Every command answers a next state that keeps all that its licence does not exempt: one law per row of the command table. -/
theorem exec_kept (c : Instr) (s : State) : KeptR (licence c) s (exec c s) :=
  match c with
  | .registerWrite .. => execRegisterWrite_kept (.refl _ s)
  | .glbCfgLock .. => execGlbCfgLock_kept (.refl _ s)
  | .refusedAccess .. => execRefusedAccess_kept (.refl _ s)
  | .highHalfLatchExpiry .. => execHighHalfLatchExpiry_kept (.refl _ s)
  | .tickEdge .. => execTickEdge_kept (.refl _ s)
  | .tickInEdge .. => execTickInEdge_kept (.refl _ s)
  | .ingestAdmission .. => execIngestAdmission_kept (.refl _ s)
  | .demandFormation .. => execDemandFormation_kept (.refl _ s)
  | .runOpen .. => execRunOpen_kept (.refl _ s)
  | .emitOpen .. => execEmitOpen_kept (.refl _ s)
  | .guardStart .. => execGuardStart_kept (.refl _ s)
  | .siteEndMarker .. => execSiteEndMarker_kept (.refl _ s)
  | .descriptorFetch .. => execDescriptorFetch_kept (.refl _ s)
  | .descriptorIssue .. => execDescriptorIssue_kept (.refl _ s)
  | .nop .. => execNop_kept (.refl _ s)
  | .matmul .. => execMatmul_kept (.refl _ s)
  | .matmulFused .. => execMatmulFused_kept (.refl _ s)
  | .threshold .. => execThreshold_kept (.refl _ s)
  | .rowfn .. => execRowfn_kept (.refl _ s)
  | .gather .. => execGather_kept (.refl _ s)
  | .scatter .. => execScatter_kept (.refl _ s)
  | .copy .. => execCopy_kept (.refl _ s)
  | .kvAppend .. => execKvAppend_kept (.refl _ s)
  | .kvAttend .. => execKvAttend_kept (.refl _ s)
  | .kvSample .. => execKvSample_kept (.refl _ s)
  | .descriptorSignal .. => execDescriptorSignal_kept (.refl _ s)
  | .vectorConsume .. => execVectorConsume_kept (.refl _ s)
  | .tileFillEnd .. => execTileFillEnd_kept (.refl _ s)
  | .drainComplete .. => execDrainComplete_kept (.refl _ s)
  | .fallbackComplete .. => execFallbackComplete_kept (.refl _ s)
  | .exactDrainComplete .. => execExactDrainComplete_kept (.refl _ s)
  | .ingressBlock .. => execIngressBlock_kept (.refl _ s)
  | .space1Write .. => execSpace1Write_kept (.refl _ s)
  | .bankHeaderCheckComplete .. => execBankHeaderCheckComplete_kept (.refl _ s)
  | .shadowOpen .. => execShadowOpen_kept (.refl _ s)
  | .shadowArm .. => execShadowArm_kept (.refl _ s)
  | .shadowCancel .. => execShadowCancel_kept (.refl _ s)
  | .shadowCmdInvalid .. => execShadowCmdInvalid_kept (.refl _ s)
  | .rqCommit .. => execRqCommit_kept (.refl _ s)
  | .rqCancel .. => execRqCancel_kept (.refl _ s)
  | .rqStageCmdInvalid .. => execRqStageCmdInvalid_kept (.refl _ s)
  | .stagingWrite .. => execStagingWrite_kept (.refl _ s)
  | .configRecordWrite .. => execConfigRecordWrite_kept (.refl _ s)
  | .packEntry .. => execPackEntry_kept (.refl _ s)
  | .packTileComplete .. => execPackTileComplete_kept (.refl _ s)
  | .mergeArrival .. => execMergeArrival_kept (.refl _ s)
  | .mergeResultWrite .. => execMergeResultWrite_kept (.refl _ s)
  | .pwriteLand .. => execPwriteLand_kept (.refl _ s)
  | .readReq .. => execReadReq_kept (.refl _ s)
  | .readCpl .. => execReadCpl_kept (.refl _ s)
  | .landAck .. => execLandAck_kept (.refl _ s)
  | .lateErr .. => execLateErr_kept (.refl _ s)
  | .fenceTimeout .. => execFenceTimeout_kept (.refl _ s)
  | .noSlot .. => execNoSlot_kept (.refl _ s)
  | .linkReplay .. => execLinkReplay_kept (.refl _ s)
  | .siteCoreAccess .. => execSiteCoreAccess_kept (.refl _ s)
  | .sealNop .. => execSealNop_kept (.refl _ s)
  | .sealSignal .. => execSealSignal_kept (.refl _ s)
  | .sealWait .. => execSealWait_kept (.refl _ s)
  | .sealAcquire .. => execSealAcquire_kept (.refl _ s)
  | .sealRelease .. => execSealRelease_kept (.refl _ s)
  | .armBarrier .. => execArmBarrier_kept (.refl _ s)
  | .sealRead .. => execSealRead_kept (.refl _ s)
  | .sealWake .. => execSealWake_kept (.refl _ s)
  | .sealGrant .. => execSealGrant_kept (.refl _ s)
  | .sealAck .. => execSealAck_kept (.refl _ s)
  | .barrierWaveTime .. => execBarrierWaveTime_kept (.refl _ s)
  | .sealImportForward .. => execSealImportForward_kept (.refl _ s)
  | .sealResultLoad .. => execSealResultLoad_kept (.refl _ s)
  | .sealInspRead => execSealInspRead_kept (.refl _ s)
  | .partConfigure .. => execPartConfigure_kept (.refl _ s)
  | .partRelease .. => execPartRelease_kept (.refl _ s)
  | .partReset .. => execPartReset_kept (.refl _ s)
  | .partCmdInvalid .. => execPartCmdInvalid_kept (.refl _ s)
  | .queCfgWrite .. => execQueCfgWrite_kept (.refl _ s)
  | .queBaseWrite .. => execQueBaseWrite_kept (.refl _ s)
  | .sqTailDoorbell .. => execSqTailDoorbell_kept (.refl _ s)
  | .cqHeadDoorbell .. => execCqHeadDoorbell_kept (.refl _ s)
  | .msixUnmask .. => execMsixUnmask_kept (.refl _ s)
  | .flr .. => execFlr_kept (.refl _ s)
  | .portDown .. => execPortDown_kept (.refl _ s)
  | .openStream .. => execOpen_kept (.refl _ s)
  | .append .. => execAppend_kept (.refl _ s)
  | .generate .. => execGenerate_kept (.refl _ s)
  | .fork .. => execFork_kept (.refl _ s)
  | .park .. => execPark_kept (.refl _ s)
  | .resume .. => execResume_kept (.refl _ s)
  | .close .. => execClose_kept (.refl _ s)
  | .forkComplete .. => execForkComplete_kept (.refl _ s)
  | .parkComplete .. => execParkComplete_kept (.refl _ s)
  | .resumeComplete .. => execResumeComplete_kept (.refl _ s)
  | .streamDrainComplete .. => execStreamDrainComplete_kept (.refl _ s)
  | .strmInspRead => execStrmInspRead_kept (.refl _ s)
  | .compactionStart .. => execCompactionStart_kept (.refl _ s)
  | .compactionComplete .. => execCompactionComplete_kept (.refl _ s)
  | .powerWindow .. => execPowerWindow_kept (.refl _ s)
  | .calibration .. => execCalibration_kept (.refl _ s)
  | .pwrGrantLost => execPwrGrantLost_kept (.refl _ s)
  | .droopEvent .. => execDroopEvent_kept (.refl _ s)
  | .droopRestore .. => execDroopRestore_kept (.refl _ s)
  | .thermalTrip .. => execThermalTrip_kept (.refl _ s)
  | .tripClr .. => execTripClr_kept (.refl _ s)
  | .pwrSiteDataRead => execPwrSiteDataRead_kept (.refl _ s)
  | .coolantSensorSample .. => execCoolantSensorSample_kept (.refl _ s)
  | .coolantLoopRun .. => execCoolantLoopRun_kept (.refl _ s)
  | .valveSoftstartDone .. => execValveSoftstartDone_kept (.refl _ s)
  | .valveShort .. => execValveShort_kept (.refl _ s)
  | .valveStall .. => execValveStall_kept (.refl _ s)
  | .valveClr => execValveClr_kept (.refl _ s)
  | .loopDisable => execLoopDisable_kept (.refl _ s)
  | .domOn .. => execDomOn_kept (.refl _ s)
  | .domOff .. => execDomOff_kept (.refl _ s)
  | .domClear .. => execDomClear_kept (.refl _ s)
  | .domCmdInvalid .. => execDomCmdInvalid_kept (.refl _ s)
  | .domDataRead => execDomDataRead_kept (.refl _ s)
  | .softstartComplete .. => execSoftstartComplete_kept (.refl _ s)
  | .softstartWindowExpiry .. => execSoftstartWindowExpiry_kept (.refl _ s)
  | .domShort .. => execDomShort_kept (.refl _ s)
  | .domInrushHold .. => execDomInrushHold_kept (.refl _ s)
  | .sagRecovery .. => execSagRecovery_kept (.refl _ s)
  | .wglRead .. => execWglRead_kept (.refl _ s)
  | .wglReadMulti .. => execWglReadMulti_kept (.refl _ s)
  | .wglWrite .. => execWglWrite_kept (.refl _ s)
  | .wglGrant .. => execWglGrant_kept (.refl _ s)
  | .wglHeartbeat .. => execWglHeartbeat_kept (.refl _ s)
  | .wglForward .. => execWglForward_kept (.refl _ s)
  | .heartbeatSend .. => execHeartbeatSend_kept (.refl _ s)
  | .notifySend => execNotifySend_kept (.refl _ s)
  | .wglAnswerLate .. => execWglAnswerLate_kept (.refl _ s)
  | .standardAnswer .. => execStandardAnswer_kept (.refl _ s)
  | .wglPortChange .. => execWglPortChange_kept (.refl _ s)
  | .gptpSync .. => execGptpSync_kept (.refl _ s)
  | .wglTimeLost .. => execWglTimeLost_kept (.refl _ s)
  | .mailboxGo .. => execMailboxGo_kept (.refl _ s)
  | .mailboxDone .. => execMailboxDone_kept (.refl _ s)
  | .powerGood .. => execPowerGood_kept (.refl _ s)
  | .resetPin .. => execResetPin_kept (.refl _ s)
  | .resetRelease => execResetRelease_kept (.refl _ s)
  | .panelReset .. => execPanelReset_kept (.refl _ s)
  | .romInitComplete .. => execRomInitComplete_kept (.refl _ s)
  | .hbmTrainingComplete .. => execHbmTrainingComplete_kept (.refl _ s)
  | .iflevelRequest .. => execIflevelRequest_kept (.refl _ s)
  | .loadBoot .. => execLoadBoot_kept (.refl _ s)
  | .loadPart .. => execLoadPart_kept (.refl _ s)
  | .tapEnable .. => execTapEnable_kept (.refl _ s)
  | .lcAdvance .. => execLcAdvance_kept (.refl _ s)
  | .secBootCmdInvalid .. => execSecBootCmdInvalid_kept (.refl _ s)
  | .imageHeaderReceived .. => execImageHeaderReceived_kept (.refl _ s)
  | .sectionReceived .. => execSectionReceived_kept (.refl _ s)
  | .bootReady .. => execBootReady_kept (.refl _ s)
  | .partLoadComplete .. => execPartLoadComplete_kept (.refl _ s)
  | .secretsCleared .. => execSecretsCleared_kept (.refl _ s)
  | .selfTestSlice .. => execSelfTestSlice_kept (.refl _ s)
  | .selfTestYield .. => execSelfTestYield_kept (.refl _ s)
  | .analogCheck .. => execAnalogCheck_kept (.refl _ s)
  | .hubLost .. => execHubLost_kept (.refl _ s)
  | .ageingUpdate .. => execAgeingUpdate_kept (.refl _ s)
  | .journalWrite .. => execJournalWrite_kept (.refl _ s)
  | .journalCopy .. => execJournalCopy_kept (.refl _ s)
  | .clearLost .. => execClearLost_kept (.refl _ s)
  | .journalRecoveryComplete .. => execJournalRecoveryComplete_kept (.refl _ s)
  | .fltJrnlDataRead .. => execFltJrnlDataRead_kept (.refl _ s)
  | .bistSiteDataRead => execBistSiteDataRead_kept (.refl _ s)
  | .pairHello .. => execPairHello_kept (.refl _ s)
  | .pairHeartbeat .. => execPairHeartbeat_kept (.refl _ s)
  | .pairPartnerDead .. => execPairPartnerDead_kept (.refl _ s)
  | .pairIngest .. => execPairIngest_kept (.refl _ s)
  | .ingestWait .. => execIngestWait_kept (.refl _ s)
  | .pairPace .. => execPairPace_kept (.refl _ s)
  | .paceTimeout .. => execPaceTimeout_kept (.refl _ s)
  | .pairEnd .. => execPairEnd_kept (.refl _ s)
  | .pairDelta .. => execPairDelta_kept (.refl _ s)
  | .pairDeltaAck .. => execPairDeltaAck_kept (.refl _ s)
  | .controlReset .. => execControlReset_kept (.refl _ s)
  | .controlQuarantine .. => execControlQuarantine_kept (.refl _ s)
  | .controlLeave .. => execControlLeave_kept (.refl _ s)
  | .controlUpdate .. => execControlUpdate_kept (.refl _ s)
  | .pairResync .. => execPairResync_kept (.refl _ s)
  | .pairResyncDone .. => execPairResyncDone_kept (.refl _ s)
  | .pairNak .. => execPairNak_kept (.refl _ s)
  | .pairVector .. => execPairVector_kept (.refl _ s)
  | .pairReplayTimeout .. => execPairReplayTimeout_kept (.refl _ s)
  | .pairLaneDown .. => execPairLaneDown_kept (.refl _ s)
  | .pairLaneUp .. => execPairLaneUp_kept (.refl _ s)
  | .pairRejoin .. => execPairRejoin_kept (.refl _ s)
  | .pairLeave .. => execPairLeave_kept (.refl _ s)
  | .pairCtlWrite .. => execPairCtlWrite_kept (.refl _ s)
  | .recordStart .. => execRecordStart_kept (.refl _ s)
  | .replayStart .. => execReplayStart_kept (.refl _ s)
  | .recordStop .. => execRecordStop_kept (.refl _ s)
  | .replayStroke .. => execReplayStroke_kept (.refl _ s)
  | .rplHeadWrite .. => execRplHeadWrite_kept (.refl _ s)
  | .rplTailWrite .. => execRplTailWrite_kept (.refl _ s)
  | .bypass .. => execBypass_kept (.refl _ s)
  | .idcode => execIdcode_kept (.refl _ s)
  | .samplePreload .. => execSamplePreload_kept (.refl _ s)
  | .extest => execExtest_kept (.refl _ s)
  | .clamp => execClamp_kept (.refl _ s)
  | .highz => execHighz_kept (.refl _ s)
  | .debug .. => execDebug_kept (.refl _ s)
  | .mem .. => execMem_kept (.refl _ s)
  | .scan .. => execScan_kept (.refl _ s)
  | .uartRx .. => execUartRx_kept (.refl _ s)
  | .inputPowerFail .. => execInputPowerFail_kept (.refl _ s)
  | .holdupExpiry .. => execHoldupExpiry_kept (.refl _ s)
  | .chargeTimeout .. => execChargeTimeout_kept (.refl _ s)
  | .chargeRetry .. => execChargeRetry_kept (.refl _ s)
  | .inputChargeStart .. => execInputChargeStart_kept (.refl _ s)
  | .standbyRailLoss .. => execStandbyRailLoss_kept (.refl _ s)
  | .pcieLinkUp .. => execPcieLinkUp_kept (.refl _ s)
  | .landAckGatherExpiry .. => execLandAckGatherExpiry_kept (.refl _ s)
  | .lifecycleFusesProgrammed .. => execLifecycleFusesProgrammed_kept (.refl _ s)

theorem kept_of_exec {c : Instr} {s t : State} (h : exec c s = .next t) : Kept (licence c) s t := by
  obtain ⟨u, hu, k⟩ := exec_kept c s
  rw [h] at hu
  cases hu
  exact k

/-! ### The invariant along a step -/

theorem step_nil {s : State} (h : s.pending = []) : step s = .next s := by
  simp only [step, h]

theorem step_cons {s : State} {c : Instr} {rest : List Instr} (h : s.pending = c :: rest) :
    step s = exec c { s with pending := rest } := by
  simp only [step, h]

/-- The invariant does not speak of the queue. -/
theorem Good.withPending {s : State} (h : Good s) (q : List Instr) : Good { s with pending := q } :=
  ⟨h.regs, h.spad, h.hbm, h.id, h.st, h.cst⟩

/-- Settles O3: an idle step changes nothing, and the command at the front of the queue keeps the invariant whatever it is. -/
theorem stepKeepsGood : Obligations.StepKeepsGood := by
  intro s t hs hstep
  cases hq : s.pending with
  | nil =>
    rw [step_nil hq] at hstep
    cases hstep
    exact hs
  | cons c rest =>
    rw [step_cons hq] at hstep
    exact (kept_of_exec hstep).good (hs.withPending rest)

/-- Settles O5: the lock is part of what a command without the licence to reset keeps. -/
theorem lockHoldsUntilPanelReset : Obligations.LockHoldsUntilPanelReset :=
  fun _ _ _ hc hs hl he => (kept_of_exec he).lock (licence_ne_reset hc) hs hl

/-! ### Registers after a panel reset -/

/-- A panel reset forms three registers anew (R368, R410): every other one reads as it does right after power-up. -/
theorem reg_panelReset (s : State) (cause b : Nat) (hs : b ≠ rFLT_STBY_STAT) (hj : b ≠ rFLT_JRNL_STAT) (hl : b ≠ rSEC_LC) :
    (s.panelReset cause).reg b = State.reset.reg b := by
  have last (n : State) (h : n.reg b = State.reset.reg b) (c : Prop) [Decidable c] :
      (if c then n.setFld rSEC_LC 31 1 1 else n).reg b = State.reset.reg b := by
    split
    · rw [reg_setFld_other _ _ _ _ _ _ hl, h]
    · exact h
  refine last _ ?_ _
  dsimp only
  split
  · rfl
  · rw [reg_jrnlStat_other _ _ hj]
    iterate 3 rw [reg_setFld_other _ _ _ _ _ _ hs]
    rfl

/-- Settles O8: the invariant fixes the value, every command keeps the invariant, and a panel reset, from any state, leaves the
register at its reset value. -/
theorem glbIdIsFixed : Obligations.GlbIdIsFixed := by
  refine ⟨rfl, fun s hs => ?_, fun c s t hs he => ?_, fun s cause => ?_⟩
  · simp only [State.fld, hs.id]
    decide
  · rw [hs.id, ((kept_of_exec he).good hs).id]
  · rw [reg_panelReset s cause rGLB_ID (by decide) (by decide) (by decide)]
    exact Good.reset.id

/-! ### Writes while the configuration is locked (R9) -/

/-- An offset that is not a high half is that of a row. -/
theorem regRow_of_regAt {a b : Nat} {r : RegRow} (h : regAt a = some (r, b, false)) : regRow a = some r := by
  cases hrow : regRow a with
  | some q => simp_all [regAt]
  | none =>
    simp only [regAt, hrow] at h
    split_ifs at h
    split at h
    · split_ifs at h
      simp at h
    · cases h

theorem le_of_inSiteWindow {a : Nat} (h : inSiteWindow a = true) : siteWindow0 ≤ a := by
  simp only [inSiteWindow, Bool.and_eq_true, decide_eq_true_eq] at h
  exact h.1

/-- The row of a register of a site window stands at an offset within the window. -/
theorem base_lt_of_inSiteWindow {a : Nat} {r : RegRow} (hwin : inSiteWindow a = true) (hrow : regRow a = some r) :
    r.base < siteStride := by
  rw [regRow, if_pos hwin] at hrow
  have hcov := List.find?_some hrow
  simp only [RegRow.covers, Bool.and_eq_true, decide_eq_true_eq] at hcov
  exact Nat.lt_of_le_of_lt hcov.2.1 (Nat.mod_lt _ (by decide))

/-- A 32-bit write of a 32-bit register of a site window reaches that register, once the panel is READY. -/
theorem writeBar0_siteWord {s : State} {a : Nat} {r : RegRow} (port v t : Nat) (hready : s.ready = true)
    (hwin : inSiteWindow a = true) (hreg : regAt a = some (r, a, false)) (hwide : r.wide = false) :
    s.writeBar0 port a 4 v t = s.writeReg r port a (v % 2 ^ 32) t := by
  have ha : 0x100000 ≤ a := le_of_inSiteWindow hwin
  have hmsix : ¬(0xE0000 ≤ a ∧ a < 0xE8000) := by omega
  simp [State.writeBar0, State.write32, State.writeHalf, hready, hmsix, hreg, hwide]

/-- No command register lies in a site window, so that a locked write of a register with RWL bits alone is a violation. -/
theorem writeReg_siteRwl_locked {s : State} {a : Nat} {r : RegRow} (port w t : Nat) (hwin : inSiteWindow a = true)
    (hrow : regRow a = some r) (hrw : r.rw = 0) (hw1c : r.w1c = 0) (hrwl : r.rwl ≠ 0) (hlock : s.locked = true) :
    s.writeReg r port a w t = s.lockViol := by
  have ha : 0x100000 ≤ a := le_of_inSiteWindow hwin
  have hb : r.base < 0x80000 := base_lt_of_inSiteWindow hwin hrow
  have hrwSame : s.writeRw r a w = s := by simp [State.writeRw, hrw, hw1c]
  have hsec : ¬(rSEC_BOOT_CMD ≤ a ∧ a < rSEC_BOOT_CMD + 0x10000) := by unfold rSEC_BOOT_CMD; omega
  have hne (c : Nat) (hc : c < 0x100000) : a ≠ c := by omega
  have hbase (c : Nat) (hc : 0x80000 ≤ c) : r.base ≠ c := by omega
  simp only [State.writeReg, hsec, hne rGLB_CFG_LOCK (by decide), hne rPART_CMD (by decide), hne rGLB_OD_CMD (by decide),
    hne rFLT_JRNL_CMD (by decide), hne rPAIR_CMD (by decide), hne rPAIR_CTL (by decide), hbase rRPL_CTL (by decide),
    hbase rRPL_HEAD (by decide), hbase rRPL_TAIL (by decide), hne rPWR_CTL (by decide), hne rCLT_CTL (by decide), hrwSame,
    hrwl, hlock, false_and, if_true, if_false]

theorem exec_registerWrite_locked {s : State} {port a : Nat} {v : BitVec 64} {t : Nat} {r : RegRow} (hready : s.ready = true)
    (hlock : s.locked = true) (halign : a % 4 = 0) (hwin : inSiteWindow a = true) (hreg : regAt a = some (r, a, false))
    (hwide : r.wide = false) (hrw : r.rw = 0) (hw1c : r.w1c = 0) (hrwl : r.rwl ≠ 0) :
    exec (.registerWrite 0 port a 4 v t) s = .next (s.at t).lockViol := by
  have hlegal : accessLegal a 4 = true := by simp [accessLegal, halign]
  have hready' : (s.at t).ready = true := hready
  have hlock' : (s.at t).locked = true := hlock
  calc exec (.registerWrite 0 port a 4 v t) s = .next ((s.at t).writeBar0 port a 4 v.toNat t) := by
        simp [exec, execRegisterWrite, hlegal]
    _ = .next (s.at t).lockViol := by
        rw [writeBar0_siteWord port _ t hready' hwin hreg hwide,
          writeReg_siteRwl_locked port _ t hwin (regRow_of_regAt hreg) hrw hw1c hrwl hlock']

theorem exec_loopDisable_locked {s : State} (hready : s.ready = true) (hlock : s.locked = true) :
    exec .loopDisable s = .next s.lockViol := by
  simp [exec, execLoopDisable, hready, hlock]

/-! ### GLB_CFG_LOCK and the latch of the high half -/

theorem bit_zero_iff (x : Nat) : bit x 0 = true ↔ x % 2 = 1 := by
  simp [bit]

/-- Setting the lowest bit of a word sets it. -/
theorem bit_setBits_zero (x : Nat) : bit (BitVec.ofNat 64 (setBits x 0 1 1)).toNat 0 = true := by
  rw [bit_zero_iff, BitVec.toNat_ofNat]
  simp only [setBits, bits]
  omega

theorem locked_setLock {s : State} (h : Good s) : (s.setFld rGLB_CFG_LOCK 0 1 1).locked = true := by
  rw [State.locked, State.flag, reg_setFld_same _ _ _ _ _ h]
  exact bit_setBits_zero _

theorem exec_glbCfgLock_one {s : State} {w : BitVec 32} (hready : s.ready = true) (hw : w.toNat % 2 = 1) :
    exec (.glbCfgLock w) s = .next ((s.setFld rGLB_CFG_LOCK 0 1 1).setFld rGLB_STATUS 1 1 1) := by
  simp [exec, execGlbCfgLock, State.writeLock, hready, (bit_zero_iff _).2 hw]

theorem exec_glbCfgLock_zero {s : State} {w : BitVec 32} (hw : w.toNat % 2 = 0) : exec (.glbCfgLock w) s = .next s := by
  have hbit : bit w.toNat 0 = false := by simp [bit, hw]
  simp [exec, execGlbCfgLock, State.writeLock, hbit]

theorem glbCfgLock_one_locks {s : State} {w : BitVec 32} (hs : Good s) (hready : s.ready = true) (hw : w.toNat % 2 = 1) :
    Completes (.glbCfgLock w) s (fun t => t.locked = true ∧
      (∀ b, b ≠ rGLB_CFG_LOCK → b ≠ rGLB_STATUS → t.reg b = s.reg b) ∧ t = { s with regs := t.regs }) := by
  refine ⟨_, exec_glbCfgLock_one hready hw, ?_, fun b hb hb' => ?_, rfl⟩
  · have hother := reg_setFld_other (s.setFld rGLB_CFG_LOCK 0 1 1) rGLB_STATUS rGLB_CFG_LOCK 1 1 1 (by decide)
    have hset := locked_setLock hs
    simpa only [State.locked, State.flag, hother] using hset
  · rw [reg_setFld_other _ _ _ _ _ _ hb', reg_setFld_other _ _ _ _ _ _ hb]

theorem highHalfLatchExpiry_releases (s : State) (t : Nat) :
    Completes (.highHalfLatchExpiry t) s (fun u =>
      (∀ e, e ∈ u.latch ↔ e ∈ s.latch ∧ max s.time t < e.2.2) ∧ u = { s.at t with latch := u.latch }) := by
  refine ⟨_, rfl, fun e => ?_, rfl⟩
  simp [List.mem_filter, State.at]

/-- Settles O12: the locked write, the two writes of the lock and the expiry of the latch, each by its own law above. -/
theorem lockAndLatch : Obligations.LockAndLatch :=
  ⟨fun _ _ _ _ _ _ hready hlock halign hwin hreg hwide hrw hw1c hrwl _ =>
      ⟨exec_registerWrite_locked hready hlock halign hwin hreg hwide hrw hw1c hrwl, exec_loopDisable_locked hready hlock⟩,
    fun _ _ hs hready hw => glbCfgLock_one_locks hs hready hw, fun _ _ hw => exec_glbCfgLock_zero hw,
    highHalfLatchExpiry_releases⟩

end Sys2Proof.Machine
end

section
/-! PROOFS. The statements on the layout of the panel (chapter 01): every command completes, the default site map, writes of the
comb space and of configuration records, and the accesses of a site core. -/

namespace Sys2Proof.Machine

/-- Settles O4: the next state that every command answers keeps the queue and the invariant whatever the command's licence. -/
theorem everyCommandCompletes : Obligations.EveryCommandCompletes := by
  intro c s
  obtain ⟨t, hexec, hkept⟩ := exec_kept c s
  exact ⟨t, hexec, hkept.queue, hkept.good⟩

/-! ### The site map after a reset (R17) -/

/-- Right after power-up a logical site reads as Table 01.3 places it. -/
theorem phys_reset {l : Nat} (hl : l < 64) : State.reset.phys l = defaultPhys l := by
  have hmap : rGLB_SITEMAP ≤ rGLB_SITEMAP + 4 * l ∧ rGLB_SITEMAP + 4 * l < rGLB_SITEMAP + 256 := by omega
  have hidx : (rGLB_SITEMAP + 4 * l - rGLB_SITEMAP) / 4 = l := by omega
  have hreg : State.reset.reg (rGLB_SITEMAP + 4 * l) = BitVec.ofNat 64 (defaultPhys l) := by
    change regReset (rGLB_SITEMAP + 4 * l) = _
    rw [regReset, if_pos hmap, hidx]
  have hfit : defaultPhys l < 2 ^ 7 := by
    unfold defaultPhys
    split_ifs <;> omega
  rw [State.phys, State.fld, hreg, BitVec.toNat_ofNat, bits]
  omega

/-- The registers of the site map are not among those that a panel reset forms anew. -/
theorem phys_panelReset (s : State) (cause : Nat) {l : Nat} (hl : l < 64) : (s.panelReset cause).phys l = defaultPhys l := by
  have hne (b : Nat) (hb : 0x200 ≤ b) : rGLB_SITEMAP + 4 * l ≠ b := by unfold rGLB_SITEMAP; omega
  rw [← phys_reset hl, State.phys, State.phys, State.fld, State.fld,
    reg_panelReset s cause _ (hne _ (by decide)) (hne _ (by decide)) (hne _ (by decide))]

theorem isSpare_defaultPhys : ∀ l < 64, isSpare (defaultPhys l) = false := by decide

/-- Table 01.3 lists the compute positions in ascending order. -/
theorem map_defaultPhys :
    (List.range 64).map defaultPhys = (List.range 72).filter (fun p => !(isHub p) && !(isSpare p)) := by decide

theorem map_phys_panelReset (s : State) (cause : Nat) :
    (List.range 64).map (s.panelReset cause).phys = (List.range 64).map defaultPhys :=
  List.map_congr_left fun _ hl => phys_panelReset s cause (List.mem_range.1 hl)

/-- No logical site stands at a spare position after a panel reset. -/
theorem lsite_panelReset_spare (s : State) (cause : Nat) {p : Nat} (hp : isSpare p = true) :
    (s.panelReset cause).lsite p = none := by
  rw [State.lsite, List.find?_eq_none]
  intro l hl heq
  have hl : l < 64 := List.mem_range.1 hl
  rw [phys_panelReset s cause hl, beq_iff_eq] at heq
  have hfree := isSpare_defaultPhys l hl
  rw [heq, hp] at hfree
  cases hfree

/-- Settles O9: after either reset the map is Table 01.3, which leaves the spare positions out. -/
theorem siteMapAfterReset : Obligations.SiteMapAfterReset := by
  intro s cause
  refine ⟨?_, fun p hp => lsite_panelReset_spare s cause hp, ?_⟩
  · rw [map_phys_panelReset, map_defaultPhys]
  · rw [map_phys_panelReset]
    exact List.map_congr_left fun l hl => phys_reset (List.mem_range.1 hl)

/-! ### Writes of the comb space (R26, R27) -/

/-- A write of the comb space with a byte at a reserved address is not sent. -/
theorem exec_space1Write_reserved {s : State} {part master mode len : Nat} {a : BitVec 48} {data : BitVec 512}
    (hbad : s.rangeBad a.toNat len false = true) :
    exec (.space1Write part master mode a len data) s =
      .next (s.accessFault 0x31C1 part (addrSite a.toNat) a.toNat master) := by
  simp [exec, execSpace1Write, hbad]

/-- A write that stays within the window of its bank is one write of that bank. -/
theorem exec_space1Write_oneBank {s : State} {part master mode len : Nat} {a : BitVec 48} {data : BitVec 512}
    (hok : s.rangeBad a.toNat len false = false) (hlen : len ≤ 2 ^ 13 - bits a.toNat 0 13) :
    exec (.space1Write part master mode a len data) s = .next (s.bankWrite part master mode a.toNat len data.toNat) := by
  simp only [exec, execSpace1Write, hok, Bool.false_eq_true, if_false, Nat.min_eq_left hlen, Nat.lt_irrefl]

/-- What runs past the window of its bank is a second write, of the next bank. -/
theorem exec_space1Write_twoBanks {s : State} {part master mode len n : Nat} {a : BitVec 48} {data : BitVec 512}
    (hok : s.rangeBad a.toNat len false = false) (hn : n = 2 ^ 13 - bits a.toNat 0 13) (hlen : n < len) :
    exec (.space1Write part master mode a len data) s =
      .next ((s.bankWrite part master mode a.toNat n data.toNat).bankWrite part master mode (a.toNat + n) (len - n)
        (data.toNat / 2 ^ (8 * n))) := by
  subst hn
  simp only [exec, execSpace1Write, hok, Bool.false_eq_true, if_false, Nat.min_eq_right hlen.le, hlen, if_true]

/-- A master that is no DMA engine, load mode with SHADOW = 1 and shadow mode with SHADOW = 0 reach no slot. -/
theorem bankWrite_denied (s : State) {part master mode a len x : Nat}
    (h : master < 0x10 ∨ (0x13 < master ∧ master ≠ 0x16) ∨ (mode = 1 ∧ bit a 35 = true) ∨ (mode = 2 ∧ bit a 35 = false)) :
    s.bankWrite part master mode a len x = s.accessFault 0x3044 part (addrSite a) a master := by
  rcases h with hlow | ⟨hhigh, hupd⟩ | ⟨hmode, hshadow⟩ | ⟨hmode, hlive⟩
  · have hdma : ¬ 0x10 ≤ master := by omega
    have hupd : master ≠ 0x16 := by omega
    simp [State.bankWrite, hdma, hupd]
  · have hdma : ¬ master ≤ 0x13 := by omega
    simp [State.bankWrite, hdma, hupd]
  · simp [State.bankWrite, hmode, hshadow]
  · simp [State.bankWrite, hmode, hlive]

/-- A DMA engine in load mode writes the live slot of a site that is being loaded. -/
theorem bankWrite_load {s : State} {part master a len x : Nat} (hlo : 0x10 ≤ master) (hhi : master ≤ 0x13)
    (hlive : bit a 35 = false) (hload : s.loadingSite (addrSite a) = true) :
    s.bankWrite part master 1 a len x =
      s.slotWrite (s.pcomb (addrSite a) (bits a 21 13)) (s.liveSlot (s.pcomb (addrSite a) (bits a 21 13)) (bits a 13 8))
        (bits a 36 2) (bits a 0 13) len x := by
  simp [State.bankWrite, hlo, hhi, hlive, hload]

/-- A DMA engine in shadow mode writes the open shadow slot of the bank, in every state in which one is bound (log entry 15). -/
theorem bankWrite_shadow {s : State} {part master a len x i : Nat} (hlo : 0x10 ≤ master) (hhi : master ≤ 0x13)
    (hshadow : bit a 35 = true) (hopen : s.openShadow (s.pcomb (addrSite a) (bits a 21 13)) (bits a 13 8) = some i) :
    s.bankWrite part master 2 a len x =
      s.slotWrite (s.pcomb (addrSite a) (bits a 21 13)) (s.shadow (s.pcomb (addrSite a) (bits a 21 13)) i).slot
        (bits a 36 2) (bits a 0 13) len x := by
  simp [State.bankWrite, hlo, hhi, hshadow, hopen]

/-! ### The header check that ends (R29) -/

theorem exec_bankHeaderCheckComplete_live (s : State) (site comb bank : Nat) :
    exec (.bankHeaderCheckComplete site comb bank false) s =
      .next (s.headerCheck site comb bank false (s.liveSlot (s.pcomb site comb) bank)) := rfl

theorem exec_bankHeaderCheckComplete_shadow {s : State} {site comb bank i : Nat}
    (hopen : s.openShadow (s.pcomb site comb) bank = some i) :
    exec (.bankHeaderCheckComplete site comb bank true) s =
      .next (s.headerCheck site comb bank true (s.shadow (s.pcomb site comb) i).slot) := by
  simp [exec, execBankHeaderCheckComplete, hopen]

/-! ### Configuration records (R378-R380) -/

/-- Outside the load a record is a denied write of its table (log entry 124). -/
theorem exec_configRecordWrite_notLoading {s : State} {n l table first : Nat} {es : List (List (BitVec 32))}
    (hload : (s.part n).st ≠ .loading) :
    exec (.configRecordWrite n l table first es) s = .next (s.tableDenied n l table first) := by
  simp [exec, execConfigRecordWrite, hload]

theorem exec_configRecordWrite_pastTable {s : State} {n l table first : Nat} {es : List (List (BitVec 32))}
    (hload : (s.part n).st = .loading) (hpast : recCount table < first + es.length) :
    exec (.configRecordWrite n l table first es) s = .next s := by
  simp [exec, execConfigRecordWrite, hload, hpast]

/-- A record for one site of its partition is written there, and its clamps are reported. -/
theorem exec_configRecordWrite_site {s : State} {n l table first : Nat} {es : List (List (BitVec 32))}
    (hload : (s.part n).st = .loading) (hfit : first + es.length ≤ recCount table) (htable : table ≠ 7) (hall : l ≠ 0x7F)
    (hsite : bit (s.part n).g.sites l = true) :
    exec (.configRecordWrite n l table first es) s =
      .next ((s.writeRecords n (s.phys l) table first es).1.clamped 6 (s.writeRecords n (s.phys l) table first es).2) := by
  simp [exec, execConfigRecordWrite, hload, Nat.not_lt.2 hfit, htable, hall, hsite]

/-- Settles O21: the writes by their banks, the two header checks, and the three cases of a record. -/
theorem combSpaceWrites : Obligations.CombSpaceWrites := by
  refine ⟨fun s part master mode len a data => ⟨exec_space1Write_reserved, fun hok hlen => ?_,
      fun n hok hn hlen => exec_space1Write_twoBanks hok hn hlen, fun site comb bank =>
        ⟨exec_bankHeaderCheckComplete_live s site comb bank, fun _ => exec_bankHeaderCheckComplete_shadow⟩⟩,
    fun s n l table first es =>
      ⟨exec_configRecordWrite_notLoading, exec_configRecordWrite_pastTable, exec_configRecordWrite_site⟩⟩
  rw [exec_space1Write_oneBank hok hlen]
  refine ⟨fun hdenied => ?_, fun hlo hhi hmode hlive hload => ?_, fun i hlo hhi hmode hshadow hopen => ?_⟩
  · rw [bankWrite_denied s hdenied]
  · rw [hmode, bankWrite_load hlo hhi hlive hload]
  · rw [hmode, bankWrite_shadow hlo hhi hshadow hopen]

/-! ### Accesses of a site core (R236, R239, Table 06.8) -/

section
variable {s u : State} {p core pn part len m : Nat} {a : BitVec 48} {d : BitVec 512} {e : MemErr}

/-! The access acts for partition `part` as master `m`, and is judged in `u`, where the memory errors that it meets are
entered. -/
variable (hpart : part = (if isHub p then pn else s.owner p)) (hm : m = coreMaster p core) (hu : u = s.memErrs part p 0x3FFF e)
include hpart hm hu

/-- A reserved address faults, whether it is read or written. -/
theorem exec_siteCoreAccess_reserved (w : Bool) (hbad : u.rangeBad a.toNat len true = true) :
    exec (.siteCoreAccess p core pn w a len d e) s = .next (u.accessFault 0x31C1 part p a.toNat m) := by
  subst hu hm hpart
  simp only [exec, execSiteCoreAccess, hbad, if_true]

/-- A write of the core's own scratchpad lands where the core's areas grant it. -/
theorem exec_siteCoreAccess_ownWrite (hok : u.rangeBad a.toNat len true = false) (hspace : addrSpace a.toNat = 0)
    (hown : addrSite a.toNat = p)
    (harea : u.areaFail p m (64 * (addrOfs a.toNat / 64)) false true (ceilDiv (addrOfs a.toNat % 64 + len) 64) = none) :
    exec (.siteCoreAccess p core pn true a len d e) s =
      .next (u.setSpadBytes p (addrOfs a.toNat) len (d.toNat % 2 ^ (8 * len))) := by
  subst hu hm hpart
  simp [exec, execSiteCoreAccess, hok, hspace, hown, harea]

/-- A write of the core's own scratchpad outside the core's areas is denied. -/
theorem exec_siteCoreAccess_ownWriteDenied {f : Nat} (hok : u.rangeBad a.toNat len true = false)
    (hspace : addrSpace a.toNat = 0) (hown : addrSite a.toNat = p)
    (harea : u.areaFail p m (64 * (addrOfs a.toNat / 64)) false true (ceilDiv (addrOfs a.toNat % 64 + len) 64) = some f) :
    exec (.siteCoreAccess p core pn true a len d e) s =
      .next (((u.sticky (siteReg p rSPAD_STAT) 1).raise 0x3204 part 0x3FFF p (addrOfs a.toNat) (m + 2 ^ 8)).emit
        (.coreFault p core)) := by
  subst hu hm hpart
  simp [exec, execSiteCoreAccess, hok, hspace, hown, harea, b2n]

/-- A read of the core's own scratchpad within the core's areas, with no uncorrectable granule, is answered. -/
theorem exec_siteCoreAccess_ownRead {v : State} (hok : u.rangeBad a.toNat len true = false) (hspace : addrSpace a.toNat = 0)
    (hown : addrSite a.toNat = p)
    (harea : u.areaFail p m (64 * (addrOfs a.toNat / 64)) true false (ceilDiv (addrOfs a.toNat % 64 + len) 64) = none)
    (hclean : ∀ i, i < ceilDiv (addrOfs a.toNat % 64 + len) 64 →
      mget false u.spad.bad (spadKey p (addrOfs a.toNat / 64 + i)) = false)
    (hv : v = (u.spadReadG part p 0x3FFF m (addrOfs a.toNat / 64) (ceilDiv (addrOfs a.toNat % 64 + len) 64)).2) :
    exec (.siteCoreAccess p core pn false a len d e) s =
      .next (v.emit (.value a.toNat (v.spadBytes p (addrOfs a.toNat) len))) := by
  have hbad : (List.range (ceilDiv (addrOfs a.toNat % 64 + len) 64)).any
      (fun i => mget false u.spad.bad (spadKey p (addrOfs a.toNat / 64 + i))) = false := by
    simpa using hclean
  subst hv hu hm hpart
  simp [exec, execSiteCoreAccess, hok, hspace, hown, harea, hbad]

omit hm in
/-- An access of another site's scratchpad leaves the site. -/
theorem exec_siteCoreAccess_remote (w : Bool) (hok : u.rangeBad a.toNat len true = false) (hspace : addrSpace a.toNat = 0)
    (hother : addrSite a.toNat ≠ p) :
    exec (.siteCoreAccess p core pn w a len d e) s =
      .next (u.coreRemote part p core w a.toNat len (d.toNat % 2 ^ (8 * len))) := by
  subst hu hpart
  simp [exec, execSiteCoreAccess, hok, hspace, hother]

/-- A write of comb space is denied. -/
theorem exec_siteCoreAccess_combWrite (hok : u.rangeBad a.toNat len true = false) (hspace : addrSpace a.toNat = 1) :
    exec (.siteCoreAccess p core pn true a len d e) s =
      .next ((u.accessFault 0x3044 part p a.toNat m).emit (.coreFault p core)) := by
  subst hu hm hpart
  simp [exec, execSiteCoreAccess, hok, hspace]

/-- A write of the stack is denied. -/
theorem exec_siteCoreAccess_stackWrite (hok : u.rangeBad a.toNat len true = false) (hspace : addrSpace a.toNat = 2) :
    exec (.siteCoreAccess p core pn true a len d e) s =
      .next ((u.accessFault 0x318B part p a.toNat m).emit (.coreFault p core)) := by
  subst hu hm hpart
  simp [exec, execSiteCoreAccess, hok, hspace]

end

/-- A field set from bit 0 of a word of zeros is the word. -/
theorem setBits_zero (n v : Nat) : setBits 0 0 n v = v % 2 ^ n := by
  simp [setBits, bits]

/-- A write of one whole granule goes out as one PWRITE that carries the granule, and takes one free value
(log entry 32). -/
theorem coreRemote_writeGranule (s : State) {part site core a : Nat} (d : BitVec 512) (halign : a % 64 = 0) :
    s.coreRemote part site core true a 64 d.toNat =
      ({ s with free := s.free + 1 } : State).sendPkt 0 part 0 site (addrSite a) 0 (addrOfs a / 64) 0 0 0 0x3FFF 6 [] [d.toNat] := by
  have hdata : setBits 0 0 512 d.toNat = d.toNat := by
    rw [setBits_zero, d.toNat_mod_cancel]
  have hpayload : unpackNat 512 1 d.toNat = [d.toNat] := by
    rw [unpackNat, unpackNat, d.toNat_mod_cancel]
  simp [State.coreRemote, halign, ceilDiv, hdata, hpayload]

/-- A read goes out as one READ_REQ of the granules concerned (log entry 32). -/
theorem coreRemote_read (s : State) (part site core a len d : Nat) :
    s.coreRemote part site core false a len d =
      s.sendPkt 1 part 1 site (addrSite a) (ceilDiv (a % 64 + len) 64 - 1) (addrOfs a / 64) 0 0 0 0x3FFF 6 [(a, len, core)] [] :=
  rfl

/-- Settles O27: each kind of access by its own law above. -/
theorem siteCoreAccesses : Obligations.SiteCoreAccesses := by
  intro s u p core pn part len m a d e hpart hm hu
  refine ⟨fun hok hspace => ⟨fun hown => ⟨?_, fun f => ?_, fun harea hclean => ?_⟩, fun hother => ⟨fun hlen halign => ?_, ?_⟩⟩,
    fun hok => ⟨exec_siteCoreAccess_combWrite hpart hm hu hok, exec_siteCoreAccess_stackWrite hpart hm hu hok⟩,
    fun hbad w => exec_siteCoreAccess_reserved hpart hm hu w hbad⟩
  · exact exec_siteCoreAccess_ownWrite hpart hm hu hok hspace hown
  · exact exec_siteCoreAccess_ownWriteDenied hpart hm hu hok hspace hown
  · exact ⟨_, exec_siteCoreAccess_ownRead hpart hm hu hok hspace hown harea hclean rfl, _, rfl, rfl⟩
  · subst hlen
    have hwhole : d.toNat % 2 ^ (8 * 64) = d.toNat := by
      rw [show 8 * 64 = 512 from rfl, d.toNat_mod_cancel]
    rw [exec_siteCoreAccess_remote hpart hu true hok hspace hother, hwhole, coreRemote_writeGranule _ d halign]
  · rw [exec_siteCoreAccess_remote hpart hu false hok hspace hother, coreRemote_read]

end Sys2Proof.Machine
end

section
/-! PROOFS. The statements on the arithmetic of the combs (chapter 02): the accumulator domain, command words that no command
register takes, vectors and tiles, and the commands of the shadow slots and of the staging buffer. -/

namespace Sys2Proof.Machine

/-! ### The accumulator domain (R42, R43) -/

/-- The model's signed reading of a word is the library's. -/
theorem signed_toNat {n : Nat} (w : BitVec (n + 1)) : signed (n + 1) w.toNat = w.toInt := by
  have hlt : w.toNat < 2 ^ (n + 1) := w.isLt
  rw [BitVec.toInt_eq_toNat_cond, signed, Nat.mod_eq_of_lt hlt, Nat.add_sub_cancel]
  have hcond : w.toNat < 2 ^ n ↔ 2 * w.toNat < 2 ^ (n + 1) := by omega
  simp only [hcond]

/-- The model's two's complement encoding is the library's. -/
theorem ofNat_unsigned (n : Nat) (i : Int) : BitVec.ofNat n (unsigned n i) = BitVec.ofInt n i := by
  apply BitVec.eq_of_toNat_eq
  have hlt : unsigned n i < 2 ^ n := by
    have hpos : (0 : Int) < ((2 ^ n : Nat) : Int) := by exact_mod_cast Nat.two_pow_pos n
    have hmod := Int.emod_lt_of_pos i hpos
    have hnonneg := Int.emod_nonneg i hpos.ne'
    unfold unsigned
    omega
  rw [BitVec.toNat_ofNat, BitVec.toNat_ofInt, Nat.mod_eq_of_lt hlt, unsigned]

theorem accEnc_fin (x : Int) : accEnc (.fin x) = BitVec.ofInt 32 x := ofNat_unsigned 32 x

/-- A pattern that is none of the three special ones is the finite value of its signed reading. -/
theorem accDec_of_not_special {w : BitVec 32} (hpos : w ≠ 0x7FFFFFFF#32) (hneg : w ≠ 0x80000000#32)
    (hpoison : w ≠ 0x80000001#32) : accDec w = .fin w.toInt := by
  rw [accDec, if_neg hpos, if_neg hneg, if_neg hpoison, signed_toNat]

/-- A pattern that reads as a finite value is none of the three special ones, and reads as its signed reading. -/
theorem accDec_eq_fin {w : BitVec 32} {x : Int} (h : accDec w = .fin x) :
    x = w.toInt ∧ w ≠ 0x7FFFFFFF#32 ∧ w ≠ 0x80000000#32 ∧ w ≠ 0x80000001#32 := by
  have hpos : w ≠ 0x7FFFFFFF#32 := by rintro rfl; simp [accDec] at h
  have hneg : w ≠ 0x80000000#32 := by rintro rfl; simp [accDec] at h
  have hpoison : w ≠ 0x80000001#32 := by rintro rfl; simp [accDec] at h
  rw [accDec_of_not_special hpos hneg hpoison] at h
  cases h
  exact ⟨rfl, hpos, hneg, hpoison⟩

/-- A finite value in range reads back: its pattern has it as signed reading, which no special pattern has. -/
theorem accDec_accEnc_fin {x : Int} (hlo : -(2 : Int) ^ 31 + 2 ≤ x) (hhi : x ≤ 2 ^ 31 - 2) :
    accDec (accEnc (.fin x)) = .fin x := by
  have hint : (BitVec.ofInt 32 x).toInt = x := BitVec.toInt_ofInt_eq_self (by decide) (by omega) (by omega)
  have hne (c : BitVec 32) (hc : x ≠ c.toInt) : BitVec.ofInt 32 x ≠ c := by
    rintro rfl
    exact hc hint.symm
  have hpos : x ≠ (0x7FFFFFFF#32).toInt := by rw [show (0x7FFFFFFF#32).toInt = 2 ^ 31 - 1 by decide]; omega
  have hneg : x ≠ (0x80000000#32).toInt := by rw [show (0x80000000#32).toInt = -2 ^ 31 by decide]; omega
  have hpoison : x ≠ (0x80000001#32).toInt := by rw [show (0x80000001#32).toInt = -2 ^ 31 + 1 by decide]; omega
  rw [accEnc_fin, accDec_of_not_special (hne _ hpos) (hne _ hneg) (hne _ hpoison), hint]

theorem accDec_accEnc_special {v : AccVal} (hv : ∀ x, v ≠ .fin x) : accDec (accEnc v) = v := by
  cases v with
  | fin x => exact absurd rfl (hv x)
  | pinf => rfl
  | ninf => rfl
  | poison => rfl

/-- Every pattern is the pattern of its meaning. -/
theorem accEnc_accDec (w : BitVec 32) : accEnc (accDec w) = w := by
  unfold accDec
  split_ifs with hpos hneg hpoison
  · exact hpos.symm
  · exact hneg.symm
  · exact hpoison.symm
  · rw [signed_toNat, accEnc_fin, BitVec.ofInt_toInt]

/-- The special patterns take the one reading above the range and the two below it. -/
theorem accDec_fin_range {w : BitVec 32} {x : Int} (h : accDec w = .fin x) :
    -(2 : Int) ^ 31 + 2 ≤ x ∧ x ≤ 2 ^ 31 - 2 := by
  obtain ⟨rfl, hpos, hneg, hpoison⟩ := accDec_eq_fin h
  have hlo : -(2 : Int) ^ 31 ≤ w.toInt := BitVec.le_toInt w
  have hhi : w.toInt < 2 ^ 31 := BitVec.toInt_lt
  have hpos' : w.toInt ≠ 2 ^ 31 - 1 := fun e => hpos (BitVec.eq_of_toInt_eq e)
  have hneg' : w.toInt ≠ -2 ^ 31 := fun e => hneg (BitVec.eq_of_toInt_eq e)
  have hpoison' : w.toInt ≠ -2 ^ 31 + 1 := fun e => hpoison (BitVec.eq_of_toInt_eq e)
  omega

/-- Settles O20: finite values read back through the signed reading, special ones by their patterns, and patterns the other
way round. -/
theorem accumulatorPatterns : Obligations.AccumulatorPatterns :=
  ⟨fun _ => accDec_accEnc_fin, ⟨rfl, rfl, rfl⟩, fun _ => accDec_accEnc_special,
    fun w => ⟨accEnc_accDec w, fun _ => accDec_fin_range⟩⟩

theorem accOf_inRange {i : Int} (hlo : -(2 : Int) ^ 31 + 2 ≤ i) (hhi : i ≤ 2 ^ 31 - 2) : accOf i = .fin i := by
  have hnotAbove : ¬ accMax < i := by unfold accMax; omega
  have hnotBelow : ¬ i < -accMax := by unfold accMax; omega
  rw [accOf, if_neg hnotAbove, if_neg hnotBelow]

theorem accOf_above {i : Int} (h : 2 ^ 31 - 2 < i) : accOf i = .pinf := by
  have habove : accMax < i := by unfold accMax; omega
  rw [accOf, if_pos habove]

theorem accOf_below {i : Int} (h : i < -(2 : Int) ^ 31 + 2) : accOf i = .ninf := by
  have hnotAbove : ¬ accMax < i := by unfold accMax; omega
  have hbelow : i < -accMax := by unfold accMax; omega
  rw [accOf, if_neg hnotAbove, if_pos hbelow]

theorem accAdd_poison_right (v : AccVal) : accAdd v .poison = .poison := by
  cases v <;> rfl

/-- Settles O19: two finite operands follow the range rule; every other entry of Table 02.10 is an equation of the addition. -/
theorem accumulatorSums : Obligations.AccumulatorSums := by
  intro x y v
  exact ⟨accOf_inRange, accOf_above, accOf_below, rfl, accAdd_poison_right v, rfl, rfl, rfl, rfl, rfl, rfl, rfl, rfl,
    fun hlo hhi => accOf_inRange (i := x + -y) hlo hhi, rfl, rfl, rfl⟩

/-! ### Fields of words and of registers -/

/-- A word with a field replaced, in three parts: below the field, the field, and above it. -/
theorem setBits_eq (x lo n v : Nat) :
    setBits x lo n v = x % 2 ^ lo + 2 ^ lo * (v % 2 ^ n + 2 ^ n * (x / 2 ^ (lo + n))) := by
  have hword : 2 ^ lo * (x / 2 ^ lo) + x % 2 ^ lo = x := Nat.div_add_mod ..
  have hrest : 2 ^ n * (x / 2 ^ lo / 2 ^ n) + x / 2 ^ lo % 2 ^ n = x / 2 ^ lo := Nat.div_add_mod ..
  have hsplit : x = x % 2 ^ lo + 2 ^ lo * (2 ^ n * (x / 2 ^ (lo + n))) + x / 2 ^ lo % 2 ^ n * 2 ^ lo := by
    rw [pow_add, ← Nat.div_div_eq_div_mul]
    calc x = 2 ^ lo * (2 ^ n * (x / 2 ^ lo / 2 ^ n) + x / 2 ^ lo % 2 ^ n) + x % 2 ^ lo := by rw [hrest, hword]
      _ = _ := by ring
  have hkept : x - bits x lo n * 2 ^ lo = x % 2 ^ lo + 2 ^ lo * (2 ^ n * (x / 2 ^ (lo + n))) :=
    Nat.sub_eq_of_eq_add hsplit
  rw [setBits, hkept]
  ring

/-- A field depends on no bit above it. -/
theorem bits_congr {x y m i k : Nat} (h : x % 2 ^ m = y % 2 ^ m) (hm : i + k ≤ m) : bits x i k = bits y i k := by
  have hfield (z : Nat) : bits z i k = z % 2 ^ m % 2 ^ (i + k) / 2 ^ i := by
    rw [Nat.mod_mod_of_dvd z (pow_dvd_pow 2 hm), pow_add, Nat.mod_mul_right_div_self, bits]
  rw [hfield x, hfield y, h]

theorem bits_setBits_same (x lo n v : Nat) : bits (setBits x lo n v) lo n = v % 2 ^ n := by
  have hbelow : x % 2 ^ lo / 2 ^ lo = 0 := Nat.div_eq_of_lt (Nat.mod_lt _ (Nat.two_pow_pos lo))
  rw [setBits_eq, bits, Nat.add_mul_div_left _ _ (Nat.two_pow_pos lo), hbelow, Nat.zero_add, Nat.add_mul_mod_self_left,
    Nat.mod_mod]

/-- Replacing a field leaves the fields above it. -/
theorem bits_setBits_above {lo n i : Nat} (x v k : Nat) (h : lo + n ≤ i) : bits (setBits x lo n v) i k = bits x i k := by
  have hlow : x % 2 ^ lo + 2 ^ lo * (v % 2 ^ n) < 2 ^ (lo + n) := by
    have hx : x % 2 ^ lo < 2 ^ lo := Nat.mod_lt _ (Nat.two_pow_pos lo)
    have hv : v % 2 ^ n + 1 ≤ 2 ^ n := Nat.mod_lt _ (Nat.two_pow_pos n)
    calc x % 2 ^ lo + 2 ^ lo * (v % 2 ^ n) < 2 ^ lo * (v % 2 ^ n + 1) := by rw [Nat.mul_succ]; omega
      _ ≤ 2 ^ lo * 2 ^ n := Nat.mul_le_mul_left _ hv
      _ = 2 ^ (lo + n) := (pow_add ..).symm
  have hhigh : setBits x lo n v / 2 ^ (lo + n) = x / 2 ^ (lo + n) := by
    rw [setBits_eq, Nat.mul_add, ← Nat.mul_assoc, ← pow_add, ← Nat.add_assoc, Nat.add_mul_div_left _ _ (Nat.two_pow_pos _),
      Nat.div_eq_of_lt hlow, Nat.zero_add]
  have hpow : 2 ^ i = 2 ^ (lo + n) * 2 ^ (i - (lo + n)) := by rw [← pow_add, Nat.add_sub_cancel' h]
  rw [bits, bits, hpow, ← Nat.div_div_eq_div_mul, ← Nat.div_div_eq_div_mul, hhigh]

/-- Replacing a field leaves the fields below it. -/
theorem bits_setBits_below {lo i k : Nat} (x n v : Nat) (h : i + k ≤ lo) : bits (setBits x lo n v) i k = bits x i k := by
  apply bits_congr _ h
  rw [setBits_eq, Nat.add_mul_mod_self_left, Nat.mod_mod]

/-- A bit is a field of one bit. -/
theorem bit_eq_true_iff (x i : Nat) : bit x i = true ↔ bits x i 1 = 1 := by
  simp [bit, bits]

/-- A field of a register that has been written, read in the word that was written. -/
theorem fld_setFld {s : State} (hs : Good s) (a lo n v : Nat) {i k : Nat} (h : i + k ≤ 64) :
    (s.setFld a lo n v).fld a i k = bits (setBits (s.reg a).toNat lo n v) i k := by
  rw [State.fld, reg_setFld_same s a lo n v hs, BitVec.toNat_ofNat]
  exact bits_congr (Nat.mod_mod ..) h

/-- Noting the instant of a sticky bit leaves the registers. -/
theorem reg_sticky (s : State) (a i b : Nat) : (s.sticky a i).reg b = (s.setFld a i 1 1).reg b := rfl

section
variable {s : State} (hs : Good s) (a : Nat)
include hs

theorem fld_setFld_same {lo n v : Nat} (hv : v < 2 ^ n) (h : lo + n ≤ 64) : (s.setFld a lo n v).fld a lo n = v := by
  rw [fld_setFld hs a lo n v h, bits_setBits_same, Nat.mod_eq_of_lt hv]

theorem fld_setFld_above {lo n i k : Nat} (v : Nat) (habove : lo + n ≤ i) (h : i + k ≤ 64) :
    (s.setFld a lo n v).fld a i k = s.fld a i k := by
  rw [fld_setFld hs a lo n v h, bits_setBits_above _ _ _ habove, State.fld]

theorem fld_sticky_below {b i k : Nat} (hbelow : i + k ≤ b) (h : i + k ≤ 64) : (s.sticky a b).fld a i k = s.fld a i k := by
  rw [State.fld, reg_sticky, ← State.fld, fld_setFld hs a b 1 1 h, bits_setBits_below _ _ _ hbelow, State.fld]

theorem flag_sticky {b : Nat} (h : b + 1 ≤ 64) : (s.sticky a b).flag a b = true := by
  rw [State.flag, reg_sticky, bit_eq_true_iff, ← State.fld, fld_setFld_same hs a (by decide) h]

end

/-! ### Command words that no command register takes (R60, R86, R273, R340, R389) -/

/-- `t` is reached from `s` by writing register `r` alone. -/
structure WritesOnly (r : Nat) (s t : State) : Prop where
  good : Good t
  other : ∀ b, b ≠ r → t.reg b = s.reg b
  frame : OnlyRegs s t

theorem WritesOnly.refl {s : State} (hs : Good s) (r : Nat) : WritesOnly r s s := ⟨hs, fun _ _ => rfl, .refl s⟩

theorem WritesOnly.setFld {r : Nat} {s t : State} (h : WritesOnly r s t) (hr : 4 < r) (lo n v : Nat) :
    WritesOnly r s (t.setFld r lo n v) :=
  ⟨(State.setFld_kept (.refl .none t) hr).good h.good,
    fun b hb => (reg_setFld_other _ _ _ _ _ _ hb).trans (h.other b hb), h.frame.setFld ..⟩

theorem WritesOnly.sticky {r : Nat} {s t : State} (h : WritesOnly r s t) (hr : 4 < r) (b : Nat) :
    WritesOnly r s (t.sticky r b) :=
  ⟨(State.sticky_kept (.refl .none t) hr).good h.good, (h.setFld hr b 1 1).other, h.frame.sticky ..⟩

/-- From `s` to `t` the status register `r` has taken the result `res`, at bit `lo`, and its sticky error bit `e`; no other
register and nothing else but the bits that hardware has just set differs. -/
def Reported (r lo e res : Nat) (s t : State) : Prop :=
  t.fld r lo 3 = res ∧ t.flag r e = true ∧ (∀ b, b ≠ r → t.reg b = s.reg b) ∧ t = { s with regs := t.regs, hot := t.hot }

/-- Setting the error bit above a result that stands in the status register reports it. -/
theorem WritesOnly.reported {r lo e res : Nat} {s t : State} (h : WritesOnly r s t) (hr : 4 < r) (hlo : lo + 3 ≤ e)
    (he : e + 1 ≤ 64) (hres : t.fld r lo 3 = res) : Reported r lo e res s (t.sticky r e) :=
  ⟨by rw [fld_sticky_below h.good r hlo (by omega), hres], flag_sticky h.good r he, (h.sticky hr e).other,
    (h.sticky hr e).frame⟩

section
variable {s : State} (hs : Good s)
include hs

theorem shadowStat_reported (p k bank : Nat) :
    Reported (siteReg p rCOMB_SHADOW_STAT) 24 30 3 s (s.shadowStat p k bank 3) := by
  have hr : 4 < siteReg p rCOMB_SHADOW_STAT := lt_siteReg ..
  have hw := ((WritesOnly.refl hs _).setFld hr 0 13 k).setFld hr 16 8 bank
  exact (hw.setFld hr 24 3 3).reported hr (by decide) (by decide) (fld_setFld_same hw.good _ (by decide) (by decide))

theorem stageStat_reported (p k set : Nat) : Reported (siteReg p rRQ_STAGE_STAT) 24 30 3 s (s.stageStat p k set 3) := by
  have hr : 4 < siteReg p rRQ_STAGE_STAT := lt_siteReg ..
  have hw := ((WritesOnly.refl hs _).setFld hr 0 13 k).setFld hr 16 4 set
  exact (hw.setFld hr 24 3 3).reported hr (by decide) (by decide) (fld_setFld_same hw.good _ (by decide) (by decide))

theorem domStat_reported (d : Nat) : Reported rDOM_CMD_STAT 24 31 1 s (s.domStat d 1) := by
  have hr : 4 < rDOM_CMD_STAT := by decide
  have hw := (WritesOnly.refl hs _).setFld hr 24 3 1
  refine (hw.setFld hr 0 9 d).reported hr (by decide) (by decide) ?_
  rw [fld_setFld_above hw.good _ _ (by decide) (by decide), fld_setFld_same hs _ (by decide) (by decide)]

theorem partResult_reported (cmd n : Nat) : Reported rPART_CMD_STAT 24 31 7 s (s.partResult cmd n 7) := by
  have hr : 4 < rPART_CMD_STAT := by decide
  have hres := (WritesOnly.refl hs _).setFld hr 24 3 7
  have hcmd := hres.setFld hr 20 4 cmd
  refine (hcmd.setFld hr 0 4 n).reported hr (by decide) (by decide) ?_
  rw [fld_setFld_above hcmd.good _ _ (by decide) (by decide), fld_setFld_above hres.good _ _ (by decide) (by decide),
    fld_setFld_same hs _ (by decide) (by decide)]

theorem secResult_reported (n : Nat) : Reported rSEC_BOOT_STAT 27 31 2 s (s.secResult 2 n) := by
  have hr : 4 < rSEC_BOOT_STAT := by decide
  have hw := (WritesOnly.refl hs _).setFld hr 27 3 2
  refine (hw.setFld hr 4 4 n).reported hr (by decide) (by decide) ?_
  rw [fld_setFld_above hw.good _ _ (by decide) (by decide), fld_setFld_same hs _ (by decide) (by decide)]

end

theorem exec_domCmdInvalid_noCmd (s : State) {w : BitVec 32} (hcmd : bits w.toNat 24 4 = 0) :
    exec (.domCmdInvalid w) s = .next (s.domStat (bits w.toNat 0 9) 1) := by
  simp [exec, execDomCmdInvalid, hcmd]

theorem exec_partCmdInvalid_noCmd {s : State} {w : BitVec 32} (hcmd : bits w.toNat 20 4 = 0) (hready : s.ready = true) :
    exec (.partCmdInvalid w) s = .next (s.partResult 0 (bits w.toNat 0 4) 7) := by
  simp [exec, execPartCmdInvalid, hcmd, hready]

theorem exec_secBootCmdInvalid_noCmd {s : State} {w : BitVec 32} {port : Nat} (hcmd : bits w.toNat 24 4 = 0)
    (hopen : s.secOpen port = true) :
    exec (.secBootCmdInvalid w port) s = .next (s.secResult 2 (bits w.toNat 0 4)) := by
  simp [exec, execSecBootCmdInvalid, State.secCommand, hcmd, hopen]

/-- A port whose SEC block is closed is refused whatever the word (R370). -/
theorem exec_secBootCmdInvalid_closed {s : State} (w : BitVec 32) {port : Nat} (hclosed : s.secOpen port = false) :
    exec (.secBootCmdInvalid w port) s = .next (s.sticky rSEC_BOOT_STAT 31) := by
  simp [exec, execSecBootCmdInvalid, State.secCommand, hclosed]

/-- Settles O24: each command writes its block's status, and each status reports. -/
theorem invalidCommandsAreReported : Obligations.InvalidCommandsAreReported := by
  intro s w p port hs _
  refine ⟨fun c r res hc => ?_, fun hcmd => ?_, fun hcmd hready => ?_, fun hcmd hopen => ?_, exec_secBootCmdInvalid_closed w⟩
  · rcases List.mem_pair.1 hc with heq | heq
    · cases heq
      exact ⟨_, rfl, shadowStat_reported hs ..⟩
    · cases heq
      exact ⟨_, rfl, stageStat_reported hs ..⟩
  · exact ⟨_, exec_domCmdInvalid_noCmd s hcmd, domStat_reported hs _⟩
  · exact ⟨_, exec_partCmdInvalid_noCmd hcmd hready, partResult_reported hs ..⟩
  · exact ⟨_, exec_secBootCmdInvalid_noCmd hcmd hopen, secResult_reported hs _⟩

/-! ### Vectors (R37, R38) -/

section
variable {s : State} {a : TileArgs} {h : BitVec 256} {planes : List (BitVec 512)}

theorem exec_vectorConsume_notVector (late delayed : Bool) (hkind : vhKind h.toNat ≠ 0) :
    exec (.vectorConsume a h planes late delayed) s = .next (s.badVector (s.owner a.site) a.site h.toNat 0 8) := by
  simp [exec, execVectorConsume, State.vectorConsume, hkind]

section
variable (hkind : vhKind h.toNat = 0)
include hkind

theorem exec_vectorConsume_bad (late delayed : Bool) {f : Nat}
    (hfail : hdrFail h.toNat (planes.map (·.toNat)) (planes.length * (vhElems h.toNat / 8)) = some f) :
    exec (.vectorConsume a h planes late delayed) s = .next (s.badVector (s.owner a.site) a.site h.toNat 0 f) := by
  simp [exec, execVectorConsume, State.vectorConsume, hkind, hfail]

variable (hgood : hdrFail h.toNat (planes.map (·.toNat)) (planes.length * (vhElems h.toNat / 8)) = none)
include hgood

/-- The first vector of a tile that begins cleared claims the set and enters. -/
theorem exec_vectorConsume_first (late delayed : Bool) (hfirst : a.first = true) (hmode : a.tmode = 0)
    (hclaim : s.claimable (s.pcomb a.site a.comb) a.wfmt = true) :
    exec (.vectorConsume a h planes late delayed) s =
      .next (s.consume a h.toNat (late || vhLate h.toNat) planes none delayed) := by
  simp [exec, execVectorConsume, State.vectorConsume, hkind, hgood, hfirst, hmode, hclaim]

/-- The first vector of a tile whose set is taken stalls the comb (log entry 16). -/
theorem exec_vectorConsume_taken (late delayed : Bool) (hfirst : a.first = true) (hmode : a.tmode ≠ 1)
    (htaken : s.claimable (s.pcomb a.site a.comb) a.wfmt = false) :
    exec (.vectorConsume a h planes late delayed) s = .next (s.stallSet a.site (s.pcomb a.site a.comb)) := by
  simp [exec, execVectorConsume, State.vectorConsume, hkind, hgood, hfirst, hmode, htaken]

/-- A later vector enters the tile that is open. -/
theorem exec_vectorConsume_later (late delayed : Bool) (hlater : a.first = false)
    (hfilling : (s.accSet (s.pcomb a.site a.comb) (s.curSet (s.pcomb a.site a.comb) a.wfmt)).st = .filling) :
    exec (.vectorConsume a h planes late delayed) s =
      .next (s.consume a h.toNat (late || vhLate h.toNat) planes none delayed) := by
  simp [exec, execVectorConsume, State.vectorConsume, hkind, hgood, hlater, hfilling]

end
end

section
variable {s : State} {site slot chan0 comb layer tag : Nat} {h : BitVec 256} {late : Bool} {xs : List (BitVec 16)}

theorem exec_ingressBlock_bad {f : Nat} (hfail : ingressFail h.toNat (32 * ceilDiv (2 * xs.length) 32) = some f) :
    exec (.ingressBlock site slot chan0 comb layer tag h late xs) s =
      .next (s.badVector (s.owner site) site h.toNat 5 f) := by
  simp [exec, execIngressBlock, hfail]

theorem exec_ingressBlock_formed {r : ZrVec} {u : State}
    (hgood : ingressFail h.toNat (32 * ceilDiv (2 * xs.length) 32) = none)
    (hformed : s.ingress site slot chan0 h.toNat (s.gcomb site comb) layer tag (vhStream h.toNat) (late || vhLate h.toNat) xs =
      (r, u)) :
    exec (.ingressBlock site slot chan0 comb layer tag h late xs) s =
      .next (u.emit (.vector site r.hdr (r.planes.map (·.toNat)))) := by
  simp [exec, execIngressBlock, hgood, hformed]

end

/-! ### Tiles (R38, R39, R54, R68, R80) -/

section
variable {s : State} {a : TileArgs} {i : Nat}

/-- A tile without a threshold goes from filling to draining. -/
theorem exec_tileFillEnd_noThreshold (hthr : a.thr = none) (hi : i = s.curSet (s.pcomb a.site a.comb) a.wfmt)
    (hfilling : (s.accSet (s.pcomb a.site a.comb) i).st = .filling) :
    exec (.tileFillEnd a) s = .next (s.setTile (s.pcomb a.site a.comb) i a.wfmt
      { s.tile (s.pcomb a.site a.comb) i a.wfmt with
        m := { (s.tile (s.pcomb a.site a.comb) i a.wfmt).m with st := .draining } }) := by
  subst hi
  simp [exec, execTileFillEnd, State.fillEnd, hfilling, hthr]

variable (hfmt : a.wfmt ≠ 0)
include hfmt

theorem exec_drainComplete_draining
    (hset : s.findSet (s.pcomb a.site a.comb) (fun x => decide (x.st = .draining) && x.fbGain.isNone) = some i) :
    exec (.drainComplete a) s = .next (s.drainTile a i) := by
  simp only [exec, execDrainComplete, hset, if_neg hfmt]

theorem exec_fallbackComplete_draining {g : BitVec 32}
    (hset : s.findSet (s.pcomb a.site a.comb) (fun x => decide (x.st = .draining) && x.fbGain.isSome) = some i)
    (hgain : (s.accSet (s.pcomb a.site a.comb) i).fbGain = some g) :
    exec (.fallbackComplete a) s = .next (s.fallbackTile a i g) := by
  simp only [exec, execFallbackComplete, hset, if_neg hfmt, hgain, Option.getD_some]

theorem exec_exactDrainComplete_held
    (hset : s.findSet (s.pcomb a.site a.comb) (fun x => decide (x.st = .held)) = some i) :
    exec (.exactDrainComplete a) s = .next (s.exactDrain a i) := by
  simp only [exec, execExactDrainComplete, hset, if_neg hfmt]

end

/-- Settles O18: the vectors by the check, the set and the tile that they meet, and the tile's four transitions. -/
theorem vectorsAndTiles : Obligations.VectorsAndTiles := by
  refine ⟨fun s a h planes late delayed => ⟨?_, fun hkind hgood => ⟨?_, ?_, ?_⟩, fun slot chan0 comb layer tag xs => ⟨?_, ?_⟩⟩,
    fun s a => ⟨fun hfilling hthr => exec_tileFillEnd_noThreshold hthr rfl hfilling,
      fun _ => exec_drainComplete_draining, fun _ _ hfmt => exec_fallbackComplete_draining hfmt,
      fun _ => exec_exactDrainComplete_held⟩⟩
  · rintro f (⟨hkind, rfl⟩ | ⟨hkind, hfail⟩)
    · rw [exec_vectorConsume_notVector late delayed hkind, State.badVector, Nat.zero_add]
    · rw [exec_vectorConsume_bad hkind late delayed hfail, State.badVector, Nat.zero_add]
  · exact exec_vectorConsume_first hkind hgood late delayed
  · exact exec_vectorConsume_taken hkind hgood late delayed
  · exact exec_vectorConsume_later hkind hgood late delayed
  · exact fun _ => exec_ingressBlock_bad
  · exact fun hgood => ⟨_, exec_ingressBlock_formed hgood rfl, _, _, rfl, rfl⟩

/-! ### Shadow slots (R56-R58) -/

section
variable {s : State} {p k bank : Nat}

/-- An OPEN of a bank without an open slot takes the first slot when it is free and not retired. -/
theorem exec_shadowOpen_free (hnone : s.openShadow (s.pcomb p k) bank = none)
    (hfree : (s.shadow (s.pcomb p k) 0).st = .free)
    (hsound : (s.slotHdr (slotKey (s.pcomb p k) (s.shadow (s.pcomb p k) 0).slot)).retired = false) :
    exec (.shadowOpen p k bank) s =
      .next (((s.setShadow (s.pcomb p k) 0 { s.shadow (s.pcomb p k) 0 with
        st := .opened, bank := bank, rows := 0, metaW := 0, eligible := 0, linked := false }).clearBad p
          (slotKey (s.pcomb p k) (s.shadow (s.pcomb p k) 0).slot)).shadowOk p k bank (s.pcomb p k) 0) := by
  simp [exec, execShadowOpen, hnone, hfree, hsound]

theorem exec_shadowArm_none (hnone : s.openShadow (s.pcomb p k) bank = none) :
    exec (.shadowArm p k bank) s = .next (s.shadowStat p k bank 2) := by
  simp only [exec, execShadowArm, hnone]

theorem exec_shadowCancel_none (hnone : s.openShadow (s.pcomb p k) bank = none) :
    exec (.shadowCancel p k bank) s = .next (s.shadowStat p k bank 2) := by
  simp only [exec, execShadowCancel, hnone]

variable {i : Nat} (hopen : s.openShadow (s.pcomb p k) bank = some i)
include hopen

theorem exec_shadowOpen_busy :
    exec (.shadowOpen p k bank) s =
      .next ((s.shadowStat p k bank 1).raise 0x0046 (s.owner p) 0x3FFF p (k + bank * 2 ^ 13) 0) := by
  simp only [exec, execShadowOpen, hopen]

theorem exec_shadowArm_opened (hst : (s.shadow (s.pcomb p k) i).st = .opened) :
    exec (.shadowArm p k bank) s = .next ((s.setShadow (s.pcomb p k) i { s.shadow (s.pcomb p k) i with
      st := if s.shadowComplete (s.pcomb p k) i then .completeArmed else .armed,
      eligible := s.nextStroke (s.owner p) }).shadowOk p k bank (s.pcomb p k) i) := by
  simp only [exec, execShadowArm, hopen, hst, if_true]

theorem exec_shadowCancel_unlinked (hlink : (s.shadow (s.pcomb p k) i).linked = false) :
    exec (.shadowCancel p k bank) s = .next ((s.setShadow (s.pcomb p k) i
      { Shadow.init (i % 2) with slot := (s.shadow (s.pcomb p k) i).slot }).shadowOk p k bank (s.pcomb p k) i) := by
  simp only [exec, execShadowCancel, hopen, hlink, Bool.false_and, Bool.false_eq_true, if_false]

end

/-! ### The staging buffer (R72-R75) -/

section
variable {s : State} {p k set : Nat}

section
variable (hidle : mget 0 s.rq.pend (s.pcomb p k) = 0)
include hidle

theorem exec_rqCommit_idle :
    exec (.rqCommit p k set) s = .next (({ s with rq := { s.rq with
      pend := mset 0 s.rq.pend (s.pcomb p k) (set + 1 + 32 * s.nextStroke (s.owner p)) } } : State).stageStat p k set 0) := by
  simp only [exec, execRqCommit, hidle, ne_eq, not_true_eq_false, if_false]

theorem exec_rqCancel_idle : exec (.rqCancel p k set) s = .next (s.stageStat p k set 2) := by
  simp only [exec, execRqCancel, hidle, if_true]

theorem exec_stagingWrite_idle {w : Nat} (v : BitVec 32) (hw : w < 576) :
    exec (.stagingWrite p k w v) s =
      .next { s with rq := { s.rq with stage := mset 0 s.rq.stage (stageKey (s.pcomb p k) w) v } } := by
  simp only [exec, execStagingWrite, State.stagingWrite, hidle, ne_eq, not_true_eq_false, if_false, if_pos hw]

end

section
variable (hpend : mget 0 s.rq.pend (s.pcomb p k) ≠ 0)
include hpend

theorem exec_rqCommit_pending : exec (.rqCommit p k set) s = .next (s.stageStat p k set 1) := by
  simp only [exec, execRqCommit, if_pos hpend]

theorem exec_rqCancel_pending :
    exec (.rqCancel p k set) s = .next (({ s with rq := { s.rq with
      pend := mset 0 s.rq.pend (s.pcomb p k) 0 } } : State).stageStat p k set 0) := by
  simp only [exec, execRqCancel, if_neg hpend]

theorem exec_stagingWrite_pending (w : Nat) (v : BitVec 32) :
    exec (.stagingWrite p k w v) s = .next (s.sticky (siteReg p rRQ_STAGE_STAT) 31) := by
  simp only [exec, execStagingWrite, State.stagingWrite, if_pos hpend]

end
end

/-- Settles O22: the shadow commands by whether the bank is open, those of the staging buffer by whether a commit waits. -/
theorem shadowAndStagingCommands : Obligations.ShadowAndStagingCommands :=
  ⟨fun _ _ _ _ => ⟨exec_shadowOpen_free,
      fun _ hopen => ⟨exec_shadowOpen_busy hopen, exec_shadowArm_opened hopen, exec_shadowCancel_unlinked hopen⟩,
      fun hnone => ⟨exec_shadowArm_none hnone, exec_shadowCancel_none hnone⟩⟩,
    fun _ _ _ _ =>
      ⟨fun hidle => ⟨exec_rqCommit_idle hidle, exec_rqCancel_idle hidle, fun _ => exec_stagingWrite_idle hidle⟩,
        fun hpend => ⟨exec_rqCommit_pending hpend, exec_rqCancel_pending hpend, exec_stagingWrite_pending hpend⟩⟩⟩

end Sys2Proof.Machine
end

section
/-! PROOFS. The statement on sparsity (chapter 04): the entries and tiles of the packer, and the arrivals and results of the
merge tree. -/

namespace Sys2Proof.Machine

/-! ### The packer (R94-R100) -/

/-- The packer of site `p` holds `e`. -/
def State.setPacker (s : State) (p : Nat) (e : Option (BitVec 256)) : State :=
  { s with sparse := { s.sparse with packer := mset none s.sparse.packer p e } }

/-- The slot that entry `e` writes in this bank, if it may (R27). -/
def State.entrySlot (s : State) (p e bank : Nat) : Option Nat := s.packSlot p (s.pcomb p (peComb e)) bank (peShadow e)

/-- The write of the tile of entry `e` to this bank is denied, at the first row of the bank (R27, log entry 129). -/
def State.denyTile (s : State) (p e bank : Nat) : State :=
  s.accessFault 0x3044 (s.owner p) p (mkAddr 1 p (b2n (peShadow e) * 2 ^ 35 + peComb e * 2 ^ 21 + bank * 2 ^ 13)) 0x10

/-- The complete tile of entry `e` meets the slot of its bank and the slot that an AUTO entry needs of the next bank: it is
packed where both may be written, and denied at the first that may not. -/
def State.storeTile (s : State) (p e : Nat) (slot slot2 : Option Nat) (rows : List (BitVec 256)) (zp : List Nat) : State :=
  match slot, slot2 with
  | some a, some b => s.packTile p e a b rows zp
  | none, _ => s.denyTile p e (peBank e)
  | _, none => s.denyTile p e (peBank e + 1)

section
variable {s : State} {p : Nat} {e : BitVec 256}

theorem exec_packEntry_taken (hfail : s.packFail p e.toNat = none) :
    exec (.packEntry p e) s = .next (s.setPacker p (some e)) := by
  simp only [exec, execPackEntry, hfail, State.setPacker]

theorem exec_packEntry_refused {f : Nat} (hfail : s.packFail p e.toNat = some f) :
    exec (.packEntry p e) s = .next ((s.setPacker p none).raise 0x30C5 (s.owner p) 0x3FFF p
      (peComb e.toNat + peBank e.toNat * 2 ^ 13 + peMode e.toNat * 2 ^ 21) (peSeq e.toNat + f * 2 ^ 16)) := by
  simp only [exec, execPackEntry, hfail, State.setPacker]

variable (hheld : mget none s.sparse.packer p = some e) (rows : List (BitVec 256)) (zp : List (BitVec 8))
include hheld

/-- The packer gives up its entry, whose tile is stored. The slots are judged in the state before, since they do not depend on
what the packer holds. -/
theorem exec_packTileComplete_held :
    exec (.packTileComplete p rows zp) s = .next ((s.setPacker p none).storeTile p e.toNat
      (s.entrySlot p e.toNat (peBank e.toNat))
      (if peMode e.toNat = 2 then s.entrySlot p e.toNat (peBank e.toNat + 1) else some 0) rows (zp.map (fun b => b.toNat))) := by
  simp only [exec, execPackTileComplete, hheld]
  rfl

theorem exec_packTileComplete_packed {a b : Nat}
    (hslot : s.entrySlot p e.toNat (peBank e.toNat) = some a)
    (hnext : (if peMode e.toNat = 2 then s.entrySlot p e.toNat (peBank e.toNat + 1) else some 0) = some b) :
    exec (.packTileComplete p rows zp) s =
      .next ((s.setPacker p none).packTile p e.toNat a b rows (zp.map (fun b => b.toNat))) := by
  rw [exec_packTileComplete_held hheld, hslot, hnext, State.storeTile]

theorem exec_packTileComplete_denied (hslot : s.entrySlot p e.toNat (peBank e.toNat) = none) :
    exec (.packTileComplete p rows zp) s = .next ((s.setPacker p none).denyTile p e.toNat (peBank e.toNat)) := by
  rw [exec_packTileComplete_held hheld, hslot, State.storeTile]

end

/-! ### The merge tree (R110, R111) -/

/-- An arrival that its open context expects, and has not had, is written to the staging slot of its rank and counted. -/
theorem mergeArrive_expected {s : State} {p hdr : Nat} {x : MergeCtx} (payload : Nat) (late : Bool)
    (hx : s.mergeCtx p (vhMctx hdr) = x) (hopen : x.opened = true) (hstream : x.stream = vhStream hdr)
    (htoken : x.token = vhToken hdr) (hexpect : bit x.expect.toNat (vhRank hdr) = true)
    (hfirst : bit x.arrived.toNat (vhRank hdr) = false) :
    s.mergeArrive p hdr payload late =
      ((s.writeGran p (x.stageOf (vhRank hdr) / 64) (hdr + 2 ^ 256 * (payload % 2 ^ (512 * (x.nval + 1))))
          (x.nval + 2)).setMergeCtx p (vhMctx hdr) { x with
            arrived := x.arrived ||| BitVec.ofNat 256 (2 ^ vhRank hdr),
            latem := x.latem || vhLate hdr || late }).bump (siteReg p rSPARSE_CNT_MARR) := by
  simp [State.mergeArrive, hx, hopen, hstream, htoken, hexpect, hfirst]

/-- A sound vector with MRG is an arrival at the merge tree. -/
theorem exec_mergeArrival_sound {s : State} {p : Nat} {h : BitVec 256} {xs : List (BitVec 32)} (late : Bool)
    (hgood : hdrFail h.toNat [] (32 * ceilDiv (4 * xs.length) 32) = none) (hmrg : vhMrg h.toNat = true) :
    exec (.mergeArrival p h xs late) s = .next (s.mergeArrive p h.toNat (packNat 32 (xs.map (·.toNat))) late) := by
  simp only [exec, execMergeArrival, hgood, hmrg, if_true]

theorem exec_mergeResultWrite_complete {s : State} {p m : Nat} (hopen : (s.mergeCtx p m).opened = true)
    (hall : (s.mergeCtx p m).arrived = (s.mergeCtx p m).expect) :
    exec (.mergeResultWrite p m) s = .next (s.mergeFinish p m false) := by
  simp [exec, execMergeResultWrite, hopen, hall]

/-- Settles O23: an entry by its check, a tile by the slots of its entry, an arrival and a result by their context. -/
theorem packAndMerge : Obligations.PackAndMerge := by
  intro s p
  refine ⟨fun e => exec_packEntry_taken, fun e f => exec_packEntry_refused, ?_, ?_, fun m => exec_mergeResultWrite_complete⟩
  · rintro e rows zp u hheld rfl
    exact ⟨fun a b => exec_packTileComplete_packed hheld rows zp, exec_packTileComplete_denied hheld rows zp⟩
  · intro h xs late hgood hmrg hopen hstream htoken hexpect hfirst
    rw [exec_mergeArrival_sound late hgood hmrg, mergeArrive_expected _ late rfl hopen hstream htoken hexpect hfirst]

end Sys2Proof.Machine
end

section
/-! PROOFS. The statements on strokes (chapter 05): panel time and the tick generator, the edges at J9, and the phases of a
stroke. -/

namespace Sys2Proof.Machine

/-! ### Panel time and the core of the tick generator (R116, R118) -/

theorem licence_none {c : Instr} (hreset : mayReset c = false) (hedge : ∀ a, c ≠ .tickEdge a) : licence c = .none := by
  unfold licence
  split
  · exact absurd rfl (hedge _)
  · simp [hreset]

/-- Settles O6: panel time goes on under every licence, and the core of the generator stays without one. -/
theorem timeAndTicksOnlyAdvance : Obligations.TimeAndTicksOnlyAdvance :=
  ⟨fun _ _ _ he => (kept_of_exec he).on.time,
    fun _ _ _ hreset hedge he => (kept_of_exec he).on.core (licence_none hreset hedge)⟩

/-! ### The tick edge (R116, R119, R130) -/

/-- The instant of the edge that is due: the first edge brings its own, the generator gives every other (R119). -/
def State.edgeInstant (s : State) (a : EdgeArg) : Nat := if s.tick.started then s.nextEdge.1 else a.first

/-- The edge before it is counted: the period that ends is closed, and the next one opens. -/
def State.turnPeriod (s : State) (a : EdgeArg) : State :=
  (if !s.tick.started then s.at (s.edgeInstant a) else (s.at (s.edgeInstant a)).endPeriod a).openPeriod (!s.tick.started)

/-- The generator after a counted edge: a realign stroke that ends is recorded with its `e`, and an edge taken early is the
measured error of this tick (R119, R121). -/
def State.settleErr (s : State) (realigned : Bool) (e : Option Int) : State :=
  let s := if realigned then
      (s.bump rSTRK_CNT_REALIGN).recordTick 0x0102 (s.tick.active + s.tick.active * 4) (unsigned 32 (e.getD 0))
    else s
  let early := s.tick.early
  let s := (s.setFld rSTRK_STATUS 5 1 0).updTick (fun k => { k with
    realign := k.realign && e.isNone, err := k.early, early := none })
  match early with
  | some x => s.measured x
  | none => s

/-- Steps 2 to 8 of Table 05.4. -/
def State.edgeSteps (s : State) (first missing : Bool) : State :=
  let s := (s.applySettings.stepSource missing).takeGrant.pairEdge
  let ran := (List.range 16).filter (fun n => (s.part n).st == .running)
  ((List.range 16).foldl (fun (s : State) n => s.partEdge ran first n) s.partsAtEdge).openOwners.pairSends

section
variable {r : Lic} {s0 s : State} (hK : Kept r s0 s)
include hK

theorem State.settleErr_kept (realigned : Bool) (e : Option Int) : Kept r s0 (s.settleErr realigned e) := by
  unfold State.settleErr
  extract_lets u early v
  have hu : Kept r s0 u := .ite (fun _ => recordTick_kept (bump_kept hK (by decide))) (fun _ => hK)
  have hv : Kept r s0 v := updTick_kept (setFld_kept hu (by decide)) (fun _ _ => rfl)
  clear_value early
  cases early with
  | none => exact hv
  | some x => exact measured_kept hv

theorem State.edgeSteps_kept (first missing : Bool) : Kept r s0 (s.edgeSteps first missing) :=
  pairSends_kept (openOwners_kept (.foldl
    (partsAtEdge_kept (pairEdge_kept (takeGrant_kept (stepSource_kept (applySettings_kept hK)))))
    (fun _ _ hv => partEdge_kept hv)))

end

section
variable (s : State) (a : EdgeArg)

theorem State.turnPeriod_kept (r : Lic) : Kept r (s.at (s.edgeInstant a)) (s.turnPeriod a) :=
  openPeriod_kept (.ite (fun _ => .refl _ _) (fun _ => endPeriod_kept (.refl _ _)))

theorem time_countTick (inst : Nat) : (s.countTick inst).time = s.time := by
  unfold State.countTick
  dsimp only
  split <;> rfl

theorem tickCore_countTick (inst : Nat) :
    tickCore (s.countTick inst).tick = (true, if s.tick.started then s.tick.number + 1 else 0, inst) := by
  unfold State.countTick
  dsimp only
  split <;> rfl

variable {s a}

/-- The edge of a panel in operation, as what it does before the tick is counted, the count, and what follows. -/
theorem tickEdge_ready (hready : s.phase = 6) :
    s.tickEdge a = (((s.turnPeriod a).countTick (s.edgeInstant a)).settleErr (s.nextEdge.2 && s.tick.started)
      (s.turnPeriod a).tick.err).edgeSteps (!s.tick.started)
        (s.tick.started && s.tick.active == 0 && s.tick.err.isNone && !(s.tick.realign && s.tick.early.isSome)) := by
  unfold State.tickEdge
  rw [if_neg (by simp [hready])]
  cases hs : s.tick.started <;> simp [State.turnPeriod, State.edgeInstant, hs] <;> rfl

/-- Nothing that an edge does after the count touches the core of the generator, or turns panel time back. -/
theorem tickEdge_kept_counted (hready : s.phase = 6) (r : Lic) :
    Kept r ((s.turnPeriod a).countTick (s.edgeInstant a)) (s.tickEdge a) := by
  rw [tickEdge_ready hready]
  exact State.edgeSteps_kept (State.settleErr_kept (.refl _ _) _ _) _ _

theorem tickCore_tickEdge (hready : s.phase = 6) :
    tickCore (s.tickEdge a).tick = (true, if s.tick.started then s.tick.number + 1 else 0, s.edgeInstant a) := by
  have hturn : tickCore (s.turnPeriod a).tick = tickCore s.tick := (State.turnPeriod_kept s a .none).on.core rfl
  obtain ⟨hstarted, hnumber, -⟩ : (s.turnPeriod a).tick.started = s.tick.started ∧
      (s.turnPeriod a).tick.number = s.tick.number ∧ _ := by simpa [tickCore] using hturn
  rw [(tickEdge_kept_counted hready .none).on.core rfl, tickCore_countTick, hstarted, hnumber]

theorem edgeInstant_le_time_tickEdge (hready : s.phase = 6) : s.edgeInstant a ≤ (s.tickEdge a).time :=
  calc s.edgeInstant a
    _ ≤ (s.at (s.edgeInstant a)).time := Nat.le_max_right ..
    _ ≤ (s.turnPeriod a).time := (State.turnPeriod_kept s a .none).on.time
    _ = ((s.turnPeriod a).countTick (s.edgeInstant a)).time := (time_countTick ..).symm
    _ ≤ (s.tickEdge a).time := (tickEdge_kept_counted hready .none).on.time

end

/-- Settles O13: the count fixes the core of the generator, and nothing after it touches the core. -/
theorem tickEdgeCounts : Obligations.TickEdgeCounts := by
  intro s a hready
  obtain ⟨hstarted, hnumber, hlast⟩ : (s.tickEdge a).tick.started = true ∧ _ ∧ (s.tickEdge a).tick.last = s.edgeInstant a := by
    simpa [tickCore] using tickCore_tickEdge (a := a) hready
  exact ⟨s.tickEdge a, rfl, hstarted, hnumber, hlast, hlast ▸ edgeInstant_le_time_tickEdge hready⟩

/-! ### Edges at J9 (R120, R122, R475) -/

/-- The generator after an edge at J9 at `t`, with the one before it at `l`: the edge counts towards the qualification of J9 when the
two are a period `p` apart within `tol`, and begins it anew when they are not (R120). -/
def TickSt.countJ9 (k : TickSt) (l p tol t : Nat) : TickSt :=
  { k with
    lastJ9 := some t
    qualJ9 := if ((t : Int) - (l + p : Nat)).natAbs ≤ tol then min 15 (k.qualJ9 + 1) else 0 }

section
variable {s : State} {t l high : Nat} (hl : s.tick.lastJ9 = some l)
include hl

theorem exec_tickInEdge_ignored (hedge : t < l + 1000 ∨ high < 100) : exec (.tickInEdge high t) s = .next (s.at t) := by
  simp [exec, execTickInEdge, hl, hedge]

theorem exec_tickInEdge_counted (hhigh : 100 ≤ high) (hgap : l + 1000 ≤ t) :
    exec (.tickInEdge high t) s =
      .next (((s.at t).updTick (fun k => k.countJ9 l s.periodNs s.tolNs t)).judgeEdge t) := by
  have hedge : ¬(t < l + 1000 ∨ high < 100) := by omega
  simp only [exec, execTickInEdge, State.at_frame, hl, if_neg hedge, decide_eq_true_eq]
  rfl

end

section
variable {s : State} {t : Nat}

theorem judgeEdge_inactive (h : s.tick.active ≠ 0 ∨ s.tick.started = false) : s.judgeEdge t = s := by
  unfold State.judgeEdge
  rw [if_pos (by simpa using h)]

/-- The first late edge of the active source within the window is the measured error of the tick. -/
theorem judgeEdge_late {d : Nat} (hactive : s.tick.active = 0) (hstarted : s.tick.started = true) (ht : t = s.tick.last + d)
    (hlate : 2 * d ≤ s.periodNs) (htol : d ≤ s.tolNs) (herr : s.tick.err = none) :
    s.judgeEdge t = (s.updTick (fun k => { k with err := some (d : Int) })).measured d := by
  subst ht
  simp [State.judgeEdge, hactive, hstarted, hlate, herr, htol]

end

section
variable (s : State) (e : Int)

theorem measured_onlyRegs : OnlyRegs s (s.measured e) := by
  unfold State.measured
  dsimp only
  split
  · exact (OnlyRegs.refl s).setReg .. |>.setFld ..
  · exact (OnlyRegs.refl s).setReg ..

theorem tick_measured : (s.measured e).tick = s.tick := by rw [measured_onlyRegs s e]

/-- Off STRK_STATUS, the registers after a measured error are those with STRK_LAST_ERR written. -/
theorem reg_measured {b : Nat} (hb : b ≠ rSTRK_STATUS) :
    (s.measured e).reg b = (s.setReg rSTRK_LAST_ERR (BitVec.ofNat 64 (unsigned 32 e))).reg b := by
  unfold State.measured
  dsimp only
  split
  · exact reg_setFld_other _ _ _ _ _ _ hb
  · rfl

end

theorem unsigned_natCast {n d : Nat} (h : d < 2 ^ n) : unsigned n (d : Int) = d := by
  rw [unsigned, ← Int.natCast_emod, Int.toNat_natCast, Nat.mod_eq_of_lt h]

/-- The state that takes an edge at `t`, `d` after the tick, as the error of the tick. -/
def State.lateEdge (s : State) (l t d : Nat) : State :=
  ((s.at t).updTick (fun k => k.countJ9 l s.periodNs s.tolNs t)).updTick (fun k => { k with err := some (d : Int) })

theorem Good.lateEdge {s : State} (hs : Good s) (l t d : Nat) : Good (s.lateEdge l t d) :=
  ⟨hs.regs, hs.spad, hs.hbm, hs.id, hs.st, hs.cst⟩

section
variable {s : State} {t l high d : Nat} (hl : s.tick.lastJ9 = some l) (hhigh : 100 ≤ high) (hgap : l + 1000 ≤ t)
  (hactive : s.tick.active = 0) (hstarted : s.tick.started = true) (ht : t = s.tick.last + d) (hlate : 2 * d ≤ s.periodNs)
  (htol : d ≤ s.tolNs) (herr : s.tick.err = none)
include hl hhigh hgap hactive hstarted ht hlate htol herr

theorem exec_tickInEdge_late : exec (.tickInEdge high t) s = .next ((s.lateEdge l t d).measured d) := by
  rw [exec_tickInEdge_counted hl hhigh hgap]
  exact congrArg _ (judgeEdge_late hactive hstarted ht hlate htol herr)

/-- The error of a late edge as the state shows it. -/
theorem tickInEdge_measures (hs : Good s) (hd : d < 2 ^ 31) :
    Completes (.tickInEdge high t) s (fun u => u.tick.err = some (d : Int) ∧ u.tick.lastJ9 = some t ∧
      u.reg rSTRK_LAST_ERR = BitVec.ofNat 64 d ∧ (∀ b, b ≠ rSTRK_LAST_ERR → b ≠ rSTRK_STATUS → u.reg b = s.reg b) ∧
      u = { s.at t with tick := u.tick, regs := u.regs, hot := u.hot }) := by
  refine ⟨_, exec_tickInEdge_late hl hhigh hgap hactive hstarted ht hlate htol herr, ?_, ?_, ?_, fun b herrReg hstatus => ?_, ?_⟩
  · rw [tick_measured]
    rfl
  · rw [tick_measured]
    rfl
  · rw [reg_measured _ _ (by decide), reg_setReg_same _ _ _ (hs.lateEdge l t d), unsigned_natCast (by omega)]
  · rw [reg_measured _ _ hstatus, reg_setReg_other _ _ _ _ herrReg]
    rfl
  · rw [tick_measured]
    exact measured_onlyRegs (s.lateEdge l t d) d

end

/-- Settles O14: an edge is ignored, or counted and then judged by the source that is active. -/
theorem tickInEdge : Obligations.TickInEdge :=
  fun _ _ _ _ hs hl => ⟨exec_tickInEdge_ignored hl,
    fun hhigh hgap hsource => (exec_tickInEdge_counted hl hhigh hgap).trans (congrArg _ (judgeEdge_inactive hsource)),
    fun _ hhigh hgap hactive hstarted ht hlate htol herr =>
      tickInEdge_measures hl hhigh hgap hactive hstarted ht hlate htol herr hs⟩

/-! ### Admission and demand (R127, R135, R277) -/

section
variable {s : State} {t n : Nat}

theorem exec_ingestAdmission_powered (hpower : s.inp.failing = false) (es : List (Nat × Option (BitVec 512))) :
    exec (.ingestAdmission n es t) s = .next ((s.at t).admitAll n es) := by
  simp [exec, execIngestAdmission, hpower]

theorem admitAll_admissible {q : Nat} {e : BitVec 512} (h : s.admissible n q = true) :
    s.admitAll n [(q, some e)] = s.admitOp n q e.toNat := by
  simp [State.admitAll, h]

/-- In the last 8 µs of INGEST no entry is admitted any more (R127). -/
theorem admissible_of_admitOver (h : s.admitOver = true) (q : Nat) : s.admissible n q = false := by
  simp [State.admissible, h]

theorem admitAll_over {q : Nat} {e : Option (BitVec 512)} (h : s.admitOver = true) : s.admitAll n [(q, e)] = s := by
  simp [State.admitAll, admissible_of_admitOver h]

/-- The partitions whose stroke has begun and whose RUN has not opened. -/
def State.inIngest (s : State) : List Nat := (List.range 16).filter (fun m => (s.part m).inStroke && (s.part m).phase == 0)

/-- The strokes of `began` that have no demand yet are formed. -/
def State.formAll (s : State) (began : List Nat) (fetch : List (Nat × Option (List Nat))) : State :=
  (began.filter (fun m => !(s.part m).formed)).foldl (fun (u : State) m => u.formPart m fetch) s

/-- Once the strokes of `began` are formed: they are planned, those held keep all their quadrants, and the pace is announced. -/
def State.planFormed (s : State) (began : List Nat) : State :=
  ((List.range 16).foldl (fun (u : State) m => if u.held m then u.updPart m (fun p => { p with gateSet := 15 }) else u)
    (s.plan (began.filter (fun m => (s.part m).formed)) s.mirrored)).sendPace

/-- Outside MIRROR the last 8 µs of INGEST form every stroke that has begun. -/
theorem exec_demandFormation_last {fetch : List (Nat × Option (List Nat))} (hpower : s.inp.failing = false)
    (hover : (s.at t).admitOver = true) (hingest : (s.at t).sinceEdge < s.ingestNs) (hmirror : s.mirrored = false) :
    exec (.demandFormation fetch t) s = .next (((s.at t).formAll s.inIngest fetch).planFormed s.inIngest) := by
  have hm : (s.at t).mirrored = false := hmirror
  have hi : ¬(s.at t).ingestNs ≤ (s.at t).sinceEdge := Nat.not_le.mpr hingest
  simp only [exec, execDemandFormation, State.at_frame, hpower, hover, hi, hm, Bool.not_true, decide_false, Bool.or_false,
    Bool.false_eq_true, if_false, Bool.false_and, Bool.not_false, Bool.and_true]
  rfl

end

/-! ### RUN, EMIT, GUARD and the end markers (R129, R142, R144, R146) -/

/-- The clocks that RUN changes (R142, R299): a site leaves its previous operating point, and the budget's index comes into
force. -/
def State.runClocks (s : State) : State :=
  let u := (List.range 72).foldl (fun (u : State) p => if (u.pwr1 p).prev = (u.pwr1 p).entry then u else
    u.setPwr1 p { u.pwr1 p with prev := (u.pwr1 p).entry }) s
  if u.pwr.k = u.pwr.kNext then u else { u with pwr := { u.pwr with k := u.pwr.kNext } }

/-- RUN opens for partition `m` when its stroke is formed; one that is not is idle in it, but for a stroke that a MIRROR secondary
still expects from its primary (R129, R429). -/
def State.runPart (s : State) (m : Nat) : State :=
  if (s.part m).inStroke && (s.part m).phase == 0 then
    if (s.part m).formed then s.openRun m
    else if s.mirrored && s.role == 2 then s else (((s.closeIngest m).idleStroke m).setGate m).openRun m
  else s

/-- Partition `m` at GUARD: its stroke is past RUN and EMIT, and is judged when it is not finished (R146). -/
def State.guardPart (s : State) (m : Nat) : State :=
  if !(s.part m).inStroke || [0, 3, 6].contains (s.part m).phase then s
  else
    let v := s.updPart m (fun p => { p with phase := if p.phase = 4 then 6 else 3 })
    if (s.part m).finished then v else v.judge m

section
variable {s : State} {n t : Nat}

section
variable (htime : s.time ≤ t)
include htime

theorem sinceEdge_at : (s.at t).sinceEdge = t - s.tick.last := by
  simp only [State.sinceEdge, State.at_frame]
  rw [show (s.at t).time = t from Nat.max_eq_right htime]

theorem sinceEdge_at_lt {x : Nat} (hedge : s.tick.last ≤ s.time) (h : t < s.tick.last + x) : (s.at t).sinceEdge < x := by
  rw [sinceEdge_at htime]
  omega

theorem le_sinceEdge_at {x : Nat} (h : s.tick.last + x ≤ t) : x ≤ (s.at t).sinceEdge := by
  rw [sinceEdge_at htime]
  omega

end

theorem exec_runOpen_early (h : (s.at t).sinceEdge < s.ingestNs) : exec (.runOpen t) s = .next (s.at t) := by
  have h' : (s.at t).sinceEdge < (s.at t).ingestNs := h
  simp [exec, execRunOpen, h']

theorem exec_runOpen_due (hstarted : s.tick.started = true) (h : s.ingestNs ≤ (s.at t).sinceEdge) :
    exec (.runOpen t) s = .next ((List.range 16).foldl (fun (u : State) m => u.runPart m) (s.at t).runClocks) := by
  have h' : ¬(s.at t).sinceEdge < (s.at t).ingestNs := Nat.not_lt.mpr h
  simp only [exec, execRunOpen, State.at_frame, hstarted, h', decide_false, Bool.not_true, Bool.or_false, Bool.false_eq_true,
    if_false, State.runPart, State.runClocks]

theorem exec_emitOpen_due (hstroke : (s.part n).inStroke = true) (hphase : (s.part n).phase ≠ 0)
    (h : s.runCloseNs ≤ (s.at t).sinceEdge) :
    exec (.emitOpen n t) s =
      .next (((s.at t).updPart n (fun p => { p with phase := if p.phase = 1 then 2 else p.phase })).emitStroke n) := by
  have h' : ¬(s.at t).sinceEdge < (s.at t).runCloseNs := Nat.not_lt.mpr h
  simp [exec, execEmitOpen, hstroke, hphase, h']

theorem exec_guardStart_early (h : (s.at t).sinceEdge < s.guardOpenNs) : exec (.guardStart t) s = .next (s.at t) := by
  have h' : (s.at t).sinceEdge < (s.at t).guardOpenNs := h
  simp [exec, execGuardStart, h']

/-- The phases in which GUARD finds no stroke to close: INGEST, and GUARD itself in a stroke or in a slip. -/
theorem contains_guardPhases (x : Nat) : [0, 3, 6].contains x = (x == 0 || x == 3 || x == 6) := by
  simp [Bool.or_assoc, beq_eq_decide]

theorem exec_guardStart_due (hstarted : s.tick.started = true) (h : s.guardOpenNs ≤ (s.at t).sinceEdge) :
    exec (.guardStart t) s = .next ((List.range 16).foldl (fun (u : State) m => u.guardPart m) (s.at t)) := by
  have h' : ¬(s.at t).sinceEdge < (s.at t).guardOpenNs := Nat.not_lt.mpr h
  simp only [exec, execGuardStart, State.at_frame, hstarted, h', decide_false, Bool.not_true, Bool.or_false, Bool.false_eq_true,
    if_false, State.guardPart, contains_guardPhases, Bool.or_assoc]

/-- A site whose streams have done their work is done in the stroke, and the last site of the partition ends it (R144). -/
theorem exec_siteEndMarker_ready {site : Nat} (howner : s.owner site = n) (hn : n < 16) (hstroke : (s.part n).inStroke = true)
    (hphase : (s.part n).phase ≠ 0) (hissue : (s.part n).issueFault = false) (hnew : site ∉ (s.part n).done)
    (hready : (s.at t).siteReady n site = true) :
    exec (.siteEndMarker site t) s =
      .next (let u := ((s.at t).updPart n (fun p => { p with done := p.done ++ [site] })).scaleUpdate site
        if u.sitesDone n then u.lastSite n else u) := by
  have ho : (s.at t).owner site = n := howner
  simp [exec, execSiteEndMarker, ho, hn, hstroke, hphase, hissue, hnew, hready]

end

/-- Settles O15: the admission and the demand of INGEST, the phases by their times from the edge, and the end marker of a site. -/
theorem strokePhases : Obligations.StrokePhases := by
  refine ⟨fun s t n hpower => ⟨fun q e h => ?_, fun q e h => ?_, exec_ingestAdmission_powered hpower, ?_⟩,
    fun s n t hstarted hedge htime => ⟨fun h => ?_, fun h => ?_, ?_, fun hstroke hphase h => ?_, fun h => ?_⟩,
    fun s site t => exec_siteEndMarker_ready rfl⟩
  · rw [exec_ingestAdmission_powered hpower, admitAll_admissible h]
  · rw [exec_ingestAdmission_powered hpower, admitAll_over h]
  · rintro hover hingest hmirror fetch began u rfl rfl
    exact exec_demandFormation_last hpower hover hingest hmirror
  · exact exec_runOpen_early (sinceEdge_at_lt htime hedge h)
  · exact exec_guardStart_early (sinceEdge_at_lt htime hedge h)
  · intro u v hu hv h
    have hclocks : v = (s.at t).runClocks := by rw [hv, hu, State.runClocks]
    rw [hclocks]
    exact exec_runOpen_due hstarted (le_sinceEdge_at htime h)
  · exact exec_emitOpen_due hstroke hphase (le_sinceEdge_at htime h)
  · exact exec_guardStart_due hstarted (le_sinceEdge_at htime h)

end Sys2Proof.Machine
end

section
/-! PROOFS. The statements on comb programs (chapter 06): the descriptors of a stream, fetched, issued and signalled, and the work
that a running descriptor does. -/

namespace Sys2Proof.Machine

/-! ### Descriptor streams -/

section
variable {s : State} {p st : Nat} {x : DStream}

theorem dstream_setDstream (hx : x ≠ DStream.init) : (s.setDstream p st x).dstream p st = x := mget_mset_nd _ _ _ _ hx

theorem setDstream_setDstream (y : DStream) (hx : x ≠ DStream.init) :
    (s.setDstream p st x).setDstream p st y = s.setDstream p st y := by
  simp only [State.setDstream, mset_mset _ _ _ _ _ hx]

theorem dstream_ne_init (h : x.wait = 2) : x ≠ DStream.init := by
  rintro rfl
  simp [DStream.init] at h

end

/-! ### Fetch (R151) -/

section
variable {s : State} {p st : Nat}

/-- The next descriptor of the library's stream, when it is neither the first of a pair nor a THRESHOLD, is fetched alone. -/
theorem exec_descriptorFetch_single {d : BitVec 512} (hfetched : (s.dstream p st).fetched = none)
    (hstroke : (s.part (s.owner p)).inStroke = true) (hphase : (s.part (s.owner p)).phase ≠ 0)
    (hissue : (s.part (s.owner p)).issueFault = false)
    (hnext : (s.streamOf (s.owner p) p st).2[(s.dstream p st).next]? = some d)
    (hpair : dOpc (s.loadDesc d.toNat) ≠ 2) (hthr : dOpc (s.loadDesc d.toNat) ≠ 3) :
    exec (.descriptorFetch p st) s = .next (s.setDstream p st { s.dstream p st with
      next := (s.dstream p st).next + 1,
      fetched := some (BitVec.ofNat 1024 (s.loadDesc d.toNat), (s.streamOf (s.owner p) p st).1 + 64 * (s.dstream p st).next),
      failed := (s.issueCheck (s.owner p) p st (s.loadDesc d.toNat) 0).map
        (fun f => issueDetail st ((s.streamOf (s.owner p) p st).1 + 64 * (s.dstream p st).next) (s.loadDesc d.toNat) f),
      thrNext := 0 }) := by
  have hmore : ¬(s.streamOf (s.owner p) p st).2.length ≤ (s.dstream p st).next :=
    Nat.not_le.mpr (List.getElem?_eq_some_iff.1 hnext).1
  have hsingle : (dOpc (s.loadDesc d.toNat) == 2) = false := beq_false_of_ne hpair
  have hopen : ((s.part (s.owner p)).phase == 0) = false := beq_false_of_ne hphase
  simp only [exec, execDescriptorFetch, hfetched, hstroke, hopen, hissue, hnext, hsingle, hmore, Option.isSome_none, Bool.not_true,
    Bool.or_false, decide_false, Bool.false_eq_true, if_false, if_neg hthr, Option.map_some, Option.getD_some, Nat.zero_mul,
    Nat.add_zero]

end

/-! ### Issue (R150, R183) -/

/-- The fetched descriptor `d` of a stream begins to run. -/
def State.beginDesc (s : State) (p st : Nat) (d : BitVec 1024) : State :=
  s.setDstream p st { s.dstream p st with
    fetched := none, running := some d, issued := false, wait := 0, half2 := false, thr := (s.dstream p st).thrNext }
/-- It begins to run when its waits are over. -/
def State.beginWaited (s : State) (p st : Nat) (d : BitVec 1024) : State :=
  if (s.dstream p st).wait = 2 then s.beginDesc p st d else s

section
variable {s : State} {p st : Nat}

theorem waitOn_noSeal (tag : Nat) (half : Bool) :
    s.waitOn p st 0x3FF tag half = s.setDstream p st { s.dstream p st with wait := 2, half2 := half } := by
  simp only [State.waitOn, if_true]

theorem dstream_waitOn_noSeal (tag : Nat) (half : Bool) :
    (s.waitOn p st 0x3FF tag half).dstream p st = { s.dstream p st with wait := 2, half2 := half } := by
  rw [waitOn_noSeal]
  exact dstream_setDstream (dstream_ne_init rfl)

theorem beginDesc_waitOn_noSeal (tag : Nat) (half : Bool) (d : BitVec 1024) :
    (s.waitOn p st 0x3FF tag half).beginDesc p st d = s.beginDesc p st d := by
  rw [State.beginDesc, dstream_waitOn_noSeal, waitOn_noSeal, setDstream_setDstream _ (dstream_ne_init rfl), State.beginDesc]

theorem portsFree_waitOn_noSeal (hports : PortsFree s) (tag : Nat) (half : Bool) : PortsFree (s.waitOn p st 0x3FF tag half) := by
  rw [waitOn_noSeal]
  exact hports

/-- In `t` the waits of the fetched descriptor are over, and it begins to run as it would in `s`. -/
structure Waited (p st : Nat) (s t : State) : Prop where
  wait : (t.dstream p st).wait = 2
  begins : ∀ d, t.beginDesc p st d = s.beginDesc p st d
  ports : PortsFree s → PortsFree t

theorem Waited.refl (h : (s.dstream p st).wait = 2) : Waited p st s s := ⟨h, fun _ => rfl, id⟩
theorem Waited.trans {t u : State} (h : Waited p st s t) (g : Waited p st t u) : Waited p st s u :=
  ⟨g.wait, fun d => (g.begins d).trans (h.begins d), g.ports ∘ h.ports⟩
theorem waited_waitOn_noSeal (tag : Nat) (half : Bool) : Waited p st s (s.waitOn p st 0x3FF tag half) :=
  ⟨by rw [dstream_waitOn_noSeal], beginDesc_waitOn_noSeal tag half, fun h => portsFree_waitOn_noSeal h tag half⟩

/-- The second half of a descriptor, when it is a pair, was satisfied before or waits for no seal. -/
theorem waited_sealWaits_satisfied {d : Nat} (hwait : (s.dstream p st).wait = 2)
    (hpair : dOpc d ≠ 2 ∨ (s.dstream p st).half2 = true ∨ dWait (d / 2 ^ 512) = 0x3FF) :
    Waited p st s (s.sealWaits p st d) := by
  have h0 : ¬(s.dstream p st).wait = 0 := by omega
  simp only [State.sealWaits, if_neg h0]
  split
  next h =>
    obtain ⟨-, hhalf, hfused⟩ := h
    have hsecond : (s.dstream p st).half2 ≠ true := by simpa using hhalf
    rw [(hpair.resolve_left (not_not_intro hfused)).resolve_left hsecond]
    exact waited_waitOn_noSeal _ _
  next => exact Waited.refl hwait

/-- A descriptor that has not waited, and waits for no seal, nor its second half when it is a pair. -/
theorem waited_sealWaits_noSeal {d : Nat} (hwait : (s.dstream p st).wait = 0) (hnone : dWait d = 0x3FF)
    (hpair : dOpc d ≠ 2 ∨ dWait (d / 2 ^ 512) = 0x3FF) : Waited p st s (s.sealWaits p st d) := by
  have hfirst : Waited p st s (s.waitOn p st 0x3FF (dTag d) false) := waited_waitOn_noSeal _ _
  have hrest : s.sealWaits p st d = (s.waitOn p st 0x3FF (dTag d) false).sealWaits p st d := by
    have h0 : ¬((s.waitOn p st 0x3FF (dTag d) false).dstream p st).wait = 0 := by rw [hfirst.wait]; decide
    simp only [State.sealWaits, hwait, if_true, hnone, if_neg h0]
  rw [hrest]
  exact hfirst.trans (waited_sealWaits_satisfied hfirst.wait (hpair.imp_right .inr))

section
variable {t off : Nat} {d : BitVec 1024} (hfetched : (s.dstream p st).fetched = some (d, off))
  (hissue : (s.part (s.owner p)).issueFault = false) (hopen : (s.at t).streamOpen (s.owner p) p st = true)
  (hdone : (s.dstream p st).running = none ∨ (s.dstream p st).issued = true) (hhalt : ∀ k ∈ s.rcd.halted, k / 8 ≠ p)
include hfetched hissue hopen hdone hhalt

/-- A fetched descriptor whose predecessor has issued is issued: it stops the partition's issue if a check failed, and otherwise
begins to run once its waits are over. -/
theorem exec_descriptorIssue_due :
    exec (.descriptorIssue p st t) s = .next ((s.dstream p st).failed.elim
      (((s.at t).sealWaits p st d.toNat).sealNext.beginWaited p st d) ((s.at t).issueFault (s.owner p) p)) := by
  have ho : (s.at t).owner p = s.owner p := rfl
  have hhalted : s.rcd.halted.any (fun k => k / 8 == p) = false := by simpa using hhalt
  have hpred : ((s.dstream p st).running.isSome && !(s.dstream p st).issued) = false := by
    rcases hdone with h | h <;> simp [h]
  cases hfailed : (s.dstream p st).failed <;>
    simp only [exec, execDescriptorIssue, State.at_frame, ho, hfetched, hissue, hopen, hpred, hhalted, hfailed, Bool.not_true,
      Bool.or_false, Bool.false_eq_true, if_false, Option.elim_none, Option.elim_some, State.beginWaited, State.beginDesc]

theorem exec_descriptorIssue_failed {f : Nat × Nat × Nat} (hfailed : (s.dstream p st).failed = some f) :
    exec (.descriptorIssue p st t) s = .next ((s.at t).issueFault (s.owner p) p f) := by
  rw [exec_descriptorIssue_due hfetched hissue hopen hdone hhalt, hfailed, Option.elim_some]

theorem exec_descriptorIssue_waited (hports : PortsFree s) (hfailed : (s.dstream p st).failed = none)
    (hwaited : Waited p st (s.at t) ((s.at t).sealWaits p st d.toNat)) :
    exec (.descriptorIssue p st t) s = .next ((s.at t).beginDesc p st d) := by
  rw [exec_descriptorIssue_due hfetched hissue hopen hdone hhalt, hfailed, Option.elim_none,
    sealNext_portsFree (hwaited.ports hports), State.beginWaited, if_pos hwaited.wait, hwaited.begins]

end
end

/-! ### Signal (R152) -/

section
variable {s : State} {p st : Nat} {d : BitVec 1024} {l : List (BitVec 1024)}

/-- The oldest descriptor that has issued, no half of a pair, signals when every row that it reads has come back. -/
theorem exec_descriptorSignal_due (hsignal : (s.dstream p st).signal = d :: l) (hpair : dOpc d.toNat ≠ 2)
    (hrows : ∀ o ∈ s.fab.flight, o.src = p → o.dstream = st → o.kind = 1 → (s.dstream p st).count < o.ord) :
    exec (.descriptorSignal p st) s =
      .next (((s.setDstream p st { s.dstream p st with signal := l, count := (s.dstream p st).count + 1 }).signalOn p st
        (dSig d.toNat) (dTag d.toNat)).sealNext) := by
  have hback : s.fab.flight.any (fun o => o.src == p && o.dstream == st && o.kind == 1 &&
      decide (o.ord ≤ (s.dstream p st).count)) = false := by
    simpa using hrows
  simp only [exec, execDescriptorSignal, hsignal, hback, Bool.false_eq_true, if_false, if_neg hpair]

theorem signalOn_none (tag : Nat) : s.signalOn p st 0x3FF tag = s := by
  simp only [State.signalOn, if_true]

theorem signalOn_seal {i : Nat} (tag : Nat) (hi : i ≠ 0x3FF) :
    s.signalOn p st i tag =
      s.sealIssue (s.owner p) p (streamMaster st) ((s.sealList (s.owner p) p).getD i 0).toNat st tag := by
  simp only [State.signalOn, if_neg hi]

end

/-- Settles O16: the fetch, the issue by what the checks and the waits of the descriptor found, and the signal. -/
theorem descriptorFlow : Obligations.DescriptorFlow := by
  intro s p st t hports
  refine ⟨?_, fun d off hfetched hissue hopen hdone hhalt => ⟨fun hfailed hwaits => ?_,
    fun f => exec_descriptorIssue_failed hfetched hissue hopen hdone hhalt⟩, fun d l hsignal hpair hrows => ⟨fun hnone => ?_,
    fun hseal => ?_⟩⟩
  · rintro d off hfetched hstroke hphase hissue rfl hnext hpair hthr
    exact exec_descriptorFetch_single hfetched hstroke hphase hissue hnext hpair hthr
  · refine exec_descriptorIssue_waited hfetched hissue hopen hdone hhalt hports hfailed ?_
    rcases hwaits with ⟨hwait, hnone, hpair⟩ | ⟨hwait, hpair⟩
    · exact waited_sealWaits_noSeal hwait hnone hpair
    · exact waited_sealWaits_satisfied hwait hpair
  · rw [exec_descriptorSignal_due hsignal hpair hrows, hnone, signalOn_none, sealNext_portsFree]
    exact hports
  · rw [exec_descriptorSignal_due hsignal hpair hrows, signalOn_seal _ hseal]
    rfl

/-! ### The work of a running descriptor (R38, R154) -/

section
variable {s : State} {p st o : Nat} {d : BitVec 1024} {f : State → Nat → Nat → State}
  (hrun : (s.dstream p st).running = some d)
include hrun

theorem runDesc_otherOpcode (hopc : dOpc d.toNat ≠ o) : s.runDesc p st o f = s := by
  simp [State.runDesc, hrun, hopc]

variable (hnew : (s.dstream p st).issued = false)
include hnew

/-- A running descriptor of the opcode that has not run yet does its work and is issued. -/
theorem runDesc_runs (hopc : dOpc d.toNat = o) : s.runDesc p st o f = (f s (s.owner p) d.toNat).issuedNow p st d.toNat := by
  simp [State.runDesc, hrun, hnew, hopc]

/-- A matrix product runs when its tiles, and those of its second half when it is a pair, find their sets free. -/
theorem runTiles_free (hopc : dOpc d.toNat = o) (hfree : s.blockedCombs p (d.toNat % 2 ^ 512) = [])
    (hpair : o = 2 → s.blockedCombs p (d.toNat / 2 ^ 512) = []) :
    s.runTiles p st o f = (f s (s.owner p) d.toNat).issuedNow p st d.toNat := by
  rw [← runDesc_runs hrun hnew hopc]
  simp only [State.runTiles, hrun, hnew, hopc, hfree, ite_eq_right_iff.2 hpair, List.append_nil, List.isEmpty_nil,
    bne_self_eq_false, Bool.or_false, Bool.false_eq_true, if_false, if_true]

/-- A product of one descriptor stalls the combs of which a tile finds its set taken (R38, log entry 16). -/
theorem runTiles_blocked (hopc : dOpc d.toNat = o) (hsingle : o ≠ 2) (hheld : s.blockedCombs p (d.toNat % 2 ^ 512) ≠ []) :
    s.runTiles p st o f = (s.blockedCombs p (d.toNat % 2 ^ 512)).foldl (fun (u : State) pc => u.stallSet p pc) s := by
  have hsome : (s.blockedCombs p (d.toNat % 2 ^ 512)).isEmpty = false := List.isEmpty_eq_false_iff.2 hheld
  simp only [State.runTiles, hrun, hnew, hopc, if_neg hsingle, hsome, List.append_nil, bne_self_eq_false, Bool.or_false,
    Bool.false_eq_true, if_false]

end

theorem issuedNow_eq (s : State) (p st : Nat) (d : BitVec 1024) :
    s.issuedNow p st d.toNat =
      s.setDstream p st { s.dstream p st with issued := true, signal := (s.dstream p st).signal ++ [d] } := by
  simp [State.issuedNow]

/-- Settles O17: each opcode by what `runDesc`, or `runTiles` for a matrix product, does with the running descriptor. -/
theorem descriptorsRun : Obligations.DescriptorsRun := by
  intro s p st d e hrun hnew
  refine ⟨fun hopc => ?_, fun hopc => ⟨fun hfree => ?_, fun hheld => ?_⟩, fun hopc hfirst hsecond => ?_, fun hopc hfree => ?_,
    fun hopc => ?_, ?_, ?_, fun hopc => ?_⟩
  · rw [← issuedNow_eq]
    exact congrArg Host.Outcome.next (runDesc_runs hrun hnew hopc)
  · exact congrArg Host.Outcome.next (runTiles_free hrun hnew hopc hfree nofun)
  · exact congrArg Host.Outcome.next (runTiles_blocked hrun hnew hopc (by decide) hheld)
  · exact congrArg Host.Outcome.next (runTiles_free hrun hnew hopc hfirst fun _ => hsecond)
  · exact congrArg Host.Outcome.next (runTiles_free hrun hnew hopc hfree nofun)
  · exact congrArg Host.Outcome.next (runDesc_runs hrun hnew hopc)
  · rintro rfl
    refine ⟨fun hopc => ?_, fun hopc => ?_, fun hopc => ?_⟩ <;> exact congrArg Host.Outcome.next (runDesc_runs hrun hnew hopc)
  · rintro rfl
    refine ⟨fun hopc => ?_, fun hopc => ?_, fun hopc => ?_⟩ <;> exact congrArg Host.Outcome.next (runDesc_runs hrun hnew hopc)
  · exact congrArg Host.Outcome.next (runDesc_otherOpcode hrun hopc)

end Sys2Proof.Machine
end

section
/-! PROOFS. The statement on attention and the KV store (chapter 07): the ends of the operations that run in the background, and
compaction. -/

namespace Sys2Proof.Machine

/-! ### PARK, RESUME and FORK end in the background (R205-R208) -/

/-- Operation `o` of stream `i`, of code `opc`, has ended well at length `len`: its completion goes out, and the operations behind
it start (R277, R280). -/
def State.endOp (s : State) (n i : Nat) (o : AdmOp) (len opc : Nat) : State :=
  (((s.finalOp n i o [0] 0 len none false).popOp i).bgDone n i opc 0).startOps n i 5

/-- Words of the header of a park image of these pages (Table 07.11). -/
def State.parkHeader (s : State) (n i : Nat) (pages : List (List (BitVec 512))) : List Nat :=
  [1, (s.stream i).ntok, s.shapeWord n, s.npgOf n (s.stream i).ntok] ++ List.replicate 12 0 ++
    pages.map (fun g => crc32 (granBytes g))

/-- The image of a stream stands at `addr` in host memory and every home has counted its pages (R206, R207). -/
def State.parkSent (s : State) (n i addr : Nat) (pages : List (List (BitVec 512))) : State :=
  (List.range (s.part n).g.nlayer).foldl (fun (w : State) l =>
    w.bumpBy (siteReg (s.homeOf n i l) rKV_CNT_PARK) (s.npgOf n (s.stream i).ntok))
    (s.sendImage n addr (s.parkHeader n i pages) pages)

/-- The pages of a parked stream are free, which lets the other PARKs of the partition go on (R206). -/
def State.parkFreed (s : State) (n i : Nat) : State :=
  ((s.freeStream n i).updStream i (fun y => { y with parked := true })).parkRetry n

/-- The pages of an image are pages of the stream's logs again (R208). -/
def State.pagesResumed (s : State) (n i npg : Nat) (pages : List (List (BitVec 512))) : State :=
  ((List.range pages.length).zip pages).foldl (fun (w : State) e =>
    (w.resumePage n i (e.1 / max 1 npg) e.2).bump (siteReg (w.homeOf n i (e.1 / max 1 npg)) rKV_CNT_RESUME)) s

/-- The rebuilt logs carry the taint of their `k` records, and the stream is parked no more (R193, R208). -/
def State.logsResumed (s : State) (n i k : Nat) : State :=
  ((List.range (s.part n).g.nlayer).foldl (fun (w : State) l => w.noteTaint n (w.homeOf n i l) (w.dirIdx n i l) k) s).updStream i
    (fun y => { y with parked := false })

/-- The records that the child of FORK `o` shares are its own in every layer (R205). -/
def State.forkLayers (s : State) (n i : Nat) (o : AdmOp) : State :=
  (List.range (s.part n).g.nlayer).foldl (fun (w : State) l => w.forkLayer n i o.child (o.count - 1) l) s

/-- The child of FORK `o` of a parent as `x` holds COUNT tokens and may run (R205, log entry 42). -/
def State.childReady (s : State) (o : AdmOp) (x : Stream) : State :=
  s.takeFree.2.updStream o.child (fun c => { c with
    len := o.count, waitFork := false, lasttok := if o.count = x.len then x.lasttok else s.takeFree.1.toNat % 2 ^ 18,
    taint := x.taint, origin := x.origin }.settle)

section
variable {s : State} {i : Nat} {o : AdmOp} (hfree : s.bgHeld (s.stream i).part i = false)
include hfree

theorem exec_parkComplete_failed (hrun : s.runningOp i 5 = some o) (port : Nat) :
    exec (.parkComplete i (some port)) s = .next (s.hostDmaError (s.stream i).part i port 1 o.addr) := by
  simp [exec, execParkComplete, hfree, hrun]

theorem exec_parkComplete_sent {pages : List (List (BitVec 512))} (hrun : s.runningOp i 5 = some o)
    (himage : s.parkImage (s.stream i).part i = some pages) :
    exec (.parkComplete i none) s = .next (((s.parkSent (s.stream i).part i o.addr pages).parkFreed (s.stream i).part i).endOp
      (s.stream i).part i o (s.stream i).len 5) := by
  simp only [exec, execParkComplete, hfree, hrun, himage, Bool.false_eq_true, if_false, State.endOp, State.parkFreed,
    State.parkSent, State.parkHeader]

theorem exec_resumeComplete_failed (hrun : s.runningOp i 6 = some o) (port : Nat) :
    exec (.resumeComplete i port none) s = .next (s.hostDmaError (s.stream i).part i port 2 o.addr) := by
  simp [exec, execResumeComplete, hfree, hrun]

section
variable {h : List (BitVec 32)} {pages : List (List (BitVec 512))}

theorem exec_resumeComplete_otherFormat (hrun : s.runningOp i 6 = some o) (port : Nat) (hformat : (h.getD 0 0).toNat % 2 ^ 16 ≠ 1) :
    exec (.resumeComplete i port (some (h, pages))) s =
      .next ((s.journal 0x2187 (s.stream i).part 0x3FFF (s.homeOf (s.stream i).part i 0) 0 0).endStream i 0x2187) := by
  have hbits : (bits (h.getD 0 0).toNat 0 16 != 1) = true := by simpa [bits] using hformat
  simp only [exec, execResumeComplete, hfree, hrun, hbits, Bool.false_eq_true, if_false, Bool.true_or, if_true]

theorem exec_resumeComplete_rebuilt (hrun : s.runningOp i 6 = some o) (port : Nat) (hformat : (h.getD 0 0).toNat % 2 ^ 16 = 1)
    (hshape : (h.getD 2 0).toNat = s.shapeWord (s.stream i).part)
    (hcrc : ∀ e ∈ (List.range pages.length).zip pages, crc32 (granBytes e.2) = (h.getD (16 + e.1) 0).toNat) :
    exec (.resumeComplete i port (some (h, pages))) s =
      .next (((s.pagesResumed (s.stream i).part i (h.getD 3 0).toNat pages).logsResumed (s.stream i).part i
        (s.stream i).ntok).endOp (s.stream i).part i o (s.stream i).len 6) := by
  have hbits : bits (h.getD 0 0).toNat 0 16 = 1 := by simpa [bits] using hformat
  have hgood : ((List.range pages.length).zip pages).find?
      (fun e => crc32 (granBytes e.2) != (h.getD (16 + e.1) 0).toNat) = none :=
    List.find?_eq_none.2 fun e he => by simp [hcrc e he]
  simp only [exec, execResumeComplete, hfree, hrun, hbits, hshape, hgood, bne_self_eq_false, Bool.or_self, Bool.false_eq_true,
    if_false, State.endOp, State.logsResumed, State.pagesResumed]

end

theorem exec_forkComplete_running (hrun : s.runningOp i 4 = some o) :
    exec (.forkComplete i) s = .next ((((s.forkLayers (s.stream i).part i o).childReady o (s.stream i)).endOp (s.stream i).part i o
      (s.stream i).len 4).startOps (s.stream i).part o.child 5) := by
  simp only [exec, execForkComplete, hfree, hrun, Bool.false_eq_true, if_false, State.endOp, State.childReady, State.forkLayers]

/-! ### A stream drains (R286) -/

theorem exec_streamDrainComplete_closed (hdrain : (s.stream i).st = .draining) (hkeep : (s.stream i).toFree = false) :
    exec (.streamDrainComplete i) s = .next (((s.freeStream (s.stream i).part i).setStream i { s.stream i with st := .closed }).bgDone
      (s.stream i).part i 7 5) := by
  simp [exec, execStreamDrainComplete, hfree, hdrain, hkeep]

end

theorem exec_streamDrainComplete_notDraining {s : State} {i : Nat} (hst : (s.stream i).st ≠ .draining) :
    exec (.streamDrainComplete i) s = .next s := by
  simp [exec, execStreamDrainComplete, hst]

/-! ### Compaction (R196, R197) -/

section
variable {s : State} {p : Nat}

theorem exec_compactionStart_due (henabled : s.flag (siteReg p rKV_CFG) 8 = true)
    (hholes : s.fld (siteReg p rKV_CFG) 16 8 * (s.svc p).top < 100 * (s.svc p).holes) (hidle : (s.svc p).compacting = false)
    (hflip : (s.svc p).flipReady = false) (howner : s.owner p < 16)
    (hstroke : (s.svc p).notBefore ≤ (s.part (s.owner p)).stroke.toNat) :
    exec (.compactionStart p) s =
      .next ((s.copyGen p).setSvc p { (s.copyGen p).svc p with compacting := true, log := [] }) := by
  simp [exec, execCompactionStart, henabled, hholes, hidle, hflip, howner, hstroke]

/-- The idle generation with the changes made during the compaction carried out, oldest first. -/
def State.logReplayed (s : State) (p : Nat) : State := (s.svc p).log.foldl (fun (u : State) c => u.replayChange p c) s

theorem exec_compactionComplete_running (hrun : (s.svc p).compacting = true) :
    exec (.compactionComplete p) s = .next ((s.logReplayed p).setSvc p
      { (s.logReplayed p).svc p with compacting := false, flipReady := true, log := [] }) := by
  simp [exec, execCompactionComplete, hrun, State.logReplayed]

theorem exec_compactionComplete_idle (hidle : (s.svc p).compacting = false) : exec (.compactionComplete p) s = .next s := by
  simp [exec, execCompactionComplete, hidle]

end

/-- Settles O39: each end of a background operation by its own law above, and compaction by whether one runs at the site. -/
theorem backgroundCompletes : Obligations.BackgroundCompletes := by
  refine ⟨fun s i o hfree => ⟨exec_parkComplete_failed hfree, ?_, fun hrun port => ⟨exec_resumeComplete_failed hfree hrun port,
      fun h pages => exec_resumeComplete_otherFormat hfree hrun port, ?_⟩, ?_, exec_streamDrainComplete_closed hfree,
      exec_streamDrainComplete_notDraining⟩,
    fun s p => ⟨exec_compactionStart_due, ?_, exec_compactionComplete_idle⟩⟩
  · rintro pages hrun himage n npg hdr u v rfl rfl rfl rfl rfl
    exact exec_parkComplete_sent hfree hrun himage
  · rintro h pages n u v rfl hformat hshape hcrc rfl rfl
    exact exec_resumeComplete_rebuilt hfree hrun port hformat hshape hcrc
  · rintro hrun n u v rfl rfl rfl
    exact exec_forkComplete_running hfree hrun
  · rintro u hrun rfl
    exact exec_compactionComplete_running hrun

end Sys2Proof.Machine
end

section
/-! PROOFS. The statements on the fabric (chapter 08): packets that arrive at a site, the answers to the packets that it has sent,
packets that get no answer, and the links. -/

namespace Sys2Proof.Machine

/-! ### Received packets (R218, R219) -/

section
variable {s : State} {p h n : Nat}

theorem received_sound (hgood : pkBad h n = false) : s.received p h n = (false, s.bump (siteReg p rFAB_CNT_RX)) := by
  simp only [State.received, hgood, Bool.false_eq_true, if_false]

/-- A bad header is counted and flagged besides. -/
theorem received_bad (hbad : pkBad h n = true) :
    s.received p h n =
      (true, ((s.bump (siteReg p rFAB_CNT_RX)).bump (siteReg p rFAB_CNT_BADHDR)).sticky (siteReg p rFAB_STAT) 3) := by
  simp only [State.received, hbad, if_true]

end

/-! ### A posted write or a seal operation lands (R227, R228, R230, R255) -/

/-- The payload of a PWRITE, `n` granules of which the first is `first`, lands: as a merge arrival, or in the scratchpad. -/
def State.landWrite (s : State) (p h first data n : Nat) : State :=
  if isArrival first then s.arrivalLand p first data n else s.writeGran p (pkOfs h) data n

/-- A PWRITE that may not land marks its granules late and is answered with the reason; a merge arrival is lost with it (R230,
R232). -/
def State.refuseWrite (s : State) (p h first reason : Nat) : State :=
  let t := ((s.lateMark p (pkOfs h) (pkOfs h + pkLen h)).inboundDenied p h reason).lateReply p h reason
  if isArrival first then t.mergeLost p (vhMctx first) (vhRank first) else t

section
variable {s : State} {p h first data n : Nat}

theorem landWrite_plain (hplain : isArrival first = false) :
    s.landWrite p h first data n = s.writeGran p (pkOfs h) data n := by
  simp only [State.landWrite, hplain, Bool.false_eq_true, if_false]

/-- A merge arrival whose header and length pass the checks of R108 enters its context. -/
theorem landWrite_arrival (harrival : isArrival first = true)
    (hcheck : hdrFail (first % 2 ^ 256) [] (if n = ceilDiv (32 + paddedBytes (first % 2 ^ 256)) 64
      then paddedBytes (first % 2 ^ 256) else 64 * n) = none) :
    s.landWrite p h first data n = s.mergeArrive p (first % 2 ^ 256) (data / 2 ^ 256) false := by
  simp only [State.landWrite, harrival, if_true, State.arrivalLand, hcheck]

theorem refuseWrite_plain {reason : Nat} (hplain : isArrival first = false) :
    s.refuseWrite p h first reason =
      ((s.lateMark p (pkOfs h) (pkOfs h + pkLen h)).inboundDenied p h reason).lateReply p h reason := by
  simp only [State.refuseWrite, hplain, Bool.false_eq_true, if_false]

end

section
variable {s u : State} {p : Nat} {h : BitVec 128} {xs : List (BitVec 512)}

/-- A PWRITE that would pass an earlier one of its source is not there yet (Table 08.6). -/
theorem exec_pwriteLand_overtaking (htype : pkType h.toNat = 0) (hover : s.overtakes p h.toNat = true) :
    exec (.pwriteLand p h xs false false) s = .next s := by
  simp [exec, execPwriteLand, htype, hover]

variable (hturn : s.overtakes p h.toNat = false) (hu : u = s.bump (siteReg p rFAB_CNT_RX))
include hturn hu

theorem exec_pwriteLand_badHeader (hbad : pkBad h.toNat xs.length = true) (htype : pkType h.toNat ≠ 5) :
    exec (.pwriteLand p h xs false false) s =
      .next (((u.bump (siteReg p rFAB_CNT_BADHDR)).sticky (siteReg p rFAB_STAT) 3).lateReply p h.toNat 4) := by
  simp [exec, execPwriteLand, hturn, htype, received_bad hbad, hu]

theorem exec_pwriteLand_seal (hgood : pkBad h.toNat xs.length = false) (htype : pkType h.toNat = 5)
    (hrsv : sealRsv (xs.headD 0).toNat = false) :
    exec (.pwriteLand p h xs false false) s = .next (u.sealLand p (xs.headD 0).toNat) := by
  simp only [exec, execPwriteLand, hturn, htype, hrsv, received_sound hgood, ← hu, Bool.and_false, Bool.false_eq_true, if_false,
    if_true]

/-- What becomes of a PWRITE with a sound header and a sound payload is decided by the landing checks of Table 08.7. -/
theorem exec_pwriteLand_checked (hgood : pkBad h.toNat xs.length = false) (htype : pkType h.toNat = 0) :
    exec (.pwriteLand p h xs false false) s = .next ((u.landFail p h.toNat true).elim
      (((u.judged p h.toNat false).landWrite p h.toNat (xs.headD 0).toNat (packNat 512 (xs.map BitVec.toNat)) xs.length).holdAck
        p h.toNat)
      (fun r => r.elim (u.staleDrop p h.toNat) (u.refuseWrite p h.toNat (xs.headD 0).toNat))) := by
  simp only [exec, execPwriteLand, hturn, htype, OfNat.zero_ne_ofNat, decide_false, Bool.false_and, Bool.and_false, Bool.or_self,
    Bool.not_false, Bool.and_true, Bool.false_eq_true, if_false, ne_eq, not_true_eq_false, received_sound hgood, ← hu]
  rcases u.landFail p h.toNat true with _ | _ | reason
  · simp only [State.landWrite, Option.elim_none, apply_ite (fun v : State => v.holdAck p h.toNat)]
  · rfl
  · rfl

end

/-! ### A read request is answered (R227, R232) -/

/-- What a read of granules leaves: those under the late mark are delivered all the same, with an error-queue entry for the row of
READ_REQ `h` (R232, log entry 29). -/
def lateReadNoted (r : Bool × State) (p h : Nat) : State :=
  if r.1 then r.2.lateEntry (pkPart h) (pkSrc h) 0 (pkStream h) 1 p (pkAddr h) (pkTag h) (pkSeq h) else r.2

section
variable {s v u : State} {p : Nat} {h : BitVec 128} {e : MemErr} (hv : v = s.memErrs (pkPart h.toNat) p (pkStream h.toNat) e)
  (hu : u = v.bump (siteReg p rFAB_CNT_RX)) (hturn : v.overtakes p h.toNat = false) (hgood : pkBad h.toNat 0 = false)
  (htype : pkType h.toNat = 1) (hland : u.landFail p h.toNat false = none)
include hv hu hturn hgood htype hland

/-- Granules of the scratchpad, none of them uncorrectable. -/
theorem exec_readReq_spad {w : State} (hspace : pkSpace h.toNat ≠ 2)
    (hclean : ∀ i, i < pkLen h.toNat + 1 → mget false u.spad.bad (spadKey p (pkOfs h.toNat + i)) = false)
    (hread : w =
      lateReadNoted (u.spadReadG (pkPart h.toNat) p (pkStream h.toNat) 8 (pkOfs h.toNat) (pkLen h.toNat + 1)) p h.toNat) :
    exec (.readReq p h e) s = .next (w.replyRead p h.toNat 0 (pkLen h.toNat)
      ((List.range (pkLen h.toNat + 1)).map (fun i => (w.granule p (pkOfs h.toNat + i)).toNat))) := by
  have hbad : (List.range (pkLen h.toNat + 1)).any
      (fun i => mget false u.spad.bad (spadKey p (pkOfs h.toNat + i))) = false := by
    simpa using hclean
  rw [hv] at hturn hu
  simp only [exec, execReadReq, hturn, htype, received_sound hgood, ← hu, hland, hspace, hbad, hread, lateReadNoted, ne_eq,
    not_true_eq_false, Bool.false_eq_true, if_false, Nat.add_sub_cancel]

/-- Granules of the stack, none of them uncorrectable. -/
theorem exec_readReq_stack (hspace : pkSpace h.toNat = 2)
    (hclean : u.stackBad p (pkOfs h.toNat / 1024) (pkOfs h.toNat % 1024) (pkLen h.toNat + 1) = []) :
    exec (.readReq p h e) s =
      .next (u.replyRead p h.toNat 0 (pkLen h.toNat) ((List.range (pkLen h.toNat + 1)).map (fun i =>
        (u.hbmGran p (pkOfs h.toNat / 1024 + (pkOfs h.toNat % 1024 + i) / 1024) ((pkOfs h.toNat % 1024 + i) % 1024)).toNat))) := by
  rw [hv] at hturn hu
  simp only [exec, execReadReq, hturn, htype, received_sound hgood, ← hu, hland, hspace, hclean, List.isEmpty_nil, ne_eq,
    not_true_eq_false, Bool.false_eq_true, if_false, if_true, Nat.add_sub_cancel]

end

/-- Settles O25: a posted write by what the landing checks say, a seal operation, a bad header, and a read by its space. -/
theorem packetsLand : Obligations.PacketsLand := by
  intro s u p h xs
  refine ⟨?_, ?_, exec_pwriteLand_overtaking⟩
  · intro hu hturn
    refine ⟨fun hgood htype hland => ⟨fun hplain => ?_, fun harrival hcheck => ?_⟩,
      fun reason hgood htype hland hplain => ?_, exec_pwriteLand_badHeader hturn hu, exec_pwriteLand_seal hturn hu⟩
    · rw [exec_pwriteLand_checked hturn hu hgood htype, hland, Option.elim_none, landWrite_plain hplain]
    · rw [exec_pwriteLand_checked hturn hu hgood htype, hland, Option.elim_none, landWrite_arrival harrival hcheck]
    · rw [exec_pwriteLand_checked hturn hu hgood htype, hland, Option.elim_some, Option.elim_some, refuseWrite_plain hplain]
  · intro e hu hturn hgood htype hland
    refine ⟨fun hspace hclean => ?_, exec_readReq_stack rfl hu hturn hgood htype hland⟩
    refine ⟨_, exec_readReq_spad rfl hu hturn hgood htype hland hspace hclean rfl, ?_⟩
    rintro late v hread rfl
    rw [hread]
    rfl

/-! ### The answers to a packet (R229, R231) -/

/-- The data of the completion of read `o`, `n` granules, go to the core that loads, or to the rows that the mover fills. -/
def State.deliver (s : State) (p : Nat) (o : OutPkt) (data n : Nat) : State :=
  if o.dstream = 6 then
    o.into.foldl (fun (v : State) e => v.emit (.value e.1 (bits data (8 * (e.1 % 64)) (8 * e.2.1)))) s
  else o.into.foldl (fun (v : State) e => v.placeRow o.part p o.dstream o.tag o.slot data n e) s

theorem inFlight_bump (s : State) (a src dst kind seq : Nat) :
    (s.bump a).inFlight src dst kind seq = s.inFlight src dst kind seq := rfl

/-- Is `o` the packet of kind `k` of site `p` that the late error `h` names (R231)? -/
def OutPkt.isAnswered (o : OutPkt) (p h k : Nat) : Bool :=
  o.src == p && o.dst == pkSrc h && o.kind == k && o.seq == pkSeq h &&
    decide (o.addr = mkAddr (pkSpace h) (pkSrc h) (64 * pkOfs h))

theorem isAnswered_upTo2 (o : OutPkt) (p h : Nat) :
    (o.isAnswered p h 0 || o.isAnswered p h 1 || o.isAnswered p h 2) =
      decide (o.src = p ∧ o.dst = pkSrc h ∧ o.kind ≤ 2 ∧ o.seq = pkSeq h ∧
        o.addr = mkAddr (pkSpace h) (pkSrc h) (64 * pkOfs h)) := by
  rw [Bool.eq_iff_iff]
  simp only [OutPkt.isAnswered, decide_eq_true_eq, Bool.or_eq_true, Bool.and_eq_true, beq_iff_eq]
  omega

section
variable {s : State} {p : Nat} {h : BitVec 128} {xs : List (BitVec 512)} {o : OutPkt}

section
variable (hgood : pkBad h.toNat xs.length = false) (htype : pkType h.toNat = 2)
  (hfound : s.inFlight p (pkSrc h.toNat) 1 (pkSeq h.toNat) = some o)
  (hturn : ∀ x ∈ s.fab.flight.takeWhile (fun o =>
      !(o.src == p && o.dst == pkSrc h.toNat && o.kind == 1 && o.seq == pkSeq h.toNat)),
    x.src = p → x.dst = pkSrc h.toNat → x.kind = 1 → x.sent = true → x.failed = true)
  (hok : pkErr h.toNat = false)
include hgood htype hfound hturn hok

/-- A completion that no older read of its destination waits for takes its read out of flight and delivers the data. -/
theorem exec_readCpl_inTurn :
    exec (.readCpl p h xs) s =
      .next (((s.bump (siteReg p rFAB_CNT_RX)).acked o).deliver p o (packNat 512 (xs.map BitVec.toNat)) xs.length) := by
  have holder : (s.fab.flight.takeWhile (fun o =>
      !(o.src == p && o.dst == pkSrc h.toNat && o.kind == 1 && o.seq == pkSeq h.toNat))).any
        (fun o => o.src == p && o.dst == pkSrc h.toNat && o.kind == 1 && o.sent && !o.failed) = false := by
    simpa using hturn
  simp only [exec, execReadCpl, holder, Bool.and_false, Bool.false_eq_true, if_false, received_sound hgood, htype, ne_eq,
    not_true_eq_false, inFlight_bump, hfound, hok, State.deliver]

end

section
variable (hgood : pkBad h.toNat 0 = false)
include hgood

/-- A LAND_ACK of one packet answers the oldest of its destination that has left and has not failed, unless that one was sent after
the packet named (log entry 27). -/
theorem exec_landAck_oldest {kind : Nat} {rest : List OutPkt} (hkind : kind = if pkSpace h.toNat = 4 then 2 else 0)
    (htype : pkType h.toNat = 3) (hone : pkLen h.toNat = 0)
    (hmine : s.fab.flight.filter (fun o =>
      o.src == p && o.dst == pkSrc h.toNat && o.kind == kind && o.sent && !o.failed) = o :: rest)
    (hrest : ∀ x ∈ rest, x.seq ≠ pkSeq h.toNat) (hwindow : (pkSeq h.toNat + 4096 - o.seq) % 4096 < 2048) :
    exec (.landAck p h) s = .next ((s.bump (siteReg p rFAB_CNT_RX)).acked o).freeHeld := by
  have hlater : rest.any (fun o => o.seq == pkSeq h.toNat) = false := by simpa using hrest
  simp [exec, execLandAck, ← hkind, hmine, hone, hlater, htype, received_sound hgood, hwindow]

/-- A late error fails the packet that it names, with the reason in LEN. -/
theorem exec_lateErr_found (htype : pkType h.toNat = 4)
    (hfound : s.fab.flight.find? (fun o => decide (o.src = p ∧ o.dst = pkSrc h.toNat ∧ o.kind ≤ 2 ∧ o.seq = pkSeq h.toNat ∧
      o.addr = mkAddr (pkSpace h.toNat) (pkSrc h.toNat) (64 * pkOfs h.toNat))) = some o) :
    exec (.lateErr p h) s = .next ((s.bump (siteReg p rFAB_CNT_RX)).failPkt o (pkLen h.toNat)).freeHeld := by
  simp only [← isAnswered_upTo2, OutPkt.isAnswered] at hfound
  simp only [exec, execLateErr, received_sound hgood, htype, State.bump_frame, Bool.false_eq_true, if_false, ne_eq,
    not_true_eq_false, hfound]

end
end

/-! ### Packets that get no answer, and gathered acknowledgements (R221, R227, R229) -/

section
variable {s : State} {p dst kind seq t : Nat} {o : OutPkt}

theorem inFlight_at : (s.at t).inFlight p dst kind seq = s.inFlight p dst kind seq := rfl

theorem fld_at (a lo n : Nat) : (s.at t).fld a lo n = s.fld a lo n := rfl

section
variable (hfound : s.inFlight p dst kind seq = some o)
include hfound

theorem exec_noSlot_ended (hwaits : o.sent = false) (hended : (s.at t).grantsFor o.part o.kind o.src o.dst = []) :
    exec (.noSlot p dst kind seq t) s = .next ((s.at t).failPkt o 6).freeHeld := by
  simp [exec, execNoSlot, inFlight_at, hfound, hwaits, hended]

theorem exec_noSlot_kept (hkept : o.sent = true ∨ (s.at t).grantsFor o.part o.kind o.src o.dst ≠ []) :
    exec (.noSlot p dst kind seq t) s = .next (s.at t) := by
  have hopen : ¬(!o.sent ∧ ((s.at t).grantsFor o.part o.kind o.src o.dst).isEmpty) := by
    rcases hkept with h | h <;> simp [h]
  simp only [exec, execNoSlot, inFlight_at, hfound, if_neg hopen]

theorem exec_fenceTimeout_due (hkind : o.kind < 2) (hsent : o.sent = true)
    (hdue : o.time + 1000 * s.fld (siteReg p rFAB_CFG) 0 8 ≤ t) :
    exec (.fenceTimeout p dst kind seq t) s = .next (((s.at t).bump (siteReg p rFAB_CNT_TMO)).failPkt o 5).freeHeld := by
  simp only [exec, execFenceTimeout, inFlight_at, fld_at, hfound, hkind, hsent, hdue, and_self, if_true]

theorem exec_fenceTimeout_early (hearly : o.sent = false ∨ t < o.time + 1000 * s.fld (siteReg p rFAB_CFG) 0 8) :
    exec (.fenceTimeout p dst kind seq t) s = .next (s.at t) := by
  have hnot : ¬(o.kind < 2 ∧ o.sent = true ∧ o.time + 1000 * s.fld (siteReg p rFAB_CFG) 0 8 ≤ t) := by
    rintro ⟨-, hsent, hdue⟩
    rcases hearly with hwaits | hearly
    · exact Bool.false_ne_true (hwaits.symm.trans hsent)
    · exact Nat.not_le.2 hearly hdue
  simp only [exec, execFenceTimeout, inFlight_at, fld_at, hfound, hnot, if_false]

end

theorem exec_landAckGatherExpiry_due {vc : Nat} (hheld : 0 < (mget Gather.init s.fab.gather (seqKey p dst vc)).count)
    (hdue : (mget Gather.init s.fab.gather (seqKey p dst vc)).since + 256 ≤ t) :
    exec (.landAckGatherExpiry p dst vc t) s = .next ((s.at t).sendAck p dst vc) := by
  simp only [exec, execLandAckGatherExpiry, State.at_frame, hheld, hdue, and_self, if_true]

end

/-! ### Links (R217) -/

section
variable {s : State} {p port : Nat} (far : Nat) (hup : mget false s.fab.down (p * 5 + port) = false)
include hup

theorem exec_linkReplay_again (hfew : mget 0 s.fab.replays (p * 5 + port) < 8) :
    exec (.linkReplay p port far false) s = .next (({ s with fab := { s.fab with
      replays := mset 0 s.fab.replays (p * 5 + port) (mget 0 s.fab.replays (p * 5 + port) + 1) } } : State).bump
        (siteReg p rFAB_CNT_RETRY)) := by
  simp only [exec, execLinkReplay, hup, hfew, Bool.false_eq_true, if_false, if_true]

theorem exec_linkReplay_last (hmany : 8 ≤ mget 0 s.fab.replays (p * 5 + port)) :
    exec (.linkReplay p port far false) s = .next (s.linkDown p port far) := by
  simp only [exec, execLinkReplay, hup, Nat.not_lt.2 hmany, Bool.false_eq_true, if_false]

end

/-- Settles O26: each answer, each packet without one and each link by its own law above. -/
theorem packetsAreAnswered : Obligations.PacketsAreAnswered := by
  refine ⟨?_, fun s p dst kind seq t o => ⟨fun hfound => ⟨exec_noSlot_ended hfound, exec_noSlot_kept hfound,
      exec_fenceTimeout_due hfound, exec_fenceTimeout_early hfound⟩, fun vc => exec_landAckGatherExpiry_due,
    fun port far hup => ⟨exec_linkReplay_again far hup, exec_linkReplay_last far hup⟩⟩⟩
  rintro s u p h xs o rfl
  refine ⟨fun hgood htype hfound hturn hok => ⟨fun hmover => ?_, fun hcore => ?_⟩,
    fun kind rest hkind hgood => exec_landAck_oldest hgood hkind, exec_lateErr_found⟩
  · rw [exec_readCpl_inTurn hgood htype hfound hturn hok, State.deliver, if_neg hmover]
  · rw [exec_readCpl_inTurn hgood htype hfound hturn hok, State.deliver, if_pos hcore]

end Sys2Proof.Machine
end

section
/-! PROOFS. The statements on seals (chapter 09): the answers that reach their masters, the order of one cycle, the counter that a
SIGNAL adds to, and locks and barriers. -/

namespace Sys2Proof.Machine

/-! ### The answer at the issuer (R250, R254) -/

section
variable {s : State} {req c d : Nat} (result status : Nat)

theorem sealDone_core (hcore : masterCore (owMaster req) = some c) (hopen : (s.corePort (portKey (owSite req) c)).blocked = false) :
    s.sealDone req result status = (s.updWaits (List.filter (fun w => w.req != req))).setCorePort (portKey (owSite req) c)
      { s.corePort (portKey (owSite req) c) with
        busy := false, blocked := false, result := BitVec.ofNat 64 (status % 256 + 2 ^ 32 * result) } := by
  simp only [State.corePort] at hopen
  simp only [State.sealDone, hcore, State.corePort, hopen, Bool.false_eq_true, if_false]
  rfl

theorem sealDone_stream (hcore : masterCore (owMaster req) = none) (hstream : masterStream (owMaster req) = some d)
    (hwaits : (s.dstream (owSite req) d).wait = 1) :
    s.sealDone req result status = (s.updWaits (List.filter (fun w => w.req != req))).setDstream (owSite req) d
      { s.dstream (owSite req) d with wait := 2 } := by
  simp only [State.dstream] at hwaits
  simp only [State.sealDone, hcore, hstream, State.dstream, hwaits, if_true]
  rfl

end

/-- Settles O28: a master is a core or a descriptor stream, each by its law above. -/
theorem sealAnswerReachesMaster : Obligations.SealAnswerReachesMaster := by
  refine fun s req result status => ⟨?_, fun d => sealDone_stream result status⟩
  rintro c x hcore rfl hopen
  exact sealDone_core result status hcore hopen

/-! ### An operation that reaches its seal (R250, R251, R255) -/

/-- What a legal operation of opcode `op` does at its seal. -/
def State.applyOp (s : State) (op k word req : Nat) : State :=
  match op with
  | 1 => s.applySignal k word req
  | 2 => s.applyWait k word req
  | 3 => s.applyAcquire k word req
  | 4 => s.applyRelease k word req
  | 5 => s.applyArm k word req
  | 6 => s.applyRead k word req
  | _ => s

section
variable {s : State} {k : Nat}

/-- An operation with its seal's epoch that is legal for the seal is performed. -/
theorem sealOp_legal {word : Nat} (req : Nat) (hbound : (s.sealAt k).st ≠ 0)
    (hlegal : opLegal (s.sealAt k).kind (s.sealAt k).tkt word = true) :
    s.sealOp k (s.sealAt k).epoch word req = s.applyOp (opOp word) k word req := by
  have hperform (f : State → State) : s.sealApply k (s.sealAt k).epoch word req (opOp word) f = f s := by
    simp [State.sealApply, hbound, hlegal]
  simp only [State.sealOp, hperform]
  rfl

/-- Such an operation alone in its cycle. -/
theorem sealArrive_alone {op : Nat} {word : BitVec 64} (req : BitVec 32) (t : Nat) (hop : opOp word.toNat = op)
    (hbound : (s.sealAt k).st ≠ 0) (hlegal : opLegal (s.sealAt k).kind (s.sealAt k).tkt word.toNat = true) :
    s.sealArrive op k (s.sealAt k).epoch word req [] t = ((s.at t).applyOp op k word.toNat req.toNat).sealNext := by
  have hsingle : s.sealArrive op k (s.sealAt k).epoch word req [] t =
      ((s.at t).sealOp k ((s.at t).sealAt k).epoch word.toNat req.toNat).sealNext := by
    simp only [State.sealArrive, hop, if_true]
    rfl
  rw [hsingle, sealOp_legal (s := s.at t) req.toNat hbound hlegal, hop]

end

/-! ### Answers and acknowledgements of a local operation -/

section
variable {s : State} {k req : Nat} (hpart : owPart req = (s.sealAt k).part) (hsite : owSite req = s.sealSite k)
include hpart hsite

theorem sealAnswer_local {op : Nat} (vseal result status : Nat) (hwake : op ≠ 7) (hgrant : op ≠ 8) :
    s.sealAnswer k req op vseal result status = s.sealDone req result status := by
  simp [State.sealAnswer, hwake, hgrant, hpart, hsite]

theorem sealAck_local : s.sealAck k req = s := by
  simp [State.sealAck, hpart, hsite]

end

theorem portsFree_sealDone {s : State} (h : PortsFree s) (req result status : Nat) : PortsFree (s.sealDone req result status) :=
  (sealDone_quiet s req result status).ports h

theorem sealNext_sealDone {s : State} (h : PortsFree s) (req result status : Nat) :
    (s.sealDone req result status).sealNext = s.sealDone req result status :=
  sealNext_portsFree (portsFree_sealDone h req result status)

/-! ### Answers that arrive (R255, R258, R261, R262) -/

section
variable {s : State} (hports : PortsFree s)
include hports

theorem exec_sealNop_legal {word : BitVec 64} (req : BitVec 32) (hlegal : opLegal 0 false word.toNat = true) :
    exec (.sealNop word req) s = .next (s.sealDone req.toNat 0 0) := by
  simp only [exec, execSealNop, nopBad, hlegal, Bool.not_true, Bool.false_eq_true, if_false, sealNext_sealDone hports]

theorem exec_sealGrant_awaited {req : BitVec 32} (status : Nat) (hwaits : ∃ w ∈ s.sls.waits, w.req = req.toNat ∧ w.op = 3) :
    exec (.sealGrant req status) s = .next (s.sealDone req.toNat 0 status) := by
  have hany : s.sls.waits.any (fun w => w.req == req.toNat && w.op == 3) = true := by simpa using hwaits
  simp only [exec, execSealGrant, State.grantSite, hany, if_true, sealNext_sealDone hports]

theorem exec_sealAck_awaited {req : BitVec 32} (result : BitVec 32) (status : Nat) (hwaits : ∃ w ∈ s.sls.waits, w.req = req.toNat) :
    exec (.sealAck req result status) s = .next (s.sealDone req.toNat result.toNat status) := by
  have hany : s.sls.waits.any (fun w => w.req == req.toNat) = true := by simpa using hwaits
  simp only [exec, execSealAck, State.ackSite, hany, if_true, sealNext_sealDone hports]

theorem exec_barrierWaveTime_due {req : BitVec 32} {t tr : Nat} {w : SealWait}
    (hfound : s.sls.waits.find? (fun w => w.req == req.toNat) = some w) (hleft : w.trel = some tr) (hdue : waveTime tr w.req ≤ t) :
    exec (.barrierWaveTime req t) s = .next ((s.at t).sealDone w.req (s.sealAt w.sl).gen 0) := by
  simp only [exec, execBarrierWaveTime, State.at_frame, hfound, hleft, hdue, if_true,
    sealNext_sealDone (s := s.at t) hports]

theorem exec_sealWake_one {site sl count : Nat} {w : SealWait}
    (hone : s.sls.waits.filter (fun w => w.sl == sl && w.op == 2 && owSite w.req == site && decide (w.value ≤ count)) = [w]) :
    exec (.sealWake site sl count) s = .next (s.sealDone w.req count 0) := by
  simp only [exec, execSealWake, State.wakeSite, hone, List.foldl_cons, List.foldl_nil, sealNext_sealDone hports]

end

/-! ### WAIT and READ (R250, R258) -/

section
variable {s : State} {k t : Nat} {word : BitVec 64} {req : BitVec 32} (hports : PortsFree s)
include hports

/-- An answer to a master at the seal's own site is given there at once. -/
theorem sealNext_sealAnswer_local (vseal result : Nat) (hk : k < 16384) (hpart : owPart req.toNat = (s.sealAt k).part)
    (hsite : owSite req.toNat = s.sealSite k) :
    (((s.at t).bump rSEAL_CNT_OPS).sealAnswer k req.toNat 9 vseal result 0).sealNext =
      ((s.at t).bump rSEAL_CNT_OPS).sealDone req.toNat result 0 := by
  have hhere : owSite req.toNat = ((s.at t).bump rSEAL_CNT_OPS).sealSite k :=
    hsite.trans (sealSite_bump (s.at t) _ k hk (by decide)).symm
  have hfree : PortsFree ((s.at t).bump rSEAL_CNT_OPS) := hports
  rw [sealAnswer_local (s := (s.at t).bump rSEAL_CNT_OPS) hpart hhere _ _ _ (by decide) (by decide), sealNext_sealDone hfree]

variable (hbound : (s.sealAt k).st ≠ 0) (hkind : (s.sealAt k).kind ≠ 2)
  (hlegal : opLegal (s.sealAt k).kind (s.sealAt k).tkt word.toNat = true)
include hbound hkind hlegal

theorem exec_sealWait_pending (hop : opOp word.toNat = 2) (hbelow : (s.sealAt k).count < opValue word.toNat) :
    exec (.sealWait k (s.sealAt k).epoch word req [] t) s =
      .next (((s.at t).bump rSEAL_CNT_OPS).sealJoin k req.toNat 2 (opValue word.toNat) (opVseal word.toNat)) := by
  have hjoins : (s.at t).applyOp 2 k word.toNat req.toNat =
      ((s.at t).bump rSEAL_CNT_OPS).sealJoin k req.toNat 2 (opValue word.toNat) (opVseal word.toNat) := by
    simp [State.applyOp, State.applyWait, State.sealCount, hkind, Nat.not_le.2 hbelow]
  have hfree : PortsFree (((s.at t).bump rSEAL_CNT_OPS).sealJoin k req.toNat 2 (opValue word.toNat) (opVseal word.toNat)) := hports
  simp only [exec, execSealWait, sealArrive_alone req t hop hbound hlegal, hjoins, sealNext_portsFree hfree]

variable (hk : k < 16384) (hpart : owPart req.toNat = (s.sealAt k).part) (hsite : owSite req.toNat = s.sealSite k)
include hk hpart hsite

theorem exec_sealWait_reached (hop : opOp word.toNat = 2) (hreached : opValue word.toNat ≤ (s.sealAt k).count) :
    exec (.sealWait k (s.sealAt k).epoch word req [] t) s =
      .next (((s.at t).bump rSEAL_CNT_OPS).sealDone req.toNat (s.sealAt k).count 0) := by
  have hanswers : (s.at t).applyOp 2 k word.toNat req.toNat =
      ((s.at t).bump rSEAL_CNT_OPS).sealAnswer k req.toNat 9 (opVseal word.toNat) (s.sealAt k).count 0 := by
    simp [State.applyOp, State.applyWait, State.sealCount, hkind, hreached]
  simp only [exec, execSealWait, sealArrive_alone req t hop hbound hlegal, hanswers,
    sealNext_sealAnswer_local hports _ _ hk hpart hsite]

theorem exec_sealRead_count (hop : opOp word.toNat = 6) :
    exec (.sealRead k (s.sealAt k).epoch word req [] t) s =
      .next (((s.at t).bump rSEAL_CNT_OPS).sealDone req.toNat (s.sealAt k).count 0) := by
  have hanswers : (s.at t).applyOp 6 k word.toNat req.toNat =
      ((s.at t).bump rSEAL_CNT_OPS).sealAnswer k req.toNat 9 (opVseal word.toNat) (s.sealAt k).count 0 := by
    simp [State.applyOp, State.applyRead, State.sealCount, hkind]
  simp only [exec, execSealRead, sealArrive_alone req t hop hbound hlegal, hanswers,
    sealNext_sealAnswer_local hports _ _ hk hpart hsite]

end

/-! ### Operations of one cycle (R251) -/

/-- Class of an operation in the order of one cycle. -/
def cycleClass (op : Nat) : Nat := if op = 5 then 0 else if op = 1 then 1 else if op = 4 then 2 else 3

/-- Within a class the issuer decides; it never outweighs the class. -/
theorem arrKey_bounds (a : SealArr) :
    cycleClass (opOp a.word.toNat) * 2 ^ 32 ≤ arrKey a ∧ arrKey a < (cycleClass (opOp a.word.toNat) + 1) * 2 ^ 32 := by
  have hreq : a.req.toNat < 2 ^ 32 := a.req.isLt
  have hsite : owSite a.req.toNat < 2 ^ 7 := Nat.mod_lt _ (by decide)
  have hmaster : owMaster a.req.toNat < 2 ^ 8 := Nat.mod_lt _ (by decide)
  have hissuer : (if opOp a.word.toNat = 1 then owSite a.req.toNat * 256 + owMaster a.req.toNat else a.req.toNat) < 2 ^ 32 := by
    split <;> omega
  have hkey : arrKey a = cycleClass (opOp a.word.toNat) * 2 ^ 32 +
    (if opOp a.word.toNat = 1 then owSite a.req.toNat * 256 + owMaster a.req.toNat else a.req.toNat) := rfl
  omega

theorem arrKey_lt_of_cycleClass {a b : SealArr} (h : cycleClass (opOp a.word.toNat) < cycleClass (opOp b.word.toNat)) :
    arrKey a < arrKey b := by
  have ha := (arrKey_bounds a).2
  have hb := (arrKey_bounds b).1
  omega

/-- Two operations of one cycle are taken by their keys, whichever way they come. -/
theorem sealCycle_two (s : State) (k : Nat) {a b : SealArr} (h : arrKey a < arrKey b) {l : List SealArr} (hl : l = [a, b] ∨ l = [b, a]) :
    s.sealCycle k l = (s.sealOp k a.epoch a.word.toNat a.req.toNat).sealOp k b.epoch b.word.toNat b.req.toNat := by
  rcases hl with rfl | rfl
  · simp [State.sealCycle, insertArr, Nat.not_lt.2 h.le]
  · simp [State.sealCycle, insertArr, h]

theorem exec_sealSignal_cycle (s : State) (k t : Nat) {a : SealArr} (same : List SealArr) (hop : opOp a.word.toNat = 1) :
    exec (.sealSignal k a.epoch a.word a.req same t) s = .next ((s.at t).sealCycle k (a :: same)).sealNext := by
  simp only [exec, execSealSignal, State.sealArrive, hop, if_true]

/-- Settles O29: answers that arrive, operations answered by the count of their seal, and the order of one cycle. -/
theorem sealOperationsAnswer : Obligations.SealOperationsAnswer := by
  refine ⟨fun s word req result status t hports => ⟨exec_sealNop_legal hports req, exec_sealGrant_awaited hports status,
      exec_sealAck_awaited hports result status, fun w tr => exec_barrierWaveTime_due hports,
      fun site sl count w => exec_sealWake_one hports⟩,
    fun s k t word req hports hk hbound hkind hlegal hpart =>
      ⟨fun hop hreached hsite => exec_sealWait_reached hports hbound hkind hlegal hk hpart hsite hop hreached,
      exec_sealWait_pending hports hbound hkind hlegal,
      fun hop hsite => exec_sealRead_count hports hbound hkind hlegal hk hpart hsite hop⟩,
    fun s k t a same => ⟨exec_sealSignal_cycle s k t same, ?_⟩⟩
  rintro b rank rfl hclass l hl
  exact sealCycle_two s k (arrKey_lt_of_cycleClass hclass) hl

/-! ### One seal changes (R245, R250) -/

/-- `t` differs from `s` in the seals, the descriptor streams, the output, the registers, the fabric and the free values taken. -/
def SealFrame (s t : State) : Prop :=
  t = { s with sls := t.sls, desc := t.desc, out := t.out, regs := t.regs, fab := t.fab, free := t.free }

theorem SealFrame.trans {a b c : State} (h : SealFrame a b) (g : SealFrame b c) : SealFrame a c := by
  unfold SealFrame at *
  rw [h] at g
  exact g

/-- From `s` to `t` seal `k` becomes `x`, up to its waiter set, and no other seal changes. -/
structure Leaves (k : Nat) (x : Seal) (s t : State) : Prop where
  self : ∃ ws, t.sealAt k = { x with wset := ws }
  others : ∀ j, j ≠ k → t.sealAt j = s.sealAt j
  frame : SealFrame s t
  ports : PortsFree s → PortsFree t

theorem Quiet.sealAt {s t : State} (h : Quiet s t) (j : Nat) : t.sealAt j = s.sealAt j := by
  rw [State.sealAt, h.seals, State.sealAt]

section
variable {k : Nat} {x y : Seal} {s t u : State}

theorem Quiet.leaves (h : Quiet s t) : Leaves k (s.sealAt k) s t :=
  ⟨⟨_, h.sealAt k⟩, fun j _ => h.sealAt j, h.frame, h.ports⟩

theorem Leaves.trans (h : Leaves k x s t) (g : Leaves k y t u) : Leaves k y s u :=
  ⟨g.self, fun j hj => (g.others j hj).trans (h.others j hj), h.frame.trans g.frame, g.ports ∘ h.ports⟩

/-- What keeps the seal that it finds, keeps what an earlier step left there. -/
theorem Leaves.kept (h : Leaves k x s t) (g : Leaves k (t.sealAt k) t u) : Leaves k x s u := by
  obtain ⟨ws, hself⟩ := h.self
  obtain ⟨ws', hkept⟩ := g.self
  exact { h.trans g with self := ⟨ws', by rw [hkept, hself]⟩ }

theorem Leaves.ofWset {ws : List Nat} (h : Leaves k { x with wset := ws } s t) : Leaves k x s t := { h with self := h.self }

theorem Leaves.st (h : Leaves k x s t) : (t.sealAt k).st = x.st := by
  obtain ⟨ws, hself⟩ := h.self
  rw [hself]

theorem leaves_setSeal (hx : x.st ≠ 0) : Leaves k x s (s.setSeal k x) :=
  ⟨⟨_, sealAt_setSeal s k x (fun h => hx (by rw [h]; rfl))⟩, fun j => sealAt_setSeal_other s k j x, rfl, id⟩

theorem leaves_setWset (hst : (s.sealAt k).st ≠ 0) (ws : List Nat) :
    Leaves k (s.sealAt k) s (s.setSeal k { s.sealAt k with wset := ws }) :=
  (leaves_setSeal (x := { s.sealAt k with wset := ws }) hst).ofWset

theorem leaves_sealTrim (hst : (s.sealAt k).st ≠ 0) : Leaves k (s.sealAt k) s (s.sealTrim k) := leaves_setWset hst _

/-- Joining changes the waiter set of the seal and the waits alone. -/
theorem sealJoin_eq (req op value vseal : Nat) : ∃ ws, s.sealJoin k req op value vseal =
    (s.setSeal k { s.sealAt k with wset := ws }).updWaits
      (fun l => l.filter (fun w => w.req != req) ++ [⟨req, op, k, value, vseal, true, false, none⟩]) := ⟨_, rfl⟩

theorem leaves_sealJoin (hst : (s.sealAt k).st ≠ 0) (req op value vseal : Nat) :
    Leaves k (s.sealAt k) s (s.sealJoin k req op value vseal) := by
  obtain ⟨ws, hjoins⟩ := sealJoin_eq (s := s) (k := k) req op value vseal
  rw [hjoins]
  exact (leaves_setWset hst ws).kept (updWaits_quiet _ _).leaves

end

theorem bump_quiet (s : State) (a : Nat) : Quiet s (s.bump a) := ⟨rfl, rfl, id⟩

theorem sealCount_quiet (s : State) : Quiet s s.sealCount := bump_quiet s _

/-! ### SIGNAL on a counter (R250, R258) -/

/-- The wakes leave every seal alone; the waiter set is trimmed after them. -/
theorem sealWakeAll_eq_trim (s : State) (k : Nat) : ∃ u, Quiet s u ∧ s.sealWakeAll k = u.sealTrim k := by
  refine ⟨_, ?_, rfl⟩
  refine (Quiet.refl s).foldl fun v p hv => ?_
  dsimp only
  repeat' split
  · exact hv
  · refine (hv.trans (bump_quiet v _)).foldl fun u y hu => ?_
    exact hu.trans (sealDone_quiet ..)
  · exact (hv.trans (sealAnswer_quiet _)).trans (updWaits_quiet _ _)

theorem leaves_sealWakeAll {s : State} {k : Nat} (hst : (s.sealAt k).st ≠ 0) : Leaves k (s.sealAt k) s (s.sealWakeAll k) := by
  obtain ⟨u, hquiet, heq⟩ := sealWakeAll_eq_trim s k
  rw [heq]
  exact hquiet.leaves.kept (leaves_sealTrim (by rwa [hquiet.sealAt]))

theorem leaves_applySignal {s : State} {k word : Nat} (req : Nat) (hst : (s.sealAt k).st ≠ 0) (hkind : (s.sealAt k).kind = 0)
    (hfits : (s.sealAt k).count + opValue word < 2 ^ 32) :
    Leaves k { s.sealAt k with count := (s.sealAt k).count + opValue word } s (s.applySignal k word req) := by
  have hclamp : min ((s.sealAt k).count + opValue word) 0xFFFFFFFF = (s.sealAt k).count + opValue word := by omega
  have hcounts : ¬ (s.sealAt k).count + opValue word > 0xFFFFFFFF := by omega
  have hcounter : ¬ (s.sealAt k).kind = 2 := by omega
  simp only [State.applySignal, hclamp, if_neg hcounts, if_neg hcounter]
  have hadds : Leaves k { s.sealAt k with count := (s.sealAt k).count + opValue word } s
      (s.sealCount.setSeal k { s.sealAt k with count := (s.sealAt k).count + opValue word }) :=
    (sealCount_quiet s).leaves.trans (leaves_setSeal hst)
  have hwakes := hadds.kept (leaves_sealWakeAll (by rwa [hadds.st]))
  exact hwakes.kept (sealAck_quiet _).leaves

/-- Settles O30: the addition alone leaves its seal another than it was but for the waiter set. -/
theorem sealSignalAddsToCounter : Obligations.SealSignalAddsToCounter := by
  intro s k t word req hports hst hkind hlegal hop hfits
  have hsignal : Leaves k { s.sealAt k with count := (s.sealAt k).count + opValue word.toNat } (s.at t)
      ((s.at t).applyOp 1 k word.toNat req.toNat) := leaves_applySignal (s := s.at t) req.toNat hst hkind hfits
  have hexec : exec (.sealSignal k (s.sealAt k).epoch word req [] t) s = .next ((s.at t).applyOp 1 k word.toNat req.toNat) := by
    simp only [exec, execSealSignal, sealArrive_alone req t hop hst (hkind ▸ hlegal), sealNext_portsFree (hsignal.ports hports)]
  obtain ⟨ws, hself⟩ := hsignal.self
  exact ⟨_, hexec, by rw [hself], by rw [hself], hsignal.others, hsignal.frame⟩

/-! ### Locks (R262) -/

/-- The masters that wait for lock `k` and have not been granted it. -/
def State.lockWaits (s : State) (k : Nat) : List SealWait :=
  s.sls.waits.filter (fun w => w.sl == k && w.op == 3 && w.joined && !w.granted)

section
variable {s : State} {k : Nat}

theorem lockWaits_eq_nil_iff : s.lockWaits k = [] ↔ ∀ w ∈ s.sls.waits, w.sl = k → w.op = 3 → w.joined = true → w.granted = true := by
  simp [State.lockWaits, List.filter_eq_nil_iff]

/-- A master that joins a lock for which nobody waits is the one that waits for it. -/
theorem lockWaits_sealJoin (hnone : s.lockWaits k = []) (req value vseal : Nat) :
    (s.sealJoin k req 3 value vseal).lockWaits k = [⟨req, 3, k, value, vseal, true, false, none⟩] := by
  have hrest : (s.sls.waits.filter (fun w => w.req != req)).filter
      (fun w => w.sl == k && w.op == 3 && w.joined && !w.granted) = [] := by
    rw [List.filter_comm, ← State.lockWaits, hnone, List.filter_nil]
  obtain ⟨ws, hjoins⟩ := sealJoin_eq (s := s) (k := k) req 3 value vseal
  rw [hjoins, State.lockWaits, State.updWaits, State.setSeal, List.filter_append, hrest]
  simp

theorem sealGrant_nobody (hnone : s.lockWaits k = []) : s.sealGrant k = s := by
  rw [State.lockWaits] at hnone
  simp only [State.sealGrant, hnone, List.find?_nil, List.foldl_nil, ite_self]

/-- A lock that was not abandoned goes to the one master that waits for it. -/
theorem leaves_sealGrant_one {w : SealWait} (htkt : (s.sealAt k).tkt = false) (hst : (s.sealAt k).st ≠ 3) (hone : s.lockWaits k = [w]) :
    Leaves k { s.sealAt k with st := 2, owner := w.req } s (s.sealGrant k) := by
  rw [State.lockWaits] at hone
  have huntkt : ¬ (s.sealAt k).tkt = true := by simp [htkt]
  simp only [State.sealGrant, hone, if_neg huntkt, List.foldl_cons, List.foldl_nil, if_neg hst]
  have htaken : Leaves k { s.sealAt k with st := 2, owner := w.req } s
      ((s.setSeal k { s.sealAt k with st := 2, owner := w.req }).updWaits
        (List.map fun y => if y.req = w.req then { y with granted := true } else y)) :=
    (leaves_setSeal two_ne_zero).kept (updWaits_quiet _ _).leaves
  exact (htaken.kept (leaves_sealTrim (htaken.st ▸ two_ne_zero))).kept (sealAnswer_quiet _).leaves

theorem leaves_applyAcquire {word : Nat} (req : Nat) (hst : (s.sealAt k).st = 1) (htkt : (s.sealAt k).tkt = false)
    (hnone : s.lockWaits k = []) :
    Leaves k { s.sealAt k with st := 2, owner := req } s (s.applyAcquire k word req) := by
  have hbound : (s.sealAt k).st ≠ 0 := by omega
  have hother : ¬ ((s.sealAt k).st = 2 ∧ (s.sealAt k).owner = req) := by omega
  simp only [State.applyAcquire, if_neg hother, if_pos (Or.inl hst)]
  have hjoins : Leaves k (s.sealAt k) s (s.sealCount.sealJoin k req 3 (opValue word) (opVseal word)) :=
    (sealCount_quiet s).leaves.kept (leaves_sealJoin (s := s.sealCount) hbound ..)
  have hone := lockWaits_sealJoin (s := s.sealCount) hnone req (opValue word) (opVseal word)
  obtain ⟨ws, hself⟩ := hjoins.self
  generalize s.sealCount.sealJoin k req 3 (opValue word) (opVseal word) = u at hjoins hone hself ⊢
  have hgrants := leaves_sealGrant_one (by rw [hself]; exact htkt) (by rw [hself]; simp [hst]) hone
  rw [hself] at hgrants
  exact (hjoins.trans hgrants).ofWset

theorem leaves_applyRelease {req : Nat} (word : Nat) (hst : (s.sealAt k).st = 2) (howner : (s.sealAt k).owner = req)
    (htkt : (s.sealAt k).tkt = false) (hnone : s.lockWaits k = []) :
    Leaves k { s.sealAt k with st := 1, owner := 0 } s (s.applyRelease k word req) := by
  have huntkt : ¬ (s.sealAt k).tkt = true := by simp [htkt]
  simp only [State.applyRelease, if_pos (And.intro hst howner), if_neg huntkt]
  have hfrees : Leaves k { s.sealAt k with st := 1, owner := 0 } s
      (s.sealCount.setSeal k { s.sealAt k with st := 1, owner := 0 }) :=
    (sealCount_quiet s).leaves.trans (leaves_setSeal one_ne_zero)
  rw [sealGrant_nobody (s := s.sealCount.setSeal k { s.sealAt k with st := 1, owner := 0 }) hnone]
  exact hfrees.kept (sealAck_quiet _).leaves

end

/-! ### ARM (R260) -/

theorem barrierRule_above {s : State} {k : Nat} (habove : (s.sealAt k).count < (s.sealAt k).target) : s.barrierRule k = s := by
  have hwaits : ¬ ((s.sealAt k).kind = 2 ∧ (s.sealAt k).st = 4 ∧ (s.sealAt k).target ≤ (s.sealAt k).count) := by omega
  simp only [State.barrierRule, if_neg hwaits]

theorem applyArm_above {s : State} {k word req : Nat} (hk : k < 16384) (hst : (s.sealAt k).st ≠ 4)
    (habove : (s.sealAt k).count < opValue word) (hpart : owPart req = (s.sealAt k).part) (hsite : owSite req = s.sealSite k) :
    s.applyArm k word req = (s.bump rSEAL_CNT_OPS).setSeal k { s.sealAt k with st := 4, target := opValue word } := by
  simp only [State.applyArm, if_neg hst, State.sealCount]
  have harmed : ((s.bump rSEAL_CNT_OPS).setSeal k { s.sealAt k with st := 4, target := opValue word }).sealAt k =
      { s.sealAt k with st := 4, target := opValue word } := sealAt_setSeal _ _ _ fun h => four_ne_zero (congrArg Seal.st h)
  have hhere : owSite req = ((s.bump rSEAL_CNT_OPS).setSeal k { s.sealAt k with st := 4, target := opValue word }).sealSite k :=
    hsite.trans (sealSite_bump s _ k hk (by decide)).symm
  rw [barrierRule_above (by rw [harmed]; exact habove), sealAck_local (by rw [harmed]; exact hpart) hhere]

/-! ### The commands on locks and barriers -/

section
variable {s : State} {k : Nat} {word : BitVec 64} {req : BitVec 32} (t : Nat) (hports : PortsFree s)
include hports

section
variable (hkind : (s.sealAt k).kind = 1) (htkt : (s.sealAt k).tkt = false) (hlegal : opLegal 1 false word.toNat = true)
  (hnone : s.lockWaits k = [])
include hkind htkt hlegal hnone

theorem completes_sealAcquire_free (hop : opOp word.toNat = 3) (hst : (s.sealAt k).st = 1) :
    Completes (.sealAcquire k (s.sealAt k).epoch word req [] t) s
      (Leaves k { s.sealAt k with st := 2, owner := req.toNat } (s.at t)) := by
  have htakes : Leaves k { s.sealAt k with st := 2, owner := req.toNat } (s.at t) ((s.at t).applyOp 3 k word.toNat req.toNat) :=
    leaves_applyAcquire (s := s.at t) req.toNat hst htkt hnone
  refine ⟨_, ?_, htakes⟩
  have hbound : (s.sealAt k).st ≠ 0 := by omega
  simp only [exec, execSealAcquire, sealArrive_alone req t hop hbound (by rwa [hkind, htkt]),
    sealNext_portsFree (htakes.ports hports)]

theorem completes_sealRelease_owner (hop : opOp word.toNat = 4) (hst : (s.sealAt k).st = 2)
    (howner : (s.sealAt k).owner = req.toNat) :
    Completes (.sealRelease k (s.sealAt k).epoch word req [] t) s
      (Leaves k { s.sealAt k with st := 1, owner := 0 } (s.at t)) := by
  have hfrees : Leaves k { s.sealAt k with st := 1, owner := 0 } (s.at t) ((s.at t).applyOp 4 k word.toNat req.toNat) :=
    leaves_applyRelease (s := s.at t) word.toNat hst howner htkt hnone
  refine ⟨_, ?_, hfrees⟩
  have hbound : (s.sealAt k).st ≠ 0 := by omega
  simp only [exec, execSealRelease, sealArrive_alone req t hop hbound (by rwa [hkind, htkt]),
    sealNext_portsFree (hfrees.ports hports)]

end

theorem exec_armBarrier_above (hk : k < 16384) (hkind : (s.sealAt k).kind = 2) (hst : (s.sealAt k).st = 1)
    (hlegal : opLegal 2 (s.sealAt k).tkt word.toNat = true) (hop : opOp word.toNat = 5)
    (habove : (s.sealAt k).count < opValue word.toNat) (hpart : owPart req.toNat = (s.sealAt k).part)
    (hsite : owSite req.toNat = s.sealSite k) :
    exec (.armBarrier k (s.sealAt k).epoch word req [] t) s =
      .next (((s.at t).bump rSEAL_CNT_OPS).setSeal k { s.sealAt k with st := 4, target := opValue word.toNat }) := by
  have hbound : (s.sealAt k).st ≠ 0 := by omega
  have hunarmed : (s.sealAt k).st ≠ 4 := by omega
  have harms : (s.at t).applyOp 5 k word.toNat req.toNat =
      ((s.at t).bump rSEAL_CNT_OPS).setSeal k { s.sealAt k with st := 4, target := opValue word.toNat } :=
    applyArm_above (s := s.at t) hk hunarmed habove hpart hsite
  have hfree : PortsFree (((s.at t).bump rSEAL_CNT_OPS).setSeal k { s.sealAt k with st := 4, target := opValue word.toNat }) :=
    hports
  simp only [exec, execArmBarrier, sealArrive_alone req t hop hbound (by rwa [hkind]), harms, sealNext_portsFree hfree]

end

theorem Completes.imp {c : Instr} {s : State} {P Q : State → Prop} (h : Completes c s P) (himp : ∀ u, P u → Q u) : Completes c s Q := by
  obtain ⟨u, hexec, hp⟩ := h
  exact ⟨u, hexec, himp u hp⟩

/-- Settles O31: a free lock goes to the one master that has just joined it, a released one to nobody, and a barrier armed above its
count is not released. -/
theorem sealLocksAndBarriers : Obligations.SealLocksAndBarriers := by
  refine ⟨fun s k t word req hports hkind htkt hlegal hgranted => ?_, fun s k t word req => exec_armBarrier_above t⟩
  have hnone : s.lockWaits k = [] := lockWaits_eq_nil_iff.2 fun w hw hsl hop _ => hgranted w hw hsl hop
  refine ⟨fun hop hst => (completes_sealAcquire_free t hports hkind htkt hlegal hnone hop hst).imp ?_,
    fun hop hst howner => (completes_sealRelease_owner t hports hkind htkt hlegal hnone hop hst howner).imp ?_⟩ <;>
  · rintro u ⟨⟨ws, hself⟩, -, -, -⟩
    rw [hself]
    exact ⟨rfl, rfl, rfl⟩

end Sys2Proof.Machine
end

section
/-! PROOFS. The statements on partitions, queues and streams (chapter 10): the admission of submission entries with the streams
that OPEN and RESUME leave, the partition commands, the queue registers, and the vectors and ports of the functions. -/

namespace Sys2Proof.Machine

/-! ### Admission of a submission entry (R277, R279 to R281) -/

/-- The entry at the head of a queue is taken: the head moves on, and a completion is reserved (R277). -/
def State.taken (s : State) (n q : Nat) : State :=
  s.updQp n q (fun x => { x with sqHead := (x.sqHead + 1) % 2 ^ x.sqSize, reserved := x.reserved + 1 })

/-- Such an entry has passed its checks: it is counted and recorded, and kept for the partner of a MIRROR pair. -/
def State.admitted (s : State) (n q e : Nat) : State :=
  (((s.taken n q).bump rSTRM_CNT_ADMIT).record n 3 (unpackNat 32 16 e ++ [q, 0, 0, 0, 0, 0, 0, 0])).noteSub n q e

/-- What an operation of code `opc` does at its admission. -/
def State.perform (s : State) (opc n q e : Nat) : State :=
  match opc with
  | 1 => s.opOpen n q e
  | 4 => s.opFork n q e
  | 7 => s.opClose n q e
  | _ => s.queueOp n q e

section
variable {s : State} {n q e : Nat}

theorem admitAs_inadmissible (hshut : s.admissible n q = false) (opc : Nat) : s.admitAs opc n q e = s := by
  simp only [State.admitAs, hshut, Bool.false_and, Bool.false_eq_true, if_false]

variable {opc : Nat} (hopen : s.admissible n q = true) (hopc : sbOpc e = opc)
include hopen hopc

theorem admitAs_admissible : s.admitAs opc n q e = s.admitOp n q e := by
  simp only [State.admitAs, hopen, hopc, beq_self_eq_true, Bool.and_self, if_true]

theorem admitAs_failed {f : Nat × Nat} (hfail : (s.taken n q).entryFail n q e = some f) :
    s.admitAs opc n q e = (s.taken n q).rejectEntry n q e f.1 f.2 := by
  rw [admitAs_admissible hopen hopc, State.admitOp, ← State.taken]
  simp only [hfail]

theorem admitAs_passed (hpass : (s.taken n q).entryFail n q e = none) :
    s.admitAs opc n q e = (s.admitted n q e).perform opc n q e := by
  rw [admitAs_admissible hopen hopc, State.admitOp, ← State.taken]
  simp only [hpass, hopc]
  rfl

end

theorem next_admitAs_passed {s : State} {opc n q e : Nat} (hopen : s.admissible n q = true)
    (hpass : (s.taken n q).entryFail n q e = none) (hopc : sbOpc e = opc) :
    (.next (s.admitAs opc n q e) : Res) = .next ((s.admitted n q e).perform opc n q e) :=
  congrArg _ (admitAs_passed hopen hopc hpass)

/-- Settles O36: an entry that passes is performed by its code, one that fails is rejected, and a queue that is shut keeps its
entry. -/
theorem admission : Obligations.Admission := by
  rintro s _ _ n q e rfl rfl
  exact ⟨fun hopen hpass => ⟨next_admitAs_passed hopen hpass, next_admitAs_passed hopen hpass, next_admitAs_passed hopen hpass,
      next_admitAs_passed hopen hpass, next_admitAs_passed hopen hpass, next_admitAs_passed hopen hpass,
      next_admitAs_passed hopen hpass⟩,
    fun f hopen hfail hopc => congrArg _ (admitAs_failed hopen hopc hfail),
    fun hshut => ⟨congrArg _ (admitAs_inadmissible hshut 1), congrArg _ (admitAs_inadmissible hshut 7)⟩⟩

/-! ### Streams read back -/

section
variable {s t : State} {i : Nat} {x : Stream}

theorem stream_setStream (hx : x ≠ Stream.init) : (s.setStream i x).stream i = x := mget_mset_nd _ _ _ _ hx

theorem stream_setStream_other {j : Nat} (hj : j ≠ i) : (s.setStream i x).stream j = s.stream j := mget_mset_ne _ _ _ _ _ _ hj

theorem stream_ne_init (hst : x.st ≠ .free) : x ≠ Stream.init := fun h => hst (congrArg Stream.st h)

/-- `t` has the streams and the partitions of `s`. -/
structure SameStreams (s t : State) : Prop where
  streams : t.host.streams = s.host.streams
  parts : t.parts = s.parts

theorem SameStreams.trans {u : State} (h : SameStreams s t) (g : SameStreams t u) : SameStreams s u :=
  ⟨g.streams.trans h.streams, g.parts.trans h.parts⟩

theorem SameStreams.stream (h : SameStreams s t) (j : Nat) : t.stream j = s.stream j := by
  rw [State.stream, h.streams, State.stream]

theorem SameStreams.part (h : SameStreams s t) (n : Nat) : t.part n = s.part n := by
  rw [State.part, h.parts, State.part]

theorem SameStreams.nsite (h : SameStreams s t) (n : Nat) : t.nsite n = s.nsite n := by
  rw [State.nsite, h.part, State.nsite]

theorem SameStreams.partStreams (h : SameStreams s t) (n : Nat) : t.partStreams n = s.partStreams n := by
  rw [State.partStreams, h.streams, h.part, State.partStreams]

theorem sameStreams_record (n kind : Nat) (words : List Nat) : SameStreams s (s.record n kind words) := by
  unfold State.record
  split
  · exact ⟨rfl, rfl⟩
  · exact ⟨rfl, rfl⟩

theorem sameStreams_noteSub (n q e : Nat) : SameStreams s (s.noteSub n q e) := by
  unfold State.noteSub
  split
  · exact ⟨rfl, rfl⟩
  · exact ⟨rfl, rfl⟩

theorem sameStreams_admitted (s : State) (n q e : Nat) : SameStreams s (s.admitted n q e) :=
  have hcounted : SameStreams s ((s.taken n q).bump rSTRM_CNT_ADMIT) := ⟨rfl, rfl⟩
  (hcounted.trans (sameStreams_record n 3 _)).trans (sameStreams_noteSub n q e)

end

/-! ### The least loaded home base (R283) -/

/-- Live streams of partition `n` other than `k` whose home base is site rank `r`. -/
def State.baseLoad (s : State) (n k r : Nat) : Nat :=
  ((s.partStreams n).filter (fun i => i != k && ((s.stream i).hb == r &&
    [StreamState.opened, .resident, .active, .draining].contains (s.stream i).st))).length

/-- The first of the ranks below `m` that carries the least load. -/
def leastLoaded (load : Nat → Nat) (m : Nat) : Nat := (List.range m).foldl (fun b r => if load r < load b then r else b) 0

/-- Rank `b` is the lowest of those below `m` that carry the least load. -/
def LeastLoaded (load : Nat → Nat) (m b : Nat) : Prop :=
  b < m ∧ ∀ r, r < m → load b ≤ load r ∧ (r < b → load b < load r)

theorem leastLoaded_succ (load : Nat → Nat) (m : Nat) :
    leastLoaded load (m + 1) = if load m < load (leastLoaded load m) then m else leastLoaded load m := by
  rw [leastLoaded, List.range_succ, List.foldl_append]
  rfl

theorem leastLoaded_spec (load : Nat → Nat) {m : Nat} (hm : 0 < m) : LeastLoaded load m (leastLoaded load m) := by
  induction m, hm using Nat.le_induction with
  | base =>
    have hzero : leastLoaded load 1 = 0 := by simp [leastLoaded]
    rw [hzero]
    refine ⟨Nat.one_pos, fun r hr => ?_⟩
    obtain rfl : r = 0 := by omega
    exact ⟨le_rfl, fun h => absurd h (lt_irrefl 0)⟩
  | succ m _ ih =>
    obtain ⟨hlt, hleast⟩ := ih
    rw [leastLoaded_succ]
    split_ifs with hless
    · refine ⟨Nat.lt_succ_self m, fun r hr => ?_⟩
      rcases Nat.lt_succ_iff_lt_or_eq.1 hr with hr | rfl
      · have hbelow := hless.trans_le (hleast r hr).1
        exact ⟨hbelow.le, fun _ => hbelow⟩
      · exact ⟨le_rfl, fun h => absurd h (lt_irrefl _)⟩
    · refine ⟨hlt.trans (Nat.lt_succ_self m), fun r hr => ?_⟩
      rcases Nat.lt_succ_iff_lt_or_eq.1 hr with hr | rfl
      · exact hleast r hr
      · exact ⟨Nat.le_of_not_lt hless, fun h => absurd h hlt.asymm⟩

section
variable {s t : State} {n k : Nat}

theorem homeBase_eq_leastLoaded (s : State) (n k : Nat) : s.homeBase n k = leastLoaded (s.baseLoad n k) (s.nsite n) := by
  have hload (r : Nat) : (((s.partStreams n).filter (fun i => i != k &&
      [StreamState.opened, .resident, .active, .draining].contains (s.stream i).st)).filter
        (fun i => (s.stream i).hb == r)).length = s.baseLoad n k r := by
    rw [List.filter_filter, State.baseLoad]
    simp only [Bool.and_left_comm]
  exact congrArg (fun load => leastLoaded load (s.nsite n)) (funext hload)

theorem SameStreams.baseLoad (h : SameStreams s t) (n k : Nat) : t.baseLoad n k = s.baseLoad n k := by
  funext r
  simp only [State.baseLoad, h.partStreams, h.stream]

theorem baseLoad_setStream (s : State) (n k : Nat) (x : Stream) : (s.setStream k x).baseLoad n k = s.baseLoad n k := by
  funext r
  have hothers (i : Nat) : (i != k && (((s.setStream k x).stream i).hb == r &&
      [StreamState.opened, .resident, .active, .draining].contains ((s.setStream k x).stream i).st)) =
      (i != k && ((s.stream i).hb == r &&
        [StreamState.opened, .resident, .active, .draining].contains (s.stream i).st)) := by
    by_cases hi : i = k
    · simp [hi]
    · rw [stream_setStream_other hi]
  simp only [State.baseLoad, hothers, State.partStreams, State.setStream_frame, List.filter_filter]
  exact congrArg List.length (mset_fst_filter _ _ _ _ _ (by simp))

theorem nsite_setStream (s : State) (n k : Nat) (x : Stream) : (s.setStream k x).nsite n = s.nsite n := rfl

theorem leastLoaded_homeBase (hsites : 0 < s.nsite n) : LeastLoaded (s.baseLoad n k) (s.nsite n) (s.homeBase n k) := by
  rw [homeBase_eq_leastLoaded]
  exact leastLoaded_spec _ hsites

end

/-! ### OPEN and RESUME (R279, R283) -/

theorem clampN_of_pos {x hi : Nat} (hhi : 1 ≤ hi) (hx : x ≠ 0) : clampN 1 hi x = min hi x :=
  Nat.max_eq_right (Nat.le_min.2 ⟨hhi, Nat.one_le_iff_ne_zero.2 hx⟩)

section
variable (s : State) (n q e : Nat)

/-- The stream that an OPEN makes. -/
def State.openedStream : Stream :=
  { Stream.init with st := .opened, part := n, qp := q, hb := s.homeBase n (sbStream e),
                     maxctx := if sbCount e = 0 then (s.part n).g.maxctx else clampN 1 131072 (sbCount e) }

theorem hb_openedStream : (s.openedStream n q e).hb = s.homeBase n (sbStream e) := by
  rw [State.openedStream]

theorem maxctx_openedStream (hcount : sbCount e ≠ 0) : (s.openedStream n q e).maxctx = min 131072 (sbCount e) := by
  rw [State.openedStream, if_neg hcount, clampN_of_pos (by decide) hcount]

theorem stream_opOpen : (s.opOpen n q e).stream (sbStream e) = s.openedStream n q e :=
  stream_setStream (stream_ne_init StreamState.noConfusion)

theorem stream_opOpen_other {i : Nat} (hi : i ≠ sbStream e) : (s.opOpen n q e).stream i = s.stream i := stream_setStream_other hi

end

theorem hb_opOpen {s : State} {n e : Nat} (q : Nat) (hsites : 0 < s.nsite n) :
    LeastLoaded (s.baseLoad n (sbStream e)) (s.nsite n) ((s.opOpen n q e).stream (sbStream e)).hb := by
  rw [stream_opOpen, hb_openedStream]
  exact leastLoaded_homeBase hsites

/-- Settles O37: the stream is the one that OPEN makes, and the admission before it touches none. -/
theorem openMakesStream : Obligations.OpenMakesStream := by
  intro s n q e hopen hopc hpass
  have hsame := sameStreams_admitted s n q e.toNat
  refine ⟨_, next_admitAs_passed hopen hpass hopc, ?_⟩
  have hmade := stream_opOpen (s.admitted n q e.toNat) n q e.toNat
  have hothers (i : Nat) (hi : i ≠ sbStream e.toNat) : ((s.admitted n q e.toNat).opOpen n q e.toNat).stream i = s.stream i :=
    (stream_opOpen_other _ n q _ hi).trans (hsame.stream i)
  beta_reduce
  rw [State.perform, hmade]
  exact ⟨rfl, rfl, rfl, rfl, maxctx_openedStream _ n q _, hothers⟩

/-- A stream behind whose operations one more is queued (R281). -/
def State.queuedStream (s : State) (n q e : Nat) : Stream :=
  let x := s.stream (sbStream e)
  { x with st := .active, qp := if x.ops.isEmpty && !x.waitFork then q else x.qp,
           ops := x.ops ++ [opOfEntry q (s.qp n q).sqPort (s.part n).stroke.toNat e] }

theorem queueOp_eq_startOps (s : State) (n q e : Nat) :
    s.queueOp n q e = (s.setStream (sbStream e) (s.queuedStream n q e)).startOps n (sbStream e) 5 := rfl

/-- A RESUME at the head of a parked stream starts, and gives it its home base. -/
theorem hb_startOps_resume {s : State} {i : Nat} {o : AdmOp} {l : List AdmOp} (n fuel : Nat) (hops : (s.stream i).ops = o :: l)
    (hopc : o.opc = 6) (hst : (s.stream i).st = .active) (hfork : (s.stream i).waitFork = false)
    (hstarted : (s.stream i).started = false) (hparked : (s.stream i).parked = true) :
    ((s.startOps n i (fuel + 1)).stream i).hb = s.homeBase n i := by
  have hstarts : s.startOps n i (fuel + 1) = s.setStream i { s.stream i with started := true, hb := s.homeBase n i } := by
    simp [State.startOps, hops, hopc, hst, hfork, hstarted, hparked]
  have hlisted : ({ s.stream i with started := true, hb := s.homeBase n i } : Stream) ≠ Stream.init :=
    stream_ne_init fun h => StreamState.noConfusion (hst.symm.trans h)
  rw [hstarts, stream_setStream hlisted]

/-- The home base of a RESUME is chosen when the stream waits for it, and so from what the others had before. -/
theorem hb_queueOp_resume {s : State} {n q e : Nat} (hsites : 0 < s.nsite n) (hopc : sbOpc e = 6)
    (hidle : (s.stream (sbStream e)).ops = []) (hfork : (s.stream (sbStream e)).waitFork = false)
    (hstarted : (s.stream (sbStream e)).started = false) (hparked : (s.stream (sbStream e)).parked = true) :
    LeastLoaded (s.baseLoad n (sbStream e)) (s.nsite n) ((s.queueOp n q e).stream (sbStream e)).hb := by
  have hqueued : (s.setStream (sbStream e) (s.queuedStream n q e)).stream (sbStream e) = s.queuedStream n q e :=
    stream_setStream (stream_ne_init StreamState.noConfusion)
  have hchosen := leastLoaded_homeBase (s := s.setStream (sbStream e) (s.queuedStream n q e)) (k := sbStream e) hsites
  rw [baseLoad_setStream, nsite_setStream] at hchosen
  rw [queueOp_eq_startOps]
  generalize s.setStream (sbStream e) (s.queuedStream n q e) = t at hqueued hchosen ⊢
  have hst : (t.stream (sbStream e)).st = .active := by rw [hqueued]; rfl
  have hops : (t.stream (sbStream e)).ops = [opOfEntry q (s.qp n q).sqPort (s.part n).stroke.toNat e] := by
    rw [hqueued, State.queuedStream, hidle, List.nil_append]
  rw [hb_startOps_resume n 4 hops hopc hst (hqueued ▸ hfork) (hqueued ▸ hstarted) (hqueued ▸ hparked)]
  exact hchosen

/-- Settles O38: at OPEN and at RESUME the stream's home base is the choice of `leastLoaded`, and the admission before it changes
no load. -/
theorem homeBaseIsLeastLoaded : Obligations.HomeBaseIsLeastLoaded := by
  rintro s _ n q e load hload hsites hopen rfl hpass
  have hsame := sameStreams_admitted s n q e.toNat
  have hstream := hsame.stream (sbStream e.toNat)
  have hsites' : 0 < (s.admitted n q e.toNat).nsite n := by rwa [hsame.nsite]
  obtain rfl : load = (s.admitted n q e.toNat).baseLoad n (sbStream e.toNat) := by
    rw [hsame.baseLoad]
    exact funext hload
  rw [← hsame.nsite]
  refine ⟨fun hopc => ⟨_, next_admitAs_passed hopen hpass hopc, ?_⟩,
    fun hopc hidle hfork hstarted hparked => ⟨_, next_admitAs_passed hopen hpass hopc, ?_⟩⟩
  · exact hb_opOpen q hsites'
  · rw [← hstream] at hidle hfork hstarted hparked
    exact hb_queueOp_resume hsites' hopc hidle hfork hstarted hparked

/-! ### Partition commands (R272, R273, R370) -/

section
variable {s : State} {n : Nat}

section
variable (hearly : s.ready = false)
include hearly

theorem exec_partConfigure_notReady (c : Option (BitVec 1024)) : exec (.partConfigure n c) s = .next s := by
  simp [exec, execPartConfigure, hearly]

theorem exec_partRelease_notReady : exec (.partRelease n) s = .next s := by
  simp [exec, execPartRelease, hearly]

theorem exec_partReset_notReady : exec (.partReset n) s = .next s := by
  simp [exec, execPartReset, hearly]

end

variable (hready : s.ready = true)
include hready

section
variable (hwaits : (s.part n).pend ≠ none)
include hwaits

theorem exec_partConfigure_pending (c : Option (BitVec 1024)) : exec (.partConfigure n c) s = .next (s.partResult 1 n 2) := by
  simp [exec, execPartConfigure, hready, Option.isSome_iff_ne_none.2 hwaits]

theorem exec_partRelease_pending : exec (.partRelease n) s = .next (s.partResult 2 n 2) := by
  simp [exec, execPartRelease, hready, Option.isSome_iff_ne_none.2 hwaits]

theorem exec_partReset_pending : exec (.partReset n) s = .next (s.partResult 3 n 2) := by
  simp [exec, execPartReset, hready, Option.isSome_iff_ne_none.2 hwaits]

end

variable (hfree : (s.part n).pend = none)
include hfree

/-- What CONFIGURE answers is decided by the block that it has read (R274). -/
theorem exec_partConfigure_unconfigured (hst : (s.part n).st = .unconfigured) (hhubs : s.boot.hubLost = 0)
    (c : Option (BitVec 1024)) : exec (.partConfigure n c) s = .next (c.elim (s.partResult 1 n 6)
      (fun c => (s.configure n 5 c.toNat).2.partResult 1 n (s.configure n 5 c.toNat).1)) := by
  cases c <;> simp [exec, execPartConfigure, hready, hfree, hst, hhubs]

theorem exec_partRelease_configured (hst : (s.part n).st = .configured) :
    exec (.partRelease n) s = .next ((s.updPart n (fun p => { p with pend := some .release })).partResult 2 n 0) := by
  simp [exec, execPartRelease, hready, hfree, hst]

theorem exec_partReset_active (hst : (s.part n).st = .running ∨ (s.part n).st = .loading) : exec (.partReset n) s =
    .next (((s.updPart n (fun p => { p with pend := some .reset })).resetPart n 0).partResult 3 n 0) := by
  rcases hst with hst | hst <;> simp [exec, execPartReset, hready, hfree, hst]

end

/-- Settles O33: each command by its own law, before READY, while one waits, and in the state that it asks for. -/
theorem partitionCommands : Obligations.PartitionCommands := by
  refine fun s n => ⟨fun hready => ⟨fun hst hfree hhubs => ?_, fun hst hfree => exec_partRelease_configured hready hfree hst,
      fun hst hfree => exec_partReset_active hready hfree hst, fun hwaits => ⟨exec_partConfigure_pending hready hwaits,
        exec_partRelease_pending hready hwaits, exec_partReset_pending hready hwaits⟩⟩,
    fun hearly => ⟨exec_partConfigure_notReady hearly, exec_partRelease_notReady hearly, exec_partReset_notReady hearly⟩⟩
  have hconfigures := exec_partConfigure_unconfigured hready hfree hst hhubs
  exact ⟨hconfigures none, fun c => hconfigures (some c)⟩

/-! ### Queue registers and doorbells (R275, R276) -/

theorem clamped_nil (s : State) (source : Nat) : s.clamped source [] = s := rfl

theorem clampE_inRange {lo hi x : Nat} (id : Nat) (hlo : lo ≤ x) (hhi : x ≤ hi) : clampE id lo hi x = (x, []) := by
  rw [clampE, if_neg (Nat.not_lt.2 hlo), if_neg (Nat.not_lt.2 hhi)]

theorem served_at (s : State) (port vf q t : Nat) : (s.at t).served port vf q = s.served port vf q := rfl

section
variable {s : State} {port vf q : Nat}

section
variable (hshut : s.served port vf q = false)
include hshut

theorem exec_queBaseWrite_unserved (sq : Bool) (half : Nat) (v : BitVec 64) :
    exec (.queBaseWrite port vf q sq half v) s = .next s := by
  simp [exec, execQueBaseWrite, hshut]

theorem exec_queCfgWrite_unserved (sq : Bool) (w : BitVec 32) : exec (.queCfgWrite port vf q sq w) s = .next s := by
  simp [exec, execQueCfgWrite, hshut]

theorem exec_sqTailDoorbell_unserved (w : BitVec 32) (t : Nat) : exec (.sqTailDoorbell port vf q w t) s = .next (s.at t) := by
  simp [exec, execSqTailDoorbell, served_at, hshut]

theorem exec_cqHeadDoorbell_unserved (w : BitVec 32) (t : Nat) : exec (.cqHeadDoorbell port vf q w t) s = .next (s.at t) := by
  simp [exec, execCqHeadDoorbell, served_at, hshut]

end

variable (hserved : s.served port vf q = true)
include hserved

section
variable {half req : Nat} {v : BitVec 64}

theorem exec_queBaseWrite_disabledSq (hoff : (s.qp (vf - 1) q).sqEn = false)
    (hreq : req = mergeHalf half (s.qp (vf - 1) q).sqBase.toNat v.toNat) :
    exec (.queBaseWrite port vf q true half v) s =
      .next ((s.setQp (vf - 1) q { s.qp (vf - 1) q with sqBase := BitVec.ofNat 64 (req / 4096 * 4096) }).clamped 8
        (if req = req / 4096 * 4096 then [] else [⟨vfId port vf (0x40 * q), req, req / 4096 * 4096, 7⟩])) := by
  simp [exec, execQueBaseWrite, hserved, hoff, hreq]

section
variable (hon : (s.qp (vf - 1) q).cqEn = true)
include hon

theorem exec_queBaseWrite_sameCq
    (hsame : mergeHalf half (s.qp (vf - 1) q).cqBase.toNat v.toNat / 4096 * 4096 = (s.qp (vf - 1) q).cqBase.toNat) :
    exec (.queBaseWrite port vf q false half v) s = .next s := by
  simp [exec, execQueBaseWrite, hserved, hon, hsame]

theorem exec_queBaseWrite_enabledCq
    (hother : mergeHalf half (s.qp (vf - 1) q).cqBase.toNat v.toNat / 4096 * 4096 ≠ (s.qp (vf - 1) q).cqBase.toNat) :
    exec (.queBaseWrite port vf q false half v) s = .next (s.qpErr (vf - 1) q 0) := by
  simp [exec, execQueBaseWrite, hserved, hon, hother]

end
end

section
variable {w : BitVec 32}

theorem exec_queCfgWrite_enableSq (hoff : (s.qp (vf - 1) q).sqEn = false) (hon : bit w.toNat 31 = true)
    (hlo : 6 ≤ bits w.toNat 0 5) (hhi : bits w.toNat 0 5 ≤ 16) : exec (.queCfgWrite port vf q true w) s =
      .next (s.setQp (vf - 1) q { s.qp (vf - 1) q with
        sqSize := bits w.toNat 0 5, sqEn := true, sqHead := 0, sqDb := 0, sqPort := port }) := by
  simp [exec, execQueCfgWrite, hserved, sizeWrite, hoff, hon, clampE_inRange _ hlo hhi, clamped_nil]

variable (t : Nat)

theorem exec_sqTailDoorbell_inRange (hin : bits w.toNat 0 16 < 2 ^ (s.qp (vf - 1) q).sqSize) :
    exec (.sqTailDoorbell port vf q w t) s =
      .next ((s.at t).setQp (vf - 1) q { s.qp (vf - 1) q with sqDb := bits w.toNat 0 16 }) := by
  simp [exec, execSqTailDoorbell, served_at, hserved, hin, State.updQp]

theorem exec_cqHeadDoorbell_inRange (hin : bits w.toNat 0 16 < 2 ^ (s.qp (vf - 1) q).cqSize) :
    exec (.cqHeadDoorbell port vf q w t) s =
      .next ((s.at t).setQp (vf - 1) q { s.qp (vf - 1) q with cqDb := bits w.toNat 0 16 }) := by
  simp [exec, execCqHeadDoorbell, served_at, hserved, hin, State.updQp]

theorem exec_sqTailDoorbell_outOfRange (hout : 2 ^ (s.qp (vf - 1) q).sqSize ≤ bits w.toNat 0 16) :
    exec (.sqTailDoorbell port vf q w t) s =
      .next (((s.at t).qpErr (vf - 1) q 1).raiseOnce 0 0x0286 (vf - 1) 0x3FFF (hubSite port) q w.toNat) := by
  simp [exec, execSqTailDoorbell, served_at, hserved, hout, State.badDoorbell]

theorem exec_cqHeadDoorbell_outOfRange (hout : 2 ^ (s.qp (vf - 1) q).cqSize ≤ bits w.toNat 0 16) :
    exec (.cqHeadDoorbell port vf q w t) s =
      .next (((s.at t).qpErr (vf - 1) q 1).raiseOnce 0 0x0286 (vf - 1) 0x3FFF (hubSite port) (q + 16) w.toNat) := by
  simp [exec, execCqHeadDoorbell, served_at, hserved, hout, State.badDoorbell]

end
end

/-- Settles O34: bases, the enabling of a submission queue and doorbells, each by its own law above. -/
theorem queueRegisters : Obligations.QueueRegisters := by
  refine ⟨fun s port vf q => ⟨fun hserved => ⟨fun half req v => exec_queBaseWrite_disabledSq hserved,
      fun half v hon => ⟨exec_queBaseWrite_sameCq hserved hon, fun hother => ?_⟩, fun w => exec_queCfgWrite_enableSq hserved⟩,
    fun hshut sq half t v w => ⟨exec_queBaseWrite_unserved hshut sq half v, exec_queCfgWrite_unserved hshut sq w,
      exec_sqTailDoorbell_unserved hshut w t, exec_cqHeadDoorbell_unserved hshut w t⟩⟩,
    fun s port vf q t w hserved => ⟨exec_sqTailDoorbell_inRange hserved t, exec_cqHeadDoorbell_inRange hserved t,
      exec_sqTailDoorbell_outOfRange hserved t, exec_cqHeadDoorbell_outOfRange hserved t⟩⟩
  exact ⟨_, exec_queBaseWrite_enabledCq hserved hon hother, rfl⟩

/-! ### Vectors (R268) -/

section
variable {s : State} {port fn vec : Nat}

theorem msixWord_setMsixWord {v : BitVec 32} (hv : v ≠ 1) : (s.setMsixWord port fn vec 3 v).msixWord port fn vec 3 = v :=
  mget_mset_nd _ _ _ _ hv

theorem unmaskVec_shut (hshut : s.msixOpen port fn vec = false) : s.unmaskVec port fn vec = s := by
  simp only [State.unmaskVec, hshut, Bool.and_false, Bool.false_eq_true, if_false]

theorem unmaskVec_pending (hpend : mget false s.host.pendBit (fnKey port fn vec) = true) (hopen : s.msixOpen port fn vec = true) :
    s.unmaskVec port fn vec = (s.sendMsix port fn vec).setPendBit (fnKey port fn vec) false := by
  simp only [State.unmaskVec, hpend, hopen, Bool.and_self, if_true]

theorem bit_clrBit_zero (x : Nat) : bit (BitVec.ofNat 32 (clrBit x 0)).toNat 0 = false := by
  have heven : bits (clrBit x 0 % 2 ^ 32) 0 1 = 0 := (bits_congr (Nat.mod_mod ..) (by decide)).trans (bits_setBits_same x 0 1 0)
  rw [Bool.eq_false_iff, ne_eq, bit_eq_true_iff, BitVec.toNat_ofNat, heven]
  decide

/-- Clearing the mask of a vector of an open function opens the vector. -/
theorem msixOpen_unmasked (hon : mget false s.host.msixOn (port * 17 + fn) = true)
    (hunmasked : mget false s.host.fmask (port * 17 + fn) = false) (x : Nat) :
    (s.setMsixWord port fn vec 3 (BitVec.ofNat 32 (clrBit x 0))).msixOpen port fn vec = true := by
  have hword : BitVec.ofNat 32 (clrBit x 0) ≠ 1 := fun h => by simpa [h, bit] using bit_clrBit_zero x
  rw [State.msixOpen, msixWord_setMsixWord hword, bit_clrBit_zero]
  simp [hon, hunmasked]

theorem exec_msixUnmask_vector (hon : mget false s.host.msixOn (port * 17 + fn) = true)
    (hunmasked : mget false s.host.fmask (port * 17 + fn) = false)
    (hpend : mget false s.host.pendBit (fnKey port fn vec) = true) (en mask : Bool) :
    exec (.msixUnmask port fn (some vec) en mask) s = .next (((s.setMsixWord port fn vec 3
      (BitVec.ofNat 32 (clrBit (s.msixWord port fn vec 3).toNat 0))).sendMsix port fn vec).setPendBit (fnKey port fn vec) false) :=
  congrArg _ (unmaskVec_pending (s := s.setMsixWord port fn vec 3 _) hpend (msixOpen_unmasked hon hunmasked _))

end

/-- MSI-X Enable and Function Mask of a function as written. -/
def State.setFunction (s : State) (port fn : Nat) (en mask : Bool) : State :=
  { s with host := { s.host with
    msixOn := mset false s.host.msixOn (port * 17 + fn) en, fmask := mset false s.host.fmask (port * 17 + fn) mask } }

section
variable {s : State} {port fn : Nat} {en mask : Bool}

theorem msixOpen_setFunction (hshut : (en = false ∧ mRising 0 s.host.msixOn = true) ∨ mask = true) (vec : Nat) :
    (s.setFunction port fn en mask).msixOpen port fn vec = false := by
  rcases hshut with ⟨rfl, hrising⟩ | rfl
  · simp [State.msixOpen, State.setFunction, mget_mset _ _ _ _ _ hrising]
  · simp [State.msixOpen, State.setFunction, mget_mset_nd false s.host.fmask _ true Bool.false_ne_true.symm]

theorem exec_msixUnmask_functionShut (hshut : (en = false ∧ mRising 0 s.host.msixOn = true) ∨ mask = true) :
    exec (.msixUnmask port fn none en mask) s = .next (s.setFunction port fn en mask) :=
  congrArg _ (fold_fix _ _ _ fun _ _ => unmaskVec_shut (msixOpen_setFunction hshut _))

end

/-! ### Functions and ports (R271, R405) -/

/-- The MSI-X state of a function, back at its reset values. -/
def State.clearFunction (s : State) (port fn : Nat) : State :=
  { s with host := { s.host with
    msixOn := mset false s.host.msixOn (port * 17 + fn) false,
    fmask := mset false s.host.fmask (port * 17 + fn) false,
    msixTab := s.host.msixTab.filter (fun e => e.1 / 8192 != port * 17 + fn),
    pendBit := s.host.pendBit.filter (fun e => e.1 / 2048 != port * 17 + fn) } }

section
variable {s : State} {port : Nat} (t : Nat)

theorem exec_flr_function {vf : Nat} (hlo : 1 ≤ vf) (hhi : vf ≤ 16) : exec (.flr port vf) s =
    .next (((s.resetPortQps (vf - 1) port).clearFunction port vf).journal 0x0285 (vf - 1) 0x3FFF (hubSite port)
      (port + 3 * 2 ^ 4) (2 ^ (vf - 1))) := by
  simp only [exec, execFlr, hlo, hhi, and_self, if_true, State.clearFunction]

theorem exec_portDown_cause {cause : Nat} (hport : port < 4) (hcause : cause ≤ 2) : exec (.portDown port cause t) s =
    .next (if cause = 0 then ((s.at t).portDown port cause).loadPortLost port else (s.at t).portDown port cause) := by
  have hlegal : ¬(3 < port ∨ 2 < cause) := by omega
  simp only [exec, execPortDown, hlegal, if_false]

theorem exec_pcieLinkUp_powered (hport : port < 4) (hhub : bit s.boot.hubLost port = false) (hpower : s.inp.good = true) :
    exec (.pcieLinkUp port t) s = .next ((s.at t).portUp port) := by
  have hport : ¬3 < port := by omega
  simp [exec, execPcieLinkUp, hport, hhub, hpower]

theorem exec_pcieLinkUp_unpowered (hpower : s.inp.good = false) : exec (.pcieLinkUp port t) s = .next (s.at t) := by
  simp [exec, execPcieLinkUp, hpower]

end

/-- Settles O35: a vector, a function and a port each by its own law above. -/
theorem portsAndVectors : Obligations.PortsAndVectors :=
  fun _ _ _ _ t => ⟨exec_msixUnmask_vector, fun _ _ => exec_msixUnmask_functionShut, exec_flr_function,
    fun hport => ⟨exec_portDown_cause t hport (by decide), exec_portDown_cause t hport (by decide),
      exec_pcieLinkUp_powered t hport, exec_pcieLinkUp_unpowered t⟩⟩

end Sys2Proof.Machine
end

section
/-! PROOFS. The statements on power (chapter 11): the GRANT of the manager and that of another station, the windows, the calibration
of the second, the loss of the grant, droop and the thermal trip. -/

namespace Sys2Proof.Machine

/-! ### Reports leave the power state alone (R366, R411) -/

section
variable (s : State)

theorem pwr_queueEvent (e : Event) : (s.queueEvent e).pwr = s.pwr := by
  unfold State.queueEvent
  split_ifs <;> rfl

theorem mark_frame (code part item : Nat) : s.mark code part item = { s with jrnl := (s.mark code part item).jrnl } := by
  unfold State.mark
  split <;> rfl

theorem pwr_mark (code part item : Nat) : (s.mark code part item).pwr = s.pwr := by rw [mark_frame]

/-- A fault of class 0 is journalled and has no further response. -/
theorem tickFault_class0 {code : Nat} (part site d0 d1 : Nat) (hclass : faultClass code = 0) :
    s.tickFault code part site d0 d1 =
      s.queueEvent { s.event code part 0x3FFF site d0 d1 with num := s.tick.number.toNat, tnum := true } := by
  simp [State.tickFault, State.respond, hclass]

theorem pwr_wglOnce {code : Nat} (site d0 d1 : Nat) (hclass : faultClass code = 0) : (s.wglOnce code site d0 d1).pwr = s.pwr := by
  unfold State.wglOnce
  split
  · rfl
  · rw [State.wglFault, tickFault_class0 _ _ _ _ _ hclass, pwr_queueEvent, pwr_mark]

theorem pwr_denied (fr : WglFrame) (h : WglHdr) : (s.denied fr h).pwr = s.pwr :=
  pwr_wglOnce (s.bump rGLB_WGL_CNT_DENIED) _ _ _ (by decide)

theorem pwr_fastAnswer (fr : WglFrame) (h : WglHdr) (leaves : Bool) (pay : List Nat) : (s.fastAnswer fr h leaves pay).pwr = s.pwr := by
  unfold State.fastAnswer State.wglSend
  split_ifs <;> rfl

end

/-! ### A request received by a port (R343, R348) -/

/-- A request for this panel is counted and remembered. -/
def State.noteRequest (s : State) (fr : WglFrame) (h : WglHdr) (t : Nat) : State :=
  let u := (s.at t).bump rGLB_WGL_CNT_RX
  { u with wgl := { u.wgl with
    seen := ⟨fr.mac, fr.port, h.msg, h.seq, h.node, t, none, false, [], [], none⟩ ::
      u.wgl.seen.filter (fun x => decide (t ≤ x.time + 2000000)) } }

theorem wglRx_accepted {s : State} {fr : WglFrame} {t : Nat} {h : WglHdr} (hh : h = frameHdr (fr.bytes.map BitVec.toNat))
    (hup : s.wglPort fr.port = 1) (hport : fr.port ≤ 1) (hgood : frameBad (fr.bytes.map BitVec.toNat) = 9)
    (hdst : h.dst = s.link 2 ∨ h.dst = 255) (hnew : s.ringCopy fr.mac h t = false) (f : State → WglHdr → State) :
    s.wglRx h.msg fr t f = f (s.noteRequest fr h t) h := by
  subst hh
  have hserved : ¬(s.wglPort fr.port ≠ 1 ∨ 1 < fr.port) := not_or.2 ⟨not_not.2 hup, Nat.not_lt.2 hport⟩
  have htaken : ¬(((frameHdr (fr.bytes.map BitVec.toNat)).dst ≠ s.link 2 ∧ (frameHdr (fr.bytes.map BitVec.toNat)).dst ≠ 255) ∨
      s.ringCopy fr.mac (frameHdr (fr.bytes.map BitVec.toNat)) t = true) :=
    not_or.2 ⟨fun hother => hdst.elim hother.1 hother.2, Bool.eq_false_iff.1 hnew⟩
  exact (if_neg hserved).trans ((if_neg (not_not.2 hgood)).trans ((if_neg (not_not.2 rfl)).trans (if_neg htaken)))

/-! ### A GRANT (R303, R353, R359) -/

theorem clampE_fst (id : Nat) {lo hi : Nat} (x : Nat) (h : lo ≤ hi) : (clampE id lo hi x).1 = max lo (min hi x) := by
  unfold clampE
  split_ifs with hlow hhigh
  · show lo = _
    omega
  · show hi = _
    omega
  · show x = _
    omega

section
variable {s : State} {fr : WglFrame} {h : WglHdr} (leaves : Bool)

theorem grantRequest_manager {w : Nat} (hmanager : s.link 5 = fr.mac)
    (hentry : (grantEntries (h.pay.headD 0) (h.pay.drop 4)).2.find? (fun e => e.1 == s.link 2) = some (s.link 2, w)) :
    (s.grantRequest fr leaves h).pwr.grant = some (max 1200 (min 18000 w)) := by
  have hown : ¬(s.link 5 ≠ 0 ∧ s.link 5 ≠ fr.mac) := fun hother => hother.2 hmanager
  simp only [State.grantRequest, if_neg hown, hentry, pwr_fastAnswer, clampE_fst _ _ (show 1200 ≤ 18000 by decide)]

theorem grantRequest_other (hset : s.link 5 ≠ 0) (hother : s.link 5 ≠ fr.mac) : s.grantRequest fr leaves h = s.denied fr h :=
  if_pos ⟨hset, hother⟩

end

/-- Settles O45: the request is noted, and then either the manager's grant is clamped or another station's is denied. -/
theorem grantIsClamped : Obligations.GrantIsClamped := by
  intro s fr leaves t w h hh hup hport hgood hmsg hdst hnew hentry
  have hexec : exec (.wglGrant fr leaves t) s = .next ((s.noteRequest fr h t).grantRequest fr leaves h) :=
    congrArg _ (hmsg ▸ wglRx_accepted hh hup hport hgood (.inl hdst) hnew _)
  exact ⟨fun hmanager => ⟨_, hexec, grantRequest_manager (s := s.noteRequest fr h t) leaves hmanager hentry⟩,
    fun hset hother => ⟨_, hexec, (congrArg State.pwr (grantRequest_other (s := s.noteRequest fr h t) leaves hset hother)).trans
      (pwr_denied _ fr h)⟩⟩

/-! ### The window of 2 µs and the calibration of the second (R300, R301, R309, R311) -/

theorem exec_powerWindow_one (s : State) (p : Nat) (counts : List Nat) (tj t : Nat) :
    exec (.powerWindow [(p, counts, tj)] t) s = .next (((s.at t).siteWindow p counts tj).budgetGuard.countReasons) := rfl

/-- The reference checks of a second are judged: the meter is marked bad, once, or good. -/
def State.meterChecked (s : State) : Option Nat → State
  | some c => if s.flag rPWR_STATUS 13 then s else (s.setFld rPWR_STATUS 13 1 1).pwrFault 0x12C3 (hubSite 0) (c % 16) 0
  | none => s.setFld rPWR_STATUS 13 1 0

theorem pwr_meterChecked (s : State) (check : Option Nat) : (s.meterChecked check).pwr = s.pwr := by
  cases check with
  | none => rfl
  | some c =>
    simp only [State.meterChecked]
    split
    · rfl
    · exact raise_pwr1 _ _ _ _ _ _ _ (by decide)

/-- A state in which the sums of the second that has metered `e` µJ are closed. -/
def State.SecondClosed (e : Nat) (u : State) : Prop :=
  u.pwr.secE = 0 ∧ u.pwr.secUnc = 0 ∧ u.pwr.secTicks = 0 ∧ u.pwr.lastSecE = e

section
variable {s : State} (check : Option Nat) (t : Nat)

theorem exec_calibration_early (h : s.pwr.secTicks < s.ticksPerSec) : exec (.calibration check t) s = .next (s.at t) := if_pos h

theorem completes_calibration_due (h : s.ticksPerSec ≤ s.pwr.secTicks) :
    Completes (.calibration check t) s (State.SecondClosed s.pwr.secE) := by
  have hsecE : ((s.at t).meterChecked check).pwr.secE = s.pwr.secE := congrArg PwrSt.secE (pwr_meterChecked (s.at t) check)
  cases check <;> exact ⟨_, if_neg (Nat.not_lt.2 h), rfl, rfl, rfl, hsecE⟩

end

/-! ### The loss of the grant (R303) -/

section
variable {s : State} (hpresent : s.flag rPWR_GRANT_NOW 31 = false)
include hpresent

theorem exec_pwrGrantLost_missed {u : State}
    (hu : u = ((s.setFld rPWR_GRANT_NOW 31 1 1).setFld rPWR_GRANT_NOW 0 16 s.floorBudget).setFld rPWR_STATUS 14 1 1)
    (hmiss : s.grantMiss ≤ s.fld rPWR_GRANT_NOW 24 7) : exec .pwrGrantLost s =
      .next ((u.sticky rPWR_STATUS 1).raise 0x02C1 16 0x3FFF (hubSite 0) (s.fld rPWR_GRANT_NOW 0 16) u.floorBudget) := by
  subst hu
  simp only [exec, execPwrGrantLost, State.floorIfLost, State.pwrFault, hmiss, hpresent, Bool.not_false, and_self,
    if_true]

theorem exec_pwrGrantLost_early (hmiss : s.fld rPWR_GRANT_NOW 24 7 < s.grantMiss) : exec .pwrGrantLost s = .next s := by
  have hfew : ¬s.grantMiss ≤ s.fld rPWR_GRANT_NOW 24 7 := Nat.not_le.2 hmiss
  simp [exec, execPwrGrantLost, State.floorIfLost, hfew, hpresent]

end

/-! ### Droop (R310) -/

/-- A further droop event at a site: its clock is halved, and the stretch goes on or begins at `now`. -/
def SitePwr.drooped (x : SitePwr) (now : Nat) : SitePwr :=
  { x with kDroop := 8, droopEv := x.droopEv + 1, droopAt := some (x.droopAt.getD now) }

theorem drooped_ne_init (x : SitePwr) (now : Nat) : x.drooped now ≠ SitePwr.init :=
  fun h => absurd (congrArg SitePwr.kDroop h) (show (8 : Nat) ≠ 16 by decide)

theorem pwr1_setPwr1 {x : SitePwr} (s : State) (p : Nat) (hx : x ≠ SitePwr.init) : (s.setPwr1 p x).pwr1 p = x :=
  mget_mset_nd _ _ _ _ hx

theorem marked_mark {s : State} {code part item : Nat} (h : s.marked code part item = true) (code' part' item' : Nat) :
    (s.mark code' part' item').marked code part item = true := by
  unfold State.mark
  split
  · exact h
  · simp only [State.marked, List.contains_cons, Bool.or_eq_true]
    exact .inr h

/-- A droop event at a site whose droop of the stroke is journalled already. -/
def State.droopAgain (s : State) (p : Nat) : State :=
  (((s.setPwr1 p ((s.pwr1 p).drooped s.time)).bump rPWR_CNT_DROOP).sticky rPWR_STATUS 2).mark 0x02C4 16 (p + 2 ^ 32)

theorem pwr1_droopAgain (s : State) (p : Nat) : (s.droopAgain p).pwr1 p = (s.pwr1 p).drooped s.time := by
  have hpwr : (s.droopAgain p).pwr = (s.setPwr1 p ((s.pwr1 p).drooped s.time)).pwr := pwr_mark _ _ _ _
  rw [State.pwr1, hpwr]
  exact pwr1_setPwr1 s p (drooped_ne_init _ _)

theorem droopAgain_frame (s : State) (p : Nat) : s.droopAgain p =
    { s with pwr := (s.droopAgain p).pwr, regs := (s.droopAgain p).regs, hot := (s.droopAgain p).hot, jrnl := (s.droopAgain p).jrnl } := by
  unfold State.droopAgain
  rw [mark_frame]
  rfl

section
variable {s : State} (p t : Nat)

theorem exec_droopEvent_marked {n : Nat} (quads : Nat) (hn : n = s.owner p) (hmarked : s.marked 0x02C4 n p = true) :
    exec (.droopEvent p quads t) s = .next ((s.at t).droopAgain p) := by
  subst hn
  have hbefore : (s.at t).marked 0x02C4 ((s.at t).owner p) p = true := hmarked
  have hafter : ((s.at t).droopAgain p).marked 0x02C4 ((s.at t).owner p) p = true := by
    unfold State.droopAgain
    apply marked_mark
    exact hmarked
  simp only [State.droopAgain, SitePwr.drooped] at hafter ⊢
  simp only [exec, execDroopEvent, hbefore, if_true, hafter]

theorem exec_droopRestore : exec (.droopRestore p t) s = .next ((((s.at t).droopClose p).setPwr1 p
    { ((s.at t).droopClose p).pwr1 p with kDroop := 16, droopAt := none }).droopPersist p) := rfl

end

/-! ### The thermal trip (R312) -/

section
variable {s : State}

theorem exec_thermalTrip {u v : State} (p sensor tj t : Nat)
    (hu : u = ((List.range 408).filter (fun d => decide (domKind d < 2))).foldl (fun (u : State) d => u.domDown d)
      (((s.at t).sticky rPWR_STATUS 15).sticky rPWR_STATUS 0))
    (hv : v = (u.setFld rCLT_VALVE 0 10 1000).raise 0x42C7 16 0x3FFF p (p + sensor % 8 * 2 ^ 7) (tj % 256)) :
    exec (.thermalTrip p sensor tj t) s = .next (v.livePartitions.foldl (fun (w : State) n => w.resetPart n 0x42C7) v) := by
  simp only [hv, hu, exec, execThermalTrip, State.pwrFault]

theorem exec_tripClr_cool {hot : Nat} (hready : s.ready = true) (htrip : s.trip = true) (hcool : hot < 95) : exec (.tripClr hot) s =
    .next ((List.range 72).foldl (fun (u : State) p => u.syncKv p) (s.setFld rPWR_STATUS 15 1 0)) := by
  have hcool : ¬95 ≤ hot := Nat.not_le.2 hcool
  simp [exec, execTripClr, hready, htrip, hcool]

theorem exec_tripClr_hot {hot : Nat} (hhot : 95 ≤ hot) : exec (.tripClr hot) s = .next s := by
  simp [exec, execTripClr, hhot]

end

/-- Settles O41: a law above for each command, the calibration by the sums that it closes and a further droop by its frame. -/
theorem powerAndTrips : Obligations.PowerAndTrips := by
  refine ⟨fun s t => ⟨fun p counts tj => exec_powerWindow_one s p counts tj t, fun check => completes_calibration_due check t,
      fun check => exec_calibration_early check t, fun _ hu hmiss hpresent => exec_pwrGrantLost_missed hpresent hu hmiss,
      fun hmiss hpresent => exec_pwrGrantLost_early hpresent hmiss⟩,
    fun s p t => ⟨fun quads hmarked => ⟨_, exec_droopEvent_marked p t quads rfl hmarked, ?_⟩, exec_droopRestore p t,
      fun sensor tj _ _ => exec_thermalTrip p sensor tj t,
      fun hready htrip => ⟨fun _ => exec_tripClr_cool hready htrip, fun _ => exec_tripClr_hot⟩⟩⟩
  have hsite : ((s.at t).droopAgain p).pwr1 p = ((s.at t).pwr1 p).drooped (s.at t).time := pwr1_droopAgain _ p
  exact ⟨congrArg SitePwr.kDroop hsite, congrArg SitePwr.droopEv hsite, droopAgain_frame _ p⟩

end Sys2Proof.Machine
end

section
/-! PROOFS. The statements on the step, the state after reset, the fuses and idleness; the coolant loop and the power domains
(chapter 12). -/

namespace Sys2Proof.Machine

/-! ### The step, the state after reset and the fuses -/

/-- Settles O1: the two laws of the step, one per form of the queue. -/
theorem stepRunsFrontCommand : Obligations.StepRunsFrontCommand :=
  ⟨fun _ _ _ hfront => step_cons hfront, fun _ hempty => step_nil hempty⟩

/-- Settles O2: the invariant of the reset state is its own law; with no partition, stream, domain or seal stored, each reads as
its initial value. -/
theorem resetStateIsGood : Obligations.ResetStateIsGood :=
  ⟨Good.reset, by decide, by decide, by decide, by decide, fun _ => rfl, fun _ => rfl, rfl, rfl, rfl, fun _ => rfl, fun _ => rfl⟩

/-- Settles O7: fuses are part of what every command keeps, with whatever licence. -/
theorem fusesAreOnlyProgrammed : Obligations.FusesAreOnlyProgrammed := by
  intro c s t hexec
  have honward : Onward (licence c) s t := (kept_of_exec hexec).on
  exact ⟨honward.svn, honward.rev⟩

/-! ### Idleness (R361) -/

section
variable (s : State)

theorem idlePart_iff (n : Nat) : s.idlePart n = true ↔ (s.part n).st ≠ .running ∨
    ((s.part n).st = .running ∧ (∀ i ∈ s.partStreams n, (s.stream i).st ≠ .active) ∧ (s.part n).idle = true) := by
  by_cases hrun : (s.part n).st = .running
  · simp [State.idlePart, hrun, and_comm]
  · simp [State.idlePart, hrun]

theorem allIdle_iff : s.allIdle = true ↔ ∀ n, n < 16 → s.idlePart n = true := by
  simp [State.allIdle]

end

/-- Settles O10: one partition, and all sixteen. -/
theorem idleForRwiObjects : Obligations.IdleForRwiObjects := fun s => ⟨idlePart_iff s, allIdle_iff s⟩

/-! ### The coolant sensors, the loop and the valve (R322 to R327) -/

section
variable {s : State}

/-- A sample of the first inlet sensor is judged by that sensor's range. -/
theorem exec_coolantSensorSample_one (v : Int) (t : Nat) : exec (.coolantSensorSample [some v] t) s = .next
    (if sensorOk 0 v then (s.at t).setSensor 0 { s.sensor 0 with sum := (s.sensor 0).sum + v, n := (s.sensor 0).n + 1, last := v }
      else (s.at t).setSensor 0 { s.sensor 0 with last := v }) := rfl

theorem sensorOk_inlet (v : Int) : sensorOk 0 v = true ↔ -200 ≤ v ∧ v ≤ 1200 := by
  simp [sensorOk]

theorem exec_coolantSensorSample_valid {v : Int} (t : Nat) (hlow : -200 ≤ v) (hhigh : v ≤ 1200) :
    exec (.coolantSensorSample [some v] t) s = .next ((s.at t).setSensor 0
      { s.sensor 0 with sum := (s.sensor 0).sum + v, n := (s.sensor 0).n + 1, last := v }) := by
  rw [exec_coolantSensorSample_one, if_pos ((sensorOk_inlet v).2 ⟨hlow, hhigh⟩)]

theorem exec_coolantSensorSample_above {v : Int} (t : Nat) (hhigh : 1200 < v) :
    exec (.coolantSensorSample [some v] t) s = .next ((s.at t).setSensor 0 { s.sensor 0 with last := v }) := by
  have hbad : ¬sensorOk 0 v = true := fun hok => not_le.2 hhigh ((sensorOk_inlet v).1 hok).2
  rw [exec_coolantSensorSample_one, if_neg hbad]

theorem exec_coolantLoopRun_due (pulses enc t : Nat) (hstarted : s.tick.started = true)
    (hdue : s.tick.number.toNat % (40 * (s.fld rCLT_CTL 5 4 + 1)) = 0) :
    exec (.coolantLoopRun pulses enc t) s = .next ((s.at t).loopRun pulses enc) := by
  simp [exec, execCoolantLoopRun, fld_at, hstarted, hdue]

theorem exec_valveSoftstartDone_startup (enc : Nat) (hbridge : s.bridge = 1) :
    exec (.valveSoftstartDone enc) s = .next (((s.setEnc enc).setBridge 2).setI ⟨enc, 1⟩) := congrArg _ (if_pos hbridge)

theorem exec_valveShort_on (enc : Nat) (hbridge : s.bridge = 1 ∨ s.bridge = 2) :
    exec (.valveShort enc) s = .next (s.valveFault 0x1305 s.bridge 0 enc) := congrArg _ (if_pos hbridge)

theorem exec_valveStall_running (enc : Nat) (hbridge : s.bridge = 2) :
    exec (.valveStall enc) s = .next (s.valveFault 0x1306 (s.fld rCLT_VALVE 0 10) 1 enc) := congrArg _ (if_pos hbridge)

theorem exec_valveClr_fault (hready : s.ready = true) (hbridge : s.bridge = 3) : exec .valveClr s = .next (s.setBridge 0) := by
  simp [exec, execValveClr, hready, hbridge]

theorem exec_loopDisable_unlocked (hready : s.ready = true) (hunlocked : s.locked = false) :
    exec .loopDisable s = .next s.loopOff := by
  simp [exec, execLoopDisable, hready, hunlocked]

end

/-- Settles O42: a law above for each clause. -/
theorem coolantLoop : Obligations.CoolantLoop := fun _ t enc _ =>
  ⟨exec_coolantSensorSample_valid t, exec_coolantSensorSample_above t, fun pulses => exec_coolantLoopRun_due pulses enc t,
    exec_valveSoftstartDone_startup enc, exec_valveShort_on enc, exec_valveStall_running enc, exec_valveClr_fault,
    exec_loopDisable_unlocked⟩

/-! ### Domain commands (R334, R340) -/

section
variable {s : State} {d : Nat}

section
variable (hsound : (s.domAt d).st ≠ 5)
include hsound

theorem exec_domOn_free (hfree : s.domOwned d = false) (hcool : s.trip = false ∨ 2 ≤ domKind d) :
    exec (.domOn d) s = .next ((s.domRequest d).domStat d 0) := by
  have htrip : ¬(s.trip && decide (domKind d < 2)) = true := by
    rcases hcool with hcool | hkind
    · simp [hcool]
    · simp [Nat.not_lt.2 hkind]
  exact congrArg _ ((if_neg hsound).trans ((if_neg (Bool.eq_false_iff.1 hfree)).trans (if_neg htrip)))

theorem exec_domOff_free (hfree : s.domOwned d = false) : exec (.domOff d) s = .next ((s.domDown d).domStat d 0) :=
  congrArg _ ((if_neg hsound).trans (if_neg (Bool.eq_false_iff.1 hfree)))

theorem exec_domOn_owned (howned : s.domOwned d = true) : exec (.domOn d) s = .next (s.domStat d 5) :=
  congrArg _ ((if_neg hsound).trans (if_pos howned))

theorem exec_domOff_owned (howned : s.domOwned d = true) : exec (.domOff d) s = .next (s.domStat d 5) :=
  congrArg _ ((if_neg hsound).trans (if_pos howned))

theorem exec_domClear_sound : exec (.domClear d) s = .next (s.domStat d 4) := congrArg _ (if_neg hsound)

end

section
variable (hfault : (s.domAt d).st = 5)
include hfault

theorem exec_domOn_fault : exec (.domOn d) s = .next (s.domStat d 2) := congrArg _ (if_pos hfault)

theorem exec_domOff_fault : exec (.domOff d) s = .next (s.domStat d 2) := congrArg _ (if_pos hfault)

theorem exec_domClear_fault : exec (.domClear d) s =
    .next (((s.updDom d (fun x => { x with st := 0 })).setFld (rDOM_FAULT + 4 * (d / 32)) (d % 32) 1 0).domStat d 0) :=
  congrArg _ (if_pos hfault)

end

/-! ### Soft starts, shorts and sags (R335 to R338) -/

section
variable (t : Nat)

theorem exec_softstartComplete_inrush (hinrush : (s.domAt d).st = 2) : exec (.softstartComplete d t) s =
    .next (((((s.at t).updDom d (fun x => { x with st := 4, ext := false })).powered d true).bump rDOM_CNT_SS).serveGroup
      (domGroup d)) := congrArg _ (if_pos hinrush)

theorem exec_softstartWindowExpiry_over (hinrush : (s.domAt d).st = 2) (honce : (s.domAt d).ext = false)
    (hover : (s.domAt d).start + 1000 * softUs d ≤ (s.at t).time) : exec (.softstartWindowExpiry d t) s =
      .next ((s.at t).domBreak d 0x3342 (domWord d + 2 ^ 16) (((s.at t).time - (s.domAt d).start) / 1000 % 512)) := by
  simp [exec, execSoftstartWindowExpiry, hinrush, honce, hover]

theorem exec_domShort_on (cur : Nat) (hon : (s.domAt d).st = 4) : exec (.domShort d cur t) s =
    .next ((((s.at t).setDom d { s.domAt d with cur := cur }).bump rDOM_CNT_SHORT).domBreak d 0x3341 (domWord d) (cur % 2 ^ 16)) :=
  congrArg _ (if_pos hon)

variable {p : Nat}

theorem exec_domInrushHold_first (byp : Nat) (hgroup : (groupDoms p).find? (fun d => (s.domAt d).st == 2) = some d)
    (honce : (s.domAt d).ext = false) : exec (.domInrushHold p byp t) s =
      .next (((((s.at t).updDom d (fun x => { x with st := 3, ext := true })).sticky rDOM_STATUS 1).bump rDOM_CNT_HOLD).domFault 0x0344
        d (domWord d) byp) := by
  simp [exec, execDomInrushHold, hgroup, honce]

theorem exec_domInrushHold_second (byp : Nat) (hgroup : (groupDoms p).find? (fun d => (s.domAt d).st == 2) = some d)
    (htwice : (s.domAt d).ext = true) : exec (.domInrushHold p byp t) s = .next ((s.at t).inrushAbort d byp) := by
  simp [exec, execDomInrushHold, hgroup, htwice]

theorem exec_sagRecovery_held (hgroup : (groupDoms p).find? (fun d => (s.domAt d).st == 3) = some d) :
    exec (.sagRecovery p t) s = .next ((s.at t).updDom d (fun x => { x with st := 2 })) := by
  simp [exec, execSagRecovery, hgroup]

end
end

/-- Settles O43: the commands by whether the domain has faulted and is owned, the events by the state of the domain. -/
theorem powerDomains : Obligations.PowerDomains :=
  ⟨fun _ _ => ⟨fun hsound => ⟨exec_domOn_free hsound, exec_domOff_free hsound,
        fun howned => ⟨exec_domOn_owned hsound howned, exec_domOff_owned hsound howned⟩, exec_domClear_sound hsound⟩,
      fun hfault => ⟨exec_domOn_fault hfault, exec_domOff_fault hfault, exec_domClear_fault hfault⟩⟩,
    fun _ _ _ t => ⟨fun hinrush => ⟨exec_softstartComplete_inrush t hinrush, exec_softstartWindowExpiry_over t hinrush⟩,
      fun hon cur => exec_domShort_on t cur hon,
      fun hgroup byp => ⟨exec_domInrushHold_first t byp hgroup, exec_domInrushHold_second t byp hgroup⟩, exec_sagRecovery_held t⟩⟩

end Sys2Proof.Machine
end

section
/-! PROOFS. The statements on the waggle link (chapter 13): the requests that a port receives, the panel's own frames, its time
synchronisation and the mailbox. -/

namespace Sys2Proof.Machine

/-! ### Requests (R343, R348, R351 to R354) -/

section
variable {s : State} {fr : WglFrame} {t : Nat}

/-- The state that the received frame has been counted in as invalid, and journalled once a tick. -/
def State.discardFrame (s : State) (fr : WglFrame) (t : Nat) : State :=
  let b := fr.bytes.map BitVec.toNat
  (((((s.at t).bump rGLB_WGL_CNT_RX).bump rGLB_WGL_CNT_INVALID).sticky rGLB_WGL_STAT 13).wglOnce 0x0382 (wglHub fr.port)
    (frameBad b + fr.port * 16) (fr.mac % 2 ^ 32))

theorem wglRx_invalid (hup : s.wglPort fr.port = 1) (hport : fr.port ≤ 1) (hbad : frameBad (fr.bytes.map BitVec.toNat) ≠ 9)
    (msg : Nat) (f : State → WglHdr → State) : s.wglRx msg fr t f = s.discardFrame fr t := by
  have hserved : ¬(s.wglPort fr.port ≠ 1 ∨ 1 < fr.port) := not_or.2 ⟨not_not.2 hup, Nat.not_lt.2 hport⟩
  exact (if_neg hserved).trans (if_pos hbad)

theorem wglRx_down (hdown : s.wglPort fr.port ≠ 1) (msg : Nat) (f : State → WglHdr → State) : s.wglRx msg fr t f = s.at t :=
  if_pos (.inl hdown)

end

/-- Settles O44: an accepted frame is noted and handed to its request; the other two are those of the laws above. -/
theorem waggleRequests : Obligations.WaggleRequests := by
  intro s u fr leaves t h hh hu
  subst hu
  refine ⟨fun hup hport hgood hdst hnew v hv => ?_, fun hup hport hbad => congrArg _ (wglRx_invalid hup hport hbad 1 _),
    fun hdown => congrArg _ (wglRx_down hdown 1 _)⟩
  have hnoted : s.noteRequest fr h t = v := hv.symm
  have hrx (f : State → WglHdr → State) : s.wglRx h.msg fr t f = f v h :=
    (wglRx_accepted hh hup hport hgood hdst hnew f).trans (by rw [hnoted])
  exact ⟨fun hmsg => congrArg _ (hmsg ▸ hrx _), fun hmsg => congrArg _ (hmsg ▸ hrx _), fun hmsg => congrArg _ (hmsg ▸ hrx _),
    fun hmsg => congrArg _ (hmsg ▸ hrx _), fun hmsg => congrArg _ (hmsg ▸ hrx _)⟩

/-! ### The panel's own frames (R342, R354, R355, R357) -/

section
variable {s : State} {t : Nat}

theorem exec_standardAnswer_idle (late : Bool) (hidle : s.wgl.queue = []) : exec (.standardAnswer late t) s = .next s := by
  simp [exec, execStandardAnswer, hidle]

theorem exec_standardAnswer_ready {r : WglReq} {rest : List WglReq} (hqueue : s.wgl.queue = r :: rest) (hready : r.keys = none) :
    exec (.standardAnswer false t) s =
      .next ((({ s.at t with wgl := { s.wgl with queue := rest } } : State).wglSend r.port r.mac
        (({ s.at t with wgl := { s.wgl with queue := rest } } : State).link 8) r.msg 1 (b2n r.clamped) r.seq r.node
        r.body).applyLink r.link r.gcl) := by
  simp [exec, execStandardAnswer, hqueue, hready]

theorem exec_wglForward_other {port src dst : Nat} {body : List (BitVec 8)} (hport : port ≤ 1)
    (hother : dst ≠ moduleMac ∨ s.laterCopy src (body.map BitVec.toNat) t = true) (hup0 : s.wglPort 0 = 1) (hup1 : s.wglPort 1 = 1) :
    exec (.wglForward port src dst body true false t) s =
      .next (((s.at t).emit (.waggle (1 - port) 0 dst (body.map BitVec.toNat))).bump rGLB_WGL_CNT_FWD) := by
  have hup (q : Nat) (hq : q ≤ 1) : s.wglPort q = 1 := by
    rcases Nat.le_one_iff_eq_zero_or_eq_one.1 hq with rfl | rfl
    · exact hup0
    · exact hup1
  have hmine : (dst == moduleMac && !s.laterCopy src (body.map BitVec.toNat) t) = false := by
    rcases hother with hdst | hcopy
    · simp [hdst]
    · simp [hcopy]
  simp [exec, execWglForward, hmine, hup port hport, hup (1 - port) (Nat.sub_le 1 port), hport]

theorem exec_wglForward_damaged (port src dst : Nat) (body : List (BitVec 8)) (gptp : Bool) :
    exec (.wglForward port src dst body false gptp t) s = .next s := rfl

theorem exec_heartbeatSend_due (hset : s.link 12 ≠ 0) (hstarted : s.tick.started = true)
    (hdue : s.tick.number.toNat % s.link 12 = 0) (hearly : t ≤ s.tick.last + s.ingestNs) (hnew : s.marked 0 16 0 = false) :
    exec (.heartbeatSend t) s = .next (((s.at t).mark 0 16 0).wglGroup 6 s.summary) := by
  simp [exec, execHeartbeatSend, hset, hstarted, hdue, hearly, hnew]

theorem exec_heartbeatSend_sent (hsent : s.marked 0 16 0 = true) : exec (.heartbeatSend t) s = .next s := by
  simp [exec, execHeartbeatSend, hsent]

theorem exec_notifySend_oldest {n : Notify} {rest : List Notify} (hnotes : s.wgl.notes = n :: rest) (hup : s.wglPort 0 = 1) :
    exec .notifySend s =
      .next ((({ s with wgl := { s.wgl with notes := rest } } : State).wglGroup 4 (bigBytes 4 (n.nseq % 2 ^ 32) ++ [n.kind, 0] ++
        bigBytes 2 n.index ++ [n.sub, 0, 0, 0] ++ bigBytes 8 n.time ++ bigBytes 32 n.data)).bump rGLB_WGL_CNT_NOTIFY) := by
  simp [exec, execNotifySend, hnotes, hup]

theorem completes_wglAnswerLate (msg port seq : Nat) : Completes (.wglAnswerLate msg port seq t) s (fun u =>
    u.wgl.lateCnt = s.wgl.lateCnt + 1 ∧ u = { s.at t with wgl := u.wgl, regs := u.regs, hot := u.hot } ∧
    (∀ b, b ≠ rGLB_WGL_CNT_LATE → b ≠ rGLB_WGL_STAT → u.reg b = s.reg b)) := by
  refine ⟨_, rfl, rfl, rfl, fun b hcount hstat => ?_⟩
  rw [reg_sticky, reg_setFld_other _ _ _ _ _ _ hstat, reg_bump_other _ _ _ hcount]
  rfl

/-! ### Ports and time synchronisation (R341, R344, R345) -/

theorem exec_wglPortChange_other {port st : Nat} (hport : port ≤ 1) (hst : st ≤ 2) (hnew : s.wglPort port ≠ st)
    (hhub : bit s.boot.hubLost (3 * port) = false) : exec (.wglPortChange port st) s =
      .next ((s.setFld rGLB_WGL_STAT (2 * port) 2 st).wglFault 0x0385 (wglHub port) (port + st * 2) 0) := by
  simp [exec, execWglPortChange, hnew, hhub, Nat.not_lt.2 hport, Nat.not_lt.2 hst]

/-- The state that a Sync with the offset `ofs` has been noted in, the `good`-th good one in succession. -/
def State.noteSync (s : State) (ofs : Int) (good t : Nat) : State :=
  { s.at t with wgl := { s.wgl with gpOfs := ofs, gpGood := good, gpLast := t } }

/-- A Sync is noted, and then judged by whether the panel is synchronised. -/
theorem exec_gptpSync (ofs : Int) (cap : Bool) {good : Nat}
    (hgood : good = if cap ∧ -200 ≤ ofs ∧ ofs ≤ 200 then min 8 (s.wgl.gpGood + 1) else 0) : exec (.gptpSync ofs cap t) s = .next
      (if s.flag rGLB_WGL_STAT 4 then
        (if ofs < -1000 ∨ 1000 < ofs then (s.noteSync ofs good t).timeLost 1 else s.noteSync ofs good t)
      else if good = 8 then (s.noteSync ofs good t).gptpState true
      else s.noteSync ofs good t) := by
  subst hgood
  rfl

section
variable {ofs : Int} (hfree : s.flag rGLB_WGL_STAT 4 = false) (hlow : -200 ≤ ofs) (hhigh : ofs ≤ 200)
include hfree hlow hhigh

theorem exec_gptpSync_counted (hfew : s.wgl.gpGood < 7) :
    exec (.gptpSync ofs true t) s = .next (s.noteSync ofs (min 8 (s.wgl.gpGood + 1)) t) := by
  rw [exec_gptpSync ofs true (if_pos ⟨rfl, hlow, hhigh⟩).symm, if_neg (Bool.eq_false_iff.1 hfree), if_neg (by omega)]

theorem exec_gptpSync_eighth (henough : 7 ≤ s.wgl.gpGood) :
    exec (.gptpSync ofs true t) s = .next ((s.noteSync ofs (min 8 (s.wgl.gpGood + 1)) t).gptpState true) := by
  rw [exec_gptpSync ofs true (if_pos ⟨rfl, hlow, hhigh⟩).symm, if_neg (Bool.eq_false_iff.1 hfree), if_pos (by omega)]

end

theorem exec_gptpSync_off {ofs : Int} (cap : Bool) (hsync : s.flag rGLB_WGL_STAT 4 = true) (hoff : 1000 < ofs) :
    exec (.gptpSync ofs cap t) s = .next ((s.noteSync ofs 0 t).timeLost 1) := by
  have hbad : ¬(cap = true ∧ -200 ≤ ofs ∧ ofs ≤ 200) := fun hgood => absurd hgood.2.2 (by omega)
  rw [exec_gptpSync ofs cap (if_neg hbad).symm, if_pos hsync, if_pos (.inr hoff)]

theorem exec_wglTimeLost_port : exec (.wglTimeLost 2 t) s = .next ((s.at t).timeLost 2) := rfl

theorem exec_wglTimeLost_sync (hover : s.wgl.gpLast + 3 * (10 ^ 9 / 2 ^ (-(signed 16 (s.link 9))).toNat) ≤ t) :
    exec (.wglTimeLost 0 t) s = .next ((s.at t).timeLost 0) := congrArg _ (if_pos hover)

/-! ### The mailbox (R364) -/

theorem flag_at (a i : Nat) : (s.at t).flag a i = s.flag a i := rfl

theorem exec_mailboxGo_refused {w : BitVec 32} (hready : s.ready = true)
    (hbad : bits w.toNat 1 31 ≠ 0 ∨ (bit w.toNat 0 = true ∧ s.flag rGLB_OD_STAT 31 = true)) :
    exec (.mailboxGo w t) s = .next ((s.at t).sticky rGLB_OD_STAT 29) := by
  simp only [exec, execMailboxGo, hready, Bool.not_true, Bool.false_eq_true, if_false, flag_at, if_pos hbad]

/-- The request of the read message `b` waits in the mailbox as one of message `msg`. -/
def State.mailboxRead (s : State) (b : List Nat) (msg t : Nat) : State :=
  { s with wgl := { s.wgl with
    mbox := some ⟨0, 2, msg, (frameHdr b).seq, (frameHdr b).node, t,
      some (readKeys ((frameHdr b).pay.headD 0) ((frameHdr b).pay.drop 4)).2, false, [], [], none⟩ } }

theorem exec_mailboxGo_read {v : State} {b : List Nat} (hready : s.ready = true) (hidle : s.flag rGLB_OD_STAT 31 = false)
    (hv : v = (s.at t).sticky rGLB_OD_STAT 31) (hb : b = v.odBuf (12 + min 1488 (bigNat ((v.odBuf 8).drop 6))))
    (hgood : frameBad b = 9) (hmsg : (frameHdr b).msg = 1) : exec (.mailboxGo 1 t) s = .next (v.mailboxRead b 1 t) := by
  have hserved : ¬(!s.ready) = true := by simp [hready]
  have hgo : ¬(bits (1 : BitVec 32).toNat 1 31 ≠ 0 ∨ (bit (1 : BitVec 32).toNat 0 = true ∧ s.flag rGLB_OD_STAT 31 = true)) := by
    rintro (hhigh | ⟨-, hbusy⟩)
    · exact hhigh (by decide)
    · exact Bool.false_ne_true (hidle.symm.trans hbusy)
  have hread : ¬(frameBad b ≠ 9 ∨ ((frameHdr b).msg ≠ 1 ∧ (frameHdr b).msg ≠ 2 ∧ (frameHdr b).msg ≠ 3)) := by
    simp [hgood, hmsg]
  have hnotWrite : ¬(frameHdr b).msg = 2 := by omega
  have hwaits : exec (.mailboxGo 1 t) s = .next (v.mailboxRead b (frameHdr b).msg t) := by
    subst hb hv
    exact congrArg _ ((if_neg hserved).trans ((if_neg hgo).trans ((if_neg (by decide)).trans ((if_neg hread).trans (if_neg hnotWrite)))))
  rwa [hmsg] at hwaits

theorem exec_mailboxDone_ready {r : WglReq} {v : State} {m : List Nat} (hmbox : s.wgl.mbox = some r) (hready : r.keys = none)
    (hbody : r.body ≠ []) (hv : v = { s.at t with wgl := { s.wgl with mbox := none } })
    (hm : m = v.wglHeader r.msg 1 (b2n r.clamped) r.seq r.node r.body.length ++ r.body) :
    exec (.mailboxDone t) s = .next (((((v.setOdBuf 0 m).setFld rGLB_OD_STAT 0 11 m.length).setFld rGLB_OD_STAT 31 1 0).sticky
      rGLB_OD_STAT 30).applyLink r.link r.gcl) := by
  have hfull : r.body.isEmpty = false := List.isEmpty_eq_false_iff.2 hbody
  subst hm hv
  simp only [exec, execMailboxDone, hmbox, hready, hfull, Bool.false_eq_true, if_false]

theorem exec_mailboxDone_idle (hidle : s.wgl.mbox = none) : exec (.mailboxDone t) s = .next s := by
  simp [exec, execMailboxDone, hidle]

end

/-- Settles O46: the panel's own frames, and then its ports, its time and its mailbox, a law above for each clause. -/
theorem waggleFramesAndMailbox : Obligations.WaggleFramesAndMailbox := by
  refine ⟨fun s t => ⟨fun hidle late => exec_standardAnswer_idle late hidle, fun _ _ => exec_standardAnswer_ready,
      fun _ _ _ _ => exec_wglForward_other, exec_wglForward_damaged, exec_heartbeatSend_due, exec_heartbeatSend_sent,
      fun _ _ => exec_notifySend_oldest, completes_wglAnswerLate⟩,
    fun s t => ⟨fun _ _ => exec_wglPortChange_other, fun ofs v hfree hlow hhigh hv => ?_,
      fun _ cap hsync => exec_gptpSync_off cap hsync, exec_wglTimeLost_port, exec_wglTimeLost_sync, fun _ => exec_mailboxGo_refused,
      fun hready hidle _ _ => exec_mailboxGo_read hready hidle, fun _ _ _ => exec_mailboxDone_ready, exec_mailboxDone_idle⟩⟩
  subst hv
  exact ⟨exec_gptpSync_counted hfree hlow hhigh, exec_gptpSync_eighth hfree hlow hhigh⟩

end Sys2Proof.Machine
end

section
/-! PROOFS. The statements on boot and security (chapter 14): panel resets, the commands that begin a load, images, life-cycle
advances and test-access requests. -/

namespace Sys2Proof.Machine

/-! ### What a panel reset keeps (R368, R414) -/

/-- `t` differs from `s` in the register file alone. -/
def RegsAlone (s t : State) : Prop := t = { s with regs := t.regs }

theorem RegsAlone.refl (s : State) : RegsAlone s s := rfl

theorem RegsAlone.setReg {s t : State} (h : RegsAlone s t) (a : Nat) (v : DWord) : RegsAlone s (t.setReg a v) := by
  unfold RegsAlone at *
  rw [h]
  rfl

theorem RegsAlone.setFld {s t : State} (h : RegsAlone s t) (a lo n v : Nat) : RegsAlone s (t.setFld a lo n v) := h.setReg a _

theorem RegsAlone.jrnlStat {s t : State} (h : RegsAlone s t) : RegsAlone s t.jrnlStat :=
  (((h.setFld ..).setFld ..).setFld ..).setFld ..

section
variable (s : State)

/-- What a panel reset leaves of the panel, whatever its cause, but for the registers, the journal and the domains. -/
def State.resetKeeps (keys : Bool) (j : JrnlSt) (doms : SMap Dom) : State := { State.reset with
  time := s.time, free := s.free, out := s.out, pending := s.pending, inp := s.inp, jrnl := j,
  boot := { State.reset.boot with
    lcFuse := s.boot.lcFuse, svnMin := s.boot.svnMin, revoked := s.boot.revoked, lcNow := s.boot.lcFuse, keys := keys },
  bist := { s.bist with pos := [], latch := [] }, comb := { State.reset.comb with repair := s.comb.repair },
  dom := { State.reset.dom with doms := doms } }

/-- The journal that a reset of this cause, not a power-up, leaves. -/
def State.warmJrnl (cause : Nat) : JrnlSt := { State.reset.jrnl with
  ditch := s.jrnl.ditch, ditch15 := s.jrnl.ditch15, standby := s.jrnl.held.drop (s.jrnl.held.length - 32), cause := cause }

theorem panelReset_powerUp : s.panelReset 0 = s.resetKeeps true State.reset.jrnl [] := by
  simp [State.panelReset, State.resetKeeps]

theorem panelReset_warm {cause : Nat} (hwarm : cause ≠ 0) : RegsAlone (s.resetKeeps s.boot.keys (s.warmJrnl cause)
    (s.dom.doms.filter (fun e => decide (408 ≤ e.1) && decide (e.1 < 420)))) (s.panelReset cause) := by
  have hup : (cause == 0) = false := beq_false_of_ne hwarm
  have last (n t : State) (h : RegsAlone n t) (c : Prop) [Decidable c] : RegsAlone n (if c then t.setFld rSEC_LC 31 1 1 else t) := by
    split
    · exact h.setFld ..
    · exact h
  simp only [State.panelReset, hup, Bool.false_or, Bool.false_eq_true, if_false]
  exact last _ _ (((((RegsAlone.refl _).setFld ..).setFld ..).setFld ..).jrnlStat) _

end

section
variable {s : State} {t : Nat}

theorem exec_panelReset_open {port : Nat} (hopen : s.secOpen port = true) :
    exec (.panelReset port) s = .next (s.panelReset 2) := congrArg _ (if_pos hopen)

theorem exec_panelReset_closed {port : Nat} (hclosed : s.secOpen port = false) :
    exec (.panelReset port) s = .next (s.sticky rSEC_BOOT_STAT 31) := congrArg _ (if_neg (Bool.eq_false_iff.1 hclosed))

theorem exec_resetPin_powered (hgood : s.inp.good = true) :
    exec (.resetPin t) s = .next { (s.at t).panelReset 1 with inp := { s.inp with resetLow := true } } := by
  have hkeep : ((s.at t).panelReset 1).inp = s.inp := by rw [panelReset_warm (s.at t) (by decide)]; rfl
  simp only [exec, execResetPin, State.at_frame, hgood, if_true, hkeep]

theorem exec_resetPin_unpowered (hoff : s.inp.good = false) :
    exec (.resetPin t) s = .next { s.at t with inp := { s.inp with resetLow := true } } := by
  have hsame : (if (s.at t).inp.good then (s.at t).panelReset 1 else s.at t) = s.at t := if_neg (Bool.eq_false_iff.1 hoff)
  exact congrArg (fun u : State => Host.Outcome.next { u with inp := { u.inp with resetLow := true } }) hsame

theorem exec_powerGood_charged (hoff : s.inp.good = false) (hfine : s.inp.failing = false) (hstage : s.inp.stage = 1) :
    exec (.powerGood t) s = .next { (s.at t).panelReset 0 with inp := { s.inp with stage := 3, standby := true, good := true } } := by
  have hkeep : ((s.at t).panelReset 0).inp = s.inp := by rw [panelReset_powerUp]; rfl
  simp [exec, execPowerGood, hoff, hfine, hstage, hkeep]

end

/-- Settles O47: a reset keeps what its two laws say, a power-up apart from the other causes; the commands that reset follow. -/
theorem panelResets : Obligations.PanelResets := by
  refine fun s cause t => ⟨fun u hu => ?_, fun _ => exec_panelReset_open, fun _ => exec_panelReset_closed, exec_resetPin_powered,
    exec_resetPin_unpowered, rfl, exec_powerGood_charged⟩
  subst hu
  refine ⟨?_, fun b => reg_panelReset s cause b, ?_, fun hup => ?_, fun hwarm => ?_⟩
  · by_cases hup : cause = 0
    · subst hup
      rw [panelReset_powerUp]
      rfl
    · rw [if_neg hup, panelReset_warm s hup]
      rfl
  · by_cases hup : cause = 0
    · subst hup
      rw [panelReset_powerUp]
      rfl
    · rw [panelReset_warm s hup]
      rfl
  · subst hup
    rw [panelReset_powerUp]
    rfl
  · rw [panelReset_warm s hwarm]
    rfl

/-! ### ROM_INIT, training and the interface level (R369, R371) -/

section
variable (s : State)

theorem boot_serveGroupAt (p t : Nat) : (s.serveGroupAt p t).boot = s.boot := by
  unfold State.serveGroupAt
  split
  · rfl
  · split <;> rfl

theorem boot_domRequest (d : Nat) : (s.domRequest d).boot = s.boot := by
  unfold State.domRequest State.domRequestAt
  split
  · rfl
  · exact boot_serveGroupAt _ _ _

theorem boot_hubsOn (hubs : List Nat) (x : Dom) : (hubs.foldl (fun (w : State) h => (List.range 3).foldl (fun (w : State) d =>
    w.setDom (408 + 3 * h + d) x) w) s).boot = s.boot := foldl_inv State.boot fun _ _ => foldl_inv State.boot fun _ _ => rfl

theorem boot_portsUp (ports : List Nat) : (ports.foldl (fun (w : State) p => w.portUp p) s).boot = s.boot :=
  foldl_inv State.boot fun _ _ => rfl

theorem boot_domRequests (domains : List Nat) (f : Nat → Nat) :
    (domains.foldl (fun (w : State) k => w.domRequest (f k)) s).boot = s.boot :=
  foldl_inv State.boot fun w k => boot_domRequest w (f k)

end

section
variable {s : State} {t : Nat}

theorem exec_romInitComplete_boots {ports hubs : Nat} {u v : State} (hphase : s.phase = 0) (hpin : s.inp.resetLow = false)
    (hpower : s.inp.good = true) (hclear : s.boot.clear = none)
    (hu : u = (setBitsOf 4 hubs).foldl (fun (w : State) h => (List.range 3).foldl (fun (w : State) d =>
      w.setDom (408 + 3 * h + d) { Dom.init with st := 4 }) w) (s.at t))
    (hv : v = (setBitsOf 4 ports).foldl (fun (w : State) p => w.portUp p)
      { u with boot := { u.boot with badHubs := 15 - hubs % 16 } }) :
    exec (.romInitComplete ports hubs t) s = .next ((List.range 68).foldl (fun (w : State) k => w.domRequest (6 * k + 5)) v).enterWait := by
  have hphase : (s.at t).phase = 0 := hphase
  have hruns : ¬((s.at t).phase ≠ 0 ∨ (s.at t).inp.resetLow = true ∨ (!(s.at t).inp.good) = true) := by
    simp [hphase, hpin, hpower]
  have hu' : u.boot.clear = none := by
    rw [hu, boot_hubsOn]
    exact hclear
  subst hv hu
  simp only [exec, execRomInitComplete]
  rw [if_neg hruns, if_neg]
  rw [boot_domRequests _ _ (fun k => 6 * k + 5), boot_portsUp]
  simp [hu']

theorem exec_hbmTrainingComplete_passed {p : Nat} (hcompute : isHub p = false) (hsite : p ≤ 71) (hphase : s.phase ≤ 5) :
    exec (.hbmTrainingComplete p none t) s =
      .next { s.at t with boot := { s.boot with trained := p :: s.boot.trained.filter (fun x => x != p) } } := by
  have hruns : ¬(isHub p = true ∨ 71 < p ∨ 5 < s.phase) := by simp [hcompute, hsite, hphase]
  exact congrArg _ (if_neg hruns)

theorem exec_iflevelRequest_wait (hphase : s.phase = 1) :
    exec (.iflevelRequest 1 0) s = .next ((s.setFld rSEC_IFLEVEL 0 4 1).setFld rSEC_IFLEVEL 8 4 1) := by
  have htaken : ¬(0 ≠ 0 ∨ s.phase ≠ 1) := by simp [hphase]
  exact congrArg _ ((if_neg htaken).trans (if_pos rfl))

theorem exec_iflevelRequest_late (hphase : s.phase ≠ 1) : exec (.iflevelRequest 1 0) s = .next (s.sticky rSEC_BOOT_STAT 31) :=
  congrArg _ (if_pos (.inr hphase))

/-! ### LOAD_BOOT and LOAD_PART (R373, R382) -/

/-- J4 may give every command. -/
theorem secCommand_j4 (f : State → State) : s.secCommand 0 f = f s := rfl

/-- From READY on every port may. -/
theorem secCommand_ready (port : Nat) (hready : s.phase = 6) (f : State → State) : s.secCommand port f = f s :=
  if_pos (by simp [State.secOpen, hready])

theorem exec_loadBoot_wait (hphase : s.phase = 1) (hidle : s.loadBusy = false) (hhubs : s.boot.badHubs = 0)
    (hlevel : s.fld rSEC_IFLEVEL 8 4 ≠ 0) : exec (.loadBoot 0) s =
      .next ((((({ s with boot := { s.boot with cmd := some 16, image := none } } : State).secResult 0 0).setPhase 2)).setReg
        rSEC_LOAD_BYTES 0) := by
  simp [exec, execLoadBoot, secCommand_j4, hphase, hidle, hhubs, hlevel]

theorem exec_loadBoot_busy (hphase : s.phase ≠ 8) (hbusy : s.loadBusy = true) : exec (.loadBoot 0) s = .next (s.secResult 1 0) := by
  simp [exec, execLoadBoot, secCommand_j4, hphase, hbusy]

theorem exec_loadPart_busy (n : Nat) (hbusy : s.loadBusy = true) : exec (.loadPart n 0) s = .next (s.secResult 1 n) := by
  simp [exec, execLoadPart, secCommand_j4, hbusy]

theorem exec_loadPart_ready {v : State} {n : Nat} (port : Nat)
    (hv : v = (({ s with boot := { s.boot with cmd := some n, image := none } } : State).secResult 0 n).setFld rSEC_BOOT_STAT 16 4 n)
    (hphase : s.phase = 6) (hidle : s.loadBusy = false) (hst : (s.part n).st = .configured) (hn : n < 16) :
    exec (.loadPart n port) s =
      .next (((v.setReg rSEC_LOAD_BYTES 0).updPart n (fun p => { p with lib := none, loadFailed := false, loadDone := false })).setPState
        n .loading) := by
  have hfits : ¬(s.phase ≠ 6 ∨ (s.part n).st ≠ .configured ∨ 15 < n) := by
    rintro (hp | hp | hp)
    · exact hp hphase
    · exact hp hst
    · omega
  subst hv
  simp only [exec, execLoadPart, secCommand_ready port hphase, hidle, Bool.false_eq_true, if_false, if_neg hfits]

end

/-- Settles O48: a law above for each command. -/
theorem bootCommands : Obligations.BootCommands := fun _ port n _ =>
  ⟨fun _ _ _ _ hphase hpin hpower hclear => exec_romInitComplete_boots hphase hpin hpower hclear,
    fun _ => exec_hbmTrainingComplete_passed, exec_iflevelRequest_wait, exec_iflevelRequest_late, exec_loadBoot_wait,
    fun hphase hbusy => ⟨exec_loadBoot_busy hphase hbusy, exec_loadPart_busy n hbusy⟩, fun _ => exec_loadPart_ready port⟩

/-! ### Reports (R117, R268, R388, R411) -/

/-- `t` differs from `s` in what a report may touch alone: the registers, the journal and what the boot ROM keeps for it, and a
vector raised. -/
def Reports (s t : State) : Prop :=
  t = { s with regs := t.regs, jrnl := t.jrnl, out := t.out, host := { s.host with pendBit := t.host.pendBit },
               boot := { s.boot with early := t.boot.early } }

theorem Reports.trans {a b c : State} (h : Reports a b) (g : Reports b c) : Reports a c := by
  unfold Reports at *
  rw [h] at g
  exact g

section
variable (s : State)

theorem reports_setFld (a lo n v : Nat) : Reports s (s.setFld a lo n v) := rfl

theorem reports_queueEvent (e : Event) : Reports s (s.queueEvent e) := by
  unfold State.queueEvent
  split_ifs <;> rfl

theorem reports_tickFault {code : Nat} (part site d0 d1 : Nat) (hclass : faultClass code = 0) :
    Reports s (s.tickFault code part site d0 d1) := by
  rw [tickFault_class0 s part site d0 d1 hclass]
  exact reports_queueEvent s _

theorem reports_raiseBoot : Reports s s.raiseBoot := by
  unfold State.raiseBoot State.raiseVec
  split_ifs <;> rfl

theorem reports_enterWait : Reports s s.enterWait := by
  unfold State.enterWait
  split_ifs
  · rfl
  · exact (reports_setFld s _ _ _ _).trans (reports_raiseBoot _)

theorem reg_queueEvent_other (e : Event) {b : Nat} (hb : b ≠ rFLT_CNT_DROP) : (s.queueEvent e).reg b = s.reg b := by
  unfold State.queueEvent
  split_ifs
  · rfl
  · rfl
  · rfl
  · exact reg_bump_other _ _ _ hb

theorem reg_tickFault_other {code : Nat} (part site d0 d1 : Nat) (hclass : faultClass code = 0) {b : Nat} (hb : b ≠ rFLT_CNT_DROP) :
    (s.tickFault code part site d0 d1).reg b = s.reg b := by
  rw [tickFault_class0 s part site d0 d1 hclass, reg_queueEvent_other s _ hb]

theorem reg_raiseBoot (b : Nat) : s.raiseBoot.reg b = s.reg b := by
  unfold State.raiseBoot State.raiseVec
  split_ifs <;> rfl

/-- A field that is written to another value than it has after reset reads as written, whatever the register file. -/
theorem fld_setFld_notReset {a lo n v : Nat} (hv : v < 2 ^ n) (h : lo + n ≤ 64) (hreset : v ≠ bits (regReset a).toNat lo n) :
    (s.setFld a lo n v).fld a lo n = v := by
  have hword : bits (BitVec.ofNat 64 (setBits (s.reg a).toNat lo n v)).toNat lo n = v := by
    rw [BitVec.toNat_ofNat, bits_congr (Nat.mod_mod ..) h, bits_setBits_same, Nat.mod_eq_of_lt hv]
  have hstored : BitVec.ofNat 64 (setBits (s.reg a).toNat lo n v) ≠ regReset a := fun heq =>
    hreset (hword.symm.trans (congrArg (fun w : BitVec 64 => bits w.toNat lo n) heq))
  have hread : (s.setFld a lo n v).reg a = BitVec.ofNat 64 (setBits (s.reg a).toNat lo n v) := mget_mset_nd _ _ _ _ hstored
  rw [State.fld, hread, hword]

end

/-! ### The image header (R374 to R377) -/

section
variable {s : State} {t c : Nat} (port : Nat) (hcmd : s.boot.cmd = some c) (hnone : s.boot.image = none)
include hcmd hnone

theorem exec_imageHeaderReceived_unread : exec (.imageHeaderReceived none port t) s = .next ((s.at t).rejectImage 9 0xFF port 0) := by
  simp [exec, execImageHeaderReceived, hcmd, hnone]

theorem exec_imageHeaderReceived_rejected {h : List (BitVec 32)}
    (hbad : ((s.at t).bumpBy rSEC_LOAD_BYTES 0x4000).headerReason h c ≠ 0) : exec (.imageHeaderReceived (some h) port t) s =
      .next (((s.at t).bumpBy rSEC_LOAD_BYTES 0x4000).rejectImage (((s.at t).bumpBy rSEC_LOAD_BYTES 0x4000).headerReason h c) 0xFF port
        (hdrWordAt h 20)) := by
  simp [exec, execImageHeaderReceived, hcmd, hnone, hbad]

/-- The image of the whole panel that its header `h` opens. -/
def State.bootImage (s : State) (h : List (BitVec 32)) (c : Nat) : Image :=
  { target := none, version := hdrWordAt h 20, svn := bits (hdrWordAt h 16) 0 6, adv := bit (hdrWordAt h 16) 6,
    romkey := bit (hdrWordAt h 16) 7, keyslot := bits (hdrWordAt h 16) 8 2, revoke := bits (hdrWordAt h 16) 12 4,
    measure := Config.digest (hdrBytes h 0 0x2200),
    sects := (List.range (bits (hdrWordAt h 24) 0 8)).map (sectOf h), got := [],
    via := assignPorts (s.loadPorts c) [0, 0, 0, 0] ((List.range (bits (hdrWordAt h 24) 0 8)).map (fun i => (sectOf h i).len)) }

theorem exec_imageHeaderReceived_opened {h : List (BitVec 32)} {u : State} (hu : u = (s.at t).bumpBy rSEC_LOAD_BYTES 0x4000)
    (hpass : u.headerReason h c = 0) (hkind : bits (hdrWordAt h 8) 0 8 ≠ 3) (hpanel : 16 ≤ c) :
    exec (.imageHeaderReceived (some h) port t) s = .next (({ u with
      boot := { u.boot with image := some (u.bootImage h c), loading := true } } : State).setPhase 3) := by
  have hpart : ¬c < 16 := Nat.not_lt.2 hpanel
  subst hu
  simp only [exec, execImageHeaderReceived, State.at_frame, hcmd, hnone, hpass, hkind, hpart, ne_eq, not_true_eq_false, if_false,
    State.bootImage]

theorem completes_imageHeaderReceived {h : List (BitVec 32)} (hkind : bits (hdrWordAt h 8) 0 8 ≠ 3) (hpanel : 16 ≤ c) :
    Completes (.imageHeaderReceived (some h) port t) s (fun u =>
      ((s.at t).bumpBy rSEC_LOAD_BYTES 0x4000).headerReason h c = 0 → u.boot.loading = true ∧
        (u.boot.image.map (fun x => x.version)) = some (hdrWordAt h 20) ∧ (u.boot.image.map (fun x => x.got)) = some [] ∧
        u = { s.at t with boot := u.boot, regs := u.regs }) := by
  by_cases hpass : ((s.at t).bumpBy rSEC_LOAD_BYTES 0x4000).headerReason h c = 0
  · exact ⟨_, exec_imageHeaderReceived_opened port hcmd hnone rfl hpass hkind hpanel, fun _ => ⟨rfl, rfl, rfl, rfl⟩⟩
  · exact ⟨_, exec_imageHeaderReceived_rejected port hcmd hnone hpass, fun hpass' => absurd hpass' hpass⟩

end

/-! ### Sections (R378 to R381) -/

theorem section_awaited {img : Image} {i port : Nat} {e : ImgSect} (hnew : i ∉ img.got) (hport : img.via.getD i 0 = port)
    (hsect : img.sects[i]? = some e) : ¬(img.got.contains i = true ∨ img.sects.length ≤ i ∨ img.via.getD i 0 ≠ port) := by
  have hin : i < img.sects.length := (List.getElem?_eq_some_iff.1 hsect).1
  rintro (hgot | hpast | hother)
  · exact hnew (List.contains_iff_mem.1 hgot)
  · exact absurd hin (Nat.not_lt.2 hpast)
  · exact hother hport

section
variable {s : State} {t port i : Nat} {img : Image} (himg : s.boot.image = some img)
include himg

theorem exec_sectionReceived_again (b : List (BitVec 8)) (plans : List (List SectPlan)) (htaken : i ∈ img.got) :
    exec (.sectionReceived i (some b) plans port t) s = .next (s.at t) := by
  simp [exec, execSectionReceived, himg, htaken]

section
variable {e : ImgSect} {b : List (BitVec 8)} {plans : List (List SectPlan)} (hnew : i ∉ img.got) (hport : img.via.getD i 0 = port)
  (hsect : img.sects[i]? = some e) (hready : img.ready i = true)
include hnew hport hsect hready

theorem exec_sectionReceived_bad (hbad : b.length ≠ e.len ∨ Config.digest b ≠ e.digest) :
    exec (.sectionReceived i (some b) plans port t) s =
      .next (((s.at t).bumpBy rSEC_LOAD_BYTES b.length).rejectImage 4 i port img.version) := by
  have htaken : ¬(img.got.contains i = true ∨ img.sects.length ≤ i ∨ img.via.getD i 0 ≠ port) := section_awaited hnew hport hsect
  simp only [exec, execSectionReceived, State.at_frame, himg, if_neg htaken, hsect, hready, Bool.not_true, Bool.false_eq_true,
    if_false, if_pos hbad]

theorem exec_sectionReceived_taken (hlen : b.length = e.len) (hdigest : Config.digest b = e.digest) (hty : e.ty < 3)
    (hloads : ∀ n ∈ img.parts, (s.part n).loadFailed = false) (hmore : img.got.length + 1 ≠ img.sects.length)
    (hfw : ((List.range img.sects.length).zip img.sects).all (fun y => !(decide (y.2.ty < 3)) || (i :: img.got).contains y.1) = false) :
    exec (.sectionReceived i (some b) plans port t) s = .next { (s.at t).bumpBy rSEC_LOAD_BYTES b.length with
      boot := { s.boot with image := some { img with got := i :: img.got } } } := by
  have htaken : ¬(img.got.contains i = true ∨ img.sects.length ≤ i ∨ img.via.getD i 0 ≠ port) := section_awaited hnew hport hsect
  have hgood : ¬(b.length ≠ e.len ∨ Config.digest b ≠ e.digest) := by simp [hlen, hdigest]
  have happly (u : State) (x : Image) : u.applySection x e (b.map BitVec.toNat) plans = (u, 0) := by
    have h3 : e.ty ≠ 3 := by omega
    have h4 : e.ty ≠ 4 := by omega
    have h5 : e.ty ≠ 5 := by omega
    have h6 : e.ty ≠ 6 := by omega
    simp [State.applySection, h3, h4, h5, h6]
  have hsound : ¬(0 != 0 || img.parts.any (fun n => (s.part n).loadFailed)) = true := by simpa using hloads
  simp only [exec, execSectionReceived, State.at_frame, himg, if_neg htaken, hsect, hready, Bool.not_true, Bool.false_eq_true,
    if_false, if_neg hgood, happly, hfw, false_and, and_false, List.length_cons, hmore]
  exact congrArg _ (if_neg hsound)

end
end

/-! ### The final checks (R381, R382) -/

/-- The panel is READY with an image of this version, and no load is in progress. -/
structure Booted (version : Nat) (s : State) : Prop where
  phase   : s.phase = 6
  version : s.boot.version = version
  cmd     : s.boot.cmd = none
  image   : s.boot.image = none
  loading : s.boot.loading = false

section
variable {version : Nat} {s t : State}

theorem Booted.reports (h : Booted version s) (g : Reports s t) (hreg : t.reg rSEC_BOOT_STAT = s.reg rSEC_BOOT_STAT) :
    Booted version t where
  phase := by rw [State.phase, State.fld, hreg]; exact h.phase
  version := by rw [g]; exact h.version
  cmd := by rw [g]; exact h.cmd
  image := by rw [g]; exact h.image
  loading := by rw [g]; exact h.loading

theorem Booted.tickFault (h : Booted version s) {code : Nat} (part site d0 d1 : Nat) (hclass : faultClass code = 0) :
    Booted version (s.tickFault code part site d0 d1) :=
  h.reports (reports_tickFault s part site d0 d1 hclass) (reg_tickFault_other s part site d0 d1 hclass (by decide))

theorem Booted.foldl {α : Type} {g : State → α → State} (l : List α) (h : Booted version s)
    (hg : ∀ u x, Booted version u → Booted version (g u x)) : Booted version (l.foldl g s) :=
  List.foldlRecOn l g h fun u hu x _ => hg u x hu

theorem Booted.fuses (h : Booted version s) (svn : Option Nat) (revoked : Nat) :
    Booted version { s with boot := { s.boot with svnMin := svn, revoked := revoked } } :=
  ⟨h.phase, h.version, h.cmd, h.image, h.loading⟩

/-- Fuse updates program fuses and report them. -/
theorem Booted.fuseUpdates (h : Booted version s) (x : Image) : Booted version (s.fuseUpdates x) := by
  have hnote (u : State) (d : Nat) (hu : Booted version u) : Booted version (u.tickFault 0x03C6 16 (hubSite 0) d 0) :=
    hu.tickFault _ _ _ _ (by decide)
  have hrevoke (u : State) (hu : Booted version u) : Booted version ((setBitsOf 4 x.revoke).foldl (fun (v : State) k =>
      let w : State := { v with boot := { v.boot with revoked := orBit v.boot.revoked k } }
      w.tickFault 0x03C6 16 (hubSite 0) (w.svnMin + ((List.range 4).filter w.slotRevoked).foldl orBit 0 * 2 ^ 8) 0) u) :=
    Booted.foldl _ hu fun v k hv => hnote _ _ (hv.fuses v.boot.svnMin _)
  unfold State.fuseUpdates
  split
  · exact h
  · refine hrevoke _ ?_
    split
    · exact hnote _ _ (h.fuses _ s.boot.revoked)
    · exact h

theorem reg_foldl_other {α : Type} {b : Nat} {g : State → α → State} (l : List α)
    (hg : ∀ u, ∀ x ∈ l, (g u x).reg b = u.reg b) :
    (l.foldl g s).reg b = s.reg b :=
  List.foldlRecOn (motive := fun u => u.reg b = s.reg b) l g rfl fun u hu x hx => (hg u x hx).trans hu

theorem reg_setMeas_other {r b : Nat} (x : Nat) (hb : b < r) : (s.setMeas r x).reg b = s.reg b :=
  reg_foldl_other _ fun u i _ => reg_setReg_other u _ _ _ (by omega)

end

section
variable (s : State) (img : Image)

/-- The registers of a panel that becomes READY with this image. -/
def State.bootRegs : State :=
  (List.range 4).foldl (fun (v : State) k => v.setFld rSEC_KEYS (4 * k + 2) 1 (b2n (!img.romkey && img.keyslot == k)))
    ((s.setPhase 6).setMeas rSEC_MEAS img.measure)

theorem phase_bootRegs : (s.bootRegs img).phase = 6 := by
  have hreg : (s.bootRegs img).reg rSEC_BOOT_STAT = (s.setPhase 6).reg rSEC_BOOT_STAT :=
    (reg_foldl_other _ fun v k _ => reg_setFld_other _ _ _ _ _ _ (by decide)).trans (reg_setMeas_other _ (by decide))
  rw [State.phase, State.fld, hreg]
  exact fld_setFld_notReset s (by decide) (by decide) (by decide)

/-- The panel is READY with the image that has passed its final checks, but for its fuse updates. -/
def State.bootDone : State :=
  img.parts.foldl (fun (w : State) n => w.updPart n (fun p => { p with loadDone := true })) { s.bootRegs img with
    boot := { (s.bootRegs img).boot with cmd := none, image := none, loading := false, version := img.version } }

theorem booted_bootDone : Booted img.version (s.bootDone img) := by
  unfold State.bootDone
  have hphase := phase_bootRegs s img
  generalize s.bootRegs img = v at hphase ⊢
  exact Booted.foldl _ ⟨hphase, rfl, rfl, rfl, rfl⟩ fun _ _ hu => ⟨hu.phase, hu.version, hu.cmd, hu.image, hu.loading⟩

end

section
variable {s : State} {t : Nat} {img : Image} (hphase : s.phase = 5)
  (htrained : ∀ p, p < 72 → isHub p = true ∨ p ∈ s.boot.trained)
include hphase htrained

/-- Once every stack is trained the final checks wait for the header checks of the image's partitions alone. -/
theorem finalChecks_due (hchecked : ∀ n ∈ img.parts, s.checking n = false) : ¬((s.at t).phase ≠ 5 ∨
    (!(List.range 72).all (fun p => isHub p || (s.at t).boot.trained.contains p)) = true ∨ img.parts.any (s.at t).checking = true) := by
  rintro (hother | huntrained | hchecking)
  · exact hother hphase
  · have hall : (List.range 72).all (fun p => isHub p || (s.at t).boot.trained.contains p) = true := by simpa using htrained
    exact absurd huntrained (by rw [hall]; decide)
  · obtain ⟨n, hn, hbusy⟩ := List.any_eq_true.1 hchecking
    exact Bool.false_ne_true ((hchecked n hn).symm.trans hbusy)

theorem exec_bootReady_failed (himg : s.boot.image = some img)
    (hfailed : ∀ n ∈ img.parts, s.checking n = false ∧ (s.part n).loadFailed = true) (hsome : img.parts ≠ []) :
    exec (.bootReady t) s = .next ((s.at t).rejectImage 12 0xFF 0 img.version) := by
  obtain ⟨n, hn⟩ := List.exists_mem_of_ne_nil _ hsome
  have hbad : img.parts.any (fun n => ((s.at t).part n).loadFailed || ((s.at t).partSites n).any
      (fun p => mget false (s.at t).fab.siteOut p)) = true :=
    List.any_eq_true.2 ⟨n, hn, Bool.or_eq_true_iff.2 (.inl (hfailed n hn).2)⟩
  have hdue := finalChecks_due (t := t) hphase htrained fun n hn => (hfailed n hn).1
  have himg : (s.at t).boot.image = some img := himg
  simp only [exec, execBootReady, himg, if_neg hdue, if_pos hbad]

theorem completes_bootReady (himg : s.boot.image = some img)
    (hpassed : ∀ n ∈ img.parts, s.checking n = false ∧ (s.part n).loadFailed = false ∧
    ∀ p ∈ s.partSites n, mget false s.fab.siteOut p = false) : Completes (.bootReady t) s (Booted img.version) := by
  have hgood : ¬img.parts.any (fun n => ((s.at t).part n).loadFailed || ((s.at t).partSites n).any
      (fun p => mget false (s.at t).fab.siteOut p)) = true := by
    intro hbad
    obtain ⟨n, hn, hbad⟩ := List.any_eq_true.1 hbad
    obtain ⟨-, hloaded, hin⟩ := hpassed n hn
    rcases Bool.or_eq_true_iff.1 hbad with hfailed | hout
    · exact Bool.false_ne_true (hloaded.symm.trans hfailed)
    · obtain ⟨p, hp, hout⟩ := List.any_eq_true.1 hout
      exact Bool.false_ne_true ((hin p hp).symm.trans hout)
  have hdue := finalChecks_due (t := t) hphase htrained fun n hn => (hpassed n hn).1
  have himg : (s.at t).boot.image = some img := himg
  have hexec : exec (.bootReady t) s = .next (((s.at t).bootDone img).fuseUpdates img).raiseBoot := by
    simp only [exec, execBootReady, himg, if_neg hdue, if_neg hgood, State.bootDone, State.bootRegs]
  have hboots : Booted img.version (((s.at t).bootDone img).fuseUpdates img) := (booted_bootDone _ img).fuseUpdates img
  exact ⟨_, hexec, hboots.reports (reports_raiseBoot _) (reg_raiseBoot _ _)⟩

end

section
variable {s : State} {t n : Nat} {img : Image}

/-- A load of partition `n` has passed its checks. -/
def State.partLoaded (s : State) (n : Nat) (img : Image) : State :=
  let v := (s.setMeas (rSEC_PMEAS + 0x30 * n) img.measure).setFld rSEC_BOOT_STAT 16 4 0
  ({ v with boot := { v.boot with cmd := none, image := none } } : State).updPart n (fun p => { p with loadDone := true })

theorem setMeas_frame (r x : Nat) : s.setMeas r x = { s with regs := (s.setMeas r x).regs } :=
  List.foldlRecOn (motive := fun u => RegsAlone s u) (List.range 12) _ (RegsAlone.refl s) fun _ hu _ _ => hu.setReg _ _

theorem partLoaded_frame : s.partLoaded n img = { s with
    boot := { s.boot with cmd := none, image := none }, regs := (s.partLoaded n img).regs, parts := (s.partLoaded n img).parts } := by
  unfold State.partLoaded
  rw [setMeas_frame]
  rfl

theorem part_updPart_same {f : Part → Part} (h : f (s.part n) ≠ Part.init) : (s.updPart n f).part n = f (s.part n) :=
  mget_mset_nd _ _ _ _ h

theorem loadDone_partLoaded : ((s.partLoaded n img).part n).loadDone = true := by
  have hset (p : Part) : { p with loadDone := true } ≠ Part.init := fun h =>
    absurd (congrArg Part.loadDone h) (show (true : Bool) ≠ Part.init.loadDone by decide)
  unfold State.partLoaded
  rw [part_updPart_same (hset _)]

theorem exec_partLoadComplete_passed (m ms : Nat) (himg : s.boot.image = some img) (htarget : img.target = some n)
    (hgot : img.got.length = img.sects.length) (hchecked : s.checking n = false) (hloaded : (s.part n).loadFailed = false)
    (hin : ∀ p ∈ s.partSites n, mget false s.fab.siteOut p = false) :
    exec (.partLoadComplete n m ms t) s = .next ((s.at t).partLoaded n img) := by
  have hover : ¬(img.target ≠ some n ∨ img.got.length ≠ img.sects.length ∨ (s.at t).checking n = true) := by
    rintro (hother | hmore | hbusy)
    · exact hother htarget
    · exact hmore hgot
    · exact Bool.false_ne_true (hchecked.symm.trans hbusy)
  have hgood : ¬(((s.at t).part n).loadFailed = true ∨ ((s.at t).partSites n).any (fun p => mget false (s.at t).fab.siteOut p) = true) := by
    rintro (hfailed | hout)
    · exact Bool.false_ne_true (hloaded.symm.trans hfailed)
    · obtain ⟨p, hp, hout⟩ := List.any_eq_true.1 hout
      exact Bool.false_ne_true ((hin p hp).symm.trans hout)
  have himg : (s.at t).boot.image = some img := himg
  simp only [exec, execPartLoadComplete, himg, if_neg hover, if_neg hgood, State.partLoaded]

end

/-- Settles O49: a law above for each answer to what is received, and the final checks of the panel and of one partition. -/
theorem imagesAreChecked : Obligations.ImagesAreChecked := by
  refine fun s port t c h => ⟨fun hcmd hnone => ⟨exec_imageHeaderReceived_unread port hcmd hnone,
      exec_imageHeaderReceived_rejected port hcmd hnone, completes_imageHeaderReceived port hcmd hnone⟩,
    fun img i e b plans himg => exec_sectionReceived_bad himg,
    fun img i b plans himg => exec_sectionReceived_again himg b plans,
    fun img i e b plans himg => exec_sectionReceived_taken himg,
    fun img himg hphase htrained hpassed => ?_,
    fun img himg hphase htrained => exec_bootReady_failed hphase htrained himg,
    fun img n m ms himg htarget hgot hchecked hloaded hin => ?_⟩
  · obtain ⟨u, hexec, hboots⟩ := completes_bootReady (t := t) hphase htrained himg hpassed
    exact ⟨u, hexec, hboots.phase, hboots.version, hboots.cmd, hboots.image, hboots.loading⟩
  · have hframe := partLoaded_frame (s := s.at t) (n := n) (img := img)
    exact ⟨_, exec_partLoadComplete_passed m ms himg htarget hgot hchecked hloaded hin, loadDone_partLoaded, by rw [hframe],
      by rw [hframe], by rw [hframe]⟩

/-! ### Life-cycle advances (R384, R385) -/

section
variable {s : State} {t : Nat}

theorem exec_lcAdvance_pending (g : Nat) (hgoal : s.boot.lcGoal ≠ none) : exec (.lcAdvance g 0 t) s = .next ((s.at t).secResult 1 0) := by
  have hpending : (s.at t).boot.lcGoal.isSome = true := Option.isSome_iff_ne_none.2 hgoal
  simp only [exec, execLcAdvance, secCommand_j4, hpending, if_true]

section
variable (hfree : s.boot.lcGoal = none) (hphase : s.phase = 1) (hidle : s.loadBusy = false)
include hfree hphase hidle

/-- In WAIT_IMAGE, with nothing pending, an advance is judged by the life cycle. -/
theorem exec_lcAdvance_judged (g : Nat) : exec (.lcAdvance g 0 t) s = .next
    (if (s.lifeCycle = 0 ∧ g = 1 ∧ (List.range 4).any slotFused) ∨ (s.lifeCycle = 1 ∧ g = 2) then
      ({ s.at t with boot := { s.boot with lcGoal := some g, lcDue := true } } : State).secResult 0 0
    else if g = 4 then
      (({ s.at t with boot := { s.boot with lcGoal := some 4, clear := some (2, t) } } : State).setPhase 7).secResult 0 0
    else (s.at t).secResult 4 0) := by
  have hnone : ¬s.boot.lcGoal.isSome = true := by simp [hfree]
  have hwaits : ¬(s.phase ≠ 1 ∨ s.loadBusy = true) := by simp [hphase, hidle]
  exact congrArg _ ((if_neg hnone).trans (if_neg hwaits))

theorem exec_lcAdvance_field (hlife : s.lifeCycle = 1) : exec (.lcAdvance 2 0 t) s =
    .next (({ s.at t with boot := { s.boot with lcGoal := some 2, lcDue := true } } : State).secResult 0 0) := by
  rw [exec_lcAdvance_judged hfree hphase hidle, if_pos (.inr ⟨hlife, rfl⟩)]

theorem exec_lcAdvance_scrapped : exec (.lcAdvance 4 0 t) s =
    .next ((({ s.at t with boot := { s.boot with lcGoal := some 4, clear := some (2, t) } } : State).setPhase 7).secResult 0 0) := by
  rw [exec_lcAdvance_judged hfree hphase hidle, if_neg (by omega), if_pos rfl]

end

theorem completes_lifecycleFusesProgrammed {g : Nat} (hgoal : s.boot.lcGoal = some g) (hdue : s.boot.lcDue = true) :
    Completes (.lifecycleFusesProgrammed t) s (fun u => u.boot.lcFuse = some g ∧ u.boot.lcDue = false) := by
  simp only [Completes, exec, execLifecycleFusesProgrammed, State.at_frame, hgoal, hdue, Bool.not_true, Bool.false_eq_true, if_false]
  refine ⟨_, rfl, ?_⟩
  rw [reports_tickFault _ _ _ _ _ (by decide)]
  exact ⟨rfl, rfl⟩

/-! ### Full clearing (R386) -/

/-- The memories, the streams and the queues are as after reset, but for the repair maps `repair`, and the keys are gone. -/
structure SecretsGone (repair : SMap Nat) (u : State) : Prop where
  spad    : u.spad = State.reset.spad
  kv      : u.kv = State.reset.kv
  rq      : u.rq = State.reset.rq
  streams : u.host.streams = []
  qps     : u.host.qps = []
  comb    : u.comb = { State.reset.comb with repair := repair }
  keys    : u.boot.keys = false
  clear   : u.boot.clear = none

theorem SecretsGone.reports {repair : SMap Nat} {u v : State} (h : SecretsGone repair u) (g : Reports u v) : SecretsGone repair v := by
  rw [g]
  exact ⟨h.spad, h.kv, h.rq, h.streams, h.qps, h.comb, h.keys, h.clear⟩

/-- All that full clearing, with its cause, wipes. -/
def State.wiped (s : State) (c : Nat) : State :=
  { s with
    comb := { State.reset.comb with repair := s.comb.repair }, rq := State.reset.rq, sparse := State.reset.sparse,
    desc := State.reset.desc, kv := State.reset.kv, spad := State.reset.spad, sls := { s.sls with xlat := [] },
    parts := s.parts.map (fun (e : Nat × Part) => (e.1, { e.2 with errq := [] })), host := { s.host with streams := [], qps := [] },
    boot := { s.boot with keys := false, clear := none, lcDue := s.boot.lcDue || decide (c ≠ 0) } }

theorem secretsGone_wiped (s : State) (c : Nat) : SecretsGone s.comb.repair (s.wiped c) := ⟨rfl, rfl, rfl, rfl, rfl, rfl, rfl, rfl⟩

theorem exec_secretsCleared (ms : Nat) {c begun : Nat} (hclear : s.boot.clear = some (c, begun)) (hphase : s.phase = 7) :
    exec (.secretsCleared ms t) s = .next (((if c = 0 then ((s.at t).wiped c).setFld rSEC_LC 31 1 1 else (s.at t).wiped c).tickFault
      0x03C5 16 (hubSite 0) (c * 2) (ms % 2 ^ 16)).enterWait) := by
  have hclearing : ¬(s.at t).phase ≠ 7 := not_not.2 hphase
  have hclear : (s.at t).boot.clear = some (c, begun) := hclear
  simp only [exec, execSecretsCleared, hclear, if_neg hclearing, State.wiped]

theorem completes_secretsCleared (ms : Nat) (hphase : s.phase = 7) (hclear : s.boot.clear ≠ none) :
    Completes (.secretsCleared ms t) s (SecretsGone s.comb.repair) := by
  obtain ⟨⟨c, begun⟩, hclear⟩ := Option.ne_none_iff_exists'.1 hclear
  have hwiped : SecretsGone s.comb.repair (if c = 0 then ((s.at t).wiped c).setFld rSEC_LC 31 1 1 else (s.at t).wiped c) := by
    have hbase : SecretsGone s.comb.repair ((s.at t).wiped c) := secretsGone_wiped (s.at t) c
    split
    · exact hbase.reports (reports_setFld _ _ _ _ _)
    · exact hbase
  exact ⟨_, exec_secretsCleared ms hclear hphase,
    (hwiped.reports (reports_tickFault _ _ _ _ _ (by decide))).reports (reports_enterWait _)⟩

/-! ### Test access (R387) -/

theorem exec_tapEnable_clearing (hphase : s.phase = 7) : exec (.tapEnable 0 t) s = .next ((s.at t).secResult 1 0) := by
  have hphase : (s.at t).phase = 7 := hphase
  simp only [exec, execTapEnable, secCommand_j4, hphase, if_true]

theorem exec_tapEnable_reset (hphase : s.phase ≠ 7) (hdue : s.flag rSEC_LC 30 = false) : exec (.tapEnable 0 t) s =
    .next { (s.at t).panelReset 3 with boot := { ((s.at t).panelReset 3).boot with clear := some (0, t) } } := by
  have hphase : ¬(s.at t).phase = 7 := hphase
  have hdue : (s.at t).flag rSEC_LC 30 = false := hdue
  simp only [exec, execTapEnable, secCommand_j4, if_neg hphase, hdue, Bool.false_eq_true, false_and, if_false]

end

/-- Settles O50: a law above for each advance and request, full clearing by what it leaves gone. -/
theorem lifeCycle : Obligations.LifeCycle := by
  refine fun s t ms => ⟨exec_lcAdvance_field, exec_lcAdvance_scrapped, exec_lcAdvance_pending,
    fun _ => completes_lifecycleFusesProgrammed, fun hphase hclear => ?_, exec_tapEnable_clearing, exec_tapEnable_reset⟩
  obtain ⟨u, hexec, hgone⟩ := completes_secretsCleared (t := t) ms hphase hclear
  exact ⟨u, hexec, hgone.spad, hgone.kv, hgone.rq, hgone.streams, hgone.qps, hgone.comb, hgone.keys, hgone.clear⟩

end Sys2Proof.Machine
end

section
/-! PROOFS. The statements on self-test, ageing and the journal (chapter 15). -/

namespace Sys2Proof.Machine

/-! ### The journal (R410 to R413) -/

/-- `t` differs from `s` in the journal, the registers and the NOTIFYs alone. -/
def JournalAlone (s t : State) : Prop := t = { s with jrnl := t.jrnl, regs := t.regs, wgl := t.wgl }

theorem JournalAlone.trans {a b c : State} (h : JournalAlone a b) (g : JournalAlone b c) : JournalAlone a c := by
  unfold JournalAlone at *
  rw [h] at g
  exact g

section
variable (s : State)

theorem jrnl_setJ (j : JrnlSt) : (s.setJ j).jrnl = j := rfl

theorem journalAlone_setJ (j : JrnlSt) : JournalAlone s (s.setJ j) := rfl

theorem journalAlone_copyOne : JournalAlone s s.copyOne := by
  unfold State.copyOne
  split
  · rfl
  · exact journalAlone_setJ s _

theorem notify_frame (kind index sub data : Nat) : s.notify kind index sub data =
    { s with wgl := (s.notify kind index sub data).wgl, regs := (s.notify kind index sub data).regs } := by
  simp only [State.notify]
  split
  · rfl
  · rfl

theorem journalAlone_notify (kind index sub data : Nat) : JournalAlone s (s.notify kind index sub data) := by
  unfold JournalAlone
  rw [notify_frame]

theorem jrnl_notify (kind index sub data : Nat) : (s.notify kind index sub data).jrnl = s.jrnl := by rw [notify_frame]

theorem RegsAlone.journalAlone {t : State} (h : RegsAlone s t) : JournalAlone s t := by
  unfold JournalAlone
  rw [h]

theorem RegsAlone.jrnl {t : State} (h : RegsAlone s t) : t.jrnl = s.jrnl := by rw [h]

/-- An entry that stands in the journal is counted, shown, and notified where its class asks for it. -/
def State.entryStands (s : State) (e : JEntry) : State :=
  let u := (s.bump rFLT_CNT_ENTRY).jrnlStat
  if u.notifyClass ≤ faultClass e.ev.code ∨ faultClass e.ev.code = 4 then u.notify 2 0x4100 1 e.big else u

theorem entryStands_spec (e : JEntry) : JournalAlone s (s.entryStands e) ∧ (s.entryStands e).jrnl = s.jrnl := by
  have hcounted : RegsAlone s (s.bump rFLT_CNT_ENTRY).jrnlStat := ((RegsAlone.refl s).setReg _ _).jrnlStat
  simp only [State.entryStands]
  split
  · exact ⟨(hcounted.journalAlone s).trans (journalAlone_notify _ _ _ _ _), (jrnl_notify _ _ _ _ _).trans (hcounted.jrnl s)⟩
  · exact ⟨hcounted.journalAlone s, hcounted.jrnl s⟩

end

/-- A state of the journal whose copy A has become `a` since `s`. -/
structure CopyATook (a : List JEntry) (s t : State) : Prop where
  queue : t.jrnl.queue = s.jrnl.queue
  seq   : t.jrnl.seq = s.jrnl.seq
  copyA : t.jrnl.copyA = a
  alone : JournalAlone s t

section
variable {s t : State} {a : List JEntry} {e : JEntry}

theorem CopyATook.setCopyB (h : CopyATook a s t) (q b : List JEntry) :
    CopyATook a s (t.setJ { t.jrnl with toCopy := q, copyB := b }) :=
  ⟨h.queue, h.seq, h.copyA, h.alone.trans (journalAlone_setJ t _)⟩

theorem CopyATook.copyOne (h : CopyATook a s t) : CopyATook a s t.copyOne := by
  unfold State.copyOne
  split
  · exact h
  · exact h.setCopyB _ _

theorem CopyATook.entryStands (h : CopyATook a s t) : CopyATook a s (t.entryStands e) :=
  have ⟨halone, hjrnl⟩ := entryStands_spec t e
  ⟨hjrnl ▸ h.queue, hjrnl ▸ h.seq, hjrnl ▸ h.copyA, h.alone.trans halone⟩

/-- Copy A takes an entry, and copy B another that has waited too long. -/
theorem copyATook_put (s : State) (a q : List JEntry) (e : JEntry) : CopyATook a s
    ((if 64 < (s.setJ { s.jrnl with copyA := a, toCopy := q }).jrnl.toCopy.length then
        (s.setJ { s.jrnl with copyA := a, toCopy := q }).copyOne
      else s.setJ { s.jrnl with copyA := a, toCopy := q }).entryStands e) := by
  have htook : CopyATook a s (s.setJ { s.jrnl with copyA := a, toCopy := q }) := ⟨rfl, rfl, rfl, journalAlone_setJ s _⟩
  split
  · exact htook.copyOne.entryStands
  · exact htook.entryStands

theorem copyATook_jrnlPut (hA : s.jrnl.okA = true) : CopyATook (ringAdd s.jrnl.copyA e) s (s.jrnlPut e) := by
  have hput := copyATook_put s (ringAdd s.jrnl.copyA e) (if s.jrnl.okB then s.jrnl.toCopy ++ [e] else []) e
  simpa only [State.jrnlPut, hA, if_true, State.entryStands] using hput

/-- The only event that waits is written into a journal that is in service. -/
theorem exec_journalWrite_one {e : Event} (hqueue : s.jrnl.queue = [e]) (hlost : s.jrnl.lost = false) :
    exec (.journalWrite false) s =
      .next ((s.setJ { s.jrnl with queue := [], seq := s.jrnl.seq + 1 }).jrnlPut ⟨e, s.jrnl.seq.toNat⟩) := by
  simp [exec, execJournalWrite, hqueue, firstEvent, State.jrnlWrite, State.setJ, hlost]

theorem completes_journalWrite {e : Event} {x : JEntry} (hqueue : s.jrnl.queue = [e]) (hlost : s.jrnl.lost = false)
    (hA : s.jrnl.okA = true) (hx : x = ⟨e, s.jrnl.seq.toNat⟩) (ha : a = ringAdd s.jrnl.copyA x) :
    Completes (.journalWrite false) s (fun t => t.jrnl.queue = [] ∧ t.jrnl.seq = s.jrnl.seq + 1 ∧
      t.jrnl.copyA = a ∧ t = { s with jrnl := t.jrnl, regs := t.regs, wgl := t.wgl }) := by
  have htook : CopyATook (ringAdd s.jrnl.copyA x) (s.setJ { s.jrnl with queue := [], seq := s.jrnl.seq + 1 })
      ((s.setJ { s.jrnl with queue := [], seq := s.jrnl.seq + 1 }).jrnlPut x) :=
    copyATook_jrnlPut (s := s.setJ { s.jrnl with queue := [], seq := s.jrnl.seq + 1 }) hA
  rw [← ha] at htook
  refine ⟨_, exec_journalWrite_one hqueue hlost, ?_⟩
  rw [← hx]
  exact ⟨htook.queue, htook.seq, htook.copyA, (journalAlone_setJ s _).trans htook.alone⟩

end

section
variable {s : State}

theorem exec_journalCopy_oldest {e : JEntry} {rest : List JEntry} (hcopy : s.jrnl.toCopy = e :: rest) : exec (.journalCopy false) s =
    .next { s with jrnl := { s.jrnl with toCopy := rest, copyB := ringAdd s.jrnl.copyB e } } := by
  simp [exec, execJournalCopy, State.copyOne, State.setJ, hcopy]

theorem exec_clearLost_one (hready : s.ready = true) :
    exec (.clearLost 1) s = .next { s with jrnl := { s.jrnl with testing := true } } := by
  have hword : ¬bits (1 : BitVec 32).toNat 1 31 ≠ 0 := by decide
  have hbit : bit (1 : BitVec 32).toNat 0 = true := by decide
  simp only [exec, execClearLost, hready, Bool.not_true, Bool.false_eq_true, if_false, if_neg hword, hbit, if_true, State.setJ]

theorem exec_clearLost_reserved {w : BitVec 32} (hready : s.ready = true) (hreserved : bits w.toNat 1 31 ≠ 0) :
    exec (.clearLost w) s = .next (s.sticky rFLT_JRNL_STAT 30) := by
  simp only [exec, execClearLost, hready, Bool.not_true, Bool.false_eq_true, if_false, if_pos hreserved]

section
variable (htesting : s.jrnl.testing = true)
include htesting

theorem exec_journalRecoveryComplete_failed : exec (.journalRecoveryComplete false false) s =
    .next (({ s with jrnl := { s.jrnl with testing := false } } : State).sticky rFLT_JRNL_STAT 30) := by
  simp [exec, execJournalRecoveryComplete, htesting, State.setJ]

/-- Copy A alone passes, and no entry waits in the last-ditch file. -/
theorem completes_journalRecoveryComplete (hlost : s.jrnl.lost = true) (hditch : s.jrnl.ditch = []) (hditch15 : s.jrnl.ditch15 = none) :
    Completes (.journalRecoveryComplete true false) s (fun t => t.jrnl.lost = false ∧ t.jrnl.okA = true ∧ t.jrnl.okB = false ∧
      t.jrnl.copyA = s.jrnl.copyA ∧ t.jrnl.copyB = [] ∧ t.jrnl.testing = false) := by
  simp only [Completes, exec, execJournalRecoveryComplete, htesting, State.setJ, hlost, hditch, hditch15, Bool.not_true,
    Bool.false_eq_true, if_false, Bool.false_and, Option.toList_none, List.append_nil, List.foldl_nil]
  exact ⟨_, rfl, rfl, rfl, rfl, rfl, rfl, rfl⟩

end
end

/-- Settles O51: the write by what copy A takes of it, the other commands by their laws. -/
theorem journalWrites : Obligations.JournalWrites := fun _ =>
  ⟨fun _ hqueue hlost hA => completes_journalWrite hqueue hlost hA rfl rfl, fun _ _ => exec_journalCopy_oldest,
    exec_clearLost_one, fun _ => exec_clearLost_reserved,
    exec_journalRecoveryComplete_failed, completes_journalRecoveryComplete⟩

/-! ### Self-test slices (R391, R394) -/

section
variable {s : State} {p t unit len : Nat} {steps : List TestStep}

/-- A slice that does not run: of a scratchpad region that has been begun, the restoring goes on. -/
def State.restOfSlice (s : State) (p unit : Nat) (steps : List TestStep) : State :=
  if unit = 4 then s.testSteps p 4 (steps.filter (fun x => x.stage == .restore)) 0 else s

theorem exec_selfTestSlice_off (leaves : Bool) (hoff : s.flag rBIST_CTL 0 = false) :
    exec (.selfTestSlice p unit len steps leaves t) s = .next ((s.at t).restOfSlice p unit steps) := by
  have hstop : (!(s.at t).flag rBIST_CTL 0 || isHub p || decide (6 < unit) || (s.at t).inGuard) = true := by
    have hoff : (s.at t).flag rBIST_CTL 0 = false := hoff
    simp [hoff]
  exact congrArg _ (if_pos hstop)

section
variable (hon : s.flag rBIST_CTL 0 = true) (hmode : s.flag rBIST_CTL 1 = false) (hcompute : isHub p = false)
  (hguard : (s.at t).inGuard = false)
include hon hmode hcompute hguard

theorem exec_selfTestSlice_outside (leaves : Bool) (hwindow : (s.at t).inWindow p = false) (hunit : unit ≤ 6) :
    exec (.selfTestSlice p unit len steps leaves t) s = .next (((s.at t).bump rBIST_CNT_SKIP).restOfSlice p unit steps) := by
  have hon : (s.at t).flag rBIST_CTL 0 = true := hon
  have hmode : (s.at t).flag rBIST_CTL 1 = false := hmode
  have hruns : ¬(!(s.at t).flag rBIST_CTL 0 || isHub p || decide (6 < unit) || (s.at t).inGuard) = true := by
    simp [hon, hcompute, hguard, hunit]
  have hskips : (!(s.at t).flag rBIST_CTL 1 && !(s.at t).inWindow p) = true := by simp [hmode, hwindow]
  exact congrArg _ ((if_neg hruns).trans (if_pos hskips))

theorem exec_selfTestSlice_inside (hwindow : (s.at t).inWindow p = true) (hunit : unit ≤ 6) {v w : State}
    (hv : v = (s.at t).bump rBIST_CNT_SLICE) (hw : w = if unit = 4 then v.spadRepair p (v.fld (rBIST_RESULT + 4) 0 20) else v) :
    exec (.selfTestSlice p unit len steps false t) s = .next (w.testSteps p unit steps len) := by
  have hon : (s.at t).flag rBIST_CTL 0 = true := hon
  have hmode : (s.at t).flag rBIST_CTL 1 = false := hmode
  have hruns : ¬(!(s.at t).flag rBIST_CTL 0 || isHub p || decide (6 < unit) || (s.at t).inGuard) = true := by
    simp [hon, hcompute, hguard, hunit]
  have htests : ¬(!(s.at t).flag rBIST_CTL 1 && !(s.at t).inWindow p) = true := by simp [hwindow]
  subst hw hv
  simp only [exec, execSelfTestSlice, if_neg hruns, if_neg htests]
  simp only [hmode, Bool.not_false, Bool.and_false, Bool.false_eq_true, if_false, if_true]

end

theorem exec_selfTestYield_quadrant {q : Nat} (hcompute : isHub p = false) (hq : q ≤ 3) :
    exec (.selfTestYield p q) s = .next (s.bump rBIST_CNT_YIELD) := by
  have hcounts : ¬(isHub p || decide (3 < q)) = true := by simp [hcompute, hq]
  exact congrArg _ (if_neg hcounts)

/-! ### Analogue checks and ageing (R399, R407) -/

theorem exec_analogCheck_passed (order inst : Nat) (err : BitVec 32) (aux : Nat) : exec (.analogCheck order p inst true err aux) s =
    .next ((s.bump rBIST_CNT_ANALOG).result p 8 0 false (order % 16 + inst % 2 ^ 12 * 2 ^ 4) 0 0) := rfl

theorem exec_analogCheck_supplyFailed (inst : Nat) (err : BitVec 32) (aux : Nat) : exec (.analogCheck 6 p inst false err aux) s =
    .next (((s.bump rBIST_CNT_ANALOG).result p 8 3 false (6 + inst % 2 ^ 12 * 2 ^ 4) err.toNat 0).domBreak inst 0x3341 (domWord inst)
      err.toNat) := rfl

/-- The hours that an ageing update brings are kept. -/
structure Aged (hours therm valve : Nat) (u : State) : Prop where
  hours : u.bist.hours = some hours
  therm : u.bist.therm = some therm
  valve : u.bist.valve = some valve

section
variable {hours therm valve : Nat} (h : Aged hours therm valve s)
include h

theorem Aged.bistFault {code : Nat} (part site d0 d1 : Nat) (hclass : faultClass code = 0) :
    Aged hours therm valve (s.bistFault code part site d0 d1) := by
  rw [State.bistFault, reports_tickFault s part site d0 d1 hclass]
  exact ⟨h.hours, h.therm, h.valve⟩

theorem Aged.notify (kind index sub data : Nat) : Aged hours therm valve (s.notify kind index sub data) := by
  rw [notify_frame]
  exact ⟨h.hours, h.therm, h.valve⟩

end

theorem completes_ageingUpdate (hours therm valve : Nat) (sites : List (Nat × Nat × Nat)) (mons : List (Nat × Nat × Nat × Nat)) :
    Completes (.ageingUpdate hours therm valve sites mons) s (Aged hours therm valve) := by
  show ∃ u, execAgeingUpdate hours therm valve sites mons s = .next u ∧ Aged hours therm valve u
  unfold execAgeingUpdate
  extract_lets aged bound order site fresh mon best base net warn crit old kept warned critical
  have hkept : Aged hours therm valve kept := ⟨rfl, rfl, rfl⟩
  have hwarned : Aged hours therm valve warned := by
    unfold warned
    split
    · exact hkept.bistFault _ _ _ _ (by decide)
    · exact hkept
  have hcritical : Aged hours therm valve critical := by
    unfold critical
    split
    · exact hwarned.bistFault _ _ _ _ (by decide)
    · exact hwarned
  refine ⟨_, rfl, ?_⟩
  split
  · exact hcritical.notify _ _ _ _
  · exact hcritical

end

/-- Settles O52: a slice by whether it runs, and then the analogue checks and the ageing update. -/
theorem selfTests : Obligations.SelfTests := by
  refine fun s p t => ⟨fun unit len steps leaves hoff => ⟨fun hunit => ?_, exec_selfTestSlice_off leaves hoff⟩,
    fun unit len steps leaves hon hmode hcompute hguard hwindow => ⟨fun hle hunit => ?_,
      exec_selfTestSlice_outside hon hmode hcompute hguard leaves hwindow (by decide)⟩,
    fun unit len steps hon hmode hcompute hguard hwindow => ⟨fun hle hunit =>
        exec_selfTestSlice_inside hon hmode hcompute hguard hwindow hle rfl (if_neg hunit).symm,
      fun v hv => exec_selfTestSlice_inside hon hmode hcompute hguard hwindow (by decide) hv rfl⟩,
    fun q => exec_selfTestYield_quadrant, exec_analogCheck_passed, exec_analogCheck_supplyFailed,
    fun hours therm valve sites mons => ?_⟩
  · rw [exec_selfTestSlice_off leaves hoff, State.restOfSlice, if_neg hunit]
  · rw [exec_selfTestSlice_outside hon hmode hcompute hguard leaves hwindow hle, State.restOfSlice, if_neg hunit]
  · obtain ⟨u, hexec, haged⟩ := completes_ageingUpdate (s := s) hours therm valve sites mons
    exact ⟨u, hexec, haged.hours, haged.therm, haged.valve⟩

end Sys2Proof.Machine
end

section
/-! PROOFS. The statements on the redundant pair (chapter 16): its frames, lane-groups and hubs, what accepted frames do, CONTROL
frames, the resynchronisation, and the time limits and commands of the pair. -/

namespace Sys2Proof.Machine

/-! ### Frames in order (R420 to R422) -/

section
variable (s : State)

/-- What an acknowledgement removes from the replay buffers is a matter of the pair alone, and of no SEQ. -/
theorem ackFrames_frame (lane ack : Nat) : s.ackFrames lane ack = { s with pair := (s.ackFrames lane ack).pair } := by
  simp only [State.ackFrames]
  split
  · rfl
  · rfl

theorem rxSeq_ackFrames (lane ack : Nat) : (s.ackFrames lane ack).pair.rxSeq = s.pair.rxSeq := by
  simp only [State.ackFrames]
  split
  · rfl
  · rfl

/-- The state in which a frame with the SEQ expected has been taken from its lane-group. -/
def State.tookFrame (s : State) (h : PairHdr) (t : Nat) : State :=
  let u := (s.at t).ackFrames h.lane h.ack
  { u with pair := { u.pair with rxSeq := mset 0 u.pair.rxSeq h.lane ((mget 0 s.pair.rxSeq h.lane + 1) % 65536) } }

theorem tookFrame_frame (h : PairHdr) (t : Nat) : s.tookFrame h t = { s.at t with pair := (s.tookFrame h t).pair } := by
  unfold State.tookFrame
  rw [ackFrames_frame]

theorem rxSeq_tookFrame (h : PairHdr) (t : Nat) :
    (s.tookFrame h t).pair.rxSeq = mset 0 s.pair.rxSeq h.lane ((mget 0 s.pair.rxSeq h.lane + 1) % 65536) := by
  show mset 0 ((s.at t).ackFrames h.lane h.ack).pair.rxSeq _ _ = _
  rw [rxSeq_ackFrames]
  rfl

theorem reg_tookFrame (h : PairHdr) (t b : Nat) : (s.tookFrame h t).reg b = s.reg b := by
  rw [tookFrame_frame]
  rfl

end

section
variable {s : State} {type : Nat} {h : PairHdr} {t : Nat}

theorem pairRx_damaged (hbad : h.good = false) : s.pairRx type h t = (false, (s.at t).sendNak h.lane h.seq) := by
  simp [State.pairRx, hbad]

section
variable (hgood : h.good = true) (htype : h.type = type)
include hgood htype

theorem pairRx_ahead (hseq : h.seq ≠ mget 0 s.pair.rxSeq h.lane) (hahead : (h.seq + 65536 - mget 0 s.pair.rxSeq h.lane) % 65536 < 32768) :
    s.pairRx type h t = (false, ((s.at t).ackFrames h.lane h.ack).sendNak h.lane (mget 0 s.pair.rxSeq h.lane)) := by
  simp [State.pairRx, hgood, htype, hseq, hahead]

variable (hseq : h.seq = mget 0 s.pair.rxSeq h.lane) (hserial : h.serial = (s.reg rPAIR_PARTNER).toNat) (hepoch : h.epoch = s.epoch)
include hseq hserial hepoch

/-- A frame with the SEQ, the SERIAL and the EPOCH expected is taken; what it answers depends on whether it is the last of its
message, and whether its message is of the panel. -/
theorem pairRx_inOrder : s.pairRx type h t =
    if !h.last then (false, s.tookFrame h t)
    else if h.panel && type != 10 then
      if mget 0 (s.tookFrame h t).pair.lastPanel type = h.stroke + 1 then (false, s.tookFrame h t)
      else (true, { s.tookFrame h t with
        pair := { (s.tookFrame h t).pair with lastPanel := mset 0 (s.tookFrame h t).pair.lastPanel type (h.stroke + 1) } })
    else (true, s.tookFrame h t) := by
  have hmine : ¬(((s.tookFrame h t).reg rPAIR_PARTNER).toNat ≠ 0 ∧ h.serial ≠ ((s.tookFrame h t).reg rPAIR_PARTNER).toNat) := by
    rw [reg_tookFrame]
    exact fun hother => hother.2 hserial
  have hsame : (s.tookFrame h t).epoch = h.epoch := by rw [hepoch, State.epoch, State.fld, reg_tookFrame]; rfl
  have hold : ¬(type ≠ 1 ∧ h.epoch < (s.tookFrame h t).epoch ∧
      (!((s.tookFrame h t).role == 1 && (s.tookFrame h t).resyncing != 0)) = true) := by simp [hsame]
  have hnewer : ¬(type ≠ 1 ∧ (s.tookFrame h t).epoch < h.epoch ∧ (!(s.tookFrame h t).pair.joiner) = true) := by simp [hsame]
  have hgood : ¬(!h.good) = true := by simp [hgood]
  exact (if_neg hgood).trans ((if_neg (not_not.2 htype)).trans ((if_neg (not_not.2 hseq)).trans ((if_neg hmine).trans
    ((if_neg hold).trans (if_neg hnewer)))))

theorem pairRx_last (hlast : h.last = true) (hpanel : h.panel = false) : s.pairRx type h t = (true, s.tookFrame h t) := by
  simp [pairRx_inOrder hgood htype hseq hserial hepoch, hlast, hpanel]

theorem pairRx_notLast (hlast : h.last = false) : s.pairRx type h t = (false, s.tookFrame h t) := by
  simp [pairRx_inOrder hgood htype hseq hserial hepoch, hlast]

theorem pairRx_frame : (s.pairRx type h t).2 = { s.at t with pair := (s.pairRx type h t).2.pair } := by
  rw [pairRx_inOrder hgood htype hseq hserial hepoch]
  split_ifs
  · exact tookFrame_frame s h t
  · exact tookFrame_frame s h t
  · dsimp only
    rw [tookFrame_frame]
  · exact tookFrame_frame s h t

end
end

/-- Settles O53: a frame in order is taken, by whether it is the last of its message; the other two have laws of their own. -/
theorem pairFramesInOrder : Obligations.PairFramesInOrder := by
  refine fun s type h t => ⟨fun hgood htype hseq hserial hepoch => ⟨fun hlast hpanel => ?_, fun hlast => ?_, fun hpanel => ?_,
      pairRx_frame hgood htype hseq hserial hepoch⟩, pairRx_ahead, pairRx_damaged⟩
  · rw [pairRx_last hgood htype hseq hserial hepoch hlast hpanel]
  · rw [pairRx_notLast hgood htype hseq hserial hepoch hlast]
  · have htaken : (s.pairRx type h t).2 = s.tookFrame h t := by
      cases hlast : h.last with
      | true => rw [pairRx_last hgood htype hseq hserial hepoch hlast hpanel]
      | false => rw [pairRx_notLast hgood htype hseq hserial hepoch hlast]
    rw [htaken, rxSeq_tookFrame, hseq]

/-! ### Lane-groups and hubs (R405, R418, R421) -/

section
variable {s : State} {lane t : Nat}

theorem exec_pairLaneUp_already (hup : lane ∈ s.lanesUp) : exec (.pairLaneUp lane t) s = .next (s.at t) := by
  have hup : (s.at t).lanesUp.contains lane = true := List.contains_iff_mem.2 hup
  exact congrArg _ (if_pos (.inr (.inl hup)))

theorem completes_pairLaneUp (hlane : lane ≤ 3) (hdown : lane ∉ s.lanesUp) (hon : s.domOn (420 + lane) = true)
    (hhub : bit s.boot.hubLost lane = false) : Completes (.pairLaneUp lane t) s (fun u =>
      u.pair.txSeq = mset 0 s.pair.txSeq lane 0 ∧ u.pair.rxSeq = mset 0 s.pair.rxSeq lane 0 ∧
      (∀ b, b ≠ rPAIR_STATUS → u.reg b = s.reg b) ∧ u = { s.at t with regs := u.regs, pair := u.pair }) := by
  have hcomes : ¬(3 < lane ∨ (s.at t).lanesUp.contains lane = true ∨ (!(s.at t).domOn (420 + lane)) = true ∨
      bit (s.at t).boot.hubLost lane = true) := by
    rintro (hpast | hup | hoff | hlost)
    · omega
    · exact hdown (List.contains_iff_mem.1 hup)
    · have hon : (s.at t).domOn (420 + lane) = true := hon
      simp [hon] at hoff
    · exact Bool.false_ne_true (hhub.symm.trans hlost)
  have hexec : exec (.pairLaneUp lane t) s = .next _ := congrArg Host.Outcome.next (if_neg hcomes)
  refine ⟨_, hexec, rfl, rfl, fun b hb => ?_, rfl⟩
  exact reg_setFld_other (s.at t) rPAIR_STATUS b 4 4 _ hb

theorem exec_pairNak_accepted {h : PairHdr} {u : State} (seq : Nat) (hrx : s.pairRx 10 h t = (true, u)) :
    exec (.pairNak h seq t) s = .next (u.replayFrom h.lane seq) := by
  simp [exec, execPairNak, hrx]

section
variable {f : PairFrame} {v : State} (hframe : s.pair.frames.find? (fun f => f.lane == lane) = some f) (hup : lane ∈ s.lanesUp)
  (hv : v = ({ ((s.at t).emit (.pair lane f.type f.body)).bump rPAIR_CNT_REPLAY with
    pair := { s.pair with replays := mset 0 s.pair.replays lane (mget 0 s.pair.replays lane + 1) } } : State))
include hframe hup hv

/-- The oldest frame of a lane-group that is up is sent again, and the eighth time in succession takes the lane-group down. -/
theorem exec_pairReplayTimeout_frame : exec (.pairReplayTimeout lane t) s =
    .next (if 8 ≤ mget 0 s.pair.replays lane + 1 then v.laneDown lane 1 else v) := by
  have hup : s.lanesUp.contains lane = true := List.contains_iff_mem.2 hup
  have hdown : ¬(!(s.at t).lanesUp.contains lane) = true := by
    show ¬(!s.lanesUp.contains lane) = true
    rw [hup]
    decide
  subst hv
  simp only [exec, execPairReplayTimeout, State.at_frame, hframe, if_neg hdown]
  rfl

theorem exec_pairReplayTimeout_again (hfew : mget 0 s.pair.replays lane < 7) : exec (.pairReplayTimeout lane t) s = .next v := by
  rw [exec_pairReplayTimeout_frame hframe hup hv, if_neg (by omega)]

theorem exec_pairReplayTimeout_eighth (hmany : 7 ≤ mget 0 s.pair.replays lane) :
    exec (.pairReplayTimeout lane t) s = .next (v.laneDown lane 1) := by
  rw [exec_pairReplayTimeout_frame hframe hup hv, if_pos (by omega)]

end
end

section
variable {s : State} {h cause d t : Nat}

theorem exec_hubLost_again (hlost : bit s.boot.hubLost h = true) : exec (.hubLost h cause d t) s = .next (s.at t) :=
  congrArg _ (if_pos (.inr (.inr hlost)))

section
variable (hcause : cause ≤ 1) (hfirst : bit s.boot.hubLost h = false)
include hcause hfirst

theorem exec_hubLost_inner (hinner : h = 1 ∨ h = 2) :
    exec (.hubLost h cause d t) s = .next (((s.at t).hubLost h cause d).laneDown h 3) := by
  have hlost : ¬(3 < h ∨ 1 < cause ∨ bit (s.at t).boot.hubLost h = true) := by
    rintro (hpast | hother | hagain)
    · omega
    · omega
    · exact Bool.false_ne_true (hfirst.symm.trans hagain)
  have hports (p : Prop) : ¬((h = 0 ∨ h = 3) ∧ p) := by omega
  simp only [exec, execHubLost, if_neg hlost, if_neg (hports _)]

theorem exec_hubLost_first (hzero : h = 0) (hport : ((s.at t).hubLost h cause d).wglPort 0 ≠ 0) : exec (.hubLost h cause d t) s =
    .next (((((s.at t).hubLost 0 cause d).setFld rGLB_WGL_STAT 0 2 0).wglFault 0x0385 (hubSite 0) 0 0).laneDown 0 3) := by
  subst hzero
  have hlost : ¬(3 < 0 ∨ 1 < cause ∨ bit (s.at t).boot.hubLost 0 = true) := by
    rintro (hpast | hother | hagain)
    · omega
    · omega
    · exact Bool.false_ne_true (hfirst.symm.trans hagain)
  have hwaggle : ((0 = 0 ∨ 0 = 3) ∧ ((s.at t).hubLost 0 cause d).wglPort (if 0 = 3 then 1 else 0) ≠ 0) := ⟨.inl rfl, hport⟩
  exact congrArg Host.Outcome.next ((if_neg hlost).trans (congrArg (State.laneDown · 0 3) (if_pos hwaggle)))

end
end

/-- Settles O54: the lane-groups by their laws, and then the hubs by which hub is lost and whether it is lost already. -/
theorem pairLanesAndHubs : Obligations.PairLanesAndHubs :=
  ⟨fun _ _ _ => ⟨fun _ => rfl, completes_pairLaneUp, exec_pairLaneUp_already, fun _ seq _ => exec_pairNak_accepted seq,
      fun _ _ hframe hup hv => ⟨exec_pairReplayTimeout_again hframe hup hv, exec_pairReplayTimeout_eighth hframe hup hv⟩⟩,
    fun _ _ _ _ _ hcause => ⟨exec_hubLost_again, fun hinner hfirst => exec_hubLost_inner hcause hfirst hinner,
      fun hzero hfirst => exec_hubLost_first hcause hfirst hzero⟩⟩

end Sys2Proof.Machine
end

section
/-! PROOFS. What accepted frames of the pair do, its CONTROL frames and resynchronisation, and its time limits and commands
(chapter 16). -/

namespace Sys2Proof.Machine

/-! ### Accepted frames (R424 to R442) -/

section
variable {s u : State} {h : PairHdr} {t : Nat}

theorem exec_pairHello_accepted {b : HelloArg} (hrx : s.pairRx 1 h t = (true, u)) (hsends : u.sendsHello = true) :
    exec (.pairHello h b t) s = .next (u.meetHello h b) := by
  simp [exec, execPairHello, hrx, hsends]

theorem exec_pairHeartbeat_accepted {role : Nat} {quads : List Nat} {skew : Int} (hrx : s.pairRx 2 h t = (true, u)) (hrole : role < 4)
    (hskew : skew.natAbs ≤ 20000) : exec (.pairHeartbeat h role quads skew t) s = .next (({ u with
      pair := { u.pair with
        seen := u.pair.seen || h.epoch == u.epoch,
        quads := (List.range 16).foldl (fun (m : SMap Nat) n => mset 0 m n (quads.getD n 0)) u.pair.quads } } : State).setReg rPAIR_SKEW
      (BitVec.ofNat 64 (unsigned 32 skew))) := by
  simp only [exec, execPairHeartbeat, hrx, hrole, decide_true, Bool.and_self, if_true, Nat.not_lt.2 hskew, false_and, if_false]

theorem exec_pairIngest_accepted {a : IngestArg} (hrx : s.pairRx 3 h t = (true, u)) (hmirror : u.mirrored = true) (hrole : u.role = 2)
    (hbegun : (u.part h.part).inStroke = true) (hphase : (u.part h.part).phase = 0) (hunformed : (u.part h.part).formed = false)
    (hstroke : (u.part h.part).stroke.toNat = h.stroke) (hpower : u.inp.failing = false) :
    exec (.pairIngest h a t) s = .next (u.applyIngest h.part a) := by
  simp [exec, execPairIngest, hrx, hmirror, hrole, hbegun, hphase, hunformed, hstroke, hpower]

theorem exec_pairPace_accepted {entry : Nat} {hold : Bool} (hrx : s.pairRx 4 h t = (true, u)) (hmirror : u.mirrored = true) :
    exec (.pairPace h entry hold t) s = .next (((u.updPp h.part (fun x => { x with
      pace := some (entry, hold), paceNow := true })).lowerTo h.part entry).holdWith h.part hold) := by
  simp only [exec, execPairPace, hrx, hmirror, Bool.and_self, if_true]

theorem exec_pairEnd_accepted {a : EndArg} (hrx : s.pairRx 5 h t = (true, u)) (hmirror : u.mirrored = true) : exec (.pairEnd h a t) s =
    .next ((u.updPp h.part (fun x => { x with peerEnd := some (h.stroke, a) })).tryFinish h.part) := by
  simp only [exec, execPairEnd, hrx, hmirror, Bool.and_self, if_true]

theorem exec_pairDelta_accepted {a : DeltaArg} (hrx : s.pairRx 6 h t = (true, u)) (hshare : u.shared = true)
    (hstandby : u.standbyPart h.part = true) (hpart : (u.part h.part).st ≠ .unconfigured) : exec (.pairDelta h a t) s =
      .next ((u.applyDelta h.part a).1.pairSend 7 (some h.part) (bigBytes 8 h.stroke ++ bigBytes 4 (u.applyDelta h.part a).2.length ++
        (u.applyDelta h.part a).2.flatMap (bigBytes 4))) := by
  simp only [exec, execPairDelta, hrx, hshare, hstandby, bne_iff_ne.2 hpart, Bool.and_self, if_true]

theorem exec_pairDeltaAck_accepted (hrx : s.pairRx 7 h t = (true, u)) (hshare : u.shared = true) (hserves : u.servesPart h.part = true) :
    exec (.pairDeltaAck h [] t) s =
      .next ((u.updPp h.part (fun x => { x with acked := some h.stroke, unprot := [] })).tryFinish h.part) := by
  simp only [exec, execPairDeltaAck, hrx, hshare, hserves, Bool.and_self, if_true]

section
variable {v : BitVec 256} {planes : List Nat} {len : Nat} (hrx : s.pairRx 11 h t = (true, u))
include hrx

theorem exec_pairVector_valid (hvalid : hdrFail v.toNat planes len = none) :
    exec (.pairVector h v planes len t) s = .next (u.emit (.vector (hubSite h.lane) v.toNat planes)) := by
  simp only [exec, execPairVector, hrx, hvalid, if_true]

theorem exec_pairVector_invalid {f : Nat} (hinvalid : hdrFail v.toNat planes len = some f) :
    exec (.pairVector h v planes len t) s = .next (u.badVector h.part (hubSite h.lane) v.toNat 4 f) := by
  simp only [exec, execPairVector, hrx, hinvalid, if_true]

end
end

/-- Settles O55: one law for each type of frame. -/
theorem pairFramesAct : Obligations.PairFramesAct := fun _ _ _ _ =>
  ⟨fun _ => exec_pairHello_accepted, fun _ _ _ => exec_pairHeartbeat_accepted, fun _ => exec_pairIngest_accepted,
    fun _ _ => exec_pairPace_accepted, fun _ => exec_pairEnd_accepted, fun _ => exec_pairDelta_accepted, exec_pairDeltaAck_accepted,
    fun _ _ _ hrx => ⟨exec_pairVector_valid hrx, fun _ => exec_pairVector_invalid hrx⟩⟩

/-! ### CONTROL frames (R422, R426, R432, R435, R442) -/

section
variable {s u : State} {h : PairHdr} {t : Nat}

section
variable (hrx : s.pairRx 8 h t = (true, u))
include hrx

theorem exec_controlReset_mirrored (hmirror : (u.recControl 1 h).mirrored = true)
    (hrun : ((u.recControl 1 h).part h.part).st = .running) : exec (.controlReset h t) s =
      .next (((u.recControl 1 h).resetPart h.part 0).updPp h.part (fun x => { x with told := true })) := by
  simp [exec, execControlReset, hrx, hmirror, hrun]

theorem exec_controlQuarantine_accepted : exec (.controlQuarantine h t) s = .next ((u.recControl 2 h).quarantine h.epoch) := by
  simp only [exec, execControlQuarantine, hrx, if_true]

theorem exec_controlLeave_accepted :
    exec (.controlLeave h t) s = .next (((u.recControl 3 h).setEpoch (u.epoch + 1)).leavePair) := by
  simp only [exec, execControlLeave, hrx, if_true]

theorem completes_controlUpdate (banks sets : List (Nat × Nat)) :
    Completes (.controlUpdate h banks sets t) s (fun v => (h.part, banks, sets) ∈ v.pair.want) := by
  simp only [Completes, exec, execControlUpdate, hrx, if_true]
  exact ⟨_, rfl, List.mem_append_right _ (List.mem_singleton_self _)⟩

end

theorem exec_control_refused (hrx : s.pairRx 8 h t = (false, u)) : exec (.controlQuarantine h t) s = .next u ∧
    exec (.controlLeave h t) s = .next u ∧ exec (.controlReset h t) s = .next u := by
  simp [exec, execControlQuarantine, execControlLeave, execControlReset, hrx]

/-! ### The resynchronisation (R440) -/

section
variable (hrole : s.role ≠ 1) (hrx : s.pairRx 9 h t = (true, u)) (hjoiner : u.pair.joiner = true)
include hrole hrx hjoiner

theorem exec_pairResync_joiner {phase : Nat} {items : List SyncItem} (hpast : 2 ≤ phase) (hphase : phase ≤ 4) :
    exec (.pairResync h phase items t) s = .next (items.foldl (fun (v : State) x => v.putItem x) (u.setFld rPAIR_STATUS 12 3 phase)) := by
  have hlate : phase ≠ 1 := by omega
  simp [exec, execPairResync, hrole, hrx, hjoiner, Nat.one_le_of_lt hpast, hphase, hlate]

theorem exec_pairResyncDone_joiner (hsync : u.resyncing ≠ 0) (hmode : u.modeNow ≠ 1) : exec (.pairResyncDone h [] t) s =
    .next (((u.setRole 2).lockStep).pairFault 0x0441 (2 + ((u.setRole 2).lockStep).modeNow * 4) ((u.setRole 2).lockStep).epoch) := by
  simp [exec, execPairResyncDone, hrole, hrx, hjoiner, hsync, hmode]

end

section
variable (hrole : s.role = 1)
include hrole

theorem exec_pairResync_primary {phase : Nat} {items : List SyncItem} (hsync : s.resyncing ≠ 0) (hphase : s.resyncing ≤ phase)
    (hlast : phase ≤ 3) : exec (.pairResync h phase items t) s = .next ((s.at t).sendPhase phase []) := by
  have hsends : (s.at t).resyncing ≠ 0 ∧ (s.at t).resyncing ≤ phase ∧ phase ≤ 3 := ⟨hsync, hphase, hlast⟩
  simp only [exec, execPairResync, if_pos hrole, if_pos hsends]

theorem exec_pairResyncDone_primary {strokes : List (Nat × Nat)} (hsync : s.resyncing = 2 ∨ s.resyncing = 3) :
    exec (.pairResyncDone h strokes t) s =
      .next (((s.at t).sendPhase 4 ((s.at t).suppliedParts.length :: (s.at t).suppliedParts.flatMap
        (fun n => n :: bigBytes 8 (s.part n).stroke.toNat))).lockStep) := by
  have hsync : (s.at t).resyncing = 2 ∨ (s.at t).resyncing = 3 := hsync
  simp only [exec, execPairResyncDone, if_pos hrole, if_pos hsync]
  rfl

end
end

/-! ### Time limits and commands of the pair (R425 to R431, R442) -/

section
variable {s : State} {n t : Nat}

theorem exec_pairPartnerDead_missed (hmissed : s.partnerMissed = true) : exec (.pairPartnerDead t) s = .next (s.at t).partnerDead := by
  have hmissed : (s.at t).partnerMissed = true := hmissed
  simp only [exec, execPairPartnerDead, if_pos hmissed]

theorem exec_pairPartnerDead_heard (hheard : s.partnerMissed = false) : exec (.pairPartnerDead t) s = .next (s.at t) := by
  have hheard : (s.at t).partnerMissed = false := hheard
  simp [exec, execPairPartnerDead, hheard]

section
variable (hmirror : s.mirrored = true) (hbegun : (s.part n).inStroke = true) (hphase : (s.part n).phase = 0)
include hmirror hbegun hphase

theorem exec_ingestWait_missing (hrole : s.role = 2) (hunformed : (s.part n).formed = false)
    (hdue : s.ingestNs ≤ (s.at t).sinceEdge + 9000) : exec (.ingestWait n t) s =
      .next ((((s.at t).updPart n (fun p => { p with
        stroke := p.stroke - 1, inStroke := false, phase := 4, slipDepth := p.slipDepth + 1, waits := p.waits + 1 }))).bump
        rPAIR_CNT_PWAIT) := by
  have hwaits : ((s.at t).mirrored && (s.at t).role == 2 && ((s.at t).part n).inStroke && ((s.at t).part n).phase == 0 &&
      !((s.at t).part n).formed && decide ((s.at t).ingestNs ≤ (s.at t).sinceEdge + 9000)) = true := by
    have hdue : decide ((s.at t).ingestNs ≤ (s.at t).sinceEdge + 9000) = true := decide_eq_true hdue
    rw [hdue]
    show (s.mirrored && s.role == 2 && (s.part n).inStroke && (s.part n).phase == 0 && !(s.part n).formed && true) = true
    simp [hmirror, hrole, hbegun, hphase, hunformed]
  simp only [exec, execIngestWait, if_pos hwaits]

theorem exec_paceTimeout_missing {x : Nat × Bool} (hmissing : (s.pp n).paceNow = false) (hpace : (s.pp n).pace = some x) :
    exec (.paceTimeout n t) s = .next (((s.at t).lowerTo n (x.1 - 1)).updPp n (fun z => { z with paceNow := true })) := by
  have hwaits : ((s.at t).mirrored && ((s.at t).part n).inStroke && ((s.at t).part n).phase == 0 && !((s.at t).pp n).paceNow) = true := by
    show (s.mirrored && (s.part n).inStroke && (s.part n).phase == 0 && !(s.pp n).paceNow) = true
    simp [hmirror, hbegun, hphase, hmissing]
  have hpace : ((s.at t).pp n).pace = some x := hpace
  simp only [exec, execPaceTimeout, if_pos hwaits, hpace]

end

/-! A word of PAIR_CMD is judged by its reserved bits and its command. -/

theorem pairCmd_rejoin : s.pairCmd 0x01000000 =
    if s.role = 3 then { s with pair := { s.pair with hello := true } } else s.sticky rPAIR_STATUS 31 := by
  simp [State.pairCmd, bits]

theorem pairCmd_leave : s.pairCmd 0x02000000 = (if s.role = 3 then s else s.sendControl none 3 []).leavePair := by
  simp [State.pairCmd, bits]

section
variable (hready : s.ready = true)
include hready

theorem ready_at : ¬(!(s.at t).ready) = true := by
  show ¬(!s.ready) = true
  simp [hready]

theorem exec_pairRejoin : exec (.pairRejoin 0x01000000 t) s = .next ((s.at t).pairCmd 0x01000000) := by
  exact congrArg Host.Outcome.next ((if_neg (ready_at hready)).trans (if_pos (by decide)))

theorem exec_pairLeave : exec (.pairLeave 0x02000000 t) s = .next ((s.at t).pairCmd 0x02000000) := by
  exact congrArg Host.Outcome.next ((if_neg (ready_at hready)).trans (if_pos (by decide)))

theorem exec_pairRejoin_quarantined (hrole : s.role = 3) :
    exec (.pairRejoin 0x01000000 t) s = .next { s.at t with pair := { s.pair with hello := true } } := by
  rw [exec_pairRejoin hready, pairCmd_rejoin]
  exact congrArg Host.Outcome.next (if_pos hrole)

theorem exec_pairRejoin_elsewhere (hrole : s.role ≠ 3) :
    exec (.pairRejoin 0x01000000 t) s = .next ((s.at t).sticky rPAIR_STATUS 31) := by
  rw [exec_pairRejoin hready, pairCmd_rejoin]
  exact congrArg Host.Outcome.next (if_neg hrole)

theorem exec_pairLeave_member (hrole : s.role ≠ 3) :
    exec (.pairLeave 0x02000000 t) s = .next ((s.at t).sendControl none 3 []).leavePair := by
  rw [exec_pairLeave hready, pairCmd_leave]
  exact congrArg (fun v : State => Host.Outcome.next v.leavePair) (if_neg hrole)

theorem exec_pairLeave_quarantined (hrole : s.role = 3) : exec (.pairLeave 0x02000000 t) s = .next (s.at t).leavePair := by
  rw [exec_pairLeave hready, pairCmd_leave]
  exact congrArg (fun v : State => Host.Outcome.next v.leavePair) (if_pos hrole)

theorem exec_pairCtlWrite (w : BitVec 32) : exec (.pairCtlWrite w t) s = .next ((s.at t).pairCtl w.toNat) := by
  exact congrArg Host.Outcome.next (if_neg (ready_at hready))

end

theorem pairCtl_locked {w : Nat} (hlock : s.locked = true) : s.pairCtl w = s.lockViol := if_pos hlock

section
variable {w : Nat} (hopen : s.locked = false)
include hopen

theorem pairCtl_busy (hbusy : s.allIdle = false) : s.pairCtl w = s.sticky rPAIR_STATUS 30 := by
  simp [State.pairCtl, hopen, hbusy]

theorem pairCtl_idle (hidle : s.allIdle = true) : s.pairCtl w = s.writeSettings rPAIR_CTL w := by
  simp [State.pairCtl, hopen, hidle]

end

theorem exec_pairCtlWrite_cases (hready : s.ready = true) (w : BitVec 32) :
    (s.locked = true → exec (.pairCtlWrite w t) s = .next (s.at t).lockViol) ∧
    (s.locked = false → s.allIdle = false → exec (.pairCtlWrite w t) s = .next ((s.at t).sticky rPAIR_STATUS 30)) ∧
    (s.locked = false → s.allIdle = true → exec (.pairCtlWrite w t) s = .next ((s.at t).writeSettings rPAIR_CTL w.toNat)) := by
  rw [exec_pairCtlWrite hready]
  exact ⟨fun hlock => congrArg _ (pairCtl_locked (s := s.at t) hlock),
    fun hopen hbusy => congrArg _ (pairCtl_busy (s := s.at t) hopen hbusy),
    fun hopen hidle => congrArg _ (pairCtl_idle (s := s.at t) hopen hidle)⟩

end

/-- Settles O56: the frames by whether they are accepted and by the role, then the time limits and the words written. -/
theorem pairControlAndCommands : Obligations.PairControlAndCommands :=
  ⟨fun _ _ _ _ => ⟨fun hrx => ⟨exec_controlReset_mirrored hrx, exec_controlQuarantine_accepted hrx, exec_controlLeave_accepted hrx,
        completes_controlUpdate hrx⟩, exec_control_refused,
      fun _ _ hrole hrx hjoiner => exec_pairResync_joiner hrole hrx hjoiner, fun _ _ hrole => exec_pairResync_primary hrole,
      fun _ hrole => exec_pairResyncDone_primary hrole, exec_pairResyncDone_joiner⟩,
    fun _ _ _ => ⟨exec_pairPartnerDead_missed, exec_pairPartnerDead_heard,
      fun hmirror hrole hbegun hphase => exec_ingestWait_missing hmirror hbegun hphase hrole,
      fun _ hmirror hbegun hphase => exec_paceTimeout_missing hmirror hbegun hphase,
      fun hready => ⟨exec_pairRejoin_quarantined hready, exec_pairRejoin_elsewhere hready, exec_pairLeave_member hready,
        exec_pairLeave_quarantined hready, exec_pairCtlWrite_cases hready⟩⟩⟩

end Sys2Proof.Machine
end

section
/-! PROOFS. The statements on recording and replay (chapter 17) and on test access (R387, R458, R459). -/

namespace Sys2Proof.Machine

/-! ### Recording and replay (R449 to R456) -/

section
variable {s : State} {n : Nat} {w : BitVec 32}

section
variable (hready : s.ready = true)
include hready

theorem exec_recordStart_record (hmode : bits w.toNat 0 2 = 1) : exec (.recordStart n w) s = .next (s.writeRplCtl n w.toNat) := by
  simp [exec, execRecordStart, hready, hmode]

theorem exec_replayStart_replay (hmode : bits w.toNat 0 2 = 2) : exec (.replayStart n w) s = .next (s.writeRplCtl n w.toNat) := by
  simp [exec, execReplayStart, hready, hmode]

theorem exec_recordStop_off (hmode : bits w.toNat 0 2 = 0 ∨ bits w.toNat 0 2 = 3) :
    exec (.recordStop n w) s = .next (s.writeRplCtl n w.toNat) := by
  simp only [exec, execRecordStop, hready, if_pos hmode, Bool.not_true, Bool.false_eq_true, if_false]

theorem exec_rplHeadWrite_replaying (hmode : (s.recOf n).mode = 2) : exec (.rplHeadWrite n w) s = .next s := by
  simp [exec, execRplHeadWrite, hready, hmode]

theorem exec_rplHeadWrite_host (hmode : (s.recOf n).mode ≠ 2) (hroom : (s.recOf n).waiting = false) :
    exec (.rplHeadWrite n w) s = .next (s.setFld (rplReg n rRPL_HEAD) 0 25 (bits w.toNat 0 25)) := by
  have hroom : ((s.setFld (rplReg n rRPL_HEAD) 0 25 (bits w.toNat 0 25)).recOf n).waiting = false := hroom
  simp [exec, execRplHeadWrite, hready, hmode, hroom]

theorem exec_rplTailWrite_recording (hmode : (s.recOf n).mode = 1) : exec (.rplTailWrite n w) s = .next s := by
  simp [exec, execRplTailWrite, hready, hmode]

theorem exec_rplTailWrite_host (hmode : (s.recOf n).mode ≠ 1) :
    exec (.rplTailWrite n w) s = .next (s.setFld (rplReg n rRPL_TAIL) 0 25 (bits w.toNat 0 25)) := by
  simp [exec, execRplTailWrite, hready, hmode]

end
end

section
variable {s : State} {n t : Nat}

/-- Units that stand in the ring of a partition, from HEAD to TAIL. -/
def State.ringHolds (s : State) (n : Nat) : Nat :=
  (s.fld (rplReg n rRPL_TAIL) 0 25 + s.ringUnits n - s.fld (rplReg n rRPL_HEAD) 0 25 % s.ringUnits n) % s.ringUnits n

theorem exec_replayStroke_notTaken {es : List RecEntry}
    (hnot : (s.recOf n).diverged = true ∨ s.ringHolds n < (es.map RecEntry.units).foldl (· + ·) 0) :
    exec (.replayStroke n es t) s = .next (s.at t) := by
  refine congrArg Host.Outcome.next (if_pos ?_)
  show (((s.recOf n).mode != 2 && (s.recOf n).req != some 2) || (s.recOf n).diverged || (s.recOf n).rStroke.isSome ||
    decide (s.ringHolds n < (es.map RecEntry.units).foldl (· + ·) 0) || !(es.any (fun e => e.kind == 2))) = true
  obtain hdiverged | hshort := hnot
  · simp [hdiverged]
  · simp [hshort]

/-- A replay that is under way takes a STROKE entry that the ring holds whole. -/
theorem exec_replayStroke_taken {e : RecEntry} (hmode : (s.recOf n).mode = 2) (hreq : (s.recOf n).req = none)
    (hseq : (s.recOf n).seq ≠ 0) (hdiverged : (s.recOf n).diverged = false) (hnone : (s.recOf n).rStroke = none) (hkind : e.kind = 2)
    (hvalid : entryFails e = none) (hholds : e.units ≤ s.ringHolds n) : exec (.replayStroke n [e] t) s =
      .next ((((s.at t).setFld (rplReg n rRPL_HEAD) 0 25
        ((s.fld (rplReg n rRPL_HEAD) 0 25 + e.units) % s.ringUnits n)).bumpBy rRPL_CNT_ENTRY 1).updRec n
          (fun r => { r with seq := if r.req = some 2 then r.seq else r.seq + 1 })|>.updRec n (fun r => r.take e)) := by
  have hreads : ¬((((s.at t).recOf n).mode != 2 && ((s.at t).recOf n).req != some 2) || ((s.at t).recOf n).diverged ||
      ((s.at t).recOf n).rStroke.isSome || decide ((s.at t).ringHolds n < ([e].map RecEntry.units).foldl (· + ·) 0) ||
      !([e].any (fun e => e.kind == 2))) = true := by
    show ¬(((s.recOf n).mode != 2 && (s.recOf n).req != some 2) || (s.recOf n).diverged || (s.recOf n).rStroke.isSome ||
      decide (s.ringHolds n < ([e].map RecEntry.units).foldl (· + ·) 0) || !([e].any (fun e => e.kind == 2))) = true
    simp [hmode, hdiverged, hnone, hkind, Nat.not_lt.2 hholds]
  have hlater (b : Bool) : ¬((((s.at t).recOf n).req == some 2 || ((s.at t).recOf n).seq == 0) && b) = true := by
    show ¬(((s.recOf n).req == some 2 || (s.recOf n).seq == 0) && b) = true
    simp [hreq, hseq]
  have hpass : [e].findSome? entryFails = none := by simp [hvalid]
  have hunits : ([e].map RecEntry.units).foldl (· + ·) 0 = e.units := Nat.zero_add _
  refine congrArg Host.Outcome.next ((if_neg hreads).trans ((if_neg (hlater _)).trans ?_))
  rw [hpass, hunits]
  rfl

end

/-- Settles O57: one law for each way in which a command of the record ring goes. -/
theorem recordAndReplay : Obligations.RecordAndReplay := fun _ _ _ _ hready =>
  ⟨exec_recordStart_record hready, exec_replayStart_replay hready, exec_recordStop_off hready, exec_rplHeadWrite_replaying hready,
    exec_rplHeadWrite_host hready, exec_rplTailWrite_recording hready, exec_rplTailWrite_host hready,
    fun _ => exec_replayStroke_notTaken, fun _ => exec_replayStroke_taken⟩

/-! ### Test access (R387, R458, R459) -/

section
variable {s : State} {ir outs t : Nat} {f : State → State}

/-- A gated instruction is carried out when test access is enabled. -/
theorem loadGated_enabled (hen : s.tapEn = true) : s.loadGated ir outs f = f (s.setIr ir outs) := if_pos hen

theorem loadGated_refused (hoff : s.tapEn = false) : s.loadGated ir outs f = (s.sticky rRPL_TAP_STAT 8).setIr 0xFF 0 := by
  simp [State.loadGated, hoff]

theorem completes_samplePreload (pins : Nat) (load : Option Nat) : Completes (.samplePreload pins load) s (fun u =>
    u.rcd.bsr = load.getD pins ∧ u.rcd.ir = 2 ∧ u.rcd.outs = 0) := ⟨_, rfl, rfl, rfl, rfl⟩

section
variable (hen : s.tapEn = true)
include hen

theorem completes_scan (hubs : Nat) :
    Completes (.scan hubs) s (fun u => u.rcd.scanned = s.rcd.scanned ||| hubs % 16 ∧ u.rcd.ir = 0x20) :=
  ⟨_, congrArg Host.Outcome.next (loadGated_enabled hen), rfl, rfl⟩

theorem completes_debug_resume (core : Nat) :
    Completes (.debug core false t) s (fun u => core ∉ u.rcd.halted ∧ u.rcd.ir = 0x10) := by
  have hen : (s.at t).tapEn = true := hen
  refine ⟨_, congrArg Host.Outcome.next (loadGated_enabled hen), ?_, rfl⟩
  show core ∉ s.rcd.halted.filter (fun k => k != core)
  simp

theorem exec_debug_halt (core : Nat) : exec (.debug core true t) s = .next (({ (s.at t).setIr 0x10 0 with
    rcd := { ((s.at t).setIr 0x10 0).rcd with halted := core :: s.rcd.halted.filter (fun k => k != core) } }.setFld rRPL_TAP_STAT 9 1
      1).debugTouch (core / 8) 0x10 (core % 8)) := by
  have hen : (s.at t).tapEn = true := hen
  exact congrArg Host.Outcome.next (loadGated_enabled hen)

section
variable {a : BitVec 48} {len : Nat} {d : BitVec 512} {e : MemErr} {v u : State} (hv : v = (s.at t).setIr 0x11 0)
  (hrange : v.rangeBad a.toNat len false = false) (hspad : addrSpace a.toNat = 0 → addrOfs a.toNat + len ≤ 2 ^ 26)
  (hu : u = v.memErrs (v.owner (addrSite a.toNat)) (addrSite a.toNat) 0x3FFF e)
include hv hrange hspad hu

/-- MEM goes to an address that is in range and, in a scratchpad, does not pass its end. -/
theorem exec_mem_inRange (write : Bool) : exec (.mem write a len d e t) s =
    .next (if write then u.memWrite a.toNat len (d.toNat % 2 ^ (8 * len)) else u.memRead a.toNat len) := by
  have hen : (s.at t).tapEn = true := hen
  have hin : ¬(v.rangeBad a.toNat len false || (addrSpace a.toNat == 0 && decide (2 ^ 26 < addrOfs a.toNat + len))) = true := by
    simpa [hrange] using hspad
  subst hu hv
  exact congrArg Host.Outcome.next ((loadGated_enabled hen).trans (if_neg hin))

end

end

/-- A gated instruction that is not enabled acts as BYPASS and sets GATED. -/
theorem exec_gated_refused (hoff : s.tapEn = false) (c : Instr) (hc : c ∈ [Instr.extest, .clamp, .highz, .scan 0]) :
    exec c s = .next ((s.sticky rRPL_TAP_STAT 8).setIr 0xFF 0) := by
  simp only [List.mem_cons, List.not_mem_nil, or_false] at hc
  obtain rfl | rfl | rfl | rfl := hc
  · exact congrArg Host.Outcome.next (loadGated_refused hoff)
  · exact congrArg Host.Outcome.next (loadGated_refused hoff)
  · exact congrArg Host.Outcome.next (loadGated_refused hoff)
  · exact congrArg Host.Outcome.next (loadGated_refused hoff)

end

/-- Settles O58: the instructions that are always there, and then the gated ones by TAP_EN. -/
theorem testAccess : Obligations.TestAccess := fun s t =>
  ⟨congrArg Host.Outcome.next (if_neg (by decide)), rfl, completes_samplePreload,
    fun hen => ⟨congrArg Host.Outcome.next (loadGated_enabled hen), congrArg Host.Outcome.next (loadGated_enabled hen),
      congrArg Host.Outcome.next (loadGated_enabled hen), completes_scan hen, completes_debug_resume hen, exec_debug_halt hen,
      fun _ _ _ _ _ _ hv hrange hspad hu => ⟨exec_mem_inRange hen hv hrange hspad hu true,
        exec_mem_inRange hen hv hrange hspad hu false⟩,
      fun _ => congrArg Host.Outcome.next (if_pos hen)⟩,
    fun hoff => ⟨exec_gated_refused hoff, fun _ => congrArg Host.Outcome.next (if_neg (by simp [hoff]))⟩⟩

end Sys2Proof.Machine
end
